-- ==== Sys2Proof/Word.lean ====
section
/-!
DEFINITION. The words of the CZ40: a byte, a 32-bit element word, a 64-bit register or command word, and the
plainest arithmetic on natural numbers that stand for them (bit fields by division, rotation, two's complement).
-/
namespace Sys2Proof

/-- One byte. -/
abbrev Byte := BitVec 8
/-- A 32-bit word: an FP32 element, a tile-register word, a check word. -/
abbrev Word32 := BitVec 32
/-- A 64-bit word: a register (R18) or a command word (R153). -/
abbrev Word64 := BitVec 64

/-- The unsigned field of `w` bits that begins at bit `lo` of `n`. -/
def bits (n lo w : Nat) : Nat := n / 2 ^ lo % 2 ^ w

/-- The field [hi:lo] of a 64-bit word, as a number. -/
def fieldOf (x : Word64) (hi lo : Nat) : Nat := bits x.toNat lo (hi + 1 - lo)

/-- Whether bit `i` of `n` is 1. -/
def bitOf (n i : Nat) : Bool := n / 2 ^ i % 2 == 1

/-- `ceil (a / b)`. -/
def ceilDiv (a b : Nat) : Nat := (a + b - 1) / b

/-- 2^48, the size of a partition's address space (R30). -/
def two48 : Nat := 0x1000000000000

/-- The 32-bit left rotation of R129. -/
def rotl32 (x : Word32) (n : Nat) : Word32 := x.rotateLeft n

/-- `n` little-endian bytes of a number. -/
def leBytes : Nat → Nat → List Byte
  | 0, _ => []
  | k + 1, n => BitVec.ofNat 8 n :: leBytes k (n / 256)

/-- The number whose little-endian bytes these are. -/
def leNat : List Byte → Nat
  | [] => 0
  | b :: bs => b.toNat + 256 * leNat bs

end Sys2Proof
end

