-- ==== Sys2Proof/Syntax.lean ====
section
/-!
DEFINITION. The commands of the CZ40 block: one constructor of `Instr` per row of spec/opcode_table.json, in the
table's order, with the data each row carries. The table gives its rows no operand bits, so the operands are this
model's (log entry 1): the numbers that say WHICH unit the row concerns (`p` a partition 0–15, `c` a logical core,
`a` an array, `i` a port or an owned pseudo-channel, `n` a function), the words that arrive from outside, and the
outcomes that the surroundings decide (whether a residue mismatched, whether a tag verified, how many cycles a unit
waited). Everything else is computed by the meaning from the state.
-/
namespace Sys2Proof

/-- Who issues a register access (R34, R50, R162, R271, R343). -/
inductive Agent where
  | flint (core : Nat)
  | bedrock
  | pf16
deriving DecidableEq, Repr

/-- The register space an access names: a partition's registers (R33), the management space of PF16 (R439) or the
queue window of PF*n* (R438). -/
inductive RegSpace where
  | part (p : Nat)
  | mgmt
  | pfWin (n : Nat)
deriving DecidableEq, Repr

/-- A code word in which a SEC-DED code finds an error when a command reads it (R108, R167): its place (`pos`: the byte offset in the
tile-memory window, or 32768 × array + word number in the accumulator), the code syndrome, and whether it is corrected. A word
that the command does not read has no effect. -/
structure EccWord where
  pos : Nat
  synd : Nat
  fixed : Bool
deriving DecidableEq, Repr

/-- The errors of a stored pair as a request or a scrub reads it (R243–R245): the symbols that differ from what was written, by place
(0–63 the bytes of the pair, 64–66 its check symbols), each with the difference. -/
abbrev PairErrors := List (Nat × Byte)

/-- A residue or duplicate comparison (R110, R113, R135, R297): it matches, or it does not, with the residue found (for Mica the
number of failing lanes) and the place: the vector and column of a check group as 256 × vector + column, the lane of a chunk, the
lowest failing lane of Mica. -/
inductive Residue where
  | agree
  | mismatch (found place : Nat)
deriving DecidableEq, Repr

/-- An identity block of R261. -/
structure Identity where
  serial : Nat
  cell : Nat
  pos : Nat
  port : Nat
  major : Nat
  minor : Nat
  digest : Nat
  role : Nat
deriving DecidableEq, Repr

/-- A flit of R266, with the outcome of its FEC decoding and link CRC. -/
structure Flit where
  typ : Nat
  seq : Nat
  ack : Nat
  nak : Bool
  vc : Bool
  som : Bool
  eom : Bool
  len : Nat
  cr0 : Nat
  cr1 : Nat
  payload : List Byte
  fecOk : Bool
  fecCorrected : Nat
  crc : Word32
deriving DecidableEq, Repr

/-- A transport message of R274, R275: header fields, whole blocks with their carried check words, and whether its
GCM tag verifies under the stream's key (R277). The header's fields stand for what the message says: a grant has 256 × its blocks in
OFFSET, an acknowledgement the SEQ it acknowledges in SEQ (log entry 82), the dispatch unit's messages what log entry 81 says. -/
structure Msg where
  dhandle : Nat
  epoch : Nat
  mtype : Nat
  seq : Nat
  nblk : Nat
  offset : Nat
  tstamp : Nat
  dcell : Nat
  dpos : Nat
  dpart : Nat
  scell : Nat
  spos : Nat
  spart : Nat
  blocks : List (List Byte)
  checks : List Word32
  tagOk : Bool
deriving DecidableEq, Repr

/-- A token of the dispatch unit (R214): its round, TOKEN, choice index, sender rank and gate, its expert, whether it was spilled, its spill
expert, and its row. -/
structure TokenMsg where
  rid : Nat
  token : Nat
  choice : Nat
  sender : Nat
  gate : Word32
  expert : Nat
  spilled : Bool
  spillx : Nat
  row : List Byte
deriving DecidableEq, Repr

/-- A join block of R308. -/
structure JoinBlock where
  group : Nat
  epoch : Nat
  n : Nat
  radix : Nat
  rank : Nat
deriving DecidableEq, Repr

/-- A status block of R300. `fail` says that the operation has failed at its sender (R301; log entry 86). -/
structure StatusBlock where
  seq : Nat
  op : Nat
  rop : Nat
  fmt : Nat
  count : Nat
  flag : Bool
  fail : Bool
deriving DecidableEq, Repr

/-- A vote block of R322. -/
structure VoteBlock where
  step : Nat
  attempt : Nat
  ndet : Bool
  rank : Nat
  tag : Nat
deriving DecidableEq, Repr

/-- An abort block of R383. -/
structure AbortBlock where
  job : Nat
  mepoch : Nat
  wave : Nat
  cause : Nat
  unit : Nat
  ocell : Nat
  opos : Nat
  tstamp : Nat
deriving DecidableEq, Repr

/-- One entry of a quorum certificate (R399). -/
structure CertEntry where
  serial : Nat
  cell : Nat
  pos : Nat
  spare : Bool
  spareSerial : Nat
  sparePos : Nat
deriving DecidableEq, Repr

/-- A quorum certificate of R399, with, for each signature, whether it verifies (R401), and whether every other byte
is 0. -/
structure Cert where
  magic : Nat
  version : Nat
  nexp : Nat
  nsig : Nat
  job : Nat
  mepoch : Nat
  entries : List CertEntry
  rmap : Nat
  signers : List Nat
  sigOk : List Bool
  othersZero : Bool
deriving DecidableEq, Repr

/-- A submission entry after opening (R441–R443): its SEQ, whether its tag verifies, and the command words. -/
structure Submission where
  seq : Nat
  tagOk : Bool
  op : Nat
  tag : Nat
  handle : Nat
  haddr : Nat
  paddr : Nat
  units : Nat
  reservedZero : Bool
deriving DecidableEq, Repr

/-- The fields of a PROVISION message (R419). -/
structure Provision where
  job : Nat
  rank : Nat
  modules : Nat
  rmap : Nat
  pdig : Nat
  anonce : Nat
  secret : Nat
  mepoch : Nat
  awave : Nat
  othersZero : Bool
deriving DecidableEq, Repr

/-- A unit, or a checker in one, that failed a field test (R334, R335): the phase and the number of the test, and the unit's block class and
instance (R24). -/
structure FtFail where
  phase : Nat
  test : Nat
  cls : Nat
  inst : Nat
deriving DecidableEq, Repr

/-- A further job stream (R281, R423): its KIND, its peer, its standing receive window (of no blocks where it has none) and the blocks of
the peer's. -/
structure JobStream where
  kind : Nat
  peerKind : Nat
  peerId : Nat
  winBase : Nat
  winLen : Nat
  credit : Nat
deriving DecidableEq, Repr

/-- What the job's rank map and replica map say of a partition at its admission (R344, R353, R381 and chapter 11), and where Bedrock
reserves the mirror it holds: the job's modules as (serial, cell, position), its partition count, the job ranks of the replicas and
the own index among them, the job ranks of the partition's buddy and of the partition it holds a mirror for, that mirror's header
address and its state blocks; and the further job streams Bedrock opens (R423). -/
structure JobMap where
  modules : List (Nat × Nat × Nat)
  parts : Nat
  replicas : List Nat
  own : Nat
  buddyRank : Nat
  sourceRank : Nat
  heldBase : Nat
  heldBlocks : Nat
  streams : List JobStream
deriving DecidableEq, Repr

/-- A firmware image as the boot ROM judges it (R468). -/
structure FwImage where
  sigOk : Bool
  svn : Nat
  schemaLo : Nat
  schemaHi : Nat
  bedrock : Nat
  engines : Nat
deriving DecidableEq, Repr

/-- A configuration record: the basic-level fields of every chapter (R21, R466). -/
structure CfgRecord where
  schema : Nat := 1
  cell : Nat := 0
  pos : Nat := 0
  quota : List (Nat × Nat) := []
  clkEn : List (Nat × Nat) := []
  retenant : List Nat := []
  garnetGating : Bool := true
  garnetIdleOff : Nat := 1024
  garnetFast : Bool := false
  micaIdleOff : Nat := 1024
  moverChannels : Nat := 8
  collectiveFast : Bool := false
  collectiveChannels : Nat := 8
  dispatchFast : Bool := false
  dispatchChannels : Nat := 4
  serving : Bool := false
  kvTokenBytes : Nat := 0
  kvBase : Nat := 0
  kvSeqs : Nat := 0
  memRegulation : Nat := 1
  memPortRates : List (Nat × List Nat) := []
  memIsolation : Bool := false
  scrubHours : Nat := 24
  strataRadix : Nat := 32
  strataMirror : Bool := true
  ckptNarrow : Bool := true
  ckptOnce : Bool := true
  engineMs : Nat := 10
  flintMs : Nat := 1000
  stepS : Nat := 600
  voteMs : Nat := 100
  bundleMap : List (Nat × Nat × Nat) := []
  peerSerials : List (Nat × Nat) := []
  protoMajor : Nat := 1
  protoMinor : Nat := 0
  rto : Nat := 100
  udpPort : Nat := 48350
  dscp : Nat := 0
  vlanEn : Bool := false
  vid : Nat := 0
  pcp : Nat := 0
  planePrefix : List (Nat × Nat) := []
  nextHopMac : List (Nat × Nat) := []
  servicePrefix : Nat := 0
  storageEndpoints : List (Nat × Nat) := []
  storageOnUplinks : Bool := false
  quorumN : Nat := 0
  quorumK : Nat := 2
  packageLimitW : Option Nat := none
deriving DecidableEq, Repr

/-- What an Ethernet frame is (R255): an IPv6 UDP packet with its destination address and port, whether its checksum verifies, and the
transport message it carries; a Neighbor Solicitation with its target address; or anything else. -/
inductive Frame where
  | udp (dst port : Nat) (checksumOk : Bool) (m : Msg)
  | neighborSolicitation (target : Nat)
  | other
deriving DecidableEq, Repr

/-- A limit of the power governor (R483). -/
inductive LimitKind where
  | power
  | current
  | temperature
deriving DecidableEq, Repr

/-- A clock source that the monitor watches (R476). -/
inductive ClockSource where
  | crystal
  | root
  | refclk
  | flash
  | ioPll (k : Nat)
  | stackPll (s : Nat)
deriving DecidableEq, Repr

/-- Which sensor crosses a thermal level (R496): a compute or I/O die by its site, or a stack. -/
structure Sensor where
  site : Nat
  stack : Bool
  temp : Nat
deriving DecidableEq, Repr

/-- Who makes a memory request (R236): a mover channel, the Flint access path of a core, Strata or Assay. -/
inductive Requester where
  | channel (k : Nat)
  | flint (c : Nat)
  | strata
  | assay
deriving DecidableEq, Repr

/-- A request at a pseudo-channel controller (R236, R237): its requester, pseudo-channel offset, sectors of 32 bytes and direction. -/
structure MemReq where
  who : Requester
  off : Nat
  sectors : Nat
  write : Bool
deriving DecidableEq, Repr

/-- The commands, in the order of spec/opcode_table.json. -/
inductive Instr where
  | registerWrite (agent : Agent) (sp : RegSpace) (off size : Nat) (val : Word64)
  | clockEnableWrite (agent : Agent) (p : Nat) (val : Word64)
  | partitionResetWarm (agent : Agent) (p : Nat)
  | partitionResetRetenant (agent : Agent) (p : Nat)
  | resetStageDone (p : Nat)
  | resetStageWatchdog (p : Nat)
  | coldResetDone (p : Nat)
  | coldResetWatchdog (p : Nat)
  | contextWaitResume (n : Nat)
  | migrationDeferred (idx : Nat)
  | flintBaseInstruction (p c cycles : Nat)
  | flintLoad (p c cycles : Nat) (ecc : List EccWord)
  | flintStore (p c cycles : Nat) (ecc : List EccWord)
  | flintAccessComplete (p c cycles : Nat)
  | ecall (p c : Nat)
  | ebreak (p c : Nat)
  | tque (p c : Nat)
  | tqueResume (p c stalled : Nat)
  | twait (p c : Nat)
  | twaitResume (p c stalled : Nat)
  | sumrd (p c : Nat)
  | sumrdResume (p c stalled : Nat)
  | mode (p c : Nat)
  | modeSwitch (p c stalled : Nat)
  | seedld (p c : Nat)
  | stepb (p c : Nat)
  | stepbReport (p c stalled : Nat)
  | queueErrClear (agent : Agent) (p c eng : Nat)
  | garnetPass (p c seq stalled : Nat) (ecc : List EccWord)
  | checkGroupCommit (p c a : Nat) (res : Residue) (acc : List EccWord)
  | checkGroupRecompute (p c a : Nat) (res : Residue) (acc ecc : List EccWord)
  | garnetStore (p c seq stalled : Nat) (order : List Nat) (acc ecc : List EccWord)
  | garnetStoreComplete (p c seq busy : Nat) (ecc : List EccWord)
  | arrayIdleGate (p c a : Nat)
  | arrayWakeDone (p c waited : Nat)
  | add (p c : Nat)
  | sub (p c : Nat)
  | mul (p c : Nat)
  | fma (p c : Nat)
  | max (p c : Nat)
  | min (p c : Nat)
  | abs (p c : Nat)
  | neg (p c : Nat)
  | div (p c : Nat)
  | rcp (p c : Nat)
  | sqrt (p c : Nat)
  | cmplt (p c : Nat)
  | cmple (p c : Nat)
  | cmpeq (p c : Nat)
  | sel (p c : Nat)
  | exp (p c : Nat)
  | exps (p c : Nat)
  | log (p c : Nat)
  | rsqrt (p c : Nat)
  | tanh (p c : Nat)
  | erf (p c : Nat)
  | sigmoid (p c : Nat)
  | cvt (p c : Nat)
  | widen (p c : Nat)
  | rndu (p c : Nat)
  | rndb (p c : Nat)
  | rndn (p c : Nat)
  | gumbel (p c : Nat)
  | rawbits (p c : Nat)
  | rsum (p c : Nat)
  | rmax (p c : Nat)
  | rmin (p c : Nat)
  | rcnt (p c : Nat)
  | rargmax (p c : Nat)
  | csum (p c : Nat)
  | cmax (p c : Nat)
  | cmin (p c : Nat)
  | ccnt (p c : Nat)
  | cargmax (p c : Nat)
  | tld (p c : Nat) (ecc : List EccWord)
  | tst (p c : Nat) (ecc : List EccWord)
  | trans (p c : Nat)
  | micaCommit (p c waited : Nat) (res : Residue)
  | micaRetry (p c : Nat) (res : Residue)
  | micaIdleGate (p c : Nat)
  | moverCopy (p c seq : Nat) (ecc : List EccWord)
  | moverSegmentStart (p : Nat) (ecc : List EccWord)
  | moverSegmentDone (p ch : Nat)
  | dispatchRoundOpen (agent : Agent) (p : Nat)
  | returnRoundOpen (agent : Agent) (p : Nat)
  | tokenSend (p : Nat)
  | tokenArrive (p : Nat) (m : Msg)
  | tokenDeliver (p entry : Nat)
  | endMarkerArrive (p : Nat) (m : Msg)
  | spillEndMarkerArrive (p : Nat) (m : Msg)
  | returnRowArrive (p : Nat) (m : Msg)
  | memRequestGrant (p i : Nat) (arrived : List MemReq) (cycles : Nat) (errs : List (Nat × PairErrors))
  | patrolScrub (p i off onDie : Nat) (errs : PairErrors)
  | channelTrainingDone (stack chan repaired0 repaired1 : Nat)
  | channelTrainingTimeout (stack chan : Nat)
  | intervalCalibration (stack chan : Nat)
  | parityError (stack chan half cmd : Nat) (reissueOk : Bool)
  | channelRetrainDone (stack chan : Nat) (ok : Bool)
  | portEnable (i : Nat)
  | pmdTrained (i : Nat)
  | identityReceive (i : Nat) (f : Flit)
  | acceptReceive (i : Nat) (f : Flit)
  | refuseReceive (i : Nat) (f : Flit)
  | trainingTimeout (i : Nat)
  | trainingRestart (i : Nat)
  | zlkCtrlRetrain (agent : Agent) (i : Nat)
  | zlkCtrlDisable (agent : Agent) (i : Nat) (hold : Bool)
  | zlkCtrlUnretire (agent : Agent) (i : Nat)
  | flitReceive (i : Nat) (f : Flit)
  | nakReceive (i ack : Nat)
  | retrainDone (i : Nat) (lane0Ok lane1Ok : Bool)
  | frameReceive (i : Nat) (fr : Frame)
  | messageSend (idx : Nat)
  | dataMessageReceive (m : Msg)
  | grantReceive (m : Msg)
  | ackReceive (m : Msg)
  | retransmitTimeout (idx seq : Nat)
  | messageAckTimeout (idx : Nat)
  | collectiveOpen (agent : Agent) (p q : Nat)
  | collectiveClose (agent : Agent) (p q : Nat)
  | joinBlockReceive (p q : Nat) (j : JoinBlock)
  | joinTimeout (p q : Nat)
  | collectiveTailWrite (agent : Agent) (p q tail : Nat)
  | allreduce (p q : Nat)
  | reduce (p q : Nat)
  | broadcast (p q : Nat)
  | reduceScatter (p q : Nat)
  | allgather (p q : Nat)
  | barrier (p q : Nat)
  | chunkCombine (p q seq level base chunk : Nat) (up : Bool) (addrs : List Nat) (stat : List StatusBlock) (order : List Nat)
      (res retry : Residue)
  | collectiveComplete (p q : Nat) (status : List StatusBlock)
  | resultTag (agent : Agent) (p : Nat)
  | tagComplete (p : Nat)
  | updateTagComplete (p : Nat)
  | voteBlockReceive (p : Nat) (b : VoteBlock)
  | voteTimeout (p : Nat)
  | recordFlushTimeout
  | fieldTestStart (p : Nat)
  | fieldTestDone (p : Nat) (fails : List FtFail)
  | boundaryBarrierEnter (p : Nat)
  | updateBegin (p c : Nat) (val : Word64)
  | updateDecision (p : Nat)
  | extentCopyDone (p ext : Nat)
  | mirroredBarrierEnter (p : Nat)
  | localReplay (p ctxIdx seq : Nat)
  | snap (agent : Agent) (p : Nat)
  | snapshotStart (p : Nat)
  | snapshotDone (p : Nat)
  | suspend (agent : Agent) (p : Nat) (stop : Bool)
  | suspendImageStart (p : Nat)
  | suspendImageDone (p : Nat)
  | restore (p : Nat) (image : Bool) (header writer : List Byte) (blocks : List (List Byte)) (checks : List Word32) (tagOk : Bool)
  | mirrorPullDone (p : Nat) (header : List Byte) (blocks : List (List Byte)) (checks : List Word32)
  | engineWatchdog (p unit queue seq : Nat)
  | flintWatchdog (p c : Nat)
  | stepWatchdog (p : Nat)
  | abortBlockReceive (b : AbortBlock) (fromCellPeer sealed : Bool)
  | livenessSend
  | mgmtWatchdogExpire
  | certificateReceive (viaPf16 fromCellPeer sealed : Bool) (cert : Cert)
  | getVersion (n : Nat)
  | getCapabilities (n : Nat)
  | negotiateAlgorithms (n : Nat) (supported : Bool)
  | getDigests (n : Nat)
  | getCertificate (n slot off len : Nat)
  | challenge (n slot nonce : Nat)
  | getMeasurements (n index : Nat)
  | keyExchange (n slot : Nat)
  | finish (n sess : Nat) (macOk : Bool)
  | heartbeat (n sess : Nat)
  | keyUpdate (n sess : Nat)
  | endSession (n sess : Nat)
  | spdmUnsupported (n code : Nat)
  | heartbeatTimeout (n sess : Nat)
  | claim (n key : Nat)
  | claimProve (n : Nat) (sigOk : Bool)
  | provision (n : Nat) (pv : Provision)
  | release (n : Nat)
  | fwBegin (sess : Nat)
  | fwData (sess off : Nat) (data : List Byte)
  | fwCommit (sess : Nat) (image : FwImage)
  | cfgCommit (sess len : Nat) (rec : CfgRecord)
  | logRead (sess region off len : Nat)
  | entropyHealthFail (test : Nat)
  | drbgReseed
  | flr (n : Nat)
  | linkReset
  | perstDeassert (speed width : Nat)
  | submissionDoorbell (n pos : Nat)
  | submissionFetch (n : Nat) (sub : Submission)
  | admitJob (n idx : Nat) (job : JobMap)
  | write (n idx : Nat)
  | read (n idx : Nat)
  | rebind (n idx : Nat)
  | abort (n idx : Nat)
  | fieldTest (n idx : Nat)
  | unitTransfer (idx : Nat) (data : List Byte) (checks : List Word32) (sealOk : Bool)
  | completionPost (n : Nat)
  | completionDoorbell (n pos : Nat)
  | rebindTimeout (idx : Nat)
  | mgmtWarmReset (p : Nat)
  | mgmtRetenantReset (p : Nat)
  | mgmtFieldTest (p : Nat)
  | mgmtCertificate (haddr : Nat) (cert : Cert)
  | i3cEntdaa (addr : Nat)
  | pldmBaseDiscovery (cmd : Nat)
  | pldmSensorRead (sensor value : Nat)
  | platformEventRead
  | powerCycleRepeat
  | powerUp (vin : Nat)
  | crystalStable
  | crystalTimeout
  | rootPllLock
  | bootChoice
  | clockMonitorWindow (dead : List ClockSource) (edges : Nat)
  | clockSwitchRequest (agent : Agent) (sel : Nat)
  | clockSwitchDone (sw : Nat)
  | clockSwitchStuck (sw : Nat)
  | sw0Force (agent : Agent)
  | timebaseDiscipline (offset : Int) (ppm : Int) (synced : Bool)
  | limitExceeded (d : Nat) (k : LimitKind)
  | limitCleared (d : Nat) (k : LimitKind)
  | governorGrant (newSlot : Bool)
  | dieWakeGrant (d : Nat)
  | flashOperationDone (ok : Bool)
  | undervoltageTrip (vin : Nat)
  | inputCutoff (vin : Nat)
  | holdupExpire
  | thermalWarning (sn : Sensor)
  | thermalTrip (sn : Sensor)
  | powerDown
  | moduleReset
  | mgtResetRelease
  | inputVoltageReturn (vin : Nat)
  | thermalTripUnlatch
  | sensorsBelow85c
  | ethernetLinkChange (i : Nat) (up : Bool)
  | doubledRefreshChange (stack temp : Nat)
  | ideKmRequest (sess : Nat) (activate : Bool)
  | mctpEidAssign (eid : Nat)
  | summaryCopyRefresh
deriving DecidableEq, Repr

end Sys2Proof
end

