-- ==== Sys2Proof/Machine/Sha3.lean ====
section
/-!
DEFINITION. SHA3-256 of FIPS 202, as R319 and R421 use it: the Keccak permutation over 25 lanes of 64 bits, rate 136
bytes, domain bits 01.
-/
namespace Sys2Proof.Machine

/-- The state of the permutation: 25 lanes, lane x + 5 y. -/
abbrev Lanes := List Word64

/-- Lane `i`. -/
def lane (a : Lanes) (i : Nat) : Word64 := a.getD i 0#64

/-- The rotation of each lane. -/
def keccakRot : List Nat :=
  [0, 1, 62, 28, 27, 36, 44, 6, 55, 20, 3, 10, 43, 25, 39, 41, 45, 15, 21, 8, 18, 2, 61, 56, 14]

/-- The round constants. -/
def keccakRC : List Word64 :=
  [0x0000000000000001#64, 0x0000000000008082#64, 0x800000000000808A#64, 0x8000000080008000#64,
   0x000000000000808B#64, 0x0000000080000001#64, 0x8000000080008081#64, 0x8000000000008009#64,
   0x000000000000008A#64, 0x0000000000000088#64, 0x0000000080008009#64, 0x000000008000000A#64,
   0x000000008000808B#64, 0x800000000000008B#64, 0x8000000000008089#64, 0x8000000000008003#64,
   0x8000000000008002#64, 0x8000000000000080#64, 0x000000000000800A#64, 0x800000008000000A#64,
   0x8000000080008081#64, 0x8000000000008080#64, 0x0000000080000001#64, 0x8000000080008008#64]

/-- The parity of column x. -/
def keccakC (a : Lanes) (x : Nat) : Word64 :=
  lane a x ^^^ lane a (x + 5) ^^^ lane a (x + 10) ^^^ lane a (x + 15) ^^^ lane a (x + 20)

/-- One round. -/
def keccakRound (a : Lanes) (rc : Word64) : Lanes :=
  let c := (List.range 5).map (keccakC a)
  let d := (List.range 5).map (fun x => lane c ((x + 4) % 5) ^^^ (lane c ((x + 1) % 5)).rotateLeft 1)
  let t := (List.range 25).map (fun i => (lane a i ^^^ lane d (i % 5)).rotateLeft (keccakRot.getD i 0))
  -- lane (x, y) moves to (y, 2x + 3y): the lane that arrives at (x, y) comes from (x + 3y, x)
  let b := (List.range 25).map (fun i => lane t ((i % 5 + 3 * (i / 5)) % 5 + 5 * (i % 5)))
  (List.range 25).map (fun i =>
    let x := i % 5
    let y := i / 5 * 5
    let v := lane b i ^^^ (~~~ (lane b ((x + 1) % 5 + y)) &&& lane b ((x + 2) % 5 + y))
    if i = 0 then v ^^^ rc else v)

/-- The permutation. -/
def keccakF (a : Lanes) : Lanes := keccakRC.foldl keccakRound a

/-- `n` lanes from bytes. -/
def lanesOf : Nat → List Byte → Lanes
  | 0, _ => []
  | n + 1, bs => BitVec.ofNat 64 (leNat (bs.take 8)) :: lanesOf n (bs.drop 8)

/-- Absorb one 136-byte block. -/
def absorb (a : Lanes) (bs : List Byte) : Lanes :=
  let l := lanesOf 17 bs
  keccakF ((List.range 25).map (fun i => lane a i ^^^ lane l i))

/-- Absorb `n` whole blocks. -/
def absorbAll : Nat → Lanes → List Byte → Lanes
  | 0, a, _ => a
  | n + 1, a, bs => absorbAll n (absorb a (bs.take 136)) (bs.drop 136)

/-- The padding to whole blocks: 0x06 … 0x80. -/
def sha3Pad (len : Nat) : List Byte :=
  let k := 136 - len % 136
  if k = 1 then [0x86#8] else 0x06#8 :: (List.replicate (k - 2) 0#8 ++ [0x80#8])

/-- SHA3-256: 32 bytes. -/
def sha3_256 (msg : List Byte) : List Byte :=
  let m := msg ++ sha3Pad msg.length
  ((absorbAll (m.length / 136) (List.replicate 25 0#64) m).take 4).flatMap (fun w => leBytes 8 w.toNat)

end Sys2Proof.Machine
end

