-- ==== Sys2Proof/Machine/Aes.lean ====
section
/-!
DEFINITION. The ciphers the spec names: AES-256 (FIPS 197), AES-256-XTS (IEEE 1619) for stacked memory (R196, R248), AES-256-GCM
(SP 800-38D) for streams and host units (R276, R445), HKDF (RFC 5869) over SHA3-384 for their keys (R411), and the Reed–Solomon
symbol code of a pair (R243).
-/
namespace Sys2Proof.Machine

/-! ## GF(2^8) -/

/-- Multiply by x modulo x^8 + `poly`. -/
def gfX (poly a : Byte) : Byte := (a <<< 1) ^^^ (if a.msb then poly else 0#8)

/-- The product of `a` with the low `n` bits of `b`. -/
def gfMulN (poly : Byte) : Nat → Byte → Byte → Byte
  | 0, _, _ => 0#8
  | n + 1, a, b => (if b.getLsbD 0 then a else 0#8) ^^^ gfMulN poly n (gfX poly a) (b >>> 1)

/-- The product in GF(2^8) with the field polynomial x^8 + `poly`. -/
def gfMul (poly a b : Byte) : Byte := gfMulN poly 8 a b

/-- The power `a`^`n`. -/
def gfPow (poly a : Byte) : Nat → Byte
  | 0 => 1#8
  | n + 1 => gfMul poly a (gfPow poly a n)

/-! ## AES-256 -/

/-- The product in the field of AES. -/
def aesMul (a b : Byte) : Byte := gfMul 0x1B#8 a b

/-- The inverse in the field of AES, 0 for 0. -/
def aesInv (a : Byte) : Byte :=
  let a2 := aesMul a a
  let a4 := aesMul a2 a2
  let a8 := aesMul a4 a4
  let a16 := aesMul a8 a8
  let a32 := aesMul a16 a16
  let a64 := aesMul a32 a32
  let a128 := aesMul a64 a64
  aesMul a2 (aesMul a4 (aesMul a8 (aesMul a16 (aesMul a32 (aesMul a64 a128)))))

/-- SubBytes of one byte. -/
def subByte (a : Byte) : Byte :=
  let b := aesInv a
  b ^^^ b.rotateLeft 1 ^^^ b.rotateLeft 2 ^^^ b.rotateLeft 3 ^^^ b.rotateLeft 4 ^^^ 0x63#8

/-- The bitwise sum of two byte strings. -/
def xorBytes (a b : List Byte) : List Byte := List.zipWith (· ^^^ ·) a b

/-- ShiftRows: byte r + 4 c comes from column c + r. -/
def shiftRows (s : List Byte) : List Byte := (List.range 16).map (fun i => s.getD (i % 4 + 4 * ((i / 4 + i % 4) % 4)) 0#8)

/-- MixColumns. -/
def mixColumns (s : List Byte) : List Byte :=
  (List.range 16).map (fun i =>
    let b (k : Nat) : Byte := s.getD (i / 4 * 4 + (i % 4 + k) % 4) 0#8
    aesMul 2#8 (b 0) ^^^ aesMul 3#8 (b 1) ^^^ b 2 ^^^ b 3)

/-- One more word of the key schedule: `l` holds the words so far, newest first. -/
def nextWord (i : Nat) (l : List (List Byte)) : List Byte :=
  let t := l.headD []
  let t :=
    if i % 8 = 0 then xorBytes ((t.drop 1 ++ t.take 1).map subByte) [gfPow 0x1B#8 2#8 (i / 8 - 1), 0#8, 0#8, 0#8]
    else if i % 8 = 4 then t.map subByte else t
  xorBytes (l.getD 7 []) t

/-- The key schedule after word `i`. -/
def expandFrom (i : Nat) (l : List (List Byte)) : Nat → List (List Byte)
  | 0 => l
  | n + 1 => expandFrom (i + 1) (nextWord i l :: l) n

/-- The fifteen round keys of a 32-byte key. -/
def roundKeys (key : List Byte) : List (List Byte) :=
  let ws := (expandFrom 8 ((List.range 8).map (fun i => (key.drop (4 * i)).take 4)).reverse 52).reverse
  (List.range 15).map (fun r => ((ws.drop (4 * r)).take 4).flatten)

/-- The rounds after the first key addition; the last has no MixColumns. -/
def aesRounds : List (List Byte) → List Byte → List Byte
  | [], s => s
  | [k], s => xorBytes (shiftRows (s.map subByte)) k
  | k :: ks, s => aesRounds ks (xorBytes (mixColumns (shiftRows (s.map subByte))) k)

/-- AES-256 of a 16-byte block under round keys. -/
def aesBlock (rk : List (List Byte)) (b : List Byte) : List Byte := aesRounds (rk.drop 1) (xorBytes b (rk.headD []))

/-! ## AES-256-XTS (R196, R248) -/

/-- The tweak of the next 16-byte block: multiplied by α, byte 0 lowest. -/
def xtsNext (t : Nat) : Nat := Nat.xor (t * 2 % 2 ^ 128) (if t < 2 ^ 127 then 0 else 0x87)

/-- The 16-byte blocks of a data unit, each at its own tweak position. -/
def xtsBlocks (rk : List (List Byte)) : Nat → Nat → List Byte → List Byte
  | 0, _, _ => []
  | n + 1, t, bs =>
    let tw := leBytes 16 t
    xorBytes (aesBlock rk (xorBytes (bs.take 16) tw)) tw ++ xtsBlocks rk n (xtsNext t) (bs.drop 16)

/-- Encrypt a data unit of whole 16-byte blocks under a 64-byte key: the data key, then the tweak key. -/
def xtsEncrypt (key : List Byte) (tweak : Nat) (bs : List Byte) : List Byte :=
  let t := leNat (aesBlock (roundKeys ((key.drop 32).take 32)) (leBytes 16 tweak))
  xtsBlocks (roundKeys (key.take 32)) (bs.length / 16) t bs

/-! ## AES-256-GCM (R276, R445) -/

/-- A block as GCM numbers it: byte 0 highest. -/
def beNat (bs : List Byte) : Nat := bs.foldl (fun n b => n * 256 + b.toNat) 0
def beBytes (n v : Nat) : List Byte := (leBytes n v).reverse

/-- The product in the field of GHASH, bit 0 of an element being its highest; `i` counts the bits of `x` that are left. -/
def ghashMul (x : Nat) : Nat → Nat → Nat → Nat
  | 0, _, z => z
  | i + 1, v, z =>
    ghashMul x i (Nat.xor (v / 2) (if v % 2 = 1 then 0xE1 * 2 ^ 120 else 0)) (if x / 2 ^ i % 2 = 1 then Nat.xor z v else z)

/-- GHASH over `n` blocks. -/
def ghash (h : Nat) : Nat → Nat → List Byte → Nat
  | 0, y, _ => y
  | n + 1, y, bs => ghash h n (ghashMul (Nat.xor y (beNat (bs.take 16))) 128 h 0) (bs.drop 16)

/-- Bytes padded with zeros to whole 16-byte blocks. -/
def pad16 (bs : List Byte) : List Byte := bs ++ List.replicate ((16 - bs.length % 16) % 16) 0#8

/-- Counter mode from counter block `iv`, `c`. -/
def gcmCtr (rk : List (List Byte)) (iv : List Byte) : Nat → Nat → List Byte → List Byte
  | 0, _, _ => []
  | n + 1, c, bs => xorBytes (bs.take 16) (aesBlock rk (iv ++ beBytes 4 c)) ++ gcmCtr rk iv n (c + 1) (bs.drop 16)

/-- AES-256-GCM with a 12-byte IV: the ciphertext and the 16-byte tag. -/
def gcmSeal (key iv aad bs : List Byte) : List Byte × List Byte :=
  let rk := roundKeys key
  let c := gcmCtr rk iv ((bs.length + 15) / 16) 2 bs
  let x := pad16 aad ++ pad16 c ++ beBytes 8 (8 * aad.length) ++ beBytes 8 (8 * c.length)
  let y := ghash (beNat (aesBlock rk (List.replicate 16 0#8))) (x.length / 16) 0 x
  (c, xorBytes (beBytes 16 y) (aesBlock rk (iv ++ beBytes 4 1)))

/-! ## Keys (R411) -/

/-- SHA3-384: rate 104 bytes, 48 bytes of output. -/
def absorb104 (a : Lanes) (bs : List Byte) : Lanes :=
  let l := lanesOf 13 bs
  keccakF ((List.range 25).map (fun i => lane a i ^^^ lane l i))

/-- Absorb `n` whole blocks of 104 bytes. -/
def absorbAll104 : Nat → Lanes → List Byte → Lanes
  | 0, a, _ => a
  | n + 1, a, bs => absorbAll104 n (absorb104 a (bs.take 104)) (bs.drop 104)

/-- SHA3-384. -/
def sha3_384 (msg : List Byte) : List Byte :=
  let k := 104 - msg.length % 104
  let m := msg ++ (if k = 1 then [0x86#8] else 0x06#8 :: (List.replicate (k - 2) 0#8 ++ [0x80#8]))
  ((absorbAll104 (m.length / 104) (List.replicate 25 0#64) m).take 6).flatMap (fun w => leBytes 8 w.toNat)

/-- HMAC-SHA3-384 for a key of at most 104 bytes. -/
def hmac384 (key msg : List Byte) : List Byte :=
  let k := key ++ List.replicate (104 - key.length) 0#8
  sha3_384 (k.map (· ^^^ 0x5C#8) ++ sha3_384 (k.map (· ^^^ 0x36#8) ++ msg))

/-- HKDF (RFC 5869) of up to 48 bytes. -/
def hkdf (ikm salt info : List Byte) (n : Nat) : List Byte := (hmac384 (hmac384 salt ikm) (info ++ [1#8])).take n

/-- The bytes of an ASCII string. -/
def ascii (s : String) : List Byte := s.toList.map (fun c => BitVec.ofNat 8 c.toNat)

/-! ## The symbol code of a pair (R243) -/

/-- The syndromes of errors at code positions: `α` a primitive element of the field, `b` the exponent of the first root. -/
def rsSyndrome (poly α : Byte) (b j : Nat) (es : List (Nat × Byte)) : Byte :=
  es.foldl (fun z e => z ^^^ gfMul poly e.2 (gfPow poly α ((b + j) * e.1 % 255))) 0#8

/-- Solve for three check symbols at positions 0 to 2 that make the three syndromes of a word 0, from the syndromes of the rest of
the word: the remainder of the word modulo the generator polynomial, symbol by symbol from the highest position. -/
def rsRemainder (poly : Byte) (g : Byte × Byte × Byte) : List Byte → Byte × Byte × Byte → Byte × Byte × Byte
  | [], r => r
  | x :: xs, (r0, r1, r2) =>
    let f := x ^^^ r2
    rsRemainder poly g xs (gfMul poly f g.1, r0 ^^^ gfMul poly f g.2.1, r1 ^^^ gfMul poly f g.2.2)

/-- The coefficients (of x^0, x^1, x^2) of the generator polynomial with roots α^b, α^(b+1), α^(b+2). -/
def rsGenerator (poly α : Byte) (b : Nat) : Byte × Byte × Byte :=
  let r (j : Nat) : Byte := gfPow poly α ((b + j) % 255)
  (gfMul poly (r 0) (gfMul poly (r 1) (r 2)),
   gfMul poly (r 0) (r 1) ^^^ gfMul poly (r 0) (r 2) ^^^ gfMul poly (r 1) (r 2),
   r 0 ^^^ r 1 ^^^ r 2)

end Sys2Proof.Machine
end

