-- ==== Sys2Proof/Config.lean ====
section
/-!
DEFINITION. What the spec leaves open, as constants without a body: nothing can be proved of their values. Each is named
in a log entry. Everything else of the machine is computed.
-/
namespace Sys2Proof.Config

/-- The FP32 result bits of a transcendental operation of R122 on an FP32 operand that R124 gives no special value for:
a fixed function of its input bits (R123) whose bits the spec does not give; used where they lie within the bound of R122
(`Machine.bounded`). Log entry 6. -/
opaque expBits : Word32 → Word32
/-- As `expBits`, for LOG. -/
opaque logBits : Word32 → Word32
/-- As `expBits`, for RSQRT. -/
opaque rsqrtBits : Word32 → Word32
/-- As `expBits`, for TANH. -/
opaque tanhBits : Word32 → Word32
/-- As `expBits`, for ERF. -/
opaque erfBits : Word32 → Word32
/-- As `expBits`, for SIGMOID. -/
opaque sigmoidBits : Word32 → Word32
/-- Φ^-1(u) of RNDN by its 4,096-segment table (R132), as a function of floor(x / 256); used within its bound. Log entry 6. -/
opaque rndnBits : Nat → Word32
/-- ln u of GUMBEL with all 25 bits of u (R132), as a function of floor(x / 256); used within its bound. Log entry 6. -/
opaque lnU : Nat → Word32
/-- Which of the eight forms (modulo 8) of a linear feedback shift register with the feedback polynomial of R129 the generator has:
the spec gives the polynomial and not the form. Log entry 7. -/
opaque lfsrForm : Nat
/-- A random draw of Bedrock's DRBG (R412), by the machine's counter of free values. Log entry 5. -/
opaque randomDraw : Nat → Nat
/-- The key, by context and generation, of a stream that is no job's: of Bedrock's own contexts, whose derivation the spec does not
give. Log entry 9. -/
opaque bedrockKey : Nat → Nat → BitVec 256
/-- Which of the sixteen primitive polynomials of degree 8 (modulo 16) defines the field of the symbol code, and the exponent of its
first root (R243). Log entry 80. -/
opaque rsPoly : Nat
opaque rsFirst : Nat
/-- Whether, at a time, the bundle of cell position `q` towards position `pos` has an UP port, and whether `q` has an UP uplink (R283): facts
of other modules. Log entry 19. -/
opaque farUp : Nat → Nat → Nat → Bool
opaque farUplink : Nat → Nat → Bool
/-- The port of the peer that port `i` joins where the record gives a bundle map of its own (R258): the peer's record places it. Log
entry 17. -/
opaque peerPort : Nat → Nat
/-- The bytes of the FABRIC_COMMON section of a record (R261), from its protocol versions, UDP port, DSCP, VLAN settings and RTO. Log entry
27. -/
opaque fabricBytes : List Nat → List Byte
/-- The own MAC address of a global port and the hop limit of its packets (R284). Log entry 83. -/
opaque macAddr : Nat → Nat
opaque hopLimit : Byte
/-- The bytes a message of so many blocks takes in a slot of the replay ring (R360): the layout of a slot is internal to
Strata. Log entry 20. -/
opaque ringBytes : Nat → Nat
/-- Payload bytes of a STATE entry (R466) and of a BOOTHDR entry (R459): formats the spec fixes without their lengths. Log
entry 26. -/
opaque stateBytes : Nat
opaque boothdrBytes : Nat
/-- A byte of the flash that the spec does not give: of the payload of an entry whose format is not given, of a factory image, of an
entry whose writing was cut off, and of the SECTOR entries written at manufacture; by what it belongs to, its number and its place.
Log entry 28. -/
opaque flashByte : Nat → Nat → Nat → Byte
/-- SHA3-256 of the boot ROM and of a configuration record, measurements 1 and 5 of R415: the spec gives neither bytes. Log
entry 27. -/
opaque romDigest : Nat
opaque cfgDigest : CfgRecord → Nat
/-- A value the spec leaves open, by the machine's counter of free values. Log entry 5. -/
opaque freeValue : Nat → Word64

end Sys2Proof.Config
end

