-- ==== Sys2Proof/Machine/Table.lean ====
section
/-!
DEFINITION. A sparse table: the plain-data form of every large array of the machine (memory, registers, accumulators,
contexts …). It is a list of (key, entry) pairs with strictly rising keys, and it lists no entry equal to what an
unlisted key reads as (`d`), so that equal tables are equal data.
-/
namespace Sys2Proof.Machine

/-- A sparse table of `α` by number. -/
abbrev Tbl (α : Type) := List (Nat × α)

/-- The entry at key `k`; an unlisted key reads as `d`. -/
def Tbl.get {α : Type} (d : α) : Tbl α → Nat → α
  | [], _ => d
  | (j, v) :: t, k => if j = k then v else if k < j then d else Tbl.get d t k

/-- Write `v` at key `k`, keeping the canonical form: writing `d` removes the entry. -/
def Tbl.set {α : Type} [DecidableEq α] (d : α) : Tbl α → Nat → α → Tbl α
  | [], k, v => if v = d then [] else [(k, v)]
  | (j, w) :: t, k, v =>
    if j = k then (if v = d then t else (k, v) :: t)
    else if k < j then (if v = d then (j, w) :: t else (k, v) :: (j, w) :: t)
    else (j, w) :: Tbl.set d t k v

/-- Every key at or above `lo` and strictly rising. -/
def Tbl.sortedFrom {α : Type} : Nat → Tbl α → Bool
  | _, [] => true
  | lo, (j, _) :: t => decide (lo ≤ j) && Tbl.sortedFrom (j + 1) t

/-- The canonical form: keys strictly rising, no listed entry equal to the unlisted one. -/
def Tbl.wf {α : Type} [DecidableEq α] (d : α) (t : Tbl α) : Bool :=
  Tbl.sortedFrom 0 t && t.all (fun e => decide (e.2 ≠ d))

/-- Drop every entry whose key satisfies `f` (those keys then read as unlisted). -/
def Tbl.drop {α : Type} (f : Nat → Bool) (t : Tbl α) : Tbl α := t.filter (fun e => !f e.1)

/-- Change the entry at key `k` by `f`. -/
def Tbl.upd {α : Type} [DecidableEq α] (d : α) (t : Tbl α) (k : Nat) (f : α → α) : Tbl α :=
  Tbl.set d t k (f (Tbl.get d t k))

end Sys2Proof.Machine
end

