-- ==== Sys2Proof/Machine/Registers.lean ====
section
/-!
DEFINITION. Every register field of the CZ40, by the name the spec gives it: where it lies (the key of its register
and its bits) and its reset value, copied from the register maps at the end of each chapter of spec/. A field is the
unit of storage: `State.flds` holds the value of each field that differs from its reset value. Reserved bits have no
field, so they read 0 (R18). A field whose reset column says "fuse" or "variant" reads State.fuse (RegMap.lean).

Keys: partition `p`'s registers lie at p * 2^48 plus their partition address (R33), the management space at
16 * 2^48 (R439), the queue window of PF`n` at (17 + n) * 2^48 (R438).
-/
namespace Sys2Proof.Machine

/-- A register field: its register's key, its lowest bit, its width and its reset value. -/
structure Fld where
  key : Nat
  lo : Nat
  w : Nat
  rst : Nat
deriving DecidableEq, Repr

/-- The cell of `State.flds` that holds the field. -/
def Fld.cell (f : Fld) : Nat := f.key * 64 + f.lo

/-- The base of the partition register region (R30). -/
def regBase : Nat := 0xFF0000000000

/-- The key of the register at offset `off` of partition `p`'s register region. -/
def regKey (p off : Nat) : Nat := 0xFF0000000000 + off + 0x1000000000000 * p

/-- The key of the register at offset `off` of the management space. -/
def mgmtKey (off : Nat) : Nat := 16 * 0x1000000000000 + off

/-- The key of the register at offset `off` of the queue window of PF`n`. -/
def pfKey (n off : Nat) : Nat := off + 0x1000000000000 * (17 + n)

/-- The key of register PRT_ID. -/
def PRT_ID.key (p : Nat) : Nat := regKey p 0x00000000 + 0x0
def PRT_ID.PART (p : Nat) : Fld := ⟨(PRT_ID.key p), 0, 4, 0⟩
def PRT_ID.VARIANT (p : Nat) : Fld := ⟨(PRT_ID.key p), 4, 2, 0⟩
def PRT_ID.GCLASS (p : Nat) : Fld := ⟨(PRT_ID.key p), 6, 1, 0⟩
def PRT_ID.STEPPING (p : Nat) : Fld := ⟨(PRT_ID.key p), 8, 8, 0xb0⟩
def PRT_ID.CELL (p : Nat) : Fld := ⟨(PRT_ID.key p), 32, 13, 0⟩
def PRT_ID.POS (p : Nat) : Fld := ⟨(PRT_ID.key p), 45, 5, 0⟩
/-- The key of register PRT_CORES. -/
def PRT_CORES.key (p : Nat) : Nat := regKey p 0x00000000 + 0x8
def PRT_CORES.LCORES (p : Nat) : Fld := ⟨(PRT_CORES.key p), 0, 4, 0⟩
def PRT_CORES.MAP (p : Nat) : Fld := ⟨(PRT_CORES.key p), 8, 24, 0⟩
def PRT_CORES.GOOD (p : Nat) : Fld := ⟨(PRT_CORES.key p), 32, 8, 0⟩
def PRT_CORES.RETIRED (p : Nat) : Fld := ⟨(PRT_CORES.key p), 40, 8, 0⟩
/-- The key of register PRT_MEM. -/
def PRT_MEM.key (p : Nat) : Nat := regKey p 0x00000000 + 0x10
def PRT_MEM.PC_BASE (p : Nat) : Fld := ⟨(PRT_MEM.key p), 0, 11, 0⟩
def PRT_MEM.PC_COUNT (p : Nat) : Fld := ⟨(PRT_MEM.key p), 16, 7, 0⟩
def PRT_MEM.DATA_MIB (p : Nat) : Fld := ⟨(PRT_MEM.key p), 32, 25, 0⟩
/-- The key of register PRT_STATE. -/
def PRT_STATE.key (p : Nat) : Nat := regKey p 0x00000000 + 0x18
def PRT_STATE.STATE (p : Nat) : Fld := ⟨(PRT_STATE.key p), 0, 3, 1⟩
def PRT_STATE.CAUSE (p : Nat) : Fld := ⟨(PRT_STATE.key p), 8, 8, 0⟩
/-- The key of register PRT_CTRL. -/
def PRT_CTRL.key (p : Nat) : Nat := regKey p 0x00000000 + 0x20
def PRT_CTRL.LOCK (p : Nat) : Fld := ⟨(PRT_CTRL.key p), 0, 1, 0⟩
/-- The key of register PRT_CLK_EN. -/
def PRT_CLK_EN.key (p : Nat) : Nat := regKey p 0x00000000 + 0x28
def PRT_CLK_EN.GRN (p : Nat) : Fld := ⟨(PRT_CLK_EN.key p), 0, 1, 0⟩
def PRT_CLK_EN.MCA (p : Nat) : Fld := ⟨(PRT_CLK_EN.key p), 1, 1, 0⟩
def PRT_CLK_EN.FLT (p : Nat) : Fld := ⟨(PRT_CLK_EN.key p), 2, 1, 0⟩
def PRT_CLK_EN.TLM (p : Nat) : Fld := ⟨(PRT_CLK_EN.key p), 3, 1, 0⟩
def PRT_CLK_EN.MOV (p : Nat) : Fld := ⟨(PRT_CLK_EN.key p), 4, 1, 0⟩
def PRT_CLK_EN.MEM (p : Nat) : Fld := ⟨(PRT_CLK_EN.key p), 5, 1, 0⟩
def PRT_CLK_EN.STR (p : Nat) : Fld := ⟨(PRT_CLK_EN.key p), 7, 1, 0⟩
def PRT_CLK_EN.ASY (p : Nat) : Fld := ⟨(PRT_CLK_EN.key p), 8, 1, 0⟩
def PRT_CLK_EN.DSP (p : Nat) : Fld := ⟨(PRT_CLK_EN.key p), 12, 1, 0⟩
/-- The key of register PRT_RESET. -/
def PRT_RESET.key (p : Nat) : Nat := regKey p 0x00000000 + 0x30
def PRT_RESET.KIND (p : Nat) : Fld := ⟨(PRT_RESET.key p), 0, 2, 0⟩
/-- The key of register PRT_CTX. -/
def PRT_CTX.key (p : Nat) : Nat := regKey p 0x00000000 + 0x38
def PRT_CTX.QUOTA (p : Nat) : Fld := ⟨(PRT_CTX.key p), 0, 19, 0⟩
def PRT_CTX.INUSE (p : Nat) : Fld := ⟨(PRT_CTX.key p), 32, 19, 0⟩
/-- The key of register PRT_CTX_WAIT. -/
def PRT_CTX_WAIT.key (p : Nat) : Nat := regKey p 0x00000000 + 0x40
def PRT_CTX_WAIT.WAITS (p : Nat) : Fld := ⟨(PRT_CTX_WAIT.key p), 0, 64, 0⟩
/-- The key of register PRT_BUSERR. -/
def PRT_BUSERR.key (p : Nat) : Nat := regKey p 0x00000000 + 0x48
def PRT_BUSERR.ADDR (p : Nat) : Fld := ⟨(PRT_BUSERR.key p), 0, 48, 0⟩
def PRT_BUSERR.VALID (p : Nat) : Fld := ⟨(PRT_BUSERR.key p), 48, 1, 0⟩
/-- The key of register GRN_MODE. -/
def GRN_MODE.key (p : Nat) (c : Nat) : Nat := regKey p (0x01000000 + 0x10000 * c) + 0x0
def GRN_MODE.MODE (p : Nat) (c : Nat) : Fld := ⟨(GRN_MODE.key p c), 0, 1, 0⟩
def GRN_MODE.SWITCHING (p : Nat) (c : Nat) : Fld := ⟨(GRN_MODE.key p c), 1, 1, 0⟩
def GRN_MODE.SWITCHES (p : Nat) (c : Nat) : Fld := ⟨(GRN_MODE.key p c), 16, 32, 0⟩
/-- The key of register GRN_CFG. -/
def GRN_CFG.key (p : Nat) (c : Nat) : Nat := regKey p (0x01000000 + 0x10000 * c) + 0x8
def GRN_CFG.GATE_EN (p : Nat) (c : Nat) : Fld := ⟨(GRN_CFG.key p c), 0, 1, 1⟩
def GRN_CFG.FAST_EN (p : Nat) (c : Nat) : Fld := ⟨(GRN_CFG.key p c), 1, 1, 0⟩
def GRN_CFG.IDLE_OFF (p : Nat) (c : Nat) : Fld := ⟨(GRN_CFG.key p c), 8, 20, 0x400⟩
/-- The key of register GRN_STATUS. -/
def GRN_STATUS.key (p : Nat) (c : Nat) : Nat := regKey p (0x01000000 + 0x10000 * c) + 0x10
def GRN_STATUS.BUSY (p : Nat) (c : Nat) : Fld := ⟨(GRN_STATUS.key p c), 0, 4, 0⟩
def GRN_STATUS.RECOMP (p : Nat) (c : Nat) : Fld := ⟨(GRN_STATUS.key p c), 4, 4, 0⟩
def GRN_STATUS.GATED (p : Nat) (c : Nat) : Fld := ⟨(GRN_STATUS.key p c), 8, 4, 0xf⟩
/-- The key of register GRN_RES. -/
def GRN_RES.key (p : Nat) (c : Nat) : Nat := regKey p (0x01000000 + 0x10000 * c) + 0x18
def GRN_RES.TRANS (p : Nat) (c : Nat) : Fld := ⟨(GRN_RES.key p c), 0, 32, 0⟩
def GRN_RES.LAST_ARRAY (p : Nat) (c : Nat) : Fld := ⟨(GRN_RES.key p c), 32, 2, 0⟩
def GRN_RES.LAST_ROW (p : Nat) (c : Nat) : Fld := ⟨(GRN_RES.key p c), 34, 9, 0⟩
def GRN_RES.PERM (p : Nat) (c : Nat) : Fld := ⟨(GRN_RES.key p c), 43, 1, 0⟩
/-- The key of register GRN_ACC_ECC. -/
def GRN_ACC_ECC.key (p : Nat) (c : Nat) : Nat := regKey p (0x01000000 + 0x10000 * c) + 0x20
def GRN_ACC_ECC.CORR (p : Nat) (c : Nat) : Fld := ⟨(GRN_ACC_ECC.key p c), 0, 32, 0⟩
def GRN_ACC_ECC.UNCORR (p : Nat) (c : Nat) : Fld := ⟨(GRN_ACC_ECC.key p c), 32, 1, 0⟩
/-- The key of register GRN_CYC_STREAM. -/
def GRN_CYC_STREAM.key (p : Nat) (c : Nat) : Nat := regKey p (0x01000000 + 0x10000 * c) + 0x28
def GRN_CYC_STREAM.CYCLES (p : Nat) (c : Nat) : Fld := ⟨(GRN_CYC_STREAM.key p c), 0, 64, 0⟩
/-- The key of register GRN_CYC_LOAD. -/
def GRN_CYC_LOAD.key (p : Nat) (c : Nat) : Nat := regKey p (0x01000000 + 0x10000 * c) + 0x30
def GRN_CYC_LOAD.CYCLES (p : Nat) (c : Nat) : Fld := ⟨(GRN_CYC_LOAD.key p c), 0, 64, 0⟩
/-- The key of register GRN_CYC_STALL. -/
def GRN_CYC_STALL.key (p : Nat) (c : Nat) : Nat := regKey p (0x01000000 + 0x10000 * c) + 0x38
def GRN_CYC_STALL.CYCLES (p : Nat) (c : Nat) : Fld := ⟨(GRN_CYC_STALL.key p c), 0, 64, 0⟩
/-- The key of register GRN_MACS. -/
def GRN_MACS.key (p : Nat) (c : Nat) : Nat := regKey p (0x01000000 + 0x10000 * c) + 0x40
def GRN_MACS.MACS (p : Nat) (c : Nat) : Fld := ⟨(GRN_MACS.key p c), 0, 64, 0⟩
/-- The key of register GRN_NONFIN. -/
def GRN_NONFIN.key (p : Nat) (c : Nat) : Nat := regKey p (0x01000000 + 0x10000 * c) + 0x48
def GRN_NONFIN.COUNT (p : Nat) (c : Nat) : Fld := ⟨(GRN_NONFIN.key p c), 0, 64, 0⟩
/-- The key of register MCA_STATUS. -/
def MCA_STATUS.key (p : Nat) (c : Nat) : Nat := regKey p (0x02000000 + 0x10000 * c) + 0x0
def MCA_STATUS.BUSY (p : Nat) (c : Nat) : Fld := ⟨(MCA_STATUS.key p c), 0, 1, 0⟩
def MCA_STATUS.RECOMP (p : Nat) (c : Nat) : Fld := ⟨(MCA_STATUS.key p c), 1, 1, 0⟩
def MCA_STATUS.GATED (p : Nat) (c : Nat) : Fld := ⟨(MCA_STATUS.key p c), 2, 1, 1⟩
def MCA_STATUS.QCOUNT (p : Nat) (c : Nat) : Fld := ⟨(MCA_STATUS.key p c), 8, 7, 0⟩
/-- The key of register MCA_CFG. -/
def MCA_CFG.key (p : Nat) (c : Nat) : Nat := regKey p (0x02000000 + 0x10000 * c) + 0x8
def MCA_CFG.IDLE_OFF (p : Nat) (c : Nat) : Fld := ⟨(MCA_CFG.key p c), 0, 20, 0x400⟩
/-- The key of register MCA_SEED. -/
def MCA_SEED.key (p : Nat) (c : Nat) : Nat := regKey p (0x02000000 + 0x10000 * c) + 0x10
def MCA_SEED.SEED (p : Nat) (c : Nat) : Fld := ⟨(MCA_SEED.key p c), 0, 64, 0⟩
/-- The key of register MCA_RES. -/
def MCA_RES.key (p : Nat) (c : Nat) : Nat := regKey p (0x02000000 + 0x10000 * c) + 0x18
def MCA_RES.TRANS (p : Nat) (c : Nat) : Fld := ⟨(MCA_RES.key p c), 0, 32, 0⟩
def MCA_RES.LAST_OP (p : Nat) (c : Nat) : Fld := ⟨(MCA_RES.key p c), 32, 8, 0⟩
def MCA_RES.PERM (p : Nat) (c : Nat) : Fld := ⟨(MCA_RES.key p c), 40, 1, 0⟩
/-- The key of register MCA_NONFIN. -/
def MCA_NONFIN.key (p : Nat) (c : Nat) : Nat := regKey p (0x02000000 + 0x10000 * c) + 0x20
def MCA_NONFIN.COUNT (p : Nat) (c : Nat) : Fld := ⟨(MCA_NONFIN.key p c), 0, 64, 0⟩
/-- The key of register MCA_CYC_BUSY. -/
def MCA_CYC_BUSY.key (p : Nat) (c : Nat) : Nat := regKey p (0x02000000 + 0x10000 * c) + 0x28
def MCA_CYC_BUSY.CYCLES (p : Nat) (c : Nat) : Fld := ⟨(MCA_CYC_BUSY.key p c), 0, 64, 0⟩
/-- The key of register MCA_OPS. -/
def MCA_OPS.key (p : Nat) (c : Nat) : Nat := regKey p (0x02000000 + 0x10000 * c) + 0x30
def MCA_OPS.OPS (p : Nat) (c : Nat) : Fld := ⟨(MCA_OPS.key p c), 0, 64, 0⟩
/-- The key of register MCA_SUM_A. -/
def MCA_SUM_A.key (p : Nat) (c : Nat) (n : Nat) : Nat := regKey p (0x02000000 + 0x10000 * c) + 0x100 + 0x20 * n
def MCA_SUM_A.MAX (p : Nat) (c : Nat) (n : Nat) : Fld := ⟨(MCA_SUM_A.key p c n), 0, 32, 0⟩
def MCA_SUM_A.SUM (p : Nat) (c : Nat) (n : Nat) : Fld := ⟨(MCA_SUM_A.key p c n), 32, 32, 0⟩
/-- The key of register MCA_SUM_B. -/
def MCA_SUM_B.key (p : Nat) (c : Nat) (n : Nat) : Nat := regKey p (0x02000000 + 0x10000 * c) + 0x108 + 0x20 * n
def MCA_SUM_B.NNZ (p : Nat) (c : Nat) (n : Nat) : Fld := ⟨(MCA_SUM_B.key p c n), 0, 32, 0⟩
def MCA_SUM_B.NONFIN (p : Nat) (c : Nat) (n : Nat) : Fld := ⟨(MCA_SUM_B.key p c n), 32, 1, 0⟩
def MCA_SUM_B.VALID (p : Nat) (c : Nat) (n : Nat) : Fld := ⟨(MCA_SUM_B.key p c n), 33, 1, 0⟩
/-- The key of register MCA_SUM_C. -/
def MCA_SUM_C.key (p : Nat) (c : Nat) (n : Nat) : Nat := regKey p (0x02000000 + 0x10000 * c) + 0x110 + 0x20 * n
def MCA_SUM_C.ARGCOL (p : Nat) (c : Nat) (n : Nat) : Fld := ⟨(MCA_SUM_C.key p c n), 0, 30, 0⟩
def MCA_SUM_C.ARGROW (p : Nat) (c : Nat) (n : Nat) : Fld := ⟨(MCA_SUM_C.key p c n), 30, 34, 0⟩
/-- The key of register FLT_CTRL. -/
def FLT_CTRL.key (p : Nat) (c : Nat) : Nat := regKey p (0x03000000 + 0x10000 * c) + 0x0
def FLT_CTRL.RUN (p : Nat) (c : Nat) : Fld := ⟨(FLT_CTRL.key p c), 0, 1, 0⟩
/-- The key of register FLT_STATUS. -/
def FLT_STATUS.key (p : Nat) (c : Nat) : Nat := regKey p (0x03000000 + 0x10000 * c) + 0x8
def FLT_STATUS.STATE (p : Nat) (c : Nat) : Fld := ⟨(FLT_STATUS.key p c), 0, 2, 0⟩
def FLT_STATUS.CAUSE (p : Nat) (c : Nat) : Fld := ⟨(FLT_STATUS.key p c), 4, 3, 0⟩
def FLT_STATUS.PC (p : Nat) (c : Nat) : Fld := ⟨(FLT_STATUS.key p c), 16, 16, 0⟩
/-- The key of register FLT_QG. -/
def FLT_QG.key (p : Nat) (c : Nat) : Nat := regKey p (0x03000000 + 0x10000 * c) + 0x10
def FLT_QG.ISSUED (p : Nat) (c : Nat) : Fld := ⟨(FLT_QG.key p c), 0, 24, 0⟩
def FLT_QG.DONE (p : Nat) (c : Nat) : Fld := ⟨(FLT_QG.key p c), 24, 24, 0⟩
def FLT_QG.COUNT (p : Nat) (c : Nat) : Fld := ⟨(FLT_QG.key p c), 48, 7, 0⟩
def FLT_QG.ERR (p : Nat) (c : Nat) : Fld := ⟨(FLT_QG.key p c), 55, 1, 0⟩
def FLT_QG.ERRSTAT (p : Nat) (c : Nat) : Fld := ⟨(FLT_QG.key p c), 56, 3, 0⟩
/-- The key of register FLT_QM. -/
def FLT_QM.key (p : Nat) (c : Nat) : Nat := regKey p (0x03000000 + 0x10000 * c) + 0x18
def FLT_QM.ISSUED (p : Nat) (c : Nat) : Fld := ⟨(FLT_QM.key p c), 0, 24, 0⟩
def FLT_QM.DONE (p : Nat) (c : Nat) : Fld := ⟨(FLT_QM.key p c), 24, 24, 0⟩
def FLT_QM.COUNT (p : Nat) (c : Nat) : Fld := ⟨(FLT_QM.key p c), 48, 7, 0⟩
def FLT_QM.ERR (p : Nat) (c : Nat) : Fld := ⟨(FLT_QM.key p c), 55, 1, 0⟩
def FLT_QM.ERRSTAT (p : Nat) (c : Nat) : Fld := ⟨(FLT_QM.key p c), 56, 3, 0⟩
/-- The key of register FLT_QV. -/
def FLT_QV.key (p : Nat) (c : Nat) : Nat := regKey p (0x03000000 + 0x10000 * c) + 0x20
def FLT_QV.ISSUED (p : Nat) (c : Nat) : Fld := ⟨(FLT_QV.key p c), 0, 24, 0⟩
def FLT_QV.DONE (p : Nat) (c : Nat) : Fld := ⟨(FLT_QV.key p c), 24, 24, 0⟩
def FLT_QV.COUNT (p : Nat) (c : Nat) : Fld := ⟨(FLT_QV.key p c), 48, 7, 0⟩
def FLT_QV.ERR (p : Nat) (c : Nat) : Fld := ⟨(FLT_QV.key p c), 55, 1, 0⟩
def FLT_QV.ERRSTAT (p : Nat) (c : Nat) : Fld := ⟨(FLT_QV.key p c), 56, 3, 0⟩
/-- The key of register FLT_CYC_RUN. -/
def FLT_CYC_RUN.key (p : Nat) (c : Nat) : Nat := regKey p (0x03000000 + 0x10000 * c) + 0x28
def FLT_CYC_RUN.CYCLES (p : Nat) (c : Nat) : Fld := ⟨(FLT_CYC_RUN.key p c), 0, 64, 0⟩
/-- The key of register FLT_CYC_QFULL. -/
def FLT_CYC_QFULL.key (p : Nat) (c : Nat) : Nat := regKey p (0x03000000 + 0x10000 * c) + 0x30
def FLT_CYC_QFULL.CYCLES (p : Nat) (c : Nat) : Fld := ⟨(FLT_CYC_QFULL.key p c), 0, 64, 0⟩
/-- The key of register FLT_CYC_WAIT. -/
def FLT_CYC_WAIT.key (p : Nat) (c : Nat) : Nat := regKey p (0x03000000 + 0x10000 * c) + 0x38
def FLT_CYC_WAIT.CYCLES (p : Nat) (c : Nat) : Fld := ⟨(FLT_CYC_WAIT.key p c), 0, 64, 0⟩
/-- The key of register FLT_STEP. -/
def FLT_STEP.key (p : Nat) (c : Nat) : Nat := regKey p (0x03000000 + 0x10000 * c) + 0x40
def FLT_STEP.STEP (p : Nat) (c : Nat) : Fld := ⟨(FLT_STEP.key p c), 0, 64, 0⟩
/-- The key of register TLM_OOB_WR. -/
def TLM_OOB_WR.key (p : Nat) (c : Nat) : Nat := regKey p (0x04000000 + 0x10000 * c) + 0x0
def TLM_OOB_WR.ELEMS (p : Nat) (c : Nat) : Fld := ⟨(TLM_OOB_WR.key p c), 0, 64, 0⟩
/-- The key of register TLM_SCAT_SUP. -/
def TLM_SCAT_SUP.key (p : Nat) (c : Nat) : Nat := regKey p (0x04000000 + 0x10000 * c) + 0x8
def TLM_SCAT_SUP.OOB (p : Nat) (c : Nat) : Fld := ⟨(TLM_SCAT_SUP.key p c), 0, 32, 0⟩
def TLM_SCAT_SUP.NONLOCAL (p : Nat) (c : Nat) : Fld := ⟨(TLM_SCAT_SUP.key p c), 32, 32, 0⟩
/-- The key of register TLM_CLAMP_RD. -/
def TLM_CLAMP_RD.key (p : Nat) (c : Nat) : Nat := regKey p (0x04000000 + 0x10000 * c) + 0x10
def TLM_CLAMP_RD.ELEMS (p : Nat) (c : Nat) : Fld := ⟨(TLM_CLAMP_RD.key p c), 0, 64, 0⟩
/-- The key of register TLM_CHK. -/
def TLM_CHK.key (p : Nat) (c : Nat) : Nat := regKey p (0x04000000 + 0x10000 * c) + 0x18
def TLM_CHK.FAIL (p : Nat) (c : Nat) : Fld := ⟨(TLM_CHK.key p c), 0, 32, 0⟩
def TLM_CHK.LAST_OFF (p : Nat) (c : Nat) : Fld := ⟨(TLM_CHK.key p c), 32, 25, 0⟩
def TLM_CHK.VALID (p : Nat) (c : Nat) : Fld := ⟨(TLM_CHK.key p c), 57, 1, 0⟩
/-- The key of register TLM_ECC. -/
def TLM_ECC.key (p : Nat) (c : Nat) : Nat := regKey p (0x04000000 + 0x10000 * c) + 0x20
def TLM_ECC.CORR (p : Nat) (c : Nat) : Fld := ⟨(TLM_ECC.key p c), 0, 32, 0⟩
def TLM_ECC.UNCORR (p : Nat) (c : Nat) : Fld := ⟨(TLM_ECC.key p c), 32, 1, 0⟩
/-- The key of register TLM_BANKWAIT. -/
def TLM_BANKWAIT.key (p : Nat) (c : Nat) : Nat := regKey p (0x04000000 + 0x10000 * c) + 0x28
def TLM_BANKWAIT.CYCLES (p : Nat) (c : Nat) : Fld := ⟨(TLM_BANKWAIT.key p c), 0, 64, 0⟩
/-- The key of register TLM_STX_BUSY. -/
def TLM_STX_BUSY.key (p : Nat) (c : Nat) : Nat := regKey p (0x04000000 + 0x10000 * c) + 0x30
def TLM_STX_BUSY.CYCLES (p : Nat) (c : Nat) : Fld := ⟨(TLM_STX_BUSY.key p c), 0, 64, 0⟩
/-- The key of register TLM_PRUNED. -/
def TLM_PRUNED.key (p : Nat) (c : Nat) : Nat := regKey p (0x04000000 + 0x10000 * c) + 0x38
def TLM_PRUNED.ELEMS (p : Nat) (c : Nat) : Fld := ⟨(TLM_PRUNED.key p c), 0, 64, 0⟩
/-- The key of register MOV_RANK. -/
def MOV_RANK.key (p : Nat) : Nat := regKey p 0x05000000 + 0x0
def MOV_RANK.RANK (p : Nat) : Fld := ⟨(MOV_RANK.key p), 0, 22, 0⟩
def MOV_RANK.VALID (p : Nat) : Fld := ⟨(MOV_RANK.key p), 22, 1, 0⟩
/-- The key of register MOV_CFG. -/
def MOV_CFG.key (p : Nat) : Nat := regKey p 0x05000000 + 0x8
def MOV_CFG.QCHAN (p : Nat) : Fld := ⟨(MOV_CFG.key p), 0, 6, 8⟩
/-- The key of register MOV_STATUS. -/
def MOV_STATUS.key (p : Nat) : Nat := regKey p 0x05000000 + 0x10
def MOV_STATUS.CHBUSY (p : Nat) : Fld := ⟨(MOV_STATUS.key p), 0, 32, 0⟩
/-- The key of register MOV_CHK. -/
def MOV_CHK.key (p : Nat) : Nat := regKey p 0x05000000 + 0x18
def MOV_CHK.FAIL (p : Nat) : Fld := ⟨(MOV_CHK.key p), 0, 32, 0⟩
/-- The key of register MOV_CHK_ADDR. -/
def MOV_CHK_ADDR.key (p : Nat) : Nat := regKey p 0x05000000 + 0x20
def MOV_CHK_ADDR.ADDR (p : Nat) : Fld := ⟨(MOV_CHK_ADDR.key p), 0, 48, 0⟩
def MOV_CHK_ADDR.VALID (p : Nat) : Fld := ⟨(MOV_CHK_ADDR.key p), 48, 1, 0⟩
/-- The key of register MOV_BLK_CARRY. -/
def MOV_BLK_CARRY.key (p : Nat) : Nat := regKey p 0x05000000 + 0x28
def MOV_BLK_CARRY.COUNT (p : Nat) : Fld := ⟨(MOV_BLK_CARRY.key p), 0, 64, 0⟩
/-- The key of register MOV_BLK_REGEN. -/
def MOV_BLK_REGEN.key (p : Nat) : Nat := regKey p 0x05000000 + 0x30
def MOV_BLK_REGEN.COUNT (p : Nat) : Fld := ⟨(MOV_BLK_REGEN.key p), 0, 64, 0⟩
/-- The key of register MOV_BYTES. -/
def MOV_BYTES.key (p : Nat) : Nat := regKey p 0x05000000 + 0x38
def MOV_BYTES.COUNT (p : Nat) : Fld := ⟨(MOV_BYTES.key p), 0, 64, 0⟩
/-- The key of register MOV_DESC. -/
def MOV_DESC.key (p : Nat) (i : Nat) (w : Nat) : Nat := regKey p 0x05000000 + 0x100000 + 0x100 * i + 0x8 * w
def MOV_DESC.D (p : Nat) (i : Nat) (w : Nat) : Fld := ⟨(MOV_DESC.key p i w), 0, 64, 0⟩
/-- The key of register DSP_CFG. -/
def DSP_CFG.key (p : Nat) : Nat := regKey p 0x09000000 + 0x0
def DSP_CFG.FAST_EN (p : Nat) : Fld := ⟨(DSP_CFG.key p), 0, 1, 0⟩
def DSP_CFG.CLASS (p : Nat) : Fld := ⟨(DSP_CFG.key p), 1, 1, 0⟩
def DSP_CFG.QCHAN (p : Nat) : Fld := ⟨(DSP_CFG.key p), 2, 6, 4⟩
/-- The key of register DSP_CTRL. -/
def DSP_CTRL.key (p : Nat) : Nat := regKey p 0x09000000 + 0x8
def DSP_CTRL.SWAP_ARM (p : Nat) : Fld := ⟨(DSP_CTRL.key p), 0, 1, 0⟩
def DSP_CTRL.ACTIVE (p : Nat) : Fld := ⟨(DSP_CTRL.key p), 1, 1, 0⟩
def DSP_CTRL.SWAPS (p : Nat) : Fld := ⟨(DSP_CTRL.key p), 16, 32, 0⟩
/-- The key of register DSP_RND. -/
def DSP_RND.key (p : Nat) : Nat := regKey p 0x09000000 + 0x10
def DSP_RND.RID (p : Nat) : Fld := ⟨(DSP_RND.key p), 0, 32, 0⟩
def DSP_RND.LIST (p : Nat) : Fld := ⟨(DSP_RND.key p), 32, 16, 0⟩
def DSP_RND.XDESC (p : Nat) : Fld := ⟨(DSP_RND.key p), 48, 16, 0⟩
/-- The key of register DSP_RND2. -/
def DSP_RND2.key (p : Nat) : Nat := regKey p 0x09000000 + 0x18
def DSP_RND2.RDESC (p : Nat) : Fld := ⟨(DSP_RND2.key p), 0, 16, 0xffff⟩
def DSP_RND2.FAST (p : Nat) : Fld := ⟨(DSP_RND2.key p), 16, 1, 0⟩
/-- The key of register DSP_GO. -/
def DSP_GO.key (p : Nat) : Nat := regKey p 0x09000000 + 0x20
def DSP_GO.OPEN (p : Nat) : Fld := ⟨(DSP_GO.key p), 0, 1, 0⟩
def DSP_GO.RETURN (p : Nat) : Fld := ⟨(DSP_GO.key p), 1, 1, 0⟩
/-- The key of register DSP_STATUS. -/
def DSP_STATUS.key (p : Nat) : Nat := regKey p 0x09000000 + 0x28
def DSP_STATUS.SEND_OPEN (p : Nat) : Fld := ⟨(DSP_STATUS.key p), 0, 1, 0⟩
def DSP_STATUS.RECV_OPEN (p : Nat) : Fld := ⟨(DSP_STATUS.key p), 1, 1, 0⟩
def DSP_STATUS.RET_OPEN (p : Nat) : Fld := ⟨(DSP_STATUS.key p), 2, 1, 0⟩
def DSP_STATUS.SPILL_PHASE (p : Nat) : Fld := ⟨(DSP_STATUS.key p), 3, 1, 0⟩
def DSP_STATUS.ERRSTAT (p : Nat) : Fld := ⟨(DSP_STATUS.key p), 4, 3, 0⟩
def DSP_STATUS.ERR (p : Nat) : Fld := ⟨(DSP_STATUS.key p), 7, 1, 0⟩
def DSP_STATUS.CUR_RID (p : Nat) : Fld := ⟨(DSP_STATUS.key p), 32, 32, 0⟩
/-- The key of register DSP_DELIV. -/
def DSP_DELIV.key (p : Nat) : Nat := regKey p 0x09000000 + 0x30
def DSP_DELIV.COUNT (p : Nat) : Fld := ⟨(DSP_DELIV.key p), 0, 64, 0⟩
/-- The key of register DSP_SPILL. -/
def DSP_SPILL.key (p : Nat) : Nat := regKey p 0x09000000 + 0x38
def DSP_SPILL.COUNT (p : Nat) : Fld := ⟨(DSP_SPILL.key p), 0, 64, 0⟩
/-- The key of register DSP_DROP. -/
def DSP_DROP.key (p : Nat) : Nat := regKey p 0x09000000 + 0x40
def DSP_DROP.COUNT (p : Nat) : Fld := ⟨(DSP_DROP.key p), 0, 64, 0⟩
/-- The key of register DSP_STALE. -/
def DSP_STALE.key (p : Nat) : Nat := regKey p 0x09000000 + 0x48
def DSP_STALE.COUNT (p : Nat) : Fld := ⟨(DSP_STALE.key p), 0, 64, 0⟩
/-- The key of register DSP_OCC_ZERO. -/
def DSP_OCC_ZERO.key (p : Nat) : Nat := regKey p 0x09000000 + 0x58
def DSP_OCC_ZERO.COUNT (p : Nat) : Fld := ⟨(DSP_OCC_ZERO.key p), 0, 64, 0⟩
/-- The key of register DSP_OCC_SKIP. -/
def DSP_OCC_SKIP.key (p : Nat) : Nat := regKey p 0x09000000 + 0x50
def DSP_OCC_SKIP.PASSES (p : Nat) : Fld := ⟨(DSP_OCC_SKIP.key p), 0, 32, 0⟩
def DSP_OCC_SKIP.GROUPS (p : Nat) : Fld := ⟨(DSP_OCC_SKIP.key p), 32, 32, 0⟩
/-- The key of register DSP_KV_BASE. -/
def DSP_KV_BASE.key (p : Nat) : Nat := regKey p 0x09000000 + 0x60
def DSP_KV_BASE.VALUE (p : Nat) : Fld := ⟨(DSP_KV_BASE.key p), 0, 48, 0⟩
/-- The key of register DSP_KV_SLOT. -/
def DSP_KV_SLOT.key (p : Nat) : Nat := regKey p 0x09000000 + 0x68
def DSP_KV_SLOT.VALUE (p : Nat) : Fld := ⟨(DSP_KV_SLOT.key p), 0, 48, 0⟩
/-- The key of register DSP_KV_SEQS. -/
def DSP_KV_SEQS.key (p : Nat) : Nat := regKey p 0x09000000 + 0x70
def DSP_KV_SEQS.VALUE (p : Nat) : Fld := ⟨(DSP_KV_SEQS.key p), 0, 18, 0⟩
/-- The key of register DSP_OCC. -/
def DSP_OCC.key (p : Nat) (i : Nat) : Nat := regKey p 0x09000000 + 0x10000 + 0x8 * i
def DSP_OCC.BIND (p : Nat) (i : Nat) : Fld := ⟨(DSP_OCC.key p i), 0, 64, 0⟩
/-- The key of register DSP_TXT. -/
def DSP_TXT.key (p : Nat) (cp : Nat) (e : Nat) : Nat := regKey p 0x09000000 + 0x100000 + 0x10000 * cp + 0x8 * e
def DSP_TXT.ENTRY (p : Nat) (cp : Nat) (e : Nat) : Fld := ⟨(DSP_TXT.key p cp e), 0, 64, 0⟩
/-- The key of register DSP_RXT. -/
def DSP_RXT.key (p : Nat) (cp : Nat) (j : Nat) (w : Nat) : Nat := regKey p 0x09000000 + 0x200000 + 0x1000 * cp + 0x40 * j + 0x8 * w
def DSP_RXT.W (p : Nat) (cp : Nat) (j : Nat) (w : Nat) : Fld := ⟨(DSP_RXT.key p cp j w), 0, 64, 0⟩
/-- The key of register MEM_ID. -/
def MEM_ID.key (p : Nat) (i : Nat) : Nat := regKey p (0x06000000 + 0x1000 * i) + 0x0
def MEM_ID.STACK (p : Nat) (i : Nat) : Fld := ⟨(MEM_ID.key p i), 0, 5, 0⟩
def MEM_ID.PCQ (p : Nat) (i : Nat) : Fld := ⟨(MEM_ID.key p i), 5, 6, 0⟩
def MEM_ID.CHAN (p : Nat) (i : Nat) : Fld := ⟨(MEM_ID.key p i), 11, 5, 0⟩
def MEM_ID.HALF (p : Nat) (i : Nat) : Fld := ⟨(MEM_ID.key p i), 16, 1, 0⟩
def MEM_ID.SHARED (p : Nat) (i : Nat) : Fld := ⟨(MEM_ID.key p i), 17, 1, 0⟩
def MEM_ID.PARTNER (p : Nat) (i : Nat) : Fld := ⟨(MEM_ID.key p i), 18, 4, 0⟩
def MEM_ID.FAILED (p : Nat) (i : Nat) : Fld := ⟨(MEM_ID.key p i), 22, 1, 0⟩
/-- The key of register MEM_CFG. -/
def MEM_CFG.key (p : Nat) (i : Nat) : Nat := regKey p (0x06000000 + 0x1000 * i) + 0x8
def MEM_CFG.SCRUB_EN (p : Nat) (i : Nat) : Fld := ⟨(MEM_CFG.key p i), 0, 1, 1⟩
def MEM_CFG.SCRUB_H (p : Nat) (i : Nat) : Fld := ⟨(MEM_CFG.key p i), 8, 8, 0x18⟩
/-- The key of register MEM_REG. -/
def MEM_REG.key (p : Nat) (i : Nat) (port : Nat) : Nat := regKey p (0x06000000 + 0x1000 * i) + 0x10 + 0x8 * port
def MEM_REG.RATE (p : Nat) (i : Nat) (port : Nat) : Fld := ⟨(MEM_REG.key p i port), 0, 9, 0⟩
def MEM_REG.BURST (p : Nat) (i : Nat) (port : Nat) : Fld := ⟨(MEM_REG.key p i port), 12, 12, 0x40⟩
def MEM_REG.LIMIT (p : Nat) (i : Nat) (port : Nat) : Fld := ⟨(MEM_REG.key p i port), 24, 1, 0⟩
def MEM_REG.TOKENS (p : Nat) (i : Nat) (port : Nat) : Fld := ⟨(MEM_REG.key p i port), 32, 20, 0⟩
/-- The key of register MEM_SVC. -/
def MEM_SVC.key (p : Nat) (i : Nat) (port : Nat) : Nat := regKey p (0x06000000 + 0x1000 * i) + 0x40 + 0x8 * port
def MEM_SVC.CHARGED (p : Nat) (i : Nat) (port : Nat) : Fld := ⟨(MEM_SVC.key p i port), 0, 64, 0⟩
/-- The key of register MEM_SLOTWAIT. -/
def MEM_SLOTWAIT.key (p : Nat) (i : Nat) : Nat := regKey p (0x06000000 + 0x1000 * i) + 0x68
def MEM_SLOTWAIT.CYCLES (p : Nat) (i : Nat) : Fld := ⟨(MEM_SLOTWAIT.key p i), 0, 64, 0⟩
/-- The key of register MEM_ECC. -/
def MEM_ECC.key (p : Nat) (i : Nat) : Nat := regKey p (0x06000000 + 0x1000 * i) + 0x70
def MEM_ECC.CORR (p : Nat) (i : Nat) : Fld := ⟨(MEM_ECC.key p i), 0, 32, 0⟩
def MEM_ECC.UNC (p : Nat) (i : Nat) : Fld := ⟨(MEM_ECC.key p i), 32, 16, 0⟩
/-- The key of register MEM_ECC_ADDR. -/
def MEM_ECC_ADDR.key (p : Nat) (i : Nat) : Nat := regKey p (0x06000000 + 0x1000 * i) + 0x78
def MEM_ECC_ADDR.ADDR (p : Nat) (i : Nat) : Fld := ⟨(MEM_ECC_ADDR.key p i), 0, 48, 0⟩
def MEM_ECC_ADDR.VALID (p : Nat) (i : Nat) : Fld := ⟨(MEM_ECC_ADDR.key p i), 48, 1, 0⟩
def MEM_ECC_ADDR.SCRUB (p : Nat) (i : Nat) : Fld := ⟨(MEM_ECC_ADDR.key p i), 49, 1, 0⟩
/-- The key of register MEM_ODECC. -/
def MEM_ODECC.key (p : Nat) (i : Nat) : Nat := regKey p (0x06000000 + 0x1000 * i) + 0x80
def MEM_ODECC.ODCORR (p : Nat) (i : Nat) : Fld := ⟨(MEM_ODECC.key p i), 0, 32, 0⟩
/-- The key of register MEM_LINK. -/
def MEM_LINK.key (p : Nat) (i : Nat) : Nat := regKey p (0x06000000 + 0x1000 * i) + 0x88
def MEM_LINK.RETRIES (p : Nat) (i : Nat) : Fld := ⟨(MEM_LINK.key p i), 0, 16, 0⟩
def MEM_LINK.RETRAINS (p : Nat) (i : Nat) : Fld := ⟨(MEM_LINK.key p i), 16, 8, 0⟩
def MEM_LINK.REPAIRED (p : Nat) (i : Nat) : Fld := ⟨(MEM_LINK.key p i), 24, 4, 0⟩
/-- The key of register MEM_TEMP. -/
def MEM_TEMP.key (p : Nat) (i : Nat) : Nat := regKey p (0x06000000 + 0x1000 * i) + 0x90
def MEM_TEMP.TEMP (p : Nat) (i : Nat) : Fld := ⟨(MEM_TEMP.key p i), 0, 11, 0⟩
def MEM_TEMP.REF2X (p : Nat) (i : Nat) : Fld := ⟨(MEM_TEMP.key p i), 11, 1, 0⟩
/-- The key of register MEM_BYTES. -/
def MEM_BYTES.key (p : Nat) (i : Nat) : Nat := regKey p (0x06000000 + 0x1000 * i) + 0x98
def MEM_BYTES.BYTES (p : Nat) (i : Nat) : Fld := ⟨(MEM_BYTES.key p i), 0, 64, 0⟩
/-- The key of register ZLK_STATE. -/
def ZLK_STATE.key (i : Nat) : Nat := mgmtKey (0x00400000 + 0x100 * i) + 0x0
def ZLK_STATE.STATE (i : Nat) : Fld := ⟨(ZLK_STATE.key i), 0, 3, 0⟩
def ZLK_STATE.NARROW (i : Nat) : Fld := ⟨(ZLK_STATE.key i), 3, 1, 0⟩
def ZLK_STATE.LANES_RET (i : Nat) : Fld := ⟨(ZLK_STATE.key i), 4, 2, 0⟩
def ZLK_STATE.ROLE (i : Nat) : Fld := ⟨(ZLK_STATE.key i), 6, 2, 0⟩
def ZLK_STATE.QCAUSE (i : Nat) : Fld := ⟨(ZLK_STATE.key i), 8, 8, 0⟩
def ZLK_STATE.TARGET (i : Nat) : Fld := ⟨(ZLK_STATE.key i), 16, 5, 0⟩
def ZLK_STATE.MINOR_RUN (i : Nat) : Fld := ⟨(ZLK_STATE.key i), 32, 8, 0⟩
/-- The key of register ZLK_PEER_ID0. -/
def ZLK_PEER_ID0.key (i : Nat) : Nat := mgmtKey (0x00400000 + 0x100 * i) + 0x8
def ZLK_PEER_ID0.SERIAL (i : Nat) : Fld := ⟨(ZLK_PEER_ID0.key i), 0, 64, 0⟩
/-- The key of register ZLK_PEER_ID1. -/
def ZLK_PEER_ID1.key (i : Nat) : Nat := mgmtKey (0x00400000 + 0x100 * i) + 0x10
def ZLK_PEER_ID1.CELL (i : Nat) : Fld := ⟨(ZLK_PEER_ID1.key i), 0, 13, 0⟩
def ZLK_PEER_ID1.POS (i : Nat) : Fld := ⟨(ZLK_PEER_ID1.key i), 13, 5, 0⟩
def ZLK_PEER_ID1.PORT (i : Nat) : Fld := ⟨(ZLK_PEER_ID1.key i), 18, 8, 0⟩
def ZLK_PEER_ID1.MAJOR (i : Nat) : Fld := ⟨(ZLK_PEER_ID1.key i), 26, 8, 0⟩
def ZLK_PEER_ID1.MINOR (i : Nat) : Fld := ⟨(ZLK_PEER_ID1.key i), 34, 8, 0⟩
/-- The key of register ZLK_PEER_DIG. -/
def ZLK_PEER_DIG.key (i : Nat) : Nat := mgmtKey (0x00400000 + 0x100 * i) + 0x18
def ZLK_PEER_DIG.DIGEST (i : Nat) : Fld := ⟨(ZLK_PEER_DIG.key i), 0, 64, 0⟩
/-- The key of register ZLK_CTRL. -/
def ZLK_CTRL.key (i : Nat) : Nat := mgmtKey (0x00400000 + 0x100 * i) + 0x20
def ZLK_CTRL.RETRAIN (i : Nat) : Fld := ⟨(ZLK_CTRL.key i), 0, 1, 0⟩
def ZLK_CTRL.DISABLE (i : Nat) : Fld := ⟨(ZLK_CTRL.key i), 1, 1, 0⟩
def ZLK_CTRL.UNRETIRE (i : Nat) : Fld := ⟨(ZLK_CTRL.key i), 2, 1, 0⟩
/-- The key of register ZLK_RETRY. -/
def ZLK_RETRY.key (i : Nat) : Nat := mgmtKey (0x00400000 + 0x100 * i) + 0x28
def ZLK_RETRY.REPLAYS (i : Nat) : Fld := ⟨(ZLK_RETRY.key i), 0, 32, 0⟩
def ZLK_RETRY.RETRAINS (i : Nat) : Fld := ⟨(ZLK_RETRY.key i), 32, 16, 0⟩
def ZLK_RETRY.TRAIN_FAILS (i : Nat) : Fld := ⟨(ZLK_RETRY.key i), 48, 16, 0⟩
/-- The key of register ZLK_FEC. -/
def ZLK_FEC.key (i : Nat) : Nat := mgmtKey (0x00400000 + 0x100 * i) + 0x30
def ZLK_FEC.CORR (i : Nat) : Fld := ⟨(ZLK_FEC.key i), 0, 32, 0⟩
def ZLK_FEC.UNCORR (i : Nat) : Fld := ⟨(ZLK_FEC.key i), 32, 32, 0⟩
/-- The key of register ZLK_CRC. -/
def ZLK_CRC.key (i : Nat) : Nat := mgmtKey (0x00400000 + 0x100 * i) + 0x38
def ZLK_CRC.COUNT (i : Nat) : Fld := ⟨(ZLK_CRC.key i), 0, 64, 0⟩
/-- The key of register ZLK_RXDROP. -/
def ZLK_RXDROP.key (i : Nat) : Nat := mgmtKey (0x00400000 + 0x100 * i) + 0x40
def ZLK_RXDROP.COUNT (i : Nat) : Fld := ⟨(ZLK_RXDROP.key i), 0, 64, 0⟩
/-- The key of register ZTP_MCFG. -/
def ZTP_MCFG.key : Nat := mgmtKey 0x00500000 + 0x0
def ZTP_MCFG.RTO : Fld := ⟨ZTP_MCFG.key, 0, 16, 0x64⟩
def ZTP_MCFG.UDP_PORT : Fld := ⟨ZTP_MCFG.key, 16, 16, 0xbcde⟩
def ZTP_MCFG.DSCP : Fld := ⟨ZTP_MCFG.key, 32, 6, 0⟩
def ZTP_MCFG.VLAN_EN : Fld := ⟨ZTP_MCFG.key, 38, 1, 0⟩
def ZTP_MCFG.VID : Fld := ⟨ZTP_MCFG.key, 39, 12, 0⟩
def ZTP_MCFG.PCP : Fld := ⟨ZTP_MCFG.key, 51, 3, 0⟩
/-- The key of register ZTP_RT_CTRL. -/
def ZTP_RT_CTRL.key (p : Nat) : Nat := regKey p 0x07000000 + 0x0
def ZTP_RT_CTRL.SWAP_ARM (p : Nat) : Fld := ⟨(ZTP_RT_CTRL.key p), 0, 1, 0⟩
def ZTP_RT_CTRL.ACTIVE (p : Nat) : Fld := ⟨(ZTP_RT_CTRL.key p), 1, 1, 0⟩
def ZTP_RT_CTRL.SWAPS (p : Nat) : Fld := ⟨(ZTP_RT_CTRL.key p), 16, 32, 0⟩
/-- The key of register ZTP_RT_BASE. -/
def ZTP_RT_BASE.key (p : Nat) : Nat := regKey p 0x07000000 + 0x8
def ZTP_RT_BASE.BASE (p : Nat) : Fld := ⟨(ZTP_RT_BASE.key p), 0, 48, 0⟩
/-- The key of register ZTP_PARK. -/
def ZTP_PARK.key (p : Nat) : Nat := regKey p 0x07000000 + 0x10
def ZTP_PARK.DEPTH (p : Nat) : Fld := ⟨(ZTP_PARK.key p), 0, 9, 0⟩
def ZTP_PARK.PARKED (p : Nat) : Fld := ⟨(ZTP_PARK.key p), 32, 32, 0⟩
/-- The key of register ZTP_STALE. -/
def ZTP_STALE.key (p : Nat) : Nat := regKey p 0x07000000 + 0x18
def ZTP_STALE.COUNT (p : Nat) : Fld := ⟨(ZTP_STALE.key p), 0, 64, 0⟩
/-- The key of register ZTP_WINVIOL. -/
def ZTP_WINVIOL.key (p : Nat) : Nat := regKey p 0x07000000 + 0x20
def ZTP_WINVIOL.COUNT (p : Nat) : Fld := ⟨(ZTP_WINVIOL.key p), 0, 64, 0⟩
/-- The key of register ZTP_AUTHFAIL. -/
def ZTP_AUTHFAIL.key (p : Nat) : Nat := regKey p 0x07000000 + 0x28
def ZTP_AUTHFAIL.COUNT (p : Nat) : Fld := ⟨(ZTP_AUTHFAIL.key p), 0, 64, 0⟩
/-- The key of register ZTP_RETX. -/
def ZTP_RETX.key (p : Nat) : Nat := regKey p 0x07000000 + 0x30
def ZTP_RETX.COUNT (p : Nat) : Fld := ⟨(ZTP_RETX.key p), 0, 64, 0⟩
/-- The key of register ZTP_CTX_SEL. -/
def ZTP_CTX_SEL.key (p : Nat) : Nat := regKey p 0x07000000 + 0x40
def ZTP_CTX_SEL.HANDLE (p : Nat) : Fld := ⟨(ZTP_CTX_SEL.key p), 0, 32, 0⟩
/-- The key of register ZTP_CTX_W. -/
def ZTP_CTX_W.key (p : Nat) (w : Nat) : Nat := regKey p 0x07000000 + 0x80 + 0x8 * w
def ZTP_CTX_W.W (p : Nat) (w : Nat) : Fld := ⟨(ZTP_CTX_W.key p w), 0, 64, 0⟩
/-- The key of register COL_CFG. -/
def COL_CFG.key (p : Nat) : Nat := regKey p 0x08000000 + 0x0
def COL_CFG.FAST_EN (p : Nat) : Fld := ⟨(COL_CFG.key p), 0, 1, 0⟩
def COL_CFG.QCHAN (p : Nat) : Fld := ⟨(COL_CFG.key p), 1, 6, 8⟩
def COL_CFG.QOPEN (p : Nat) : Fld := ⟨(COL_CFG.key p), 16, 9, 0⟩
/-- The key of register COL_OPS. -/
def COL_OPS.key (p : Nat) : Nat := regKey p 0x08000000 + 0x8
def COL_OPS.COUNT (p : Nat) : Fld := ⟨(COL_OPS.key p), 0, 64, 0⟩
/-- The key of register COL_BYTES. -/
def COL_BYTES.key (p : Nat) : Nat := regKey p 0x08000000 + 0x10
def COL_BYTES.COUNT (p : Nat) : Fld := ⟨(COL_BYTES.key p), 0, 64, 0⟩
/-- The key of register COL_Q_CFG. -/
def COL_Q_CFG.key (p : Nat) (q : Nat) : Nat := regKey p 0x08000000 + 0x10000 + 0x40 * q
def COL_Q_CFG.GROUP (p : Nat) (q : Nat) : Fld := ⟨(COL_Q_CFG.key p q), 0, 32, 0⟩
def COL_Q_CFG.EPOCH (p : Nat) (q : Nat) : Fld := ⟨(COL_Q_CFG.key p q), 32, 16, 0⟩
def COL_Q_CFG.RADIX (p : Nat) (q : Nat) : Fld := ⟨(COL_Q_CFG.key p q), 48, 7, 0x20⟩
def COL_Q_CFG.CHUNK (p : Nat) (q : Nat) : Fld := ⟨(COL_Q_CFG.key p q), 55, 9, 0x10⟩
/-- The key of register COL_Q_RANK. -/
def COL_Q_RANK.key (p : Nat) (q : Nat) : Nat := regKey p 0x08000000 + 0x10008 + 0x40 * q
def COL_Q_RANK.RANK (p : Nat) (q : Nat) : Fld := ⟨(COL_Q_RANK.key p q), 0, 22, 0⟩
def COL_Q_RANK.N (p : Nat) (q : Nat) : Fld := ⟨(COL_Q_RANK.key p q), 22, 23, 0⟩
def COL_Q_RANK.OPEN (p : Nat) (q : Nat) : Fld := ⟨(COL_Q_RANK.key p q), 45, 1, 0⟩
def COL_Q_RANK.ERR (p : Nat) (q : Nat) : Fld := ⟨(COL_Q_RANK.key p q), 46, 1, 0⟩
def COL_Q_RANK.ERRSTAT (p : Nat) (q : Nat) : Fld := ⟨(COL_Q_RANK.key p q), 47, 3, 0⟩
/-- The key of register COL_Q_MTBL. -/
def COL_Q_MTBL.key (p : Nat) (q : Nat) : Nat := regKey p 0x08000000 + 0x10010 + 0x40 * q
def COL_Q_MTBL.BASE (p : Nat) (q : Nat) : Fld := ⟨(COL_Q_MTBL.key p q), 0, 48, 0⟩
/-- The key of register COL_Q_STAGE. -/
def COL_Q_STAGE.key (p : Nat) (q : Nat) : Nat := regKey p 0x08000000 + 0x10018 + 0x40 * q
def COL_Q_STAGE.BASE (p : Nat) (q : Nat) : Fld := ⟨(COL_Q_STAGE.key p q), 0, 48, 0⟩
/-- The key of register COL_Q_RING. -/
def COL_Q_RING.key (p : Nat) (q : Nat) : Nat := regKey p 0x08000000 + 0x10020 + 0x40 * q
def COL_Q_RING.BASE (p : Nat) (q : Nat) : Fld := ⟨(COL_Q_RING.key p q), 0, 48, 0⟩
/-- The key of register COL_Q_CTRL. -/
def COL_Q_CTRL.key (p : Nat) (q : Nat) : Nat := regKey p 0x08000000 + 0x10028 + 0x40 * q
def COL_Q_CTRL.OPEN (p : Nat) (q : Nat) : Fld := ⟨(COL_Q_CTRL.key p q), 0, 1, 0⟩
def COL_Q_CTRL.CLOSE (p : Nat) (q : Nat) : Fld := ⟨(COL_Q_CTRL.key p q), 1, 1, 0⟩
/-- The key of register COL_Q_SEQ. -/
def COL_Q_SEQ.key (p : Nat) (q : Nat) : Nat := regKey p 0x08000000 + 0x10030 + 0x40 * q
def COL_Q_SEQ.TAIL (p : Nat) (q : Nat) : Fld := ⟨(COL_Q_SEQ.key p q), 0, 24, 0⟩
def COL_Q_SEQ.DONE (p : Nat) (q : Nat) : Fld := ⟨(COL_Q_SEQ.key p q), 24, 24, 0⟩
/-- The key of register COL_Q_HANDLE. -/
def COL_Q_HANDLE.key (p : Nat) (q : Nat) : Nat := regKey p 0x08000000 + 0x10038 + 0x40 * q
def COL_Q_HANDLE.HANDLE (p : Nat) (q : Nat) : Fld := ⟨(COL_Q_HANDLE.key p q), 0, 32, 0⟩
/-- The key of register ASY_STATUS. -/
def ASY_STATUS.key (p : Nat) : Nat := regKey p 0x0B000000 + 0x0
def ASY_STATUS.FT_ADVISED (p : Nat) : Fld := ⟨(ASY_STATUS.key p), 0, 1, 0⟩
def ASY_STATUS.UBUSY (p : Nat) : Fld := ⟨(ASY_STATUS.key p), 1, 1, 0⟩
/-- The key of register ASY_NDET. -/
def ASY_NDET.key (p : Nat) : Nat := regKey p 0x0B000000 + 0x8
def ASY_NDET.COUNT (p : Nat) : Fld := ⟨(ASY_NDET.key p), 0, 64, 0⟩
/-- The key of register ASY_NDET_KSPLIT. -/
def ASY_NDET_KSPLIT.key (p : Nat) : Nat := regKey p 0x0B000000 + 0x10
def ASY_NDET_KSPLIT.COUNT (p : Nat) : Fld := ⟨(ASY_NDET_KSPLIT.key p), 0, 64, 0⟩
/-- The key of register ASY_NDET_COLL. -/
def ASY_NDET_COLL.key (p : Nat) : Nat := regKey p 0x0B000000 + 0x18
def ASY_NDET_COLL.COUNT (p : Nat) : Fld := ⟨(ASY_NDET_COLL.key p), 0, 64, 0⟩
/-- The key of register ASY_NDET_DISP. -/
def ASY_NDET_DISP.key (p : Nat) : Nat := regKey p 0x0B000000 + 0x20
def ASY_NDET_DISP.COUNT (p : Nat) : Fld := ⟨(ASY_NDET_DISP.key p), 0, 64, 0⟩
/-- The key of register ASY_NDET_STEP. -/
def ASY_NDET_STEP.key (p : Nat) : Nat := regKey p 0x0B000000 + 0x28
def ASY_NDET_STEP.COUNT (p : Nat) : Fld := ⟨(ASY_NDET_STEP.key p), 0, 64, 0⟩
/-- The key of register ASY_PDIG. -/
def ASY_PDIG.key (p : Nat) (i : Nat) : Nat := regKey p 0x0B000000 + 0x40 + 0x8 * i
def ASY_PDIG.DIGEST (p : Nat) (i : Nat) : Fld := ⟨(ASY_PDIG.key p i), 0, 64, 0⟩
/-- The key of register ASY_TAG_CTRL. -/
def ASY_TAG_CTRL.key (p : Nat) : Nat := regKey p 0x0B000000 + 0x60
def ASY_TAG_CTRL.GO (p : Nat) : Fld := ⟨(ASY_TAG_CTRL.key p), 0, 1, 0⟩
/-- The key of register ASY_TAG_STEP. -/
def ASY_TAG_STEP.key (p : Nat) : Nat := regKey p 0x0B000000 + 0x68
def ASY_TAG_STEP.VALUE (p : Nat) : Fld := ⟨(ASY_TAG_STEP.key p), 0, 64, 0⟩
/-- The key of register ASY_TAG_LIST. -/
def ASY_TAG_LIST.key (p : Nat) : Nat := regKey p 0x0B000000 + 0x70
def ASY_TAG_LIST.VALUE (p : Nat) : Fld := ⟨(ASY_TAG_LIST.key p), 0, 48, 0⟩
/-- The key of register ASY_TAG_STATUS. -/
def ASY_TAG_STATUS.key (p : Nat) : Nat := regKey p 0x0B000000 + 0x78
def ASY_TAG_STATUS.BUSY (p : Nat) : Fld := ⟨(ASY_TAG_STATUS.key p), 0, 1, 0⟩
def ASY_TAG_STATUS.STAT (p : Nat) : Fld := ⟨(ASY_TAG_STATUS.key p), 1, 3, 0⟩
def ASY_TAG_STATUS.DONE (p : Nat) : Fld := ⟨(ASY_TAG_STATUS.key p), 32, 32, 0⟩
/-- The key of register ASY_TAG. -/
def ASY_TAG.key (p : Nat) (i : Nat) : Nat := regKey p 0x0B000000 + 0x80 + 0x8 * i
def ASY_TAG.TAG (p : Nat) (i : Nat) : Fld := ⟨(ASY_TAG.key p i), 0, 64, 0⟩
/-- The key of register ASY_UTAG. -/
def ASY_UTAG.key (p : Nat) (i : Nat) : Nat := regKey p 0x0B000000 + 0xa0 + 0x8 * i
def ASY_UTAG.TAG (p : Nat) (i : Nat) : Fld := ⟨(ASY_UTAG.key p i), 0, 64, 0⟩
/-- The key of register ASY_VCFG. -/
def ASY_VCFG.key (p : Nat) : Nat := regKey p 0x0B000000 + 0xc0
def ASY_VCFG.REPL (p : Nat) : Fld := ⟨(ASY_VCFG.key p), 0, 4, 1⟩
def ASY_VCFG.OWN (p : Nat) : Fld := ⟨(ASY_VCFG.key p), 4, 3, 0⟩
def ASY_VCFG.TIMEOUT (p : Nat) : Fld := ⟨(ASY_VCFG.key p), 16, 16, 0x64⟩
/-- The key of register ASY_VPEER. -/
def ASY_VPEER.key (p : Nat) (k : Nat) : Nat := regKey p 0x0B000000 + 0xc8 + 0x8 * k
def ASY_VPEER.RANK (p : Nat) (k : Nat) : Fld := ⟨(ASY_VPEER.key p k), 0, 22, 0⟩
/-- The key of register ASY_VOTE. -/
def ASY_VOTE.key (p : Nat) : Nat := regKey p 0x0B000000 + 0x108
def ASY_VOTE.OUTCOME (p : Nat) : Fld := ⟨(ASY_VOTE.key p), 0, 3, 0⟩
def ASY_VOTE.ATTEMPT (p : Nat) : Fld := ⟨(ASY_VOTE.key p), 3, 2, 0⟩
def ASY_VOTE.DEVMASK (p : Nat) : Fld := ⟨(ASY_VOTE.key p), 8, 8, 0⟩
def ASY_VOTE.STEP (p : Nat) : Fld := ⟨(ASY_VOTE.key p), 16, 48, 0⟩
/-- The key of register ASY_VCOUNT. -/
def ASY_VCOUNT.key (p : Nat) : Nat := regKey p 0x0B000000 + 0x110
def ASY_VCOUNT.CHECKED (p : Nat) : Fld := ⟨(ASY_VCOUNT.key p), 0, 32, 0⟩
def ASY_VCOUNT.DEVIANT (p : Nat) : Fld := ⟨(ASY_VCOUNT.key p), 32, 12, 0⟩
def ASY_VCOUNT.SPLIT (p : Nat) : Fld := ⟨(ASY_VCOUNT.key p), 44, 12, 0⟩
def ASY_VCOUNT.MISSING (p : Nat) : Fld := ⟨(ASY_VCOUNT.key p), 56, 8, 0⟩
/-- The key of register ASY_VSTALE. -/
def ASY_VSTALE.key (p : Nat) : Nat := regKey p 0x0B000000 + 0x118
def ASY_VSTALE.COUNT (p : Nat) : Fld := ⟨(ASY_VSTALE.key p), 0, 64, 0⟩
/-- The key of register ASY_RING. -/
def ASY_RING.key (p : Nat) : Nat := regKey p 0x0B000000 + 0x120
def ASY_RING.PROD (p : Nat) : Fld := ⟨(ASY_RING.key p), 0, 10, 0⟩
def ASY_RING.CONS (p : Nat) : Fld := ⟨(ASY_RING.key p), 16, 10, 0⟩
def ASY_RING.LOST (p : Nat) : Fld := ⟨(ASY_RING.key p), 32, 16, 0⟩
/-- The key of register ASY_RING_BASE. -/
def ASY_RING_BASE.key (p : Nat) : Nat := regKey p 0x0B000000 + 0x128
def ASY_RING_BASE.BASE (p : Nat) : Fld := ⟨(ASY_RING_BASE.key p), 0, 48, 0⟩
/-- The key of register ASY_FT. -/
def ASY_FT.key (p : Nat) : Nat := regKey p 0x0B000000 + 0x130
def ASY_FT.BUSY (p : Nat) : Fld := ⟨(ASY_FT.key p), 0, 1, 0⟩
def ASY_FT.RESULT (p : Nat) : Fld := ⟨(ASY_FT.key p), 1, 2, 0⟩
def ASY_FT.PHASE (p : Nat) : Fld := ⟨(ASY_FT.key p), 3, 3, 0⟩
def ASY_FT.CORES (p : Nat) : Fld := ⟨(ASY_FT.key p), 8, 8, 0⟩
def ASY_FT.CHANS (p : Nat) : Fld := ⟨(ASY_FT.key p), 16, 32, 0⟩
def ASY_FT.RUNS (p : Nat) : Fld := ⟨(ASY_FT.key p), 48, 16, 0⟩
/-- The key of register ASY_TRANS. -/
def ASY_TRANS.key (p : Nat) : Nat := regKey p 0x0B000000 + 0x138
def ASY_TRANS.COUNT (p : Nat) : Fld := ⟨(ASY_TRANS.key p), 0, 64, 0⟩
/-- The key of register STR_CFG. -/
def STR_CFG.key (p : Nat) : Nat := regKey p 0x0A000000 + 0x0
def STR_CFG.MIRROR_EN (p : Nat) : Fld := ⟨(STR_CFG.key p), 0, 1, 1⟩
def STR_CFG.NARROW (p : Nat) : Fld := ⟨(STR_CFG.key p), 1, 1, 1⟩
def STR_CFG.ONCE_EN (p : Nat) : Fld := ⟨(STR_CFG.key p), 2, 1, 1⟩
/-- The key of register STR_STATUS. -/
def STR_STATUS.key (p : Nat) : Nat := regKey p 0x0A000000 + 0x8
def STR_STATUS.PHASE (p : Nat) : Fld := ⟨(STR_STATUS.key p), 0, 3, 0⟩
def STR_STATUS.SKIP (p : Nat) : Fld := ⟨(STR_STATUS.key p), 3, 1, 0⟩
def STR_STATUS.HELD (p : Nat) : Fld := ⟨(STR_STATUS.key p), 4, 2, 0⟩
def STR_STATUS.OWN (p : Nat) : Fld := ⟨(STR_STATUS.key p), 6, 2, 0⟩
/-- The key of register STR_STEP. -/
def STR_STEP.key (p : Nat) : Nat := regKey p 0x0A000000 + 0x10
def STR_STEP.STEP (p : Nat) : Fld := ⟨(STR_STEP.key p), 0, 64, 0⟩
/-- The key of register STR_MSTEP. -/
def STR_MSTEP.key (p : Nat) : Nat := regKey p 0x0A000000 + 0x18
def STR_MSTEP.STEP (p : Nat) : Fld := ⟨(STR_MSTEP.key p), 0, 64, 0⟩
/-- The key of register STR_TSL. -/
def STR_TSL.key (p : Nat) : Nat := regKey p 0x0A000000 + 0x20
def STR_TSL.ADDR (p : Nat) : Fld := ⟨(STR_TSL.key p), 0, 48, 0⟩
def STR_TSL.NT (p : Nat) : Fld := ⟨(STR_TSL.key p), 48, 7, 0⟩
/-- The key of register STR_BUDDY. -/
def STR_BUDDY.key (p : Nat) : Nat := regKey p 0x0A000000 + 0x28
def STR_BUDDY.CELL (p : Nat) : Fld := ⟨(STR_BUDDY.key p), 0, 13, 0⟩
def STR_BUDDY.POS (p : Nat) : Fld := ⟨(STR_BUDDY.key p), 13, 5, 0⟩
def STR_BUDDY.HANDLE (p : Nat) : Fld := ⟨(STR_BUDDY.key p), 32, 32, 0⟩
/-- The key of register STR_MHELD. -/
def STR_MHELD.key (p : Nat) : Nat := regKey p 0x0A000000 + 0x30
def STR_MHELD.BASE (p : Nat) : Fld := ⟨(STR_MHELD.key p), 0, 48, 0⟩
/-- The key of register STR_MHELD_LEN. -/
def STR_MHELD_LEN.key (p : Nat) : Nat := regKey p 0x0A000000 + 0x38
def STR_MHELD_LEN.BLOCKS (p : Nat) : Fld := ⟨(STR_MHELD_LEN.key p), 0, 38, 0⟩
/-- The key of register STR_UPD. -/
def STR_UPD.key (p : Nat) : Nat := regKey p 0x0A000000 + 0x40
def STR_UPD.BEGIN (p : Nat) : Fld := ⟨(STR_UPD.key p), 0, 1, 0⟩
def STR_UPD.QUEUE (p : Nat) : Fld := ⟨(STR_UPD.key p), 1, 8, 0⟩
def STR_UPD.SEQ (p : Nat) : Fld := ⟨(STR_UPD.key p), 16, 24, 0⟩
/-- The key of register STR_NF. -/
def STR_NF.key (p : Nat) : Nat := regKey p 0x0A000000 + 0x48
def STR_NF.FLAG (p : Nat) : Fld := ⟨(STR_NF.key p), 0, 1, 0⟩
/-- The key of register STR_LSCALE. -/
def STR_LSCALE.key (p : Nat) : Nat := regKey p 0x0A000000 + 0x50
def STR_LSCALE.SCALE (p : Nat) : Fld := ⟨(STR_LSCALE.key p), 0, 32, 0x47800000⟩
/-- The key of register STR_SKIPS. -/
def STR_SKIPS.key (p : Nat) : Nat := regKey p 0x0A000000 + 0x58
def STR_SKIPS.COUNT (p : Nat) : Fld := ⟨(STR_SKIPS.key p), 0, 64, 0⟩
/-- The key of register STR_RING_BASE. -/
def STR_RING_BASE.key (p : Nat) : Nat := regKey p 0x0A000000 + 0x60
def STR_RING_BASE.BASE (p : Nat) : Fld := ⟨(STR_RING_BASE.key p), 0, 48, 0⟩
/-- The key of register STR_RING_LEN. -/
def STR_RING_LEN.key (p : Nat) : Nat := regKey p 0x0A000000 + 0x68
def STR_RING_LEN.LEN (p : Nat) : Fld := ⟨(STR_RING_LEN.key p), 0, 41, 0⟩
/-- The key of register STR_RING_USE. -/
def STR_RING_USE.key (p : Nat) : Nat := regKey p 0x0A000000 + 0x70
def STR_RING_USE.USED0 (p : Nat) : Fld := ⟨(STR_RING_USE.key p), 0, 31, 0⟩
def STR_RING_USE.USED1 (p : Nat) : Fld := ⟨(STR_RING_USE.key p), 31, 31, 0⟩
def STR_RING_USE.OVF0 (p : Nat) : Fld := ⟨(STR_RING_USE.key p), 62, 1, 0⟩
def STR_RING_USE.OVF1 (p : Nat) : Fld := ⟨(STR_RING_USE.key p), 63, 1, 0⟩
/-- The key of register STR_CKPT_CTRL. -/
def STR_CKPT_CTRL.key (p : Nat) : Nat := regKey p 0x0A000000 + 0x78
def STR_CKPT_CTRL.SNAP (p : Nat) : Fld := ⟨(STR_CKPT_CTRL.key p), 0, 1, 0⟩
def STR_CKPT_CTRL.SUSPEND (p : Nat) : Fld := ⟨(STR_CKPT_CTRL.key p), 1, 1, 0⟩
def STR_CKPT_CTRL.STOP (p : Nat) : Fld := ⟨(STR_CKPT_CTRL.key p), 2, 1, 0⟩
/-- The key of register STR_CKPT_CFG. -/
def STR_CKPT_CFG.key (p : Nat) : Nat := regKey p 0x0A000000 + 0x80
def STR_CKPT_CFG.RATE (p : Nat) : Fld := ⟨(STR_CKPT_CFG.key p), 0, 32, 0⟩
def STR_CKPT_CFG.BUDGET_MS (p : Nat) : Fld := ⟨(STR_CKPT_CFG.key p), 32, 32, 0⟩
/-- The key of register STR_CKPT_STATUS. -/
def STR_CKPT_STATUS.key (p : Nat) : Nat := regKey p 0x0A000000 + 0x88
def STR_CKPT_STATUS.BUSY (p : Nat) : Fld := ⟨(STR_CKPT_STATUS.key p), 0, 1, 0⟩
def STR_CKPT_STATUS.STAT (p : Nat) : Fld := ⟨(STR_CKPT_STATUS.key p), 1, 3, 0⟩
def STR_CKPT_STATUS.ONCE (p : Nat) : Fld := ⟨(STR_CKPT_STATUS.key p), 4, 1, 0⟩
def STR_CKPT_STATUS.WROTE (p : Nat) : Fld := ⟨(STR_CKPT_STATUS.key p), 5, 1, 0⟩
def STR_CKPT_STATUS.STEP (p : Nat) : Fld := ⟨(STR_CKPT_STATUS.key p), 16, 48, 0⟩
/-- The key of register STR_CKPT_EP. -/
def STR_CKPT_EP.key (p : Nat) : Nat := regKey p 0x0A000000 + 0x90
def STR_CKPT_EP.OWN (p : Nat) : Fld := ⟨(STR_CKPT_EP.key p), 0, 32, 0⟩
def STR_CKPT_EP.HELD (p : Nat) : Fld := ⟨(STR_CKPT_EP.key p), 32, 32, 0⟩
/-- The key of register STR_MWAIT. -/
def STR_MWAIT.key (p : Nat) : Nat := regKey p 0x0A000000 + 0x98
def STR_MWAIT.COUNT (p : Nat) : Fld := ⟨(STR_MWAIT.key p), 0, 64, 0⟩
/-- The key of register STR_MBYTES. -/
def STR_MBYTES.key (p : Nat) : Nat := regKey p 0x0A000000 + 0xa0
def STR_MBYTES.COUNT (p : Nat) : Fld := ⟨(STR_MBYTES.key p), 0, 64, 0⟩
/-- The key of register STR_SUPP. -/
def STR_SUPP.key (p : Nat) : Nat := regKey p 0x0A000000 + 0xa8
def STR_SUPP.COUNT (p : Nat) : Fld := ⟨(STR_SUPP.key p), 0, 64, 0⟩
/-- The key of register PRT_WDT_CFG. -/
def PRT_WDT_CFG.key (p : Nat) : Nat := regKey p 0x00000000 + 0x50
def PRT_WDT_CFG.ENG_MS (p : Nat) : Fld := ⟨(PRT_WDT_CFG.key p), 0, 16, 0xa⟩
def PRT_WDT_CFG.FLT_MS (p : Nat) : Fld := ⟨(PRT_WDT_CFG.key p), 16, 16, 0x3e8⟩
def PRT_WDT_CFG.STEP_S (p : Nat) : Fld := ⟨(PRT_WDT_CFG.key p), 32, 16, 0x258⟩
/-- The key of register PRT_WDT_STAT. -/
def PRT_WDT_STAT.key (p : Nat) : Nat := regKey p 0x00000000 + 0x58
def PRT_WDT_STAT.LAST (p : Nat) : Fld := ⟨(PRT_WDT_STAT.key p), 0, 3, 0⟩
def PRT_WDT_STAT.UNIT (p : Nat) : Fld := ⟨(PRT_WDT_STAT.key p), 16, 16, 0⟩
def PRT_WDT_STAT.COUNT (p : Nat) : Fld := ⟨(PRT_WDT_STAT.key p), 32, 32, 0⟩
/-- The key of register PRT_RST_LOG. -/
def PRT_RST_LOG.key (p : Nat) : Nat := regKey p 0x00000000 + 0x60
def PRT_RST_LOG.KIND (p : Nat) : Fld := ⟨(PRT_RST_LOG.key p), 0, 2, 0⟩
def PRT_RST_LOG.STAGE (p : Nat) : Fld := ⟨(PRT_RST_LOG.key p), 2, 3, 0⟩
def PRT_RST_LOG.ESC (p : Nat) : Fld := ⟨(PRT_RST_LOG.key p), 5, 2, 0⟩
def PRT_RST_LOG.SUSPECT (p : Nat) : Fld := ⟨(PRT_RST_LOG.key p), 7, 1, 0⟩
def PRT_RST_LOG.COLD (p : Nat) : Fld := ⟨(PRT_RST_LOG.key p), 8, 24, 0⟩
def PRT_RST_LOG.RESETS (p : Nat) : Fld := ⟨(PRT_RST_LOG.key p), 32, 32, 0⟩
/-- The key of register PRT_JOB. -/
def PRT_JOB.key (p : Nat) : Nat := regKey p 0x00000000 + 0x68
def PRT_JOB.JOB (p : Nat) : Fld := ⟨(PRT_JOB.key p), 0, 64, 0⟩
/-- The key of register PRT_JOB2. -/
def PRT_JOB2.key (p : Nat) : Nat := regKey p 0x00000000 + 0x70
def PRT_JOB2.MEPOCH (p : Nat) : Fld := ⟨(PRT_JOB2.key p), 0, 32, 0⟩
def PRT_JOB2.AWAVE (p : Nat) : Fld := ⟨(PRT_JOB2.key p), 32, 32, 0⟩
/-- The key of register PRT_ABORT. -/
def PRT_ABORT.key (p : Nat) : Nat := regKey p 0x00000000 + 0x78
def PRT_ABORT.CAUSE (p : Nat) : Fld := ⟨(PRT_ABORT.key p), 0, 4, 0⟩
def PRT_ABORT.OCELL (p : Nat) : Fld := ⟨(PRT_ABORT.key p), 4, 13, 0⟩
def PRT_ABORT.OPOS (p : Nat) : Fld := ⟨(PRT_ABORT.key p), 17, 5, 0⟩
def PRT_ABORT.UNIT (p : Nat) : Fld := ⟨(PRT_ABORT.key p), 22, 16, 0⟩
def PRT_ABORT.WAVES (p : Nat) : Fld := ⟨(PRT_ABORT.key p), 38, 26, 0⟩
/-- The key of register PRT_QC. -/
def PRT_QC.key (p : Nat) : Nat := regKey p 0x00000000 + 0x80
def PRT_QC.ACCEPTED (p : Nat) : Fld := ⟨(PRT_QC.key p), 0, 16, 0⟩
def PRT_QC.REJECTED (p : Nat) : Fld := ⟨(PRT_QC.key p), 16, 16, 0⟩
def PRT_QC.REASON (p : Nat) : Fld := ⟨(PRT_QC.key p), 32, 3, 0⟩
def PRT_QC.CONFLICT (p : Nat) : Fld := ⟨(PRT_QC.key p), 35, 1, 0⟩
/-- The key of register BDR_ID. -/
def BDR_ID.key : Nat := mgmtKey 0x00100000 + 0x0
def BDR_ID.SERIAL : Fld := ⟨BDR_ID.key, 0, 64, 0⟩
/-- The key of register BDR_SEC. -/
def BDR_SEC.key : Nat := mgmtKey 0x00100000 + 0x8
def BDR_SEC.SVN : Fld := ⟨BDR_SEC.key, 0, 8, 0⟩
def BDR_SEC.DBG_LOCK : Fld := ⟨BDR_SEC.key, 8, 1, 0⟩
def BDR_SEC.DRBG_OK : Fld := ⟨BDR_SEC.key, 9, 1, 1⟩
def BDR_SEC.ISOLATE : Fld := ⟨BDR_SEC.key, 10, 1, 0⟩
def BDR_SEC.IDE : Fld := ⟨BDR_SEC.key, 11, 2, 0⟩
def BDR_SEC.PF16_SESS : Fld := ⟨BDR_SEC.key, 13, 2, 0⟩
/-- The key of register BDR_PSEC. -/
def BDR_PSEC.key (n : Nat) : Nat := mgmtKey 0x00100000 + 0x100 + 0x8 * n
def BDR_PSEC.CLAIMED (n : Nat) : Fld := ⟨(BDR_PSEC.key n), 0, 1, 0⟩
def BDR_PSEC.SESSION (n : Nat) : Fld := ⟨(BDR_PSEC.key n), 1, 1, 0⟩
def BDR_PSEC.PROVISIONED (n : Nat) : Fld := ⟨(BDR_PSEC.key n), 2, 1, 0⟩
def BDR_PSEC.KEYGEN (n : Nat) : Fld := ⟨(BDR_PSEC.key n), 16, 16, 0⟩
def BDR_PSEC.ADMITS (n : Nat) : Fld := ⟨(BDR_PSEC.key n), 32, 16, 0⟩
def BDR_PSEC.PROOF_FAIL (n : Nat) : Fld := ⟨(BDR_PSEC.key n), 48, 16, 0⟩
/-- The key of register BDR_ATT. -/
def BDR_ATT.key : Nat := mgmtKey 0x00100000 + 0x200
def BDR_ATT.MEAS : Fld := ⟨BDR_ATT.key, 0, 32, 0⟩
def BDR_ATT.SESS_FAIL : Fld := ⟨BDR_ATT.key, 32, 16, 0⟩
def BDR_ATT.REFUSED : Fld := ⟨BDR_ATT.key, 48, 16, 0⟩
/-- The key of register BDR_DRBG. -/
def BDR_DRBG.key : Nat := mgmtKey 0x00100000 + 0x208
def BDR_DRBG.RESEEDS : Fld := ⟨BDR_DRBG.key, 0, 32, 0⟩
def BDR_DRBG.HEALTH_FAIL : Fld := ⟨BDR_DRBG.key, 32, 16, 0⟩
/-- The key of register HST_LINK. -/
def HST_LINK.key : Nat := mgmtKey 0 + 0x0
def HST_LINK.SPEED : Fld := ⟨HST_LINK.key, 0, 3, 0⟩
def HST_LINK.WIDTH : Fld := ⟨HST_LINK.key, 3, 5, 0⟩
def HST_LINK.FLIT : Fld := ⟨HST_LINK.key, 8, 1, 0⟩
def HST_LINK.UP : Fld := ⟨HST_LINK.key, 9, 1, 0⟩
def HST_LINK.RETRAINS : Fld := ⟨HST_LINK.key, 32, 32, 0⟩
/-- The key of register HST_LINKERR. -/
def HST_LINKERR.key : Nat := mgmtKey 0 + 0x8
def HST_LINKERR.CORR : Fld := ⟨HST_LINKERR.key, 0, 24, 0⟩
def HST_LINKERR.UNCORR : Fld := ⟨HST_LINKERR.key, 24, 12, 0⟩
def HST_LINKERR.FLR : Fld := ⟨HST_LINKERR.key, 36, 12, 0⟩
def HST_LINKERR.IGNORED : Fld := ⟨HST_LINKERR.key, 48, 16, 0⟩
/-- The key of register HST_MREQ. -/
def HST_MREQ.key : Nat := mgmtKey 0 + 0x10
def HST_MREQ.OP : Fld := ⟨HST_MREQ.key, 0, 3, 0⟩
def HST_MREQ.PART : Fld := ⟨HST_MREQ.key, 4, 4, 0⟩
def HST_MREQ.HADDR : Fld := ⟨HST_MREQ.key, 12, 52, 0⟩
/-- The key of register HST_MREQ_STAT. -/
def HST_MREQ_STAT.key : Nat := mgmtKey 0 + 0x18
def HST_MREQ_STAT.BUSY : Fld := ⟨HST_MREQ_STAT.key, 0, 1, 0⟩
def HST_MREQ_STAT.RESULT : Fld := ⟨HST_MREQ_STAT.key, 1, 2, 0⟩
def HST_MREQ_STAT.REASON : Fld := ⟨HST_MREQ_STAT.key, 3, 3, 0⟩
def HST_MREQ_STAT.REFUSED : Fld := ⟨HST_MREQ_STAT.key, 32, 32, 0⟩
/-- The key of register HST_ELOG. -/
def HST_ELOG.key : Nat := mgmtKey 0 + 0x20
def HST_ELOG.PROD : Fld := ⟨HST_ELOG.key, 0, 10, 0⟩
def HST_ELOG.CONS : Fld := ⟨HST_ELOG.key, 16, 10, 0⟩
def HST_ELOG.LOST : Fld := ⟨HST_ELOG.key, 32, 32, 0⟩
/-- The key of register HST_SQ_BASE. -/
def HST_SQ_BASE.key (n : Nat) : Nat := pfKey n 0 + 0x0
def HST_SQ_BASE.SIZE (n : Nat) : Fld := ⟨(HST_SQ_BASE.key n), 0, 3, 0⟩
def HST_SQ_BASE.ADDR (n : Nat) : Fld := ⟨(HST_SQ_BASE.key n), 12, 52, 0⟩
/-- The key of register HST_CQ_BASE. -/
def HST_CQ_BASE.key (n : Nat) : Nat := pfKey n 0 + 0x8
def HST_CQ_BASE.SIZE (n : Nat) : Fld := ⟨(HST_CQ_BASE.key n), 0, 3, 0⟩
def HST_CQ_BASE.ADDR (n : Nat) : Fld := ⟨(HST_CQ_BASE.key n), 12, 52, 0⟩
/-- The key of register HST_QCFG. -/
def HST_QCFG.key (n : Nat) : Nat := pfKey n 0 + 0x10
def HST_QCFG.EN (n : Nat) : Fld := ⟨(HST_QCFG.key n), 0, 1, 0⟩
def HST_QCFG.REBIND_S (n : Nat) : Fld := ⟨(HST_QCFG.key n), 16, 16, 0x3c⟩
/-- The key of register HST_SQ_DB. -/
def HST_SQ_DB.key (n : Nat) : Nat := pfKey n 0 + 0x18
def HST_SQ_DB.POS (n : Nat) : Fld := ⟨(HST_SQ_DB.key n), 0, 12, 0⟩
/-- The key of register HST_CQ_DB. -/
def HST_CQ_DB.key (n : Nat) : Nat := pfKey n 0 + 0x20
def HST_CQ_DB.POS (n : Nat) : Fld := ⟨(HST_CQ_DB.key n), 0, 12, 0⟩
/-- The key of register HST_QSTAT. -/
def HST_QSTAT.key (n : Nat) : Nat := pfKey n 0 + 0x28
def HST_QSTAT.SQ_HEAD (n : Nat) : Fld := ⟨(HST_QSTAT.key n), 0, 12, 0⟩
def HST_QSTAT.CQ_TAIL (n : Nat) : Fld := ⟨(HST_QSTAT.key n), 16, 12, 0⟩
def HST_QSTAT.OPEN (n : Nat) : Fld := ⟨(HST_QSTAT.key n), 32, 11, 0⟩
/-- The key of register QTZ_STATUS. -/
def QTZ_STATUS.key : Nat := mgmtKey 0x00200000 + 0x0
def QTZ_STATUS.XTAL_OK : Fld := ⟨QTZ_STATUS.key, 0, 1, 0⟩
def QTZ_STATUS.REF : Fld := ⟨QTZ_STATUS.key, 1, 1, 0⟩
def QTZ_STATUS.LOCK : Fld := ⟨QTZ_STATUS.key, 2, 1, 0⟩
def QTZ_STATUS.COAST : Fld := ⟨QTZ_STATUS.key, 3, 1, 0⟩
def QTZ_STATUS.MGMT : Fld := ⟨QTZ_STATUS.key, 4, 1, 0⟩
def QTZ_STATUS.MGMT_FB : Fld := ⟨QTZ_STATUS.key, 5, 1, 0⟩
/-- The key of register QTZ_MON. -/
def QTZ_MON.key : Nat := mgmtKey 0x00200000 + 0x8
def QTZ_MON.XTAL : Fld := ⟨QTZ_MON.key, 0, 1, 0⟩
def QTZ_MON.ROOT : Fld := ⟨QTZ_MON.key, 1, 1, 0⟩
def QTZ_MON.REFCLK : Fld := ⟨QTZ_MON.key, 2, 1, 0⟩
def QTZ_MON.FLASH : Fld := ⟨QTZ_MON.key, 3, 1, 0⟩
def QTZ_MON.IOPLL : Fld := ⟨QTZ_MON.key, 8, 12, 0⟩
def QTZ_MON.STKPLL : Fld := ⟨QTZ_MON.key, 20, 20, 0⟩
/-- The key of register QTZ_SW0. -/
def QTZ_SW0.key : Nat := mgmtKey 0x00200000 + 0x10
def QTZ_SW0.SEL : Fld := ⟨QTZ_SW0.key, 0, 1, 0⟩
def QTZ_SW0.CUR : Fld := ⟨QTZ_SW0.key, 1, 1, 0⟩
def QTZ_SW0.BUSY : Fld := ⟨QTZ_SW0.key, 2, 1, 0⟩
def QTZ_SW0.STUCK : Fld := ⟨QTZ_SW0.key, 3, 1, 0⟩
def QTZ_SW0.FORCE : Fld := ⟨QTZ_SW0.key, 4, 1, 0⟩
/-- The key of register QTZ_SW1. -/
def QTZ_SW1.key : Nat := mgmtKey 0x00200000 + 0x18
def QTZ_SW1.SEL : Fld := ⟨QTZ_SW1.key, 0, 1, 0⟩
def QTZ_SW1.CUR : Fld := ⟨QTZ_SW1.key, 1, 1, 0⟩
def QTZ_SW1.BUSY : Fld := ⟨QTZ_SW1.key, 2, 1, 0⟩
def QTZ_SW1.STUCK : Fld := ⟨QTZ_SW1.key, 3, 1, 0⟩
/-- The key of register QTZ_TB. -/
def QTZ_TB.key : Nat := mgmtKey 0x00200000 + 0x20
def QTZ_TB.TICKS : Fld := ⟨QTZ_TB.key, 0, 64, 0⟩
/-- The key of register QTZ_TBSYNC. -/
def QTZ_TBSYNC.key : Nat := mgmtKey 0x00200000 + 0x28
def QTZ_TBSYNC.ERR : Fld := ⟨QTZ_TBSYNC.key, 0, 16, 0⟩
def QTZ_TBSYNC.SYNCED : Fld := ⟨QTZ_TBSYNC.key, 16, 1, 0⟩
def QTZ_TBSYNC.ADJUSTS : Fld := ⟨QTZ_TBSYNC.key, 32, 32, 0⟩
/-- The key of register QTZ_BOOT. -/
def QTZ_BOOT.key : Nat := mgmtKey 0x00200000 + 0x30
def QTZ_BOOT.SLOT : Fld := ⟨QTZ_BOOT.key, 0, 1, 0⟩
def QTZ_BOOT.FALLBACK : Fld := ⟨QTZ_BOOT.key, 1, 1, 0⟩
def QTZ_BOOT.SCHEMA_UNREAD : Fld := ⟨QTZ_BOOT.key, 2, 1, 0⟩
def QTZ_BOOT.MAINT : Fld := ⟨QTZ_BOOT.key, 3, 1, 0⟩
def QTZ_BOOT.MCAUSE : Fld := ⟨QTZ_BOOT.key, 4, 4, 0⟩
def QTZ_BOOT.SCHEMA : Fld := ⟨QTZ_BOOT.key, 8, 16, 0⟩
def QTZ_BOOT.SCHEMA_LO : Fld := ⟨QTZ_BOOT.key, 24, 16, 0⟩
def QTZ_BOOT.SCHEMA_HI : Fld := ⟨QTZ_BOOT.key, 40, 16, 0⟩
/-- The key of register QTZ_FLASH. -/
def QTZ_FLASH.key : Nat := mgmtKey 0x00200000 + 0x38
def QTZ_FLASH.WRITES : Fld := ⟨QTZ_FLASH.key, 0, 32, 0⟩
def QTZ_FLASH.REERASED : Fld := ⟨QTZ_FLASH.key, 32, 16, 0⟩
def QTZ_FLASH.IGNORED : Fld := ⟨QTZ_FLASH.key, 48, 16, 0⟩
/-- The key of register PWR_STATUS. -/
def PWR_STATUS.key : Nat := mgmtKey 0x00300000 + 0x0
def PWR_STATUS.VIN : Fld := ⟨PWR_STATUS.key, 0, 12, 0⟩
def PWR_STATUS.IRAIL : Fld := ⟨PWR_STATUS.key, 12, 12, 0⟩
def PWR_STATUS.PKGW : Fld := ⟨PWR_STATUS.key, 24, 12, 0⟩
def PWR_STATUS.LIMITING : Fld := ⟨PWR_STATUS.key, 36, 3, 0⟩
/-- The key of register PWR_LIMIT. -/
def PWR_LIMIT.key : Nat := mgmtKey 0x00300000 + 0x8
def PWR_LIMIT.PKG_W : Fld := ⟨PWR_LIMIT.key, 0, 12, 0⟩
def PWR_LIMIT.IRAIL_A : Fld := ⟨PWR_LIMIT.key, 12, 12, 0xf3c⟩
def PWR_LIMIT.TDIE_C : Fld := ⟨PWR_LIMIT.key, 24, 8, 0x5f⟩
def PWR_LIMIT.SLEW : Fld := ⟨PWR_LIMIT.key, 32, 9, 0x12c⟩
/-- The key of register PWR_DELAY. -/
def PWR_DELAY.key : Nat := mgmtKey 0x00300000 + 0x10
def PWR_DELAY.DIE : Fld := ⟨PWR_DELAY.key, 0, 16, 0⟩
def PWR_DELAY.GROUP : Fld := ⟨PWR_DELAY.key, 16, 32, 0⟩
def PWR_DELAY.MAXWAIT : Fld := ⟨PWR_DELAY.key, 48, 16, 0⟩
/-- The key of register PWR_SKIP. -/
def PWR_SKIP.key (d : Nat) : Nat := mgmtKey 0x00300000 + 0x100 + 0x8 * d
def PWR_SKIP.K (d : Nat) : Fld := ⟨(PWR_SKIP.key d), 0, 5, 0⟩
def PWR_SKIP.CAUSE (d : Nat) : Fld := ⟨(PWR_SKIP.key d), 5, 3, 0⟩
def PWR_SKIP.SKIP_MS (d : Nat) : Fld := ⟨(PWR_SKIP.key d), 32, 32, 0⟩

end Sys2Proof.Machine
end

