-- ==== Sys2Proof/Machine/State.lean ====
section
/-!
DEFINITION. The state of the CZ40 block as plain data: every register field (`flds`), the partition memories, the
engines' internal state, the queues between them, the links, the host rings, the flash and the power pins, and the
queue of commands that wait (`pending`). INVENTORY.md lists each with the rule that names it. Every large array is a
`Tbl` in canonical form. `State.reset` is the machine before its start sequence (R473): every register field
at its reset value, every memory and queue empty.
-/
namespace Sys2Proof.Machine

/-- An error record (R337): eight 64-bit words. -/
abbrev Rec := List Word64

/-- The package variant (R2). -/
inductive Variant where
  | a16
  | m20
  | n12
deriving DecidableEq, Repr

/-- What is fixed at assembly and read from fuses (R2, R3, R25, R434). `disabled` names the one physical core (modulo 8) that is
disabled on each compute die of a grade E module (R3). -/
structure Fuses where
  variant : Variant := .a16
  gradeE : Bool := false
  disabled : Tbl Nat := []
  serial : Nat := 0
  svn : Nat := 0
  dbgLock : Bool := true
deriving DecidableEq, Repr

/-- The complete set of retirements and marks of a STATE entry (R466). -/
structure StateLog where
  retiredCores : Tbl Nat := []
  retiredChans : Tbl Nat := []
  retiredLanes : Tbl Nat := []
  failedChans : List Nat := []
  suspect : Tbl Nat := []
deriving DecidableEq, Repr

/-- A log region of the flash (R458). -/
inductive Region where
  | boot
  | config
  | errlog
deriving DecidableEq, Repr

/-- What a flash entry holds (R459). -/
inductive Payload where
  | sector (erases : Nat)
  | config (r : CfgRecord) (len : Nat)
  | state (l : StateLog)
  | errlog (rs : List Rec)
  | boothdr (slot : Nat)
deriving DecidableEq, Repr

/-- An entry of a log region: where it lies (its first page within its sector) and what a scan finds of its header and payload
(R459, R461). -/
structure FlashEntry where
  region : Region
  sector : Nat
  page : Nat
  commit : Nat
  seq : Nat
  hcrcOk : Bool
  pcrcOk : Bool
  payload : Payload
deriving DecidableEq, Repr

/-- A flash operation: a log entry at a step of R460 (`second` marks its second writing), an erase (R462, R467, R471), or the
programming of a firmware slot (R467). -/
inductive FlashOp where
  | entry (e : FlashEntry) (step : Nat) (second : Bool)
  | eraseSector (region : Region) (sector : Nat)
  | eraseSlot (slot : Nat)
  | programSlot (slot off : Nat) (data : List Byte)
deriving DecidableEq, Repr

/-- The configuration flash (R457–R471): the two firmware slots as the boot ROM judges them with the bytes programmed since their
erase, the running slot, the log entries in the order they were written, the next SEQ, the operation under way and those that
wait, and whether the undervoltage detector has tripped. A sector that lists no entry is erased and has its SECTOR entry. -/
structure Flash where
  slotA : Option FwImage := some ⟨true, 0, 1, 1, 0, 0⟩
  slotB : Option FwImage := none
  bytesA : Tbl Byte := []
  bytesB : Tbl Byte := []
  running : Nat := 0
  entries : List FlashEntry := [⟨.config, 0, 1, 0x5A, 1, true, true, .config {} 0⟩]
  nextSeq : Nat := 2
  op : Option FlashOp := none
  waiting : List FlashOp := []
  tripped : Bool := false
deriving DecidableEq, Repr

/-- Where a module start stands (R473). -/
inductive Boot where
  | off
  | started
  | crystal
  | rootLocked
  | running
  | maint
deriving DecidableEq, Repr

/-- Rails, pins and latches (R496–R505). `mgmt` is that the management domain runs; `alert` is MGT_ALERT_N asserted; `perst` is HST_PERST_N asserted; `thermLatch` and `cutLatch`
are the trips of R497 and R498, `hot` that a sensor has not read below 85 °C since a trip. -/
structure Power where
  coreRail : Bool := false
  otherRails : Bool := false
  mgmt : Bool := false
  pwrEn : Bool := false
  pwrGd : Bool := false
  resetHeld : Bool := false
  perst : Bool := true
  alert : Bool := false
  thermLatch : Bool := false
  cutLatch : Bool := false
  standby : Bool := true
  hot : Bool := false
deriving DecidableEq, Repr

/-- A request to the power governor (R485–R487). -/
inductive GovReq where
  | arrays (p c : Nat) (up : Bool)
  | mica (p c : Nat) (up : Bool)
  | lowerK (d : Nat)
deriving DecidableEq, Repr

/-- The power governor (R483–R487): what the current slot has granted, the slots passed, the waiting requests in arrival order with
the slot count at arrival, the ticks of recent die wakes, the limits in force per die (bit mask as LIMITING) the dies that
wait for a wake slot with the slot count at arrival, and the dies awake. -/
structure Governor where
  used : Nat := 0
  slots : Nat := 0
  waiting : List (GovReq × Nat) := []
  wakes : List Nat := []
  limits : Tbl Nat := []
  dieWaiting : List (Nat × Nat) := []
  awake : List Nat := []
deriving DecidableEq, Repr

/-- What the board management controller has yet to read (R455). -/
inductive PlatformEvent where
  | record (r : Rec)
  | thermal (site : Nat)
  | powerCycle
deriving DecidableEq, Repr

/-- A stream context (R281), field by field, with the generation of R37 and the placement epoch of R39. -/
structure Ctx where
  state : Nat := 0
  kind : Nat := 0
  part : Nat := 0
  standing : Bool := false
  stripe : Bool := false
  gen : Nat := 1
  epoch : Nat := 0
  peerHandle : Nat := 0
  peerEpoch : Nat := 0
  peerKind : Nat := 0
  peerId : Nat := 0
  txSeq : Nat := 0
  inflight : Nat := 0
  txAcked : Nat := 0
  stale : Nat := 0
  rxSeq : Nat := 0
  authFail : Nat := 0
  winBase : Nat := 0
  credit : Nat := 0
  rxMap : Nat := 0
  winLen : Nat := 0
deriving DecidableEq, Repr

/-- A message not yet acknowledged: as first sent (R276), with the ticks of its first and last sending (R278, R279), the mover copy it
belongs to, the port it last left on plus 1 (0 for none), and whether it has waited in the park queue (R287). -/
structure Unacked where
  msg : Msg
  first : Nat
  last : Nat
  owner : Option (Nat × Nat)
  via : Nat := 0
  parked : Bool := false
deriving DecidableEq, Repr

/-- A message that waits to be sent on a stream: its kind and destination offset, blocks and check words. -/
structure TxReq where
  mtype : Nat
  offset : Nat
  blocks : List (List Byte)
  checks : List Word32
  /-- the mover queue entry it completes when acknowledged: core and sequence -/
  owner : Option (Nat × Nat)
  /-- it has waited in the park queue (R287) -/
  parked : Bool := false
deriving DecidableEq, Repr

/-- A posted window (R282): the receiving copy it belongs to, its blocks in window order and those not yet arrived (by
their place in it). -/
structure Posted where
  core : Nat
  seq : Nat
  blocks : List Nat
  left : List Nat
deriving DecidableEq, Repr

/-- The transport state beside a context: what is to be sent and unacknowledged, the open posted window, receiving copies
that wait for it to close, sending copies that wait for a grant with their block counts, grants that no copy waits for yet
(R282), the path rotation (R283), the
ticks of recent tag failures (R277), the last migration and the REBIND whose migration is deferred (its context plus 1, R39), where a
stream of the module's own leads; what its keys were derived from at its opening (R411, R426): ANONCE, MEPOCH and AWAVE as the 24 bytes
of a salt, or the draw of its CNONCE; and on a stream of the dispatch unit the messages that have arrived and are not yet taken, in SEQ
order, with the bytes of the row whose first part was taken (log entry 81); and on a stream of a collective queue the addresses of the
blocks of its window that have arrived and are not yet combined or forwarded (R305). -/
structure CtxAux where
  txq : List TxReq := []
  unacked : List Unacked := []
  posted : Option Posted := none
  recvWait : List (Nat × Nat) := []
  sends : List (Nat × Nat × Nat) := []
  grants : List Nat := []
  rot : Nat := 0
  authTimes : List Nat := []
  lastMigr : Option Nat := none
  migrWait : Nat := 0
  dest : Option (Nat × Nat) := none
  salt : Nat := 0
  cnonce : Nat := 0
  inbox : List Msg := []
  fresh : List Nat := []
  rowPart : List Byte := []
deriving DecidableEq, Repr

/-- A flit of a message on a port: its source, which is 1,024 plus the context of an own message or the receiving port plus 1 of a
message that is forwarded; whether it still takes a place in that port's receive buffer (R267); and itself. -/
structure QFlit where
  src : Nat
  held : Bool
  flit : Flit
deriving DecidableEq, Repr

/-- A fabric port beside its ZLK_ registers (R260–R271): how far training has come; the sender's replay buffer, the flits that
wait to be sent, those sent of messages that the neighbour has not wholly acknowledged, the source of the message being sent, the next
link sequence number and the credits; the flit last refused and how often; the receiver's next sequence number, whether it discards,
how often it refused the flit that is due and how many flits are still to come again; the 10 ms interval of the last replay record; the
port the message that is arriving goes on by, plus 1 (0 for a message that ends here); lanes that failed in succession; the Ethernet
link. -/
structure Port where
  enabled : Bool := false
  sentAccept : Bool := false
  gotAccept : Bool := false
  gotRefuse : Bool := false
  replay : List Flit := []
  queue : List QFlit := []
  kept : List QFlit := []
  cur : Nat := 0
  txSeq : Nat := 0
  credit0 : Nat := 128
  credit1 : Nat := 128
  failSeq : Nat := 0
  fails : Nat := 0
  rxSeq : Nat := 0
  discarding : Bool := false
  naks : Nat := 0
  again : Nat := 0
  lastTrans : Option Nat := none
  fwd : Nat := 0
  laneFails0 : Nat := 0
  laneFails1 : Nat := 0
  ethUp : Bool := false
deriving DecidableEq, Repr

/-- A secured session of an SPDM responder (R414, R417): its stage (0 none, 1 KEY_EXCHANGE answered, 2 open), whether messages beside
CLAIM_PROVE are accepted, failures of the proof, missed heartbeats and key updates; in the first session of a function, the phase
of its connection (1 version, 2 capabilities, 3 algorithms agreed); and the number of the draw that stands for its export master secret
(R411). -/
structure Session where
  stage : Nat := 0
  proven : Bool := false
  fails : Nat := 0
  missed : Nat := 0
  updates : Nat := 0
  phase : Nat := 0
  secret : Nat := 0
deriving DecidableEq, Repr

/-- The claim and provisioning of a partition (R416–R420). -/
structure Tenancy where
  claimKey : Option Nat := none
  claimedSinceReset : Bool := false
  lastRetenant : Bool := false
  prov : Option Provision := none
  lossy : Bool := false
deriving DecidableEq, Repr

/-- A host command waiting for its context (R446). -/
structure HostWait where
  sub : Submission
  counted : Bool
deriving DecidableEq, Repr

/-- A completion (R448). -/
structure Completion where
  handle : Nat
  epoch : Nat
  status : Nat
  isDone : Bool
  tag : Nat
  units : Nat
deriving DecidableEq, Repr

/-- The host side of one function (R440–R450): sequence numbers of both directions, ring positions the doorbells set,
the command that waits under R41, and the completions produced and not yet in the ring, and those in it. -/
structure HostFn where
  sqSeq : Nat := 0
  cqSeq : Nat := 0
  sqTail : Nat := 0
  cqHead : Nat := 0
  wait : Option HostWait := none
  produced : List Completion := []
  ring : List Completion := []
deriving DecidableEq, Repr

/-- How far a host command has come (R446–R450). -/
inductive HandleSt where
  | accepted
  | running
  | stopped
  | done (status : Nat)
deriving DecidableEq, Repr

/-- An open handle of a host command: `target` is the handle a REBIND names, `image` what an ADMIT has read, `waited` that its admission
waits for contexts. -/
structure HostHandle where
  fn : Nat
  op : Nat
  tag : Nat
  haddr : Nat
  paddr : Nat
  units : Nat
  doneUnits : Nat := 0
  st : HandleSt := .accepted
  target : Nat := 0
  image : List Byte := []
  waited : Bool := false
deriving DecidableEq, Repr

/-- A partition reset in progress (R46, R48, R390–R392). `kind` 1 WARM, 2 RETENANT; `stage` as PRT_RST_LOG.STAGE. -/
structure ResetRun where
  kind : Nat
  stage : Nat
  zeroed : Bool := false
  cold : Bool := false
  escalated : Bool := false
  powerCycle : Bool := false
deriving DecidableEq, Repr

/-- A field test pending or running (R332, R333). -/
structure FieldTest where
  pending : Bool := false
  running : Bool := false
deriving DecidableEq, Repr

/-- The membership of a partition's job (R399–R403): its modules as (serial, cell, position), the rank map digest, the
certificates forwarded in this epoch, the certificate accepted last and the modules before it. -/
structure Membership where
  modules : List (Nat × Nat × Nat) := []
  before : List (Nat × Nat × Nat) := []
  rmap : Nat := 0
  forwarded : List Cert := []
  accepted : Option Cert := none
deriving DecidableEq, Repr

/-- One element of a tile: its code in the storage format and the scale byte of its MX block (R57, R516). -/
structure Elem where
  code : Nat
  scale : Nat
deriving DecidableEq, Repr

/-- An element with the modulo-7 residue of its significand beside it (R109). -/
structure Held where
  elem : Elem
  res : Nat
deriving DecidableEq, Repr

/-- A stationary operand as a pass loaded it (R88, R90): the elements by row * 256 + logical column with their residues, absent or
excluded cells unlisted. -/
structure Loaded where
  fmt : Nat := 0
  sparse : Bool := false
  skipped : Bool := false
  rmask : Nat := 0
  cmask : Nat := 0
  cells : Tbl (Option Held) := []
deriving DecidableEq, Repr

/-- One check group of a pass (R110): its first vector and the streamed elements of its driven vectors with the residues computed
as they are driven (R109), by vector and row; `driven` false for a group treated as skipped (R204). -/
structure Group where
  first : Nat
  vecs : List (List (Option Held))
  driven : Bool
deriving DecidableEq, Repr

/-- A started pass (R89): its queue entry, geometry (`n` driven vectors), the stationary cells it latched and its uncommitted
groups, with the map bytes of the streamed operand that it copied (R201). `recomp` marks the head group as recomputing (R111),
with the residues of its first mismatch. -/
structure Pass where
  seq : Nat
  arr : Nat
  accum : Bool
  base : Nat
  n : Nat
  width : Nat
  vfmt : Nat
  sfmt : Nat
  m0 : Nat
  kt : Nat
  vdesc : List Word64
  rmask : Nat
  cmask : Nat
  cells : Tbl (Option Held)
  vmap : List (Nat × Nat)
  groups : List Group
  recomp : Bool := false
  expected : Nat := 0
  found : Nat := 0
deriving DecidableEq, Repr

/-- A started store (R104, R185): its command, the descriptors it copied (with their binding entries as word 32) and the map bytes
of its bias and index operands (R201), the arrays it belongs to, and the rows it has read and combined. -/
structure Store where
  seq : Nat
  words : List Word64
  arrs : List Nat
  ddesc : List Word64
  bdesc : List Word64
  idesc : List Word64
  maps : List (Nat × Nat)
  rows : List (List Word32)
  seed : Word64
deriving DecidableEq, Repr

/-- A core's Garnet beside its registers. -/
structure Garnet where
  passes : List Pass := []
  stores : List Store := []
  waking : Bool := false
deriving DecidableEq, Repr

/-- A summary of one Mica command (R126). -/
structure Summary where
  max : Word32
  sum : Word32
  nnz : Nat
  nonfin : Bool
  argrow : Nat
  argcol : Nat
  any : Bool
deriving DecidableEq, Repr

/-- The staging buffer of the running Mica command (R135): its entry, the register words and tile-memory blocks it would
write (block number, covered bits, bits), the summary it would leave, and whether it is being retried (R136) with the lowest
failing lane and the number of failing lanes. -/
structure MicaStage where
  seq : Nat
  mop : Nat
  cost : Nat
  regw : List (Nat × Word32) := []
  memw : List (Nat × Nat × Nat) := []
  summary : Option Summary := none
  smode : Nat := 0
  slot : Nat := 0
  nonfin : Bool := false
  retry : Bool := false
  lane : Nat := 0
  lanes : Nat := 0
deriving DecidableEq, Repr

/-- Why a Flint does not issue its next instruction (R146, R148, R160, R161); a STEPB that has reported keeps the tick of its report,
from which FLT_CYC_WAIT counts (R163). -/
inductive Stall where
  | none
  | enqueue (eng : Nat) (kind : Nat) (words : List Word64) (rd : Nat)
  | twait (eng seq rd : Nat)
  | sumrd (slot addr rd upto : Nat)
  | stepb (step : Word64) (rd : Nat) (reported : Bool) (since : Nat)
deriving DecidableEq, Repr

/-- A Flint access to partition space in flight (R141): its size, destination register, the value read, whether it is a
store to the descriptor table, occupancy bindings or STR_UPD (R175, R201, R349), and the halt it leads to. -/
structure Access where
  load : Bool
  rd : Nat
  value : Word64
  barrierReg : Bool
  fault : Nat
  addr : Nat
deriving DecidableEq, Repr

/-- A Flint core beside its registers (R138–R143, R161, R349). `code` and `data` tables hold IMEM and DMEM bytes. -/
structure Flint where
  pc : Word64 := 0x8000000000000000
  x : Tbl Word64 := []
  imem : Tbl Byte := []
  dmem : Tbl Byte := []
  stall : Stall := .none
  access : List Access := []
  lastStep : Option Word64 := none
  upd : Bool := false
  storeSeed : Word64 := 0
deriving DecidableEq, Repr

/-- What a queue entry is (R147): a TQUE command, a MODE or a SEEDLD. -/
inductive QKind where
  | cmd (words : List Word64)
  | mode (m : Nat)
  | seed (v : Word64)
deriving DecidableEq, Repr

/-- An incomplete entry of a command queue (R146–R151): its sequence number, whether a wait named a number not yet issued,
whether it belongs to the update phase (R349), the seed for stochastic stores (R133) and whether it has started. -/
structure QEntry where
  seq : Nat
  kind : QKind
  badWait : Bool
  upd : Bool
  seed : Word64
  started : Bool
deriving DecidableEq, Repr

/-- A command queue beside its FLT_Q register: the incomplete entries, oldest first; the numbers that completed with a
failure (R150); the first status other than OK since ERR was cleared (R148). -/
structure Queue where
  entries : List QEntry := []
  bad : List Nat := []
  firstErr : Nat := 0
deriving DecidableEq, Repr

/-- A mover segment (R193): the copy it belongs to (core, sequence), the destination blocks it covers (block numbers; for a
copy to a stream the source blocks), their place in the copy, and whether it is the copy's last. -/
structure Segment where
  core : Nat
  seq : Nat
  blocks : List Nat
  first : Nat
  last : Bool
deriving DecidableEq, Repr

/-- A started mover copy (R159, R174, R201): its words, the descriptors it read with their binding entries as word 32, whether
it carries check words (R172), the segments and messages not yet done, and the map bytes of its source by address. -/
structure Copy where
  core : Nat
  seq : Nat
  words : List Word64
  sdesc : List Word64
  ddesc : List Word64
  carry : Bool
  left : Nat
  map : List (Nat × Nat)
deriving DecidableEq, Repr

/-- A segment on a channel: the blocks it is writing (block number, covered bits, bits), the elements it drops at pruned
positions, the bytes it moves, or the messages it is about to hand to its stream. -/
structure Running where
  seg : Segment
  blocks : List (Nat × Nat × Nat)
  pruned : Nat
  bytes : Nat
  msgs : List TxReq
deriving DecidableEq, Repr

/-- The mover of a partition (R193): started copies, waiting segments, what each channel runs, and the core from which the
next free channel begins its round. -/
structure Mover where
  copies : List Copy := []
  waiting : List Segment := []
  chans : Tbl (Option Running) := []
  next : Nat := 0
deriving DecidableEq, Repr

/-- A routing entry (R206). -/
structure RouteEntry where
  token : Nat
  k : Nat
  spillx : Nat
  row : Nat
  exps : List Nat
  gates : List Word32
deriving DecidableEq, Repr

/-- A token in the staging area (R216): what its message says beside the row, the rank of the partition whose stream brought it, the part
and the row of the part that it takes, and the address and length of its row. -/
structure Staged where
  tok : TokenMsg
  src : Nat
  part : Nat
  slot : Nat
  addr : Nat
  len : Nat
deriving DecidableEq, Repr

/-- One hosting entry of the open receive side (R216–R220): its receive-table words, the sources whose end marker has come, the slots
filled, and whether its primary phase and its delivery have ended. -/
structure Hosting where
  words : List Word64
  ended : List Nat := []
  filled : Nat := 0
  primaryDone : Bool := false
  finished : Bool := false
deriving DecidableEq, Repr

/-- The dispatch unit (R213–R224): the routing list of the current or last round, the numbers of the token-choices sent, the hosting
entries, the tokens staged for this round or a newer one in the order they came, the sources of spill end markers, whether the own ones
are sent, arrival-order delivery, and the return round's end markers and returned choices as (token, choice). -/
structure Dispatch where
  opened : Bool := false
  list : List RouteEntry := []
  sent : List Nat := []
  hosts : List Hosting := []
  staged : List Staged := []
  spillEnds : List Nat := []
  spillSent : Bool := false
  fast : Bool := false
  retEnds : List Nat := []
  returned : List (Nat × Nat) := []
deriving DecidableEq, Repr

/-- A pseudo-channel controller beside its MEM_ registers (R236–R247): pending requests in arrival order, the port and
the requester of each port last served, the open row of each bank, the direction last moved, the uncorrectable pairs,
and the corrections of each pair since the last partition reset. -/
structure PseudoChan where
  reqs : List MemReq := []
  lastPort : Nat := 0
  lastReq : Tbl Nat := []
  rows : Tbl Nat := []
  writing : Bool := false
  bad : List Nat := []
  corrected : Tbl Nat := []
deriving DecidableEq, Repr

/-- A stack channel (R249–R252): 0 untrained, 1 trained, 2 retraining, 3 failed; the failed reissues of each command that the stack has
refused (by command number and half), retrainings failed in succession, and which half took the command bus last (R237). -/
structure Channel where
  st : Nat := 0
  reissues : Tbl Nat := []
  fails : Nat := 0
  lastHalf : Nat := 0
  repaired0 : Nat := 0
  repaired1 : Nat := 0
deriving DecidableEq, Repr

/-- What this member has done at one node of the tree for one chunk of an operation (R295, R300): formed it (`up`) or passed its result
down; the flag of its status block; and its blocks, by block of the operation, while they wait in the ECC-protected buffers of the mover
channel (R296) for this member's next node. -/
structure ColNode where
  lev : Nat
  base : Nat
  chunk : Nat
  up : Bool
  flag : Bool := false
  blocks : List (Nat × List (List Byte × Word32)) := []
deriving DecidableEq, Repr

/-- An issued collective operation (R298–R304): its nodes, and whether this member has its combined status. -/
structure ColOp where
  seq : Nat
  words : List Word64
  started : Bool := false
  status : Option Nat := none
  flag : Bool := false
  nodes : List ColNode := []
  settled : Bool := false
deriving DecidableEq, Repr

/-- A communication queue beside its COL_Q registers (R291, R303, R308): whether its join is under way, whether it is open,
whether it has ever been since the last partition reset, whether its OPEN waits for stream contexts (R41), the group ranks of
its peers, those whose join block it waits for, those whose join block came, its contexts (its own first, then one for each peer) and
its operations. -/
structure ColQueue where
  opening : Bool := false
  opened : Bool := false
  everOpened : Bool := false
  waiting : Bool := false
  peers : List Nat := []
  awaited : List Nat := []
  joined : List Nat := []
  ctxs : List Nat := []
  ops : List ColOp := []
deriving DecidableEq, Repr

/-- A tag under way (R320): its kind, step and the check words' addresses in hash order, per list. -/
structure TagRun where
  step : Nat
  weights : List Nat
  inputs : List Nat
  results : List Nat
  status : Nat
deriving DecidableEq, Repr

/-- A tag kept for the vote (R326). -/
structure VoteTag where
  step : Nat
  attempt : Nat
  rank : Nat
  ndet : Bool
  tag : Nat
deriving DecidableEq, Repr

/-- An Assay engine beside its ASY_ registers (R314, R320–R328): the tags under way, the tags kept for the vote with the step and
attempt they are compared for, whether the own tag of it is there and the vote decided, and the replicas that replay the step
after a DEVIANT or SPLIT outcome as a mask (R326), and the vote stream to each replica's partition (R321; the own one's place
holds a number that is never used). -/
structure Assay where
  tagR : Option TagRun := none
  tagU : Option TagRun := none
  tags : List VoteTag := []
  step : Nat := 0
  attempt : Nat := 1
  ndet : Bool := false
  ownDone : Bool := false
  decided : Bool := true
  redo : Nat := 0
  ctxs : List Nat := []
  trans : Tbl (List Nat) := []
deriving DecidableEq, Repr

/-- A message in the replay ring (R360). -/
structure RingMsg where
  idx : Nat
  seq : Nat
  addr : Nat
  blocks : List (List Byte)
  checks : List Word32
  external : Bool
deriving DecidableEq, Repr

/-- The Strata engine beside its STR_ registers (R344–R374). `reports`: the cores whose Flint has reported STEPB. `phase`: where the
step of the last boundary stands: 0 not in a job, 2 boundary BARRIER entered, 3 boundary reached and vote or snapshot awaited,
4 release BARRIER entered, 5 copying, 6 mirrored BARRIER entered, 7 mirrored. `barrier`: the Strata operation under way
(1 boundary, 2 release, 3 mirrored). `deciding`: the deciding collective; `decided`: the step's decision is made. `tsl` is the
copy of the training-state list (R347): class and descriptor words with the binding entry; `ranges` its state blocks as
(first block address, blocks) in the order of R317; `clean` the extents not written since they were copied (R357); `copying`
those released and not yet copied (R358). `slot0`, `slot1` hold the replay ring (R360), `values` what R364 keeps of the last
two boundaries: step, ASY_NDET, STR_LSCALE, STR_SKIPS. `snapReq`: a snapshot of the next mirrored step is requested; `snapDue`: that step is
mirrored. `replay`: the step replayed locally; `taken`: the messages of each context taken from its slot; `rewind`: the step the job rewinds
to; `restart`: since its admission the partition has passed no boundary and pulled no mirror (R366); `heldHdr`: the SEQ of the header message that ends a mirror copy; `ckptStat`: the status that the failure of its stream gives the
snapshot or image under way; `mirrorLost`: the mirror stream failed during the copy (R277, R279, R288). -/
structure Strata where
  reports : List Nat := []
  phase : Nat := 0
  barrier : Nat := 0
  deciding : Option (Nat × Nat) := none
  decided : Bool := false
  tsl : List (Nat × List Word64) := []
  ranges : List (Nat × Nat) := []
  clean : List Nat := []
  copying : List Nat := []
  slot0 : List RingMsg := []
  slot1 : List RingMsg := []
  values : List (Nat × Nat × Nat × Nat) := []
  snapReq : Bool := false
  snapDue : Bool := false
  snapRun : Bool := false
  suspReq : Bool := false
  suspStop : Bool := false
  suspRun : Bool := false
  replay : Option Nat := none
  taken : Tbl Nat := []
  rewind : Option Nat := none
  heldHdr : Option Nat := none
  restart : Bool := false
  ckptStat : Nat := 0
  mirrorLost : Bool := false
deriving DecidableEq, Repr

/-- A suspend image of a partition (R373): its header block and everything the partition held, as the checkpoint endpoint stores it
(the layout of the blocks that follow the header is not given: log entry 24). -/
structure PartImage where
  header : List Byte
  flds : Tbl Nat
  mem : List Host.Cell
  tileChk : Tbl Word32
  acc : Tbl (Option Word32)
  treg : Tbl Word32
  loaded : Tbl (Option Loaded)
  flint : Tbl Flint
  queue : Tbl Queue
  mover : Mover
  disp : Dispatch
  ctx : Tbl Ctx
  aux : Tbl CtxAux
  colq : Tbl ColQueue
  assay : Assay
  strata : Strata
deriving DecidableEq, Repr

/-- What the block sends out: link and transport traffic (a message with its context and the port it leaves on, and the flits or the frame
that carry it), host ring entries, SPDM answers and management messages. The log
of outputs is this model's own (log entry 4). -/
inductive Out where
  | flit (port : Nat) (f : Flit)
  | message (idx : Nat) (path : List Nat) (m : Msg)
  | frame (port : Nat) (bytes : List Byte)
  | join (p q peer : Nat) (j : JoinBlock)
  | status (p q peer : Nat) (b : StatusBlock)
  | abort (cell pos : Nat) (b : AbortBlock)
  | cert (cell pos : Nat) (c : Cert)
  | image (p step : Nat) (header : List Byte)
  | spdm (n code : Nat) (data : List Nat)
  | completion (n seq : Nat) (c : Completion) (bytes : List Byte)
  | hostUnit (idx unit epoch : Nat) (sealed : List Byte)
  | msix (n vector : Nat)
  | neighborAdvert (port : Nat)
  | platformEvent (e : PlatformEvent)
  | pldm (typ cmd value : Nat)
  | mgt (name : String) (value : Nat)
deriving DecidableEq, Repr

/-- The state of the module. -/
structure State where
  pending : List Instr := []
  fuse : Fuses := {}
  cfg : CfgRecord := {}
  log : StateLog := {}
  flash : Flash := {}
  boot : Boot := .off
  power : Power := {}
  gov : Governor := {}
  flds : Tbl Nat := []
  mem : List Host.Cell := []
  tileChk : Tbl Word32 := []
  acc : Tbl (Option Word32) := []
  treg : Tbl Word32 := []
  loaded : Tbl (Option Loaded) := []
  garnet : Tbl Garnet := []
  stage : Tbl (Option MicaStage) := []
  flint : Tbl Flint := []
  queue : Tbl Queue := []
  mover : Tbl Mover := []
  disp : Tbl Dispatch := []
  pc : Tbl PseudoChan := []
  chan : Tbl Channel := []
  port : Tbl Port := []
  noUp : List (Nat × Nat) := []
  ctx : Tbl Ctx := []
  aux : Tbl CtxAux := []
  park : Tbl (List (Nat × TxReq)) := []
  colq : Tbl ColQueue := []
  assay : Tbl Assay := []
  strata : Tbl Strata := []
  images : Tbl (Option PartImage) := []
  resets : Tbl (Option ResetRun) := []
  ftest : Tbl FieldTest := []
  member : Tbl Membership := []
  tenancy : Tbl Tenancy := []
  sess : Tbl Session := []
  host : Tbl HostFn := []
  handles : Tbl (Option HostHandle) := []
  mkey : Tbl Nat := []
  mreq : Option Nat := none
  anonces : List (Nat × Nat) := []
  drbgReqs : Nat := 0
  recSeq : Nat := 0
  recPend : List Rec := []
  recFlush : List Rec := []
  suppressed : List Nat := [0, 0, 0, 0]
  corrSeen : List (Nat × Nat × Nat) := []
  elog : Tbl Rec := []
  events : List PlatformEvent := []
  pwrCycle : Bool := false
  i3cAddr : Option Nat := none
  mctpEid : Option Nat := none
  rotUplink : Nat := 0
  summ : Tbl Nat := []
  freeCtr : Nat := 0
  out : List Out := []
deriving DecidableEq, Repr

/-- Why the machine stops with a fault. -/
inductive Fault where
  /-- A command names a unit the module does not have (a partition above 15, a logical core, port, channel, context or
  function out of range): raised by every meaning before it acts. Such a command is no event of the hardware; stopping is
  safe. -/
  | noSuchUnit
deriving DecidableEq, Repr

/-- Why the machine refuses a command. -/
inductive Refusal where
  /-- The command has no meaning in this model yet: raised by a refused arm of `exec`; safe. -/
  | notModelled (mnemonic : String)
deriving DecidableEq, Repr

/-- What a step of the block answers. -/
abbrev Answer := Host.Outcome State Fault Refusal

/-- The machine as it is assembled, with its supplies off and before any command: every register field at its reset value, every
table empty, the fuses and the flash as log entries 2 and 3 name them. POWER_UP starts it (R473, R500; log entry 29). -/
def State.reset : State := {}

end Sys2Proof.Machine
end

