-- ==== Sys2Proof/Machine/FlashLog.lean ====
section
/-!
DEFINITION. The log regions of the configuration flash (R458–R471): where entries lie, which of them count, where the next one goes,
which sector may be erased, and how operations take turns.
-/
namespace Sys2Proof.Machine

/-- Base address and number of 64 KiB sectors of a log region (R458). -/
def regionBase : Region → Nat
  | .boot => 0x00000000
  | .config => 0x06100000
  | .errlog => 0x07100000
def regionSectors : Region → Nat
  | .boot => 16
  | .config => 256
  | .errlog => 240

/-- The code of a log region in SYNDROME of record 0x95 (R488). -/
def regionCode : Region → Nat
  | .boot => 0
  | .config => 3
  | .errlog => 4

/-- Payload bytes of an entry. -/
def Payload.bytes : Payload → Nat
  | .sector _ => 4
  | .config _ n => n
  | .state _ => Config.stateBytes
  | .errlog rs => 64 * rs.length
  | .boothdr _ => Config.boothdrBytes

/-- Pages an entry takes with its 64-byte header (R458, R459). -/
def Payload.pages (p : Payload) : Nat := ceilDiv (64 + p.bytes) 256

/-- Whether an entry counts (R461). -/
def FlashEntry.counts (e : FlashEntry) : Bool := e.hcrcOk && e.commit == 0x5A && e.pcrcOk

/-- The flash address of an entry. -/
def FlashEntry.addr (e : FlashEntry) : Nat := regionBase e.region + e.sector * 65536 + e.page * 256

/-- Whether an operation writes the error log ring. -/
def FlashOp.errlog : FlashOp → Bool
  | .entry e _ _ => decide (e.region = .errlog)
  | .eraseSector r _ => decide (r = .errlog)
  | _ => false

/-- Whether an ERRLOG entry goes ahead of an operation that is running (R465): a payload page of another region, or an erase
there. -/
def FlashOp.yields : FlashOp → Bool
  | .entry e st _ => decide (e.region ≠ .errlog ∧ st = 2)
  | o => !o.errlog

/-- The entries of a sector. -/
def Flash.sectorEntries (f : Flash) (r : Region) (k : Nat) : List FlashEntry :=
  f.entries.filter (fun e => decide (e.region = r) && e.sector == k)

/-- The first free page of a sector: page 0 holds its SECTOR entry (R462); none is left where an HCRC fails (R461). -/
def Flash.freePage (f : Flash) (r : Region) (k : Nat) : Nat :=
  let es := f.sectorEntries r k
  if es.any (fun e => !e.hcrcOk) then 256 else es.foldl (fun m e => Nat.max m (e.page + e.payload.pages)) 1

/-- Whether a sector is erased: it holds nothing but its SECTOR entry. -/
def Flash.sectorClear (f : Flash) (r : Region) (k : Nat) : Bool :=
  (f.sectorEntries r k).all (fun e => match e.payload with
    | .sector _ => e.counts
    | _ => false)

/-- The sector a region is being written in: that of its last entry. -/
def Flash.curSector (f : Flash) (r : Region) : Nat :=
  match (f.entries.filter (fun e => decide (e.region = r) && (match e.payload with | .sector _ => false | _ => true))).getLast? with
  | some e => e.sector
  | none => 0

/-- Where an entry of so many pages goes: after the last one, or in the next erased sector. -/
def Flash.placeFor (f : Flash) (r : Region) (n : Nat) : Option (Nat × Nat) :=
  let cur := f.curSector r
  if f.freePage r cur + n ≤ 256 then some (cur, f.freePage r cur)
  else
    let m := regionSectors r
    (((List.range (m - 1)).map (fun i => (cur + 1 + i) % m)).find? (fun k => f.sectorClear r k)).map (fun k => (k, 1))

/-- The kind of an entry for the rule that a newer one supersedes it (R471). -/
def Payload.kind : Payload → Nat
  | .sector _ => 0
  | .config _ _ => 1
  | .state _ => 2
  | .errlog _ => 3
  | .boothdr _ => 4

/-- The newest counting entry of a kind (R466). -/
def Flash.newest (f : Flash) (kind : Nat) : Option FlashEntry :=
  (f.entries.filter (fun e => e.counts && e.payload.kind == kind)).getLast?

/-- Whether a slot's image reads a schema (R468). -/
def fwReads (i : FwImage) (v : Nat) : Bool := decide (i.schemaLo ≤ v ∧ v ≤ i.schemaHi)

/-- The schema of a CONFIG entry. -/
def Payload.schema : Payload → Nat
  | .config r _ => r.schema
  | _ => 0

/-- The image of the slot that is not running. -/
def Flash.otherSlot (f : Flash) : Option FwImage := if f.running = 0 then f.slotB else f.slotA

/-- The newest CONFIG entry that the non-running slot reads (R471). -/
def Flash.otherConfig (f : Flash) : Option FlashEntry :=
  match f.otherSlot with
  | none => none
  | some i => (f.entries.filter (fun e => e.counts && e.payload.kind == 1 && fwReads i e.payload.schema)).getLast?

/-- Whether an entry is superseded: a newer one of its kind counts. -/
def Flash.superseded (f : Flash) (e : FlashEntry) : Bool :=
  f.entries.any (fun x => x.counts && x.payload.kind == e.payload.kind && decide (e.seq < x.seq))

/-- Whether a sector may be erased to make room (R471). -/
def Flash.erasable (f : Flash) (r : Region) (k : Nat) : Bool :=
  let es := (f.sectorEntries r k).filter (fun e => e.counts && e.payload.kind != 0)
  k != f.curSector r && !(f.sectorEntries r k).isEmpty && es.all f.superseded &&
    !(match f.otherConfig with
      | some e => decide (e.region = r) && e.sector == k
      | none => false)

/-- The lowest SEQ in a sector. -/
def Flash.lowSeq (f : Flash) (r : Region) (k : Nat) : Nat :=
  (f.sectorEntries r k).foldl (fun m e => Nat.min m e.seq) f.nextSeq

/-- The sector to erase when an entry does not fit: the erasable one with the lowest SEQ (R471). -/
def Flash.victim (f : Flash) (r : Region) : Option Nat :=
  ((List.range (regionSectors r)).filter (f.erasable r)).foldl (fun b k =>
    match b with
    | none => some k
    | some j => if f.lowSeq r k < f.lowSeq r j then some k else some j) none

/-- Whether an entry of so many pages can be written at all (R471). -/
def Flash.hasRoom (f : Flash) (r : Region) (n : Nat) : Bool := (f.placeFor r n).isSome || (f.victim r).isSome

/-- Begin an operation on an idle flash. An entry gets its place; when none is free a sector is erased first, and when none can be
erased the entry is not written. An ERRLOG entry that enters a sector has the next sector erased behind it (R465). -/
def Flash.begin (f : Flash) (o : FlashOp) : Flash :=
  match o with
  | .entry e 1 sec =>
    if e.page = 0 ∧ e.payload.kind ≠ 0 then
      match f.placeFor e.region e.payload.pages with
      | some (k, pg) =>
        let nx := (k + 1) % regionSectors e.region
        { f with
          op := some (.entry { e with sector := k, page := pg } 1 sec)
          waiting := (if e.region = .errlog ∧ !f.sectorClear .errlog nx ∧ !f.waiting.contains (.eraseSector .errlog nx)
            then [.eraseSector .errlog nx] else []) ++ f.waiting }
      | none => match f.victim e.region with
        | some k => { f with op := some (.eraseSector e.region k), waiting := o :: f.waiting }
        | none => f
    else { f with op := some o }
  | _ => { f with op := some o }

/-- What lies in flash of an entry whose writing stopped in step `st` (R463). Step 1 leaves its header absent, partial or whole, and
step 4 a COMMIT byte between 0xFF and 0x5A: which, is the open value `v` (log entry 31). A SECTOR entry whose header is
absent is listed as one that does not count. -/
def FlashEntry.cut (e : FlashEntry) (st v : Nat) : List FlashEntry :=
  match st with
  | 1 => (match v % 3 with
    | 0 => if e.payload.kind = 0 then [{ e with commit := 0xFF, hcrcOk := false, pcrcOk := false }] else []
    | 1 => [{ e with commit := 0xFF, hcrcOk := false, pcrcOk := false }]
    | _ => [{ e with commit := 0xFF, pcrcOk := false }])
  | 2 => [{ e with commit := 0xFF, pcrcOk := false }]
  | 3 => [{ e with commit := 0xFF }]
  | _ => let c := Nat.lor 0x5A (v % 256)
    [{ e with commit := if c = 0x5A then 0xFF else c }]

/-- What stands at the start of a sector that is erased, or partly erased, and has no SECTOR entry that counts (R462, R463). -/
def noSector (r : Region) (k n : Nat) : FlashEntry := ⟨r, k, 0, 0xFF, 0, false, false, .sector n⟩

/-- The erase count of a sector (R462); a sector of the log that lists none has never been erased in use. -/
def Flash.erases (f : Flash) (r : Region) (k : Nat) : Nat :=
  ((f.sectorEntries r k).filterMap (fun e => match e.payload with | .sector n => some n | _ => none)).foldl Nat.max 0

/-- What an operation that power failed in leaves (R463). -/
def Flash.cutOp (f : Flash) (v : Nat) : FlashOp → Flash
  | .entry e st _ => if e.page = 0 ∧ e.payload.kind ≠ 0 then f else { f with entries := f.entries ++ e.cut st v }
  | .eraseSector r k =>
    { f with entries := f.entries.filter (fun e => !(decide (e.region = r) && e.sector == k)) ++
      [noSector r k (f.erases r k)] }
  | .eraseSlot k | .programSlot k _ _ => if k = 0 then { f with slotA := none } else { f with slotB := none }

/-- An operation that has begun gives way to an ERRLOG entry: an erase leaves its sector or slot partly erased until it goes on. -/
def Flash.suspend (f : Flash) (o : FlashOp) : Flash :=
  match o with
  | .eraseSector _ _ | .eraseSlot _ => f.cutOp 0 o
  | _ => f

/-- Hand an operation to the flash: it begins at once when none runs; ERRLOG entries go ahead of the others (R465); after the
undervoltage trip nothing begins (R464). -/
def Flash.submit (f : Flash) (o : FlashOp) : Flash :=
  if f.tripped then f
  else match f.op with
  | none => f.begin o
  | some c =>
    if o.errlog ∧ c.yields then { f.suspend c with waiting := c :: f.waiting, op := none }.begin o
    else if o.errlog then
      { f with waiting := f.waiting.takeWhile FlashOp.errlog ++ [o] ++ f.waiting.dropWhile FlashOp.errlog }
    else { f with waiting := f.waiting ++ [o] }

/-- Go on with the first operation that waits. -/
def Flash.next (f : Flash) : Flash :=
  match f.waiting with
  | [] => { f with op := none }
  | o :: os => if f.tripped then { f with op := none, waiting := [] } else { f with op := none, waiting := os }.begin o

/-- Power is lost: the operation under way is cut off, a payload that an ERRLOG entry went ahead of as well, and what waits is gone. -/
def Flash.loss (f : Flash) (v : Nat) : Flash :=
  let begun := f.op.toList ++ f.waiting.filter (fun o => match o with
    | .entry _ st _ => decide (1 < st)
    | _ => false)
  { begun.foldl (fun f o => f.cutOp v o) f with op := none, waiting := [], tripped := false }

/-- The undervoltage detector trips (R464): nothing new begins; an ERRLOG entry or an erase that has begun goes on, and any other
entry is abandoned at a page boundary. -/
def Flash.trip (f : Flash) : Flash :=
  let cut (f : Flash) (o : FlashOp) : Flash := match o with
    | .entry e st _ => if e.page = 0 ∧ e.payload.kind ≠ 0 then f
        else { f with entries := f.entries ++ [{ e with commit := 0xFF, pcrcOk := decide (3 ≤ st) }] }
    | _ => f
  let g := (f.waiting.filter (fun o => match o with | .entry _ st _ => decide (1 < st) | _ => false)).foldl cut { f with waiting := [], tripped := true }
  match g.op with
  | some (.entry e st sec) => if e.payload.kind = 3 then g else { cut g (.entry e st sec) with op := none }
  | _ => g

end Sys2Proof.Machine
end

