-- ==== Sys2Proof/Machine/RegMap.lean ====
section
/-!
DEFINITION. The register maps of the spec as data: for every window of R33, R438 and R439 its registers, and for every
register its offset, its repetitions (stride and count) and its fields with access type (R19), reset value and, where
the map says so, the range of values a write may give it. From these the two functions that every access uses: which
register an offset names, and what value it reads.
-/
namespace Sys2Proof.Machine

/-- The access types of R19. -/
inductive Access19 where
  | ro
  | rw
  | w1c
  | wo
  | rwl
deriving DecidableEq, Repr

/-- Where a field's value comes from: storage, a fuse, the state of its memory channel (R252), or the context that ZTP_CTX_SEL
names. -/
inductive Src where
  | stored
  | ctx
  | fusePart
  | fuseVariant
  | fuseGood
  | fuseStack
  | fusePcq
  | fuseChan
  | fuseHalf
  | fuseShared
  | fusePartner
  | chanFailed
  | fuseSerial
  | fuseSvn
  | fuseDbgLock
  | fusePkgW
deriving DecidableEq, Repr

/-- A field of a register map; a write outside `okLo`–`okHi` leaves it unchanged. -/
structure RegF where
  lo : Nat
  w : Nat
  rst : Nat
  acc : Access19
  src : Src
  okLo : Nat
  okHi : Nat
deriving DecidableEq, Repr

/-- A register map. -/
structure RegDef where
  name : String
  off : Nat
  dims : List (Nat × Nat)
  flds : List RegF
deriving DecidableEq, Repr

/-- The registers of the prt window. -/
def regsPrt : List RegDef := [
  ⟨"PRT_ID", 0x0, [], [⟨0, 4, 0, .ro, .fusePart, 0, 2 ^ 64⟩, ⟨4, 2, 0, .ro, .fuseVariant, 0, 2 ^ 64⟩, ⟨6, 1, 0, .ro, .stored, 0, 2 ^ 64⟩, ⟨8, 8, 0xb0, .ro, .stored, 0, 2 ^ 64⟩, ⟨32, 13, 0, .ro, .stored, 0, 2 ^ 64⟩, ⟨45, 5, 0, .ro, .stored, 0, 2 ^ 64⟩]⟩,
  ⟨"PRT_CORES", 0x8, [], [⟨0, 4, 0, .ro, .stored, 0, 2 ^ 64⟩, ⟨8, 24, 0, .ro, .stored, 0, 2 ^ 64⟩, ⟨32, 8, 0, .ro, .fuseGood, 0, 2 ^ 64⟩, ⟨40, 8, 0, .ro, .stored, 0, 2 ^ 64⟩]⟩,
  ⟨"PRT_MEM", 0x10, [], [⟨0, 11, 0, .ro, .stored, 0, 2 ^ 64⟩, ⟨16, 7, 0, .ro, .stored, 0, 2 ^ 64⟩, ⟨32, 25, 0, .ro, .stored, 0, 2 ^ 64⟩]⟩,
  ⟨"PRT_STATE", 0x18, [], [⟨0, 3, 1, .ro, .stored, 0, 2 ^ 64⟩, ⟨8, 8, 0, .ro, .stored, 0, 2 ^ 64⟩]⟩,
  ⟨"PRT_CTRL", 0x20, [], [⟨0, 1, 0, .rwl, .stored, 0, 2 ^ 64⟩]⟩,
  ⟨"PRT_CLK_EN", 0x28, [], [⟨0, 1, 0, .rw, .stored, 0, 2 ^ 64⟩, ⟨1, 1, 0, .rw, .stored, 0, 2 ^ 64⟩, ⟨2, 1, 0, .rwl, .stored, 0, 2 ^ 64⟩, ⟨3, 1, 0, .rw, .stored, 0, 2 ^ 64⟩, ⟨4, 1, 0, .rw, .stored, 0, 2 ^ 64⟩, ⟨5, 1, 0, .rwl, .stored, 0, 2 ^ 64⟩, ⟨7, 1, 0, .rw, .stored, 0, 2 ^ 64⟩, ⟨8, 1, 0, .rwl, .stored, 0, 2 ^ 64⟩, ⟨12, 1, 0, .rw, .stored, 0, 2 ^ 64⟩]⟩,
  ⟨"PRT_RESET", 0x30, [], [⟨0, 2, 0, .wo, .stored, 0, 2 ^ 64⟩]⟩,
  ⟨"PRT_CTX", 0x38, [], [⟨0, 19, 0, .rwl, .stored, 0, 2 ^ 64⟩, ⟨32, 19, 0, .ro, .stored, 0, 2 ^ 64⟩]⟩,
  ⟨"PRT_CTX_WAIT", 0x40, [], [⟨0, 64, 0, .ro, .stored, 0, 2 ^ 64⟩]⟩,
  ⟨"PRT_BUSERR", 0x48, [], [⟨0, 48, 0, .ro, .stored, 0, 2 ^ 64⟩, ⟨48, 1, 0, .w1c, .stored, 0, 2 ^ 64⟩]⟩,
  ⟨"PRT_WDT_CFG", 0x50, [], [⟨0, 16, 0xa, .rwl, .stored, 0, 2 ^ 64⟩, ⟨16, 16, 0x3e8, .rwl, .stored, 0, 2 ^ 64⟩, ⟨32, 16, 0x258, .rwl, .stored, 0, 2 ^ 64⟩]⟩,
  ⟨"PRT_WDT_STAT", 0x58, [], [⟨0, 3, 0, .ro, .stored, 0, 2 ^ 64⟩, ⟨16, 16, 0, .ro, .stored, 0, 2 ^ 64⟩, ⟨32, 32, 0, .ro, .stored, 0, 2 ^ 64⟩]⟩,
  ⟨"PRT_RST_LOG", 0x60, [], [⟨0, 2, 0, .ro, .stored, 0, 2 ^ 64⟩, ⟨2, 3, 0, .ro, .stored, 0, 2 ^ 64⟩, ⟨5, 2, 0, .ro, .stored, 0, 2 ^ 64⟩, ⟨7, 1, 0, .ro, .stored, 0, 2 ^ 64⟩, ⟨8, 24, 0, .ro, .stored, 0, 2 ^ 64⟩, ⟨32, 32, 0, .ro, .stored, 0, 2 ^ 64⟩]⟩,
  ⟨"PRT_JOB", 0x68, [], [⟨0, 64, 0, .ro, .stored, 0, 2 ^ 64⟩]⟩,
  ⟨"PRT_JOB2", 0x70, [], [⟨0, 32, 0, .ro, .stored, 0, 2 ^ 64⟩, ⟨32, 32, 0, .ro, .stored, 0, 2 ^ 64⟩]⟩,
  ⟨"PRT_ABORT", 0x78, [], [⟨0, 4, 0, .ro, .stored, 0, 2 ^ 64⟩, ⟨4, 13, 0, .ro, .stored, 0, 2 ^ 64⟩, ⟨17, 5, 0, .ro, .stored, 0, 2 ^ 64⟩, ⟨22, 16, 0, .ro, .stored, 0, 2 ^ 64⟩, ⟨38, 26, 0, .ro, .stored, 0, 2 ^ 64⟩]⟩,
  ⟨"PRT_QC", 0x80, [], [⟨0, 16, 0, .ro, .stored, 0, 2 ^ 64⟩, ⟨16, 16, 0, .ro, .stored, 0, 2 ^ 64⟩, ⟨32, 3, 0, .ro, .stored, 0, 2 ^ 64⟩, ⟨35, 1, 0, .ro, .stored, 0, 2 ^ 64⟩]⟩]

/-- The registers of the grn window. -/
def regsGrn : List RegDef := [
  ⟨"GRN_MODE", 0x0, [], [⟨0, 1, 0, .ro, .stored, 0, 2 ^ 64⟩, ⟨1, 1, 0, .ro, .stored, 0, 2 ^ 64⟩, ⟨16, 32, 0, .ro, .stored, 0, 2 ^ 64⟩]⟩,
  ⟨"GRN_CFG", 0x8, [], [⟨0, 1, 1, .rw, .stored, 0, 2 ^ 64⟩, ⟨1, 1, 0, .rwl, .stored, 0, 2 ^ 64⟩, ⟨8, 20, 0x400, .rw, .stored, 0, 2 ^ 64⟩]⟩,
  ⟨"GRN_STATUS", 0x10, [], [⟨0, 4, 0, .ro, .stored, 0, 2 ^ 64⟩, ⟨4, 4, 0, .ro, .stored, 0, 2 ^ 64⟩, ⟨8, 4, 0xf, .ro, .stored, 0, 2 ^ 64⟩]⟩,
  ⟨"GRN_RES", 0x18, [], [⟨0, 32, 0, .ro, .stored, 0, 2 ^ 64⟩, ⟨32, 2, 0, .ro, .stored, 0, 2 ^ 64⟩, ⟨34, 9, 0, .ro, .stored, 0, 2 ^ 64⟩, ⟨43, 1, 0, .ro, .stored, 0, 2 ^ 64⟩]⟩,
  ⟨"GRN_ACC_ECC", 0x20, [], [⟨0, 32, 0, .ro, .stored, 0, 2 ^ 64⟩, ⟨32, 1, 0, .w1c, .stored, 0, 2 ^ 64⟩]⟩,
  ⟨"GRN_CYC_STREAM", 0x28, [], [⟨0, 64, 0, .ro, .stored, 0, 2 ^ 64⟩]⟩,
  ⟨"GRN_CYC_LOAD", 0x30, [], [⟨0, 64, 0, .ro, .stored, 0, 2 ^ 64⟩]⟩,
  ⟨"GRN_CYC_STALL", 0x38, [], [⟨0, 64, 0, .ro, .stored, 0, 2 ^ 64⟩]⟩,
  ⟨"GRN_MACS", 0x40, [], [⟨0, 64, 0, .ro, .stored, 0, 2 ^ 64⟩]⟩,
  ⟨"GRN_NONFIN", 0x48, [], [⟨0, 64, 0, .ro, .stored, 0, 2 ^ 64⟩]⟩]

/-- The registers of the mca window. -/
def regsMca : List RegDef := [
  ⟨"MCA_STATUS", 0x0, [], [⟨0, 1, 0, .ro, .stored, 0, 2 ^ 64⟩, ⟨1, 1, 0, .ro, .stored, 0, 2 ^ 64⟩, ⟨2, 1, 1, .ro, .stored, 0, 2 ^ 64⟩, ⟨8, 7, 0, .ro, .stored, 0, 2 ^ 64⟩]⟩,
  ⟨"MCA_CFG", 0x8, [], [⟨0, 20, 0x400, .rw, .stored, 0, 2 ^ 64⟩]⟩,
  ⟨"MCA_SEED", 0x10, [], [⟨0, 64, 0, .ro, .stored, 0, 2 ^ 64⟩]⟩,
  ⟨"MCA_RES", 0x18, [], [⟨0, 32, 0, .ro, .stored, 0, 2 ^ 64⟩, ⟨32, 8, 0, .ro, .stored, 0, 2 ^ 64⟩, ⟨40, 1, 0, .ro, .stored, 0, 2 ^ 64⟩]⟩,
  ⟨"MCA_NONFIN", 0x20, [], [⟨0, 64, 0, .ro, .stored, 0, 2 ^ 64⟩]⟩,
  ⟨"MCA_CYC_BUSY", 0x28, [], [⟨0, 64, 0, .ro, .stored, 0, 2 ^ 64⟩]⟩,
  ⟨"MCA_OPS", 0x30, [], [⟨0, 64, 0, .ro, .stored, 0, 2 ^ 64⟩]⟩,
  ⟨"MCA_SUM_A", 0x100, [(0x20, 8)], [⟨0, 32, 0, .ro, .stored, 0, 2 ^ 64⟩, ⟨32, 32, 0, .ro, .stored, 0, 2 ^ 64⟩]⟩,
  ⟨"MCA_SUM_B", 0x108, [(0x20, 8)], [⟨0, 32, 0, .ro, .stored, 0, 2 ^ 64⟩, ⟨32, 1, 0, .ro, .stored, 0, 2 ^ 64⟩, ⟨33, 1, 0, .ro, .stored, 0, 2 ^ 64⟩]⟩,
  ⟨"MCA_SUM_C", 0x110, [(0x20, 8)], [⟨0, 30, 0, .ro, .stored, 0, 2 ^ 64⟩, ⟨30, 34, 0, .ro, .stored, 0, 2 ^ 64⟩]⟩]

/-- The registers of the flt window. -/
def regsFlt : List RegDef := [
  ⟨"FLT_CTRL", 0x0, [], [⟨0, 1, 0, .ro, .stored, 0, 2 ^ 64⟩]⟩,
  ⟨"FLT_STATUS", 0x8, [], [⟨0, 2, 0, .ro, .stored, 0, 2 ^ 64⟩, ⟨4, 3, 0, .ro, .stored, 0, 2 ^ 64⟩, ⟨16, 16, 0, .ro, .stored, 0, 2 ^ 64⟩]⟩,
  ⟨"FLT_QG", 0x10, [], [⟨0, 24, 0, .ro, .stored, 0, 2 ^ 64⟩, ⟨24, 24, 0, .ro, .stored, 0, 2 ^ 64⟩, ⟨48, 7, 0, .ro, .stored, 0, 2 ^ 64⟩, ⟨55, 1, 0, .w1c, .stored, 0, 2 ^ 64⟩, ⟨56, 3, 0, .ro, .stored, 0, 2 ^ 64⟩]⟩,
  ⟨"FLT_QM", 0x18, [], [⟨0, 24, 0, .ro, .stored, 0, 2 ^ 64⟩, ⟨24, 24, 0, .ro, .stored, 0, 2 ^ 64⟩, ⟨48, 7, 0, .ro, .stored, 0, 2 ^ 64⟩, ⟨55, 1, 0, .w1c, .stored, 0, 2 ^ 64⟩, ⟨56, 3, 0, .ro, .stored, 0, 2 ^ 64⟩]⟩,
  ⟨"FLT_QV", 0x20, [], [⟨0, 24, 0, .ro, .stored, 0, 2 ^ 64⟩, ⟨24, 24, 0, .ro, .stored, 0, 2 ^ 64⟩, ⟨48, 7, 0, .ro, .stored, 0, 2 ^ 64⟩, ⟨55, 1, 0, .w1c, .stored, 0, 2 ^ 64⟩, ⟨56, 3, 0, .ro, .stored, 0, 2 ^ 64⟩]⟩,
  ⟨"FLT_CYC_RUN", 0x28, [], [⟨0, 64, 0, .ro, .stored, 0, 2 ^ 64⟩]⟩,
  ⟨"FLT_CYC_QFULL", 0x30, [], [⟨0, 64, 0, .ro, .stored, 0, 2 ^ 64⟩]⟩,
  ⟨"FLT_CYC_WAIT", 0x38, [], [⟨0, 64, 0, .ro, .stored, 0, 2 ^ 64⟩]⟩,
  ⟨"FLT_STEP", 0x40, [], [⟨0, 64, 0, .ro, .stored, 0, 2 ^ 64⟩]⟩]

/-- The registers of the tlm window. -/
def regsTlm : List RegDef := [
  ⟨"TLM_OOB_WR", 0x0, [], [⟨0, 64, 0, .ro, .stored, 0, 2 ^ 64⟩]⟩,
  ⟨"TLM_SCAT_SUP", 0x8, [], [⟨0, 32, 0, .ro, .stored, 0, 2 ^ 64⟩, ⟨32, 32, 0, .ro, .stored, 0, 2 ^ 64⟩]⟩,
  ⟨"TLM_CLAMP_RD", 0x10, [], [⟨0, 64, 0, .ro, .stored, 0, 2 ^ 64⟩]⟩,
  ⟨"TLM_CHK", 0x18, [], [⟨0, 32, 0, .ro, .stored, 0, 2 ^ 64⟩, ⟨32, 25, 0, .ro, .stored, 0, 2 ^ 64⟩, ⟨57, 1, 0, .w1c, .stored, 0, 2 ^ 64⟩]⟩,
  ⟨"TLM_ECC", 0x20, [], [⟨0, 32, 0, .ro, .stored, 0, 2 ^ 64⟩, ⟨32, 1, 0, .w1c, .stored, 0, 2 ^ 64⟩]⟩,
  ⟨"TLM_BANKWAIT", 0x28, [], [⟨0, 64, 0, .ro, .stored, 0, 2 ^ 64⟩]⟩,
  ⟨"TLM_STX_BUSY", 0x30, [], [⟨0, 64, 0, .ro, .stored, 0, 2 ^ 64⟩]⟩,
  ⟨"TLM_PRUNED", 0x38, [], [⟨0, 64, 0, .ro, .stored, 0, 2 ^ 64⟩]⟩]

/-- The registers of the mov window. -/
def regsMov : List RegDef := [
  ⟨"MOV_RANK", 0x0, [], [⟨0, 22, 0, .ro, .stored, 0, 2 ^ 64⟩, ⟨22, 1, 0, .ro, .stored, 0, 2 ^ 64⟩]⟩,
  ⟨"MOV_CFG", 0x8, [], [⟨0, 6, 8, .rw, .stored, 1, 32⟩]⟩,
  ⟨"MOV_STATUS", 0x10, [], [⟨0, 32, 0, .ro, .stored, 0, 2 ^ 64⟩]⟩,
  ⟨"MOV_CHK", 0x18, [], [⟨0, 32, 0, .ro, .stored, 0, 2 ^ 64⟩]⟩,
  ⟨"MOV_CHK_ADDR", 0x20, [], [⟨0, 48, 0, .ro, .stored, 0, 2 ^ 64⟩, ⟨48, 1, 0, .w1c, .stored, 0, 2 ^ 64⟩]⟩,
  ⟨"MOV_BLK_CARRY", 0x28, [], [⟨0, 64, 0, .ro, .stored, 0, 2 ^ 64⟩]⟩,
  ⟨"MOV_BLK_REGEN", 0x30, [], [⟨0, 64, 0, .ro, .stored, 0, 2 ^ 64⟩]⟩,
  ⟨"MOV_BYTES", 0x38, [], [⟨0, 64, 0, .ro, .stored, 0, 2 ^ 64⟩]⟩,
  ⟨"MOV_DESC", 0x100000, [(0x100, 4096), (0x8, 32)], [⟨0, 64, 0, .rw, .stored, 0, 2 ^ 64⟩]⟩]

/-- The registers of the mem window. -/
def regsMem : List RegDef := [
  ⟨"MEM_ID", 0x0, [], [⟨0, 5, 0, .ro, .fuseStack, 0, 2 ^ 64⟩, ⟨5, 6, 0, .ro, .fusePcq, 0, 2 ^ 64⟩, ⟨11, 5, 0, .ro, .fuseChan, 0, 2 ^ 64⟩, ⟨16, 1, 0, .ro, .fuseHalf, 0, 2 ^ 64⟩, ⟨17, 1, 0, .ro, .fuseShared, 0, 2 ^ 64⟩, ⟨18, 4, 0, .ro, .fusePartner, 0, 2 ^ 64⟩, ⟨22, 1, 0, .ro, .chanFailed, 0, 2 ^ 64⟩]⟩,
  ⟨"MEM_CFG", 0x8, [], [⟨0, 1, 1, .rwl, .stored, 0, 2 ^ 64⟩, ⟨8, 8, 0x18, .rwl, .stored, 1, 255⟩]⟩,
  ⟨"MEM_REG", 0x10, [(0x8, 5)], [⟨0, 9, 0, .rwl, .stored, 0, 256⟩, ⟨12, 12, 0x40, .rwl, .stored, 1, 4095⟩, ⟨24, 1, 0, .rwl, .stored, 0, 2 ^ 64⟩, ⟨32, 20, 0, .ro, .stored, 0, 2 ^ 64⟩]⟩,
  ⟨"MEM_SVC", 0x40, [(0x8, 5)], [⟨0, 64, 0, .ro, .stored, 0, 2 ^ 64⟩]⟩,
  ⟨"MEM_SLOTWAIT", 0x68, [], [⟨0, 64, 0, .ro, .stored, 0, 2 ^ 64⟩]⟩,
  ⟨"MEM_ECC", 0x70, [], [⟨0, 32, 0, .ro, .stored, 0, 2 ^ 64⟩, ⟨32, 16, 0, .ro, .stored, 0, 2 ^ 64⟩]⟩,
  ⟨"MEM_ECC_ADDR", 0x78, [], [⟨0, 48, 0, .ro, .stored, 0, 2 ^ 64⟩, ⟨48, 1, 0, .w1c, .stored, 0, 2 ^ 64⟩, ⟨49, 1, 0, .ro, .stored, 0, 2 ^ 64⟩]⟩,
  ⟨"MEM_ODECC", 0x80, [], [⟨0, 32, 0, .ro, .stored, 0, 2 ^ 64⟩]⟩,
  ⟨"MEM_LINK", 0x88, [], [⟨0, 16, 0, .ro, .stored, 0, 2 ^ 64⟩, ⟨16, 8, 0, .ro, .stored, 0, 2 ^ 64⟩, ⟨24, 4, 0, .ro, .stored, 0, 2 ^ 64⟩]⟩,
  ⟨"MEM_TEMP", 0x90, [], [⟨0, 11, 0, .ro, .stored, 0, 2 ^ 64⟩, ⟨11, 1, 0, .ro, .stored, 0, 2 ^ 64⟩]⟩,
  ⟨"MEM_BYTES", 0x98, [], [⟨0, 64, 0, .ro, .stored, 0, 2 ^ 64⟩]⟩]

/-- The registers of the ztp window. -/
def regsZtp : List RegDef := [
  ⟨"ZTP_RT_CTRL", 0x0, [], [⟨0, 1, 0, .rw, .stored, 0, 2 ^ 64⟩, ⟨1, 1, 0, .ro, .stored, 0, 2 ^ 64⟩, ⟨16, 32, 0, .ro, .stored, 0, 2 ^ 64⟩]⟩,
  ⟨"ZTP_RT_BASE", 0x8, [], [⟨0, 48, 0, .ro, .stored, 0, 2 ^ 64⟩]⟩,
  ⟨"ZTP_PARK", 0x10, [], [⟨0, 9, 0, .ro, .stored, 0, 2 ^ 64⟩, ⟨32, 32, 0, .ro, .stored, 0, 2 ^ 64⟩]⟩,
  ⟨"ZTP_STALE", 0x18, [], [⟨0, 64, 0, .ro, .stored, 0, 2 ^ 64⟩]⟩,
  ⟨"ZTP_WINVIOL", 0x20, [], [⟨0, 64, 0, .ro, .stored, 0, 2 ^ 64⟩]⟩,
  ⟨"ZTP_AUTHFAIL", 0x28, [], [⟨0, 64, 0, .ro, .stored, 0, 2 ^ 64⟩]⟩,
  ⟨"ZTP_RETX", 0x30, [], [⟨0, 64, 0, .ro, .stored, 0, 2 ^ 64⟩]⟩,
  ⟨"ZTP_CTX_SEL", 0x40, [], [⟨0, 32, 0, .rw, .stored, 0, 2 ^ 64⟩]⟩,
  ⟨"ZTP_CTX_W", 0x80, [(0x8, 8)], [⟨0, 64, 0, .ro, .ctx, 0, 2 ^ 64⟩]⟩]

/-- The registers of the col window. -/
def regsCol : List RegDef := [
  ⟨"COL_CFG", 0x0, [], [⟨0, 1, 0, .rwl, .stored, 0, 2 ^ 64⟩, ⟨1, 6, 8, .rw, .stored, 1, 32⟩, ⟨16, 9, 0, .ro, .stored, 0, 2 ^ 64⟩]⟩,
  ⟨"COL_OPS", 0x8, [], [⟨0, 64, 0, .ro, .stored, 0, 2 ^ 64⟩]⟩,
  ⟨"COL_BYTES", 0x10, [], [⟨0, 64, 0, .ro, .stored, 0, 2 ^ 64⟩]⟩,
  ⟨"COL_Q_CFG", 0x10000, [(0x40, 256)], [⟨0, 32, 0, .rw, .stored, 0, 2 ^ 64⟩, ⟨32, 16, 0, .ro, .stored, 0, 2 ^ 64⟩, ⟨48, 7, 0x20, .rw, .stored, 0, 2 ^ 64⟩, ⟨55, 9, 0x10, .rw, .stored, 0, 2 ^ 64⟩]⟩,
  ⟨"COL_Q_RANK", 0x10008, [(0x40, 256)], [⟨0, 22, 0, .rw, .stored, 0, 2 ^ 64⟩, ⟨22, 23, 0, .rw, .stored, 0, 2 ^ 64⟩, ⟨45, 1, 0, .ro, .stored, 0, 2 ^ 64⟩, ⟨46, 1, 0, .w1c, .stored, 0, 2 ^ 64⟩, ⟨47, 3, 0, .ro, .stored, 0, 2 ^ 64⟩]⟩,
  ⟨"COL_Q_MTBL", 0x10010, [(0x40, 256)], [⟨0, 48, 0, .rw, .stored, 0, 2 ^ 64⟩]⟩,
  ⟨"COL_Q_STAGE", 0x10018, [(0x40, 256)], [⟨0, 48, 0, .rw, .stored, 0, 2 ^ 64⟩]⟩,
  ⟨"COL_Q_RING", 0x10020, [(0x40, 256)], [⟨0, 48, 0, .rw, .stored, 0, 2 ^ 64⟩]⟩,
  ⟨"COL_Q_CTRL", 0x10028, [(0x40, 256)], [⟨0, 1, 0, .wo, .stored, 0, 2 ^ 64⟩, ⟨1, 1, 0, .wo, .stored, 0, 2 ^ 64⟩]⟩,
  ⟨"COL_Q_SEQ", 0x10030, [(0x40, 256)], [⟨0, 24, 0, .rw, .stored, 0, 2 ^ 64⟩, ⟨24, 24, 0, .ro, .stored, 0, 2 ^ 64⟩]⟩,
  ⟨"COL_Q_HANDLE", 0x10038, [(0x40, 256)], [⟨0, 32, 0, .ro, .stored, 0, 2 ^ 64⟩]⟩]

/-- The registers of the dsp window. -/
def regsDsp : List RegDef := [
  ⟨"DSP_CFG", 0x0, [], [⟨0, 1, 0, .rwl, .stored, 0, 2 ^ 64⟩, ⟨1, 1, 0, .rwl, .stored, 0, 2 ^ 64⟩, ⟨2, 6, 4, .rw, .stored, 1, 32⟩]⟩,
  ⟨"DSP_CTRL", 0x8, [], [⟨0, 1, 0, .rw, .stored, 0, 2 ^ 64⟩, ⟨1, 1, 0, .ro, .stored, 0, 2 ^ 64⟩, ⟨16, 32, 0, .ro, .stored, 0, 2 ^ 64⟩]⟩,
  ⟨"DSP_RND", 0x10, [], [⟨0, 32, 0, .rw, .stored, 0, 2 ^ 64⟩, ⟨32, 16, 0, .rw, .stored, 0, 2 ^ 64⟩, ⟨48, 16, 0, .rw, .stored, 0, 2 ^ 64⟩]⟩,
  ⟨"DSP_RND2", 0x18, [], [⟨0, 16, 0xffff, .rw, .stored, 0, 2 ^ 64⟩, ⟨16, 1, 0, .rw, .stored, 0, 2 ^ 64⟩]⟩,
  ⟨"DSP_GO", 0x20, [], [⟨0, 1, 0, .wo, .stored, 0, 2 ^ 64⟩, ⟨1, 1, 0, .wo, .stored, 0, 2 ^ 64⟩]⟩,
  ⟨"DSP_STATUS", 0x28, [], [⟨0, 1, 0, .ro, .stored, 0, 2 ^ 64⟩, ⟨1, 1, 0, .ro, .stored, 0, 2 ^ 64⟩, ⟨2, 1, 0, .ro, .stored, 0, 2 ^ 64⟩, ⟨3, 1, 0, .ro, .stored, 0, 2 ^ 64⟩, ⟨4, 3, 0, .ro, .stored, 0, 2 ^ 64⟩, ⟨7, 1, 0, .w1c, .stored, 0, 2 ^ 64⟩, ⟨32, 32, 0, .ro, .stored, 0, 2 ^ 64⟩]⟩,
  ⟨"DSP_DELIV", 0x30, [], [⟨0, 64, 0, .ro, .stored, 0, 2 ^ 64⟩]⟩,
  ⟨"DSP_SPILL", 0x38, [], [⟨0, 64, 0, .ro, .stored, 0, 2 ^ 64⟩]⟩,
  ⟨"DSP_DROP", 0x40, [], [⟨0, 64, 0, .ro, .stored, 0, 2 ^ 64⟩]⟩,
  ⟨"DSP_STALE", 0x48, [], [⟨0, 64, 0, .ro, .stored, 0, 2 ^ 64⟩]⟩,
  ⟨"DSP_OCC_ZERO", 0x58, [], [⟨0, 64, 0, .ro, .stored, 0, 2 ^ 64⟩]⟩,
  ⟨"DSP_OCC_SKIP", 0x50, [], [⟨0, 32, 0, .ro, .stored, 0, 2 ^ 64⟩, ⟨32, 32, 0, .ro, .stored, 0, 2 ^ 64⟩]⟩,
  ⟨"DSP_KV_BASE", 0x60, [], [⟨0, 48, 0, .rwl, .stored, 0, 2 ^ 64⟩]⟩,
  ⟨"DSP_KV_SLOT", 0x68, [], [⟨0, 48, 0, .rwl, .stored, 0, 2 ^ 64⟩]⟩,
  ⟨"DSP_KV_SEQS", 0x70, [], [⟨0, 18, 0, .rwl, .stored, 0, 2 ^ 64⟩]⟩,
  ⟨"DSP_OCC", 0x10000, [(0x8, 4096)], [⟨0, 64, 0, .rw, .stored, 0, 2 ^ 64⟩]⟩,
  ⟨"DSP_TXT", 0x100000, [(0x10000, 2), (0x8, 8192)], [⟨0, 64, 0, .rw, .stored, 0, 2 ^ 64⟩]⟩,
  ⟨"DSP_RXT", 0x200000, [(0x1000, 2), (0x40, 64), (0x8, 8)], [⟨0, 64, 0, .rw, .stored, 0, 2 ^ 64⟩]⟩]

/-- The registers of the str window. -/
def regsStr : List RegDef := [
  ⟨"STR_CFG", 0x0, [], [⟨0, 1, 1, .rwl, .stored, 0, 2 ^ 64⟩, ⟨1, 1, 1, .rwl, .stored, 0, 2 ^ 64⟩, ⟨2, 1, 1, .rwl, .stored, 0, 2 ^ 64⟩]⟩,
  ⟨"STR_STATUS", 0x8, [], [⟨0, 3, 0, .ro, .stored, 0, 2 ^ 64⟩, ⟨3, 1, 0, .ro, .stored, 0, 2 ^ 64⟩, ⟨4, 2, 0, .ro, .stored, 0, 2 ^ 64⟩, ⟨6, 2, 0, .ro, .stored, 0, 2 ^ 64⟩]⟩,
  ⟨"STR_STEP", 0x10, [], [⟨0, 64, 0, .ro, .stored, 0, 2 ^ 64⟩]⟩,
  ⟨"STR_MSTEP", 0x18, [], [⟨0, 64, 0, .ro, .stored, 0, 2 ^ 64⟩]⟩,
  ⟨"STR_TSL", 0x20, [], [⟨0, 48, 0, .ro, .stored, 0, 2 ^ 64⟩, ⟨48, 7, 0, .ro, .stored, 0, 2 ^ 64⟩]⟩,
  ⟨"STR_BUDDY", 0x28, [], [⟨0, 13, 0, .ro, .stored, 0, 2 ^ 64⟩, ⟨13, 5, 0, .ro, .stored, 0, 2 ^ 64⟩, ⟨32, 32, 0, .ro, .stored, 0, 2 ^ 64⟩]⟩,
  ⟨"STR_MHELD", 0x30, [], [⟨0, 48, 0, .ro, .stored, 0, 2 ^ 64⟩]⟩,
  ⟨"STR_MHELD_LEN", 0x38, [], [⟨0, 38, 0, .ro, .stored, 0, 2 ^ 64⟩]⟩,
  ⟨"STR_UPD", 0x40, [], [⟨0, 1, 0, .wo, .stored, 0, 2 ^ 64⟩, ⟨1, 8, 0, .wo, .stored, 0, 2 ^ 64⟩, ⟨16, 24, 0, .wo, .stored, 0, 2 ^ 64⟩]⟩,
  ⟨"STR_NF", 0x48, [], [⟨0, 1, 0, .ro, .stored, 0, 2 ^ 64⟩]⟩,
  ⟨"STR_LSCALE", 0x50, [], [⟨0, 32, 0x47800000, .rw, .stored, 0, 2 ^ 64⟩]⟩,
  ⟨"STR_SKIPS", 0x58, [], [⟨0, 64, 0, .ro, .stored, 0, 2 ^ 64⟩]⟩,
  ⟨"STR_RING_BASE", 0x60, [], [⟨0, 48, 0, .ro, .stored, 0, 2 ^ 64⟩]⟩,
  ⟨"STR_RING_LEN", 0x68, [], [⟨0, 41, 0, .ro, .stored, 0, 2 ^ 64⟩]⟩,
  ⟨"STR_RING_USE", 0x70, [], [⟨0, 31, 0, .ro, .stored, 0, 2 ^ 64⟩, ⟨31, 31, 0, .ro, .stored, 0, 2 ^ 64⟩, ⟨62, 1, 0, .ro, .stored, 0, 2 ^ 64⟩, ⟨63, 1, 0, .ro, .stored, 0, 2 ^ 64⟩]⟩,
  ⟨"STR_CKPT_CTRL", 0x78, [], [⟨0, 1, 0, .wo, .stored, 0, 2 ^ 64⟩, ⟨1, 1, 0, .wo, .stored, 0, 2 ^ 64⟩, ⟨2, 1, 0, .wo, .stored, 0, 2 ^ 64⟩]⟩,
  ⟨"STR_CKPT_CFG", 0x80, [], [⟨0, 32, 0, .rw, .stored, 0, 2 ^ 64⟩, ⟨32, 32, 0, .rw, .stored, 0, 2 ^ 64⟩]⟩,
  ⟨"STR_CKPT_STATUS", 0x88, [], [⟨0, 1, 0, .ro, .stored, 0, 2 ^ 64⟩, ⟨1, 3, 0, .ro, .stored, 0, 2 ^ 64⟩, ⟨4, 1, 0, .ro, .stored, 0, 2 ^ 64⟩, ⟨5, 1, 0, .ro, .stored, 0, 2 ^ 64⟩, ⟨16, 48, 0, .ro, .stored, 0, 2 ^ 64⟩]⟩,
  ⟨"STR_CKPT_EP", 0x90, [], [⟨0, 32, 0, .ro, .stored, 0, 2 ^ 64⟩, ⟨32, 32, 0, .ro, .stored, 0, 2 ^ 64⟩]⟩,
  ⟨"STR_MWAIT", 0x98, [], [⟨0, 64, 0, .ro, .stored, 0, 2 ^ 64⟩]⟩,
  ⟨"STR_MBYTES", 0xa0, [], [⟨0, 64, 0, .ro, .stored, 0, 2 ^ 64⟩]⟩,
  ⟨"STR_SUPP", 0xa8, [], [⟨0, 64, 0, .ro, .stored, 0, 2 ^ 64⟩]⟩]

/-- The registers of the asy window. -/
def regsAsy : List RegDef := [
  ⟨"ASY_STATUS", 0x0, [], [⟨0, 1, 0, .w1c, .stored, 0, 2 ^ 64⟩, ⟨1, 1, 0, .ro, .stored, 0, 2 ^ 64⟩]⟩,
  ⟨"ASY_NDET", 0x8, [], [⟨0, 64, 0, .ro, .stored, 0, 2 ^ 64⟩]⟩,
  ⟨"ASY_NDET_KSPLIT", 0x10, [], [⟨0, 64, 0, .ro, .stored, 0, 2 ^ 64⟩]⟩,
  ⟨"ASY_NDET_COLL", 0x18, [], [⟨0, 64, 0, .ro, .stored, 0, 2 ^ 64⟩]⟩,
  ⟨"ASY_NDET_DISP", 0x20, [], [⟨0, 64, 0, .ro, .stored, 0, 2 ^ 64⟩]⟩,
  ⟨"ASY_NDET_STEP", 0x28, [], [⟨0, 64, 0, .ro, .stored, 0, 2 ^ 64⟩]⟩,
  ⟨"ASY_PDIG", 0x40, [(0x8, 4)], [⟨0, 64, 0, .ro, .stored, 0, 2 ^ 64⟩]⟩,
  ⟨"ASY_TAG_CTRL", 0x60, [], [⟨0, 1, 0, .wo, .stored, 0, 2 ^ 64⟩]⟩,
  ⟨"ASY_TAG_STEP", 0x68, [], [⟨0, 64, 0, .rw, .stored, 0, 2 ^ 64⟩]⟩,
  ⟨"ASY_TAG_LIST", 0x70, [], [⟨0, 48, 0, .rw, .stored, 0, 2 ^ 64⟩]⟩,
  ⟨"ASY_TAG_STATUS", 0x78, [], [⟨0, 1, 0, .ro, .stored, 0, 2 ^ 64⟩, ⟨1, 3, 0, .ro, .stored, 0, 2 ^ 64⟩, ⟨32, 32, 0, .ro, .stored, 0, 2 ^ 64⟩]⟩,
  ⟨"ASY_TAG", 0x80, [(0x8, 4)], [⟨0, 64, 0, .ro, .stored, 0, 2 ^ 64⟩]⟩,
  ⟨"ASY_UTAG", 0xa0, [(0x8, 4)], [⟨0, 64, 0, .ro, .stored, 0, 2 ^ 64⟩]⟩,
  ⟨"ASY_VCFG", 0xc0, [], [⟨0, 4, 1, .ro, .stored, 0, 2 ^ 64⟩, ⟨4, 3, 0, .ro, .stored, 0, 2 ^ 64⟩, ⟨16, 16, 0x64, .ro, .stored, 0, 2 ^ 64⟩]⟩,
  ⟨"ASY_VPEER", 0xc8, [(0x8, 8)], [⟨0, 22, 0, .ro, .stored, 0, 2 ^ 64⟩]⟩,
  ⟨"ASY_VOTE", 0x108, [], [⟨0, 3, 0, .ro, .stored, 0, 2 ^ 64⟩, ⟨3, 2, 0, .ro, .stored, 0, 2 ^ 64⟩, ⟨8, 8, 0, .ro, .stored, 0, 2 ^ 64⟩, ⟨16, 48, 0, .ro, .stored, 0, 2 ^ 64⟩]⟩,
  ⟨"ASY_VCOUNT", 0x110, [], [⟨0, 32, 0, .ro, .stored, 0, 2 ^ 64⟩, ⟨32, 12, 0, .ro, .stored, 0, 2 ^ 64⟩, ⟨44, 12, 0, .ro, .stored, 0, 2 ^ 64⟩, ⟨56, 8, 0, .ro, .stored, 0, 2 ^ 64⟩]⟩,
  ⟨"ASY_VSTALE", 0x118, [], [⟨0, 64, 0, .ro, .stored, 0, 2 ^ 64⟩]⟩,
  ⟨"ASY_RING", 0x120, [], [⟨0, 10, 0, .ro, .stored, 0, 2 ^ 64⟩, ⟨16, 10, 0, .rw, .stored, 0, 2 ^ 64⟩, ⟨32, 16, 0, .ro, .stored, 0, 2 ^ 64⟩]⟩,
  ⟨"ASY_RING_BASE", 0x128, [], [⟨0, 48, 0, .ro, .stored, 0, 2 ^ 64⟩]⟩,
  ⟨"ASY_FT", 0x130, [], [⟨0, 1, 0, .ro, .stored, 0, 2 ^ 64⟩, ⟨1, 2, 0, .ro, .stored, 0, 2 ^ 64⟩, ⟨3, 3, 0, .ro, .stored, 0, 2 ^ 64⟩, ⟨8, 8, 0, .ro, .stored, 0, 2 ^ 64⟩, ⟨16, 32, 0, .ro, .stored, 0, 2 ^ 64⟩, ⟨48, 16, 0, .ro, .stored, 0, 2 ^ 64⟩]⟩,
  ⟨"ASY_TRANS", 0x138, [], [⟨0, 64, 0, .ro, .stored, 0, 2 ^ 64⟩]⟩]

/-- The registers of the hst window. -/
def regsHst : List RegDef := [
  ⟨"HST_LINK", 0x0, [], [⟨0, 3, 0, .ro, .stored, 0, 2 ^ 64⟩, ⟨3, 5, 0, .ro, .stored, 0, 2 ^ 64⟩, ⟨8, 1, 0, .ro, .stored, 0, 2 ^ 64⟩, ⟨9, 1, 0, .ro, .stored, 0, 2 ^ 64⟩, ⟨32, 32, 0, .ro, .stored, 0, 2 ^ 64⟩]⟩,
  ⟨"HST_LINKERR", 0x8, [], [⟨0, 24, 0, .ro, .stored, 0, 2 ^ 64⟩, ⟨24, 12, 0, .ro, .stored, 0, 2 ^ 64⟩, ⟨36, 12, 0, .ro, .stored, 0, 2 ^ 64⟩, ⟨48, 16, 0, .ro, .stored, 0, 2 ^ 64⟩]⟩,
  ⟨"HST_MREQ", 0x10, [], [⟨0, 3, 0, .wo, .stored, 0, 2 ^ 64⟩, ⟨4, 4, 0, .wo, .stored, 0, 2 ^ 64⟩, ⟨12, 52, 0, .wo, .stored, 0, 2 ^ 64⟩]⟩,
  ⟨"HST_MREQ_STAT", 0x18, [], [⟨0, 1, 0, .ro, .stored, 0, 2 ^ 64⟩, ⟨1, 2, 0, .ro, .stored, 0, 2 ^ 64⟩, ⟨3, 3, 0, .ro, .stored, 0, 2 ^ 64⟩, ⟨32, 32, 0, .ro, .stored, 0, 2 ^ 64⟩]⟩,
  ⟨"HST_ELOG", 0x20, [], [⟨0, 10, 0, .ro, .stored, 0, 2 ^ 64⟩, ⟨16, 10, 0, .rw, .stored, 0, 2 ^ 64⟩, ⟨32, 32, 0, .ro, .stored, 0, 2 ^ 64⟩]⟩]

/-- The registers of the bdr window. -/
def regsBdr : List RegDef := [
  ⟨"BDR_ID", 0x0, [], [⟨0, 64, 0, .ro, .fuseSerial, 0, 2 ^ 64⟩]⟩,
  ⟨"BDR_SEC", 0x8, [], [⟨0, 8, 0, .ro, .fuseSvn, 0, 2 ^ 64⟩, ⟨8, 1, 0, .ro, .fuseDbgLock, 0, 2 ^ 64⟩, ⟨9, 1, 1, .ro, .stored, 0, 2 ^ 64⟩, ⟨10, 1, 0, .ro, .stored, 0, 2 ^ 64⟩, ⟨11, 2, 0, .ro, .stored, 0, 2 ^ 64⟩, ⟨13, 2, 0, .ro, .stored, 0, 2 ^ 64⟩]⟩,
  ⟨"BDR_PSEC", 0x100, [(0x8, 16)], [⟨0, 1, 0, .ro, .stored, 0, 2 ^ 64⟩, ⟨1, 1, 0, .ro, .stored, 0, 2 ^ 64⟩, ⟨2, 1, 0, .ro, .stored, 0, 2 ^ 64⟩, ⟨16, 16, 0, .ro, .stored, 0, 2 ^ 64⟩, ⟨32, 16, 0, .ro, .stored, 0, 2 ^ 64⟩, ⟨48, 16, 0, .ro, .stored, 0, 2 ^ 64⟩]⟩,
  ⟨"BDR_ATT", 0x200, [], [⟨0, 32, 0, .ro, .stored, 0, 2 ^ 64⟩, ⟨32, 16, 0, .ro, .stored, 0, 2 ^ 64⟩, ⟨48, 16, 0, .ro, .stored, 0, 2 ^ 64⟩]⟩,
  ⟨"BDR_DRBG", 0x208, [], [⟨0, 32, 0, .ro, .stored, 0, 2 ^ 64⟩, ⟨32, 16, 0, .ro, .stored, 0, 2 ^ 64⟩]⟩]

/-- The registers of the qtz window. -/
def regsQtz : List RegDef := [
  ⟨"QTZ_STATUS", 0x0, [], [⟨0, 1, 0, .ro, .stored, 0, 2 ^ 64⟩, ⟨1, 1, 0, .ro, .stored, 0, 2 ^ 64⟩, ⟨2, 1, 0, .ro, .stored, 0, 2 ^ 64⟩, ⟨3, 1, 0, .ro, .stored, 0, 2 ^ 64⟩, ⟨4, 1, 0, .ro, .stored, 0, 2 ^ 64⟩, ⟨5, 1, 0, .w1c, .stored, 0, 2 ^ 64⟩]⟩,
  ⟨"QTZ_MON", 0x8, [], [⟨0, 1, 0, .ro, .stored, 0, 2 ^ 64⟩, ⟨1, 1, 0, .ro, .stored, 0, 2 ^ 64⟩, ⟨2, 1, 0, .ro, .stored, 0, 2 ^ 64⟩, ⟨3, 1, 0, .ro, .stored, 0, 2 ^ 64⟩, ⟨8, 12, 0, .ro, .stored, 0, 2 ^ 64⟩, ⟨20, 20, 0, .ro, .stored, 0, 2 ^ 64⟩]⟩,
  ⟨"QTZ_SW0", 0x10, [], [⟨0, 1, 0, .rw, .stored, 0, 2 ^ 64⟩, ⟨1, 1, 0, .ro, .stored, 0, 2 ^ 64⟩, ⟨2, 1, 0, .ro, .stored, 0, 2 ^ 64⟩, ⟨3, 1, 0, .ro, .stored, 0, 2 ^ 64⟩, ⟨4, 1, 0, .wo, .stored, 0, 2 ^ 64⟩]⟩,
  ⟨"QTZ_SW1", 0x18, [], [⟨0, 1, 0, .ro, .stored, 0, 2 ^ 64⟩, ⟨1, 1, 0, .ro, .stored, 0, 2 ^ 64⟩, ⟨2, 1, 0, .ro, .stored, 0, 2 ^ 64⟩, ⟨3, 1, 0, .ro, .stored, 0, 2 ^ 64⟩]⟩,
  ⟨"QTZ_TB", 0x20, [], [⟨0, 64, 0, .ro, .stored, 0, 2 ^ 64⟩]⟩,
  ⟨"QTZ_TBSYNC", 0x28, [], [⟨0, 16, 0, .ro, .stored, 0, 2 ^ 64⟩, ⟨16, 1, 0, .ro, .stored, 0, 2 ^ 64⟩, ⟨32, 32, 0, .ro, .stored, 0, 2 ^ 64⟩]⟩,
  ⟨"QTZ_BOOT", 0x30, [], [⟨0, 1, 0, .ro, .stored, 0, 2 ^ 64⟩, ⟨1, 1, 0, .ro, .stored, 0, 2 ^ 64⟩, ⟨2, 1, 0, .ro, .stored, 0, 2 ^ 64⟩, ⟨3, 1, 0, .ro, .stored, 0, 2 ^ 64⟩, ⟨4, 4, 0, .ro, .stored, 0, 2 ^ 64⟩, ⟨8, 16, 0, .ro, .stored, 0, 2 ^ 64⟩, ⟨24, 16, 0, .ro, .stored, 0, 2 ^ 64⟩, ⟨40, 16, 0, .ro, .stored, 0, 2 ^ 64⟩]⟩,
  ⟨"QTZ_FLASH", 0x38, [], [⟨0, 32, 0, .ro, .stored, 0, 2 ^ 64⟩, ⟨32, 16, 0, .ro, .stored, 0, 2 ^ 64⟩, ⟨48, 16, 0, .ro, .stored, 0, 2 ^ 64⟩]⟩]

/-- The registers of the pwr window. -/
def regsPwr : List RegDef := [
  ⟨"PWR_STATUS", 0x0, [], [⟨0, 12, 0, .ro, .stored, 0, 2 ^ 64⟩, ⟨12, 12, 0, .ro, .stored, 0, 2 ^ 64⟩, ⟨24, 12, 0, .ro, .stored, 0, 2 ^ 64⟩, ⟨36, 3, 0, .ro, .stored, 0, 2 ^ 64⟩]⟩,
  ⟨"PWR_LIMIT", 0x8, [], [⟨0, 12, 0, .ro, .fusePkgW, 0, 2 ^ 64⟩, ⟨12, 12, 0xf3c, .ro, .stored, 0, 2 ^ 64⟩, ⟨24, 8, 0x5f, .ro, .stored, 0, 2 ^ 64⟩, ⟨32, 9, 0x12c, .ro, .stored, 0, 2 ^ 64⟩]⟩,
  ⟨"PWR_DELAY", 0x10, [], [⟨0, 16, 0, .ro, .stored, 0, 2 ^ 64⟩, ⟨16, 32, 0, .ro, .stored, 0, 2 ^ 64⟩, ⟨48, 16, 0, .ro, .stored, 0, 2 ^ 64⟩]⟩,
  ⟨"PWR_SKIP", 0x100, [(0x8, 16)], [⟨0, 5, 0, .ro, .stored, 0, 2 ^ 64⟩, ⟨5, 3, 0, .ro, .stored, 0, 2 ^ 64⟩, ⟨32, 32, 0, .ro, .stored, 0, 2 ^ 64⟩]⟩]

/-- The registers of the zlk window. -/
def regsZlk : List RegDef := [
  ⟨"ZLK_STATE", 0x0, [], [⟨0, 3, 0, .ro, .stored, 0, 2 ^ 64⟩, ⟨3, 1, 0, .ro, .stored, 0, 2 ^ 64⟩, ⟨4, 2, 0, .ro, .stored, 0, 2 ^ 64⟩, ⟨6, 2, 0, .ro, .stored, 0, 2 ^ 64⟩, ⟨8, 8, 0, .ro, .stored, 0, 2 ^ 64⟩, ⟨16, 5, 0, .ro, .stored, 0, 2 ^ 64⟩, ⟨32, 8, 0, .ro, .stored, 0, 2 ^ 64⟩]⟩,
  ⟨"ZLK_PEER_ID0", 0x8, [], [⟨0, 64, 0, .ro, .stored, 0, 2 ^ 64⟩]⟩,
  ⟨"ZLK_PEER_ID1", 0x10, [], [⟨0, 13, 0, .ro, .stored, 0, 2 ^ 64⟩, ⟨13, 5, 0, .ro, .stored, 0, 2 ^ 64⟩, ⟨18, 8, 0, .ro, .stored, 0, 2 ^ 64⟩, ⟨26, 8, 0, .ro, .stored, 0, 2 ^ 64⟩, ⟨34, 8, 0, .ro, .stored, 0, 2 ^ 64⟩]⟩,
  ⟨"ZLK_PEER_DIG", 0x18, [], [⟨0, 64, 0, .ro, .stored, 0, 2 ^ 64⟩]⟩,
  ⟨"ZLK_CTRL", 0x20, [], [⟨0, 1, 0, .wo, .stored, 0, 2 ^ 64⟩, ⟨1, 1, 0, .rw, .stored, 0, 2 ^ 64⟩, ⟨2, 1, 0, .wo, .stored, 0, 2 ^ 64⟩]⟩,
  ⟨"ZLK_RETRY", 0x28, [], [⟨0, 32, 0, .ro, .stored, 0, 2 ^ 64⟩, ⟨32, 16, 0, .ro, .stored, 0, 2 ^ 64⟩, ⟨48, 16, 0, .ro, .stored, 0, 2 ^ 64⟩]⟩,
  ⟨"ZLK_FEC", 0x30, [], [⟨0, 32, 0, .ro, .stored, 0, 2 ^ 64⟩, ⟨32, 32, 0, .ro, .stored, 0, 2 ^ 64⟩]⟩,
  ⟨"ZLK_CRC", 0x38, [], [⟨0, 64, 0, .ro, .stored, 0, 2 ^ 64⟩]⟩,
  ⟨"ZLK_RXDROP", 0x40, [], [⟨0, 64, 0, .ro, .stored, 0, 2 ^ 64⟩]⟩]

/-- The registers of the ztpM window. -/
def regsZtpM : List RegDef := [
  ⟨"ZTP_MCFG", 0x0, [], [⟨0, 16, 0x64, .ro, .stored, 0, 2 ^ 64⟩, ⟨16, 16, 0xbcde, .ro, .stored, 0, 2 ^ 64⟩, ⟨32, 6, 0, .ro, .stored, 0, 2 ^ 64⟩, ⟨38, 1, 0, .ro, .stored, 0, 2 ^ 64⟩, ⟨39, 12, 0, .ro, .stored, 0, 2 ^ 64⟩, ⟨51, 3, 0, .ro, .stored, 0, 2 ^ 64⟩]⟩]

/-- The registers of the pf window. -/
def regsPf : List RegDef := [
  ⟨"HST_SQ_BASE", 0x0, [], [⟨0, 3, 0, .rw, .stored, 0, 2 ^ 64⟩, ⟨12, 52, 0, .rw, .stored, 0, 2 ^ 64⟩]⟩,
  ⟨"HST_CQ_BASE", 0x8, [], [⟨0, 3, 0, .rw, .stored, 0, 2 ^ 64⟩, ⟨12, 52, 0, .rw, .stored, 0, 2 ^ 64⟩]⟩,
  ⟨"HST_QCFG", 0x10, [], [⟨0, 1, 0, .rw, .stored, 0, 2 ^ 64⟩, ⟨16, 16, 0x3c, .rw, .stored, 1, 65535⟩]⟩,
  ⟨"HST_SQ_DB", 0x18, [], [⟨0, 12, 0, .wo, .stored, 0, 2 ^ 64⟩]⟩,
  ⟨"HST_CQ_DB", 0x20, [], [⟨0, 12, 0, .wo, .stored, 0, 2 ^ 64⟩]⟩,
  ⟨"HST_QSTAT", 0x28, [], [⟨0, 12, 0, .ro, .stored, 0, 2 ^ 64⟩, ⟨16, 12, 0, .ro, .stored, 0, 2 ^ 64⟩, ⟨32, 11, 0, .ro, .stored, 0, 2 ^ 64⟩]⟩]

/-- Whether `r` lies on the grid of strides and counts, largest stride first. -/
def onGrid : List (Nat × Nat) → Nat → Bool
  | [], r => r == 0
  | (st, n) :: ds, r => decide (r / st < n) && onGrid ds (r % st)

/-- The register of a window that offset `off` names exactly. -/
def findReg (l : List RegDef) (off : Nat) : Option RegDef :=
  l.find? (fun d => decide (d.off ≤ off) && onGrid d.dims (off - d.off))

/-- The field of a register map as a field of the machine. -/
def RegF.at (f : RegF) (key : Nat) : Fld := ⟨key, f.lo, f.w, f.rst⟩

end Sys2Proof.Machine
end

