-- ==== Sys2Proof/Machine/Ops.lean ====
section
/-!
DEFINITION. The named operations on the state: reading and writing a register field, the byte memories with their block
check words and bad pairs, check-word arithmetic, bus errors, and raising an error record with all it entails. Every
meaning works through these.
-/
namespace Sys2Proof.Machine

/-! ## Register fields -/

/-- The value of a register field. -/
def State.rf (s : State) (f : Fld) : Nat := s.flds.get f.rst f.cell

/-- Give a register field a value, reduced to its width. -/
def State.wf (s : State) (f : Fld) (v : Nat) : State := { s with flds := s.flds.set f.rst f.cell (v % 2 ^ f.w) }

/-- Add to a counter field; it wraps to 0 after its largest value. -/
def State.addf (s : State) (f : Fld) (n : Nat) : State := s.wf f (s.rf f + n)

/-- Advance a counter field by 1. -/
def State.inc (s : State) (f : Fld) : State := s.addf f 1

/-- Advance a saturating counter field (R330). -/
def State.satAdd (s : State) (f : Fld) (n : Nat) : State := s.wf f (Nat.min (s.rf f + n) (2 ^ f.w - 1))

/-- Append to what the block sends out. -/
def State.emit (s : State) (o : Out) : State := { s with out := s.out ++ [o] }

/-- The time base in 100 MHz ticks. -/
def State.now (s : State) : Nat := s.rf QTZ_TB.TICKS

/-- A bit as a number. -/
def bit (b : Bool) : Nat := if b then 1 else 0

/-! ## Units of the module -/

/-- The number of stacks of the variant (R22). -/
def Variant.stacks : Variant → Nat
  | .a16 => 16
  | .m20 => 20
  | .n12 => 12

/-- The number of I/O dies of the variant (R22). -/
def Variant.ioDies : Variant → Nat
  | .a16 => 8
  | .m20 => 4
  | .n12 => 12

/-- Pseudo-channels owned by a partition (R28). -/
def Variant.chans : Variant → Nat
  | .a16 => 64
  | .m20 => 80
  | .n12 => 48

/-- The code of a variant in PRT_ID.VARIANT. -/
def Variant.code : Variant → Nat
  | .a16 => 0
  | .m20 => 1
  | .n12 => 2

/-- Package power of a variant in W (R493, ordering table of 00_scope.md). -/
def Variant.packageW : Variant → Nat
  | .a16 => 3400
  | .m20 => 3300
  | .n12 => 3500

/-- The number of fabric ports (R22, R23). -/
def Variant.ports (v : Variant) : Nat := 16 * v.ioDies

/-- Bytes of a partition's stacked memory (R29). -/
def Variant.stackedBytes (v : Variant) : Nat := 0x40000000 * v.chans

/-- Bytes of a partition's data region, 63/64 of its stacked memory (R30). -/
def Variant.dataBytes (v : Variant) : Nat := 63 * (v.stackedBytes / 64)

/-- The flexible site of the primary I/O die (R22, R23). -/
def State.primarySite (s : State) : Nat := 16 + s.fuse.variant.stacks

/-- A unit ID (R17). -/
def unitId (site cls inst : Nat) : Nat := site * 1024 + cls * 64 + inst

/-- The unit ID of Bedrock (R24). -/
def State.bedrockUnit (s : State) : Nat := unitId s.primarySite 9 0

/-- The unit ID of the Zenrix transport (R24, R338). -/
def State.transportUnit (s : State) : Nat := unitId s.primarySite 6 63

/-- The number of logical cores of a partition. -/
def State.lcores (s : State) (p : Nat) : Nat := s.rf (PRT_CORES.LCORES p)

/-- The physical core of a logical core (R25). -/
def State.physCore (s : State) (p c : Nat) : Nat := bits (s.rf (PRT_CORES.MAP p)) (3 * c) 3

/-- The flat number of a logical core. -/
def coreKey (p c : Nat) : Nat := p * 8 + c

/-- The flat number of an array. -/
def arrKey (p c a : Nat) : Nat := coreKey p c * 4 + a

/-- The flat number of a command queue: engine 0 Garnet, 1 Mica, 2 mover. -/
def queueKey (p c e : Nat) : Nat := coreKey p c * 3 + e

/-- The flat number of an owned pseudo-channel. -/
def pcKey (p i : Nat) : Nat := p * 80 + i

/-- The flat number of a communication queue. -/
def colKey (p q : Nat) : Nat := p * 256 + q

def State.getGarnet (s : State) (p c : Nat) : Garnet := s.garnet.get {} (coreKey p c)
def State.setGarnet (s : State) (p c : Nat) (g : Garnet) : State := { s with garnet := s.garnet.set {} (coreKey p c) g }
def State.getFlint (s : State) (p c : Nat) : Flint := s.flint.get {} (coreKey p c)
def State.setFlint (s : State) (p c : Nat) (f : Flint) : State := { s with flint := s.flint.set {} (coreKey p c) f }
def State.getQueue (s : State) (p c e : Nat) : Queue := s.queue.get {} (queueKey p c e)
def State.setQueue (s : State) (p c e : Nat) (q : Queue) : State := { s with queue := s.queue.set {} (queueKey p c e) q }
def State.getStage (s : State) (p c : Nat) : Option MicaStage := s.stage.get none (coreKey p c)
def State.setStage (s : State) (p c : Nat) (m : Option MicaStage) : State :=
  { s with stage := s.stage.set none (coreKey p c) m }
def State.getLoaded (s : State) (p c a : Nat) : Option Loaded := s.loaded.get none (arrKey p c a)
def State.setLoaded (s : State) (p c a : Nat) (l : Option Loaded) : State :=
  { s with loaded := s.loaded.set none (arrKey p c a) l }
def State.getMover (s : State) (p : Nat) : Mover := s.mover.get {} p
def State.setMover (s : State) (p : Nat) (m : Mover) : State := { s with mover := s.mover.set {} p m }
def State.getDisp (s : State) (p : Nat) : Dispatch := s.disp.get {} p
def State.setDisp (s : State) (p : Nat) (d : Dispatch) : State := { s with disp := s.disp.set {} p d }
def State.getPc (s : State) (p i : Nat) : PseudoChan := s.pc.get {} (pcKey p i)
def State.setPc (s : State) (p i : Nat) (x : PseudoChan) : State := { s with pc := s.pc.set {} (pcKey p i) x }
def State.getChan (s : State) (st ch : Nat) : Channel := s.chan.get {} (st * 32 + ch)
def State.setChan (s : State) (st ch : Nat) (x : Channel) : State := { s with chan := s.chan.set {} (st * 32 + ch) x }
def State.getPort (s : State) (i : Nat) : Port := s.port.get {} i
def State.setPort (s : State) (i : Nat) (x : Port) : State := { s with port := s.port.set {} i x }
def State.getCtx (s : State) (i : Nat) : Ctx := s.ctx.get {} i
def State.setCtx (s : State) (i : Nat) (x : Ctx) : State := { s with ctx := s.ctx.set {} i x }
def State.getAux (s : State) (i : Nat) : CtxAux := s.aux.get {} i
def State.setAux (s : State) (i : Nat) (x : CtxAux) : State := { s with aux := s.aux.set {} i x }
def State.getColq (s : State) (p q : Nat) : ColQueue := s.colq.get {} (colKey p q)
def State.setColq (s : State) (p q : Nat) (x : ColQueue) : State := { s with colq := s.colq.set {} (colKey p q) x }
def State.getAssay (s : State) (p : Nat) : Assay := s.assay.get {} p
def State.setAssay (s : State) (p : Nat) (x : Assay) : State := { s with assay := s.assay.set {} p x }
def State.getStrata (s : State) (p : Nat) : Strata := s.strata.get {} p
def State.setStrata (s : State) (p : Nat) (x : Strata) : State := { s with strata := s.strata.set {} p x }
def State.getReset (s : State) (p : Nat) : Option ResetRun := s.resets.get none p
def State.setReset (s : State) (p : Nat) (x : Option ResetRun) : State := { s with resets := s.resets.set none p x }
def State.getFt (s : State) (p : Nat) : FieldTest := s.ftest.get {} p
def State.setFt (s : State) (p : Nat) (x : FieldTest) : State := { s with ftest := s.ftest.set {} p x }
def State.getMember (s : State) (p : Nat) : Membership := s.member.get {} p
def State.setMember (s : State) (p : Nat) (x : Membership) : State := { s with member := s.member.set {} p x }
def State.getTen (s : State) (p : Nat) : Tenancy := s.tenancy.get {} p
def State.setTen (s : State) (p : Nat) (x : Tenancy) : State := { s with tenancy := s.tenancy.set {} p x }
def State.getHost (s : State) (n : Nat) : HostFn := s.host.get {} n
def State.setHost (s : State) (n : Nat) (x : HostFn) : State := { s with host := s.host.set {} n x }
def State.getHandle (s : State) (i : Nat) : Option HostHandle := s.handles.get none i
def State.setHandle (s : State) (i : Nat) (x : Option HostHandle) : State := { s with handles := s.handles.set none i x }
def State.getSess (s : State) (k : Nat) : Session := s.sess.get {} k
def State.setSess (s : State) (k : Nat) (x : Session) : State := { s with sess := s.sess.set {} k x }
def State.getPark (s : State) (p : Nat) : List (Nat × TxReq) := s.park.get [] p
def State.setPark (s : State) (p : Nat) (x : List (Nat × TxReq)) : State := { s with park := s.park.set [] p x }

/-! ## Bus errors (R30, R33) -/

/-- Record a bus error: PRT_BUSERR keeps the first address until VALID is cleared. -/
def State.busErr (s : State) (p addr : Nat) : State :=
  if s.rf (PRT_BUSERR.VALID p) = 1 then s else (s.wf (PRT_BUSERR.ADDR p) addr).wf (PRT_BUSERR.VALID p) 1

/-! ## Check words (R168, R261 uses the same CRC family) -/

/-- One bit of a reflected CRC. -/
def crcBit (poly : Word32) (c : Word32) : Word32 :=
  if c.getLsbD 0 then (c >>> 1) ^^^ poly else c >>> 1

/-- `n` bits of a reflected CRC. -/
def crcBits (poly : Word32) : Nat → Word32 → Word32
  | 0, c => c
  | n + 1, c => crcBits poly n (crcBit poly c)

/-- A reflected CRC-32 with initial value and final XOR all ones. -/
def crc32 (poly : Word32) (bs : List Byte) : Word32 :=
  (bs.foldl (fun c b => crcBits poly 8 (c ^^^ b.setWidth 32)) 0xFFFFFFFF#32) ^^^ 0xFFFFFFFF#32

/-- CRC-32C of RFC 3720 (polynomial 0x1EDC_6F41, reflected). -/
def crc32c (bs : List Byte) : Word32 := crc32 0x82F63B78#32 bs

/-- The link CRC of R266 (polynomial 0x04C1_1DB7, reflected). -/
def linkCrc (bs : List Byte) : Word32 := crc32 0xEDB88320#32 bs

/-- CRC-32C of 256 zero bytes, the Z of R168. -/
def crcZero : Word32 := crc32c (List.replicate 256 0#8)

/-- The check word of a block (R168): an all-zero block has check word 0. -/
def checkWord (bs : List Byte) : Word32 := crc32c bs ^^^ crcZero

/-! ## Memory -/

/-- The key of a partition address in `State.mem`. -/
def memKey (p addr : Nat) : Nat := 0x1000000000000 * p + addr

/-- The canonical form of memory: addresses strictly rising, no listed byte equal to what an unlisted address reads as. -/
def Memory.wf (m : List Host.Cell) : Bool := Tbl.wf 0#8 m

/-- The byte of memory at a key; memory that nothing has written reads 0 (R45, R46, R397). -/
def State.byte (s : State) (k : Nat) : Byte := Tbl.get 0#8 s.mem k

/-- Write one byte of memory. -/
def State.setByte (s : State) (k : Nat) (b : Byte) : State := { s with mem := Tbl.set 0#8 s.mem k b }

/-- `n` bytes of memory from a key upwards. -/
def State.bytes (s : State) (k : Nat) : Nat → List Byte
  | 0 => []
  | n + 1 => s.byte k :: s.bytes (k + 1) n

/-- Write bytes of memory from a key upwards. -/
def State.setBytes (s : State) (k : Nat) : List Byte → State
  | [] => s
  | b :: bs => (s.setByte k b).setBytes (k + 1) bs

/-- Which kind of memory a partition address lies in (R30, R32). -/
inductive Place where
  | data
  | checks
  | tile (core off : Nat)
  | regs (off : Nat)
  | nowhere
deriving DecidableEq, Repr

/-- The region of a partition address; holes and windows of absent cores are nowhere. -/
def State.place (s : State) (p addr : Nat) : Place :=
  let v := s.fuse.variant
  if addr < v.dataBytes then .data
  else if addr < v.stackedBytes then .checks
  else if 0xF00000000000 ≤ addr ∧ addr < 0xF00000000000 + 0x2000000 * s.lcores p then
    (if (addr - 0xF00000000000) % 0x2000000 < 0x1800000
      then .tile ((addr - 0xF00000000000) / 0x2000000) ((addr - 0xF00000000000) % 0x2000000) else .nowhere)
  else if regBase ≤ addr ∧ addr < regBase + 0x0C000000 then .regs (addr - regBase)
  else .nowhere

/-- Whether the memory at an address is clocked (R20): stacked memory by PRT_CLK_EN.MEM, tile memory by PRT_CLK_EN.TLM. -/
def State.powered (s : State) (p addr : Nat) : Bool :=
  match s.place p addr with
  | .data | .checks => s.rf (PRT_CLK_EN.MEM p) == 1
  | .tile _ _ => s.rf (PRT_CLK_EN.TLM p) == 1
  | _ => false

/-- Whether a unit's access to a memory address is served: it lies in the data region or in the tile memory of a present core
(R30–R32), and that memory is clocked (R20). Every other access returns a bus error. -/
def State.reach (s : State) (p addr : Nat) : Bool :=
  match s.place p addr with
  | .data | .tile _ _ => s.powered p addr
  | _ => false

/-- Whether the mover is writing the stacked-memory block at an address (R195): a read of it waits. -/
def State.interlocked (s : State) (p addr : Nat) : Bool :=
  decide (addr < s.fuse.variant.dataBytes) &&
  (s.getMover p).chans.any (fun e => match e.2 with
    | some r => r.blocks.any (fun b => b.1 == addr / 256)
    | none => false)

/-- The bank of a byte offset of a tile-memory window, and its row in the bank (R164). -/
def tileBank (off : Nat) : Nat := off / 128 % 16
def tileRow (off : Nat) : Nat := off / 2048

/-- The base address of a core's tile-memory window (R32). -/
def tileBase (c : Nat) : Nat := 0xF00000000000 + 0x2000000 * c

/-- The pseudo-channel and offset of a partition address (R233). -/
def State.pcOf (s : State) (addr : Nat) : Nat × Nat :=
  let n := s.fuse.variant.chans
  let b := addr / 256
  ((b + b / n) % n, b / n * 256 + addr % 256)

/-- The stack and channel of an owned pseudo-channel (R28, R231), and its half. -/
def State.chanOf (s : State) (p i : Nat) : Nat × Nat × Nat :=
  let g := p * s.fuse.variant.chans + i
  (g / 64, g % 64 % 32, g % 64 / 32)

/-- Whether a channel has failed (R252). -/
def State.chanFailed (s : State) (p addr : Nat) : Bool :=
  let (st, ch, _) := s.chanOf p (s.pcOf addr).1
  (s.getChan st ch).st == 3

/-- Whether the pair at a stacked-memory address is uncorrectable (R245). -/
def State.pairBad (s : State) (p addr : Nat) : Bool :=
  let (i, o) := s.pcOf addr
  (s.getPc p i).bad.contains (o / 64)

/-- Whether any pair of a stacked-memory block is uncorrectable. -/
def State.blockBad (s : State) (p addr : Nat) : Bool :=
  s.pairBad p addr || s.pairBad p (addr + 64) || s.pairBad p (addr + 128) || s.pairBad p (addr + 192)

/-- The address of the check word of a data block (R169). -/
def State.checkAddr (s : State) (addr : Nat) : Nat := s.fuse.variant.dataBytes + 4 * (addr / 256)

/-- The stored check word of the block at `addr` (data region or tile memory). -/
def State.checkOf (s : State) (p addr : Nat) : Word32 :=
  if addr < s.fuse.variant.dataBytes then BitVec.ofNat 32 (leNat (s.bytes (memKey p (s.checkAddr addr)) 4))
  else s.tileChk.get 0#32 (memKey p addr / 256)

/-- Store the check word of the block at `addr`. -/
def State.setCheck (s : State) (p addr : Nat) (w : Word32) : State :=
  if addr < s.fuse.variant.dataBytes then s.setBytes (memKey p (s.checkAddr addr)) (leBytes 4 w.toNat)
  else { s with tileChk := s.tileChk.set 0#32 (memKey p addr / 256) w }

/-- The 256 bytes of the block that holds `addr`. -/
def State.block (s : State) (p addr : Nat) : List Byte := s.bytes (memKey p (addr / 256 * 256)) 256

/-- Whether the block at `addr` verifies (R171): its bytes match its check word, and neither is held in an uncorrectable
pair (R245). -/
def State.blockOk (s : State) (p addr : Nat) : Bool :=
  let a := addr / 256 * 256
  decide (checkWord (s.block p a) = s.checkOf p a) &&
    (decide (s.fuse.variant.dataBytes ≤ a) || (!s.blockBad p a && !s.pairBad p (s.checkAddr a)))

/-- A whole-block write makes the block's pairs good (R510). -/
def State.pairsGood (s : State) (p addr : Nat) : State :=
  if addr < s.fuse.variant.dataBytes then
    let (i, o) := s.pcOf addr
    let x := s.getPc p i
    s.setPc p i { x with bad := x.bad.filter (fun q => decide (q < o / 64 ∨ o / 64 + 4 ≤ q)) }
  else s

/-- The addresses of `n` blocks from `a`. -/
def blocksFrom (a : Nat) : Nat → List Nat
  | 0 => []
  | n + 1 => a :: blocksFrom (a + 256) n

/-- The blocks that `n` bytes from `a` touch. -/
def spanBlocks (a n : Nat) : List Nat := if n = 0 then [] else blocksFrom (a / 256 * 256) ((a + n - 1) / 256 + 1 - a / 256)

/-- What a meaning answers, where it is a next state. -/
def Answer.stateOr (s : State) : Answer → State
  | .next t => t
  | _ => s

/-- The state blocks of numbers `lo` to `lo + n - 1` of a list of ranges (R348). -/
def rangeBlocks : List (Nat × Nat) → Nat → Nat → List Nat
  | [], _, _ => []
  | (a, k) :: rs, lo, n =>
    if k ≤ lo then rangeBlocks rs (lo - k) n
    else blocksFrom (a + 256 * lo) (Nat.min n (k - lo)) ++ (if n ≤ k - lo then [] else rangeBlocks rs 0 (n - (k - lo)))

/-- The extents (R348) that hold the block at `a`; `b` is the number of the first block of the ranges. -/
def extentsOf (a b : Nat) : List (Nat × Nat) → List Nat
  | [] => []
  | (st, k) :: rs =>
    (if st ≤ a ∧ a < st + 256 * k then [(b + (a - st) / 256) / 4096] else []) ++ extentsOf a (b + k) rs

/-- Messages of at most 16 blocks (R275) that carry blocks with their check words to ascending places of a standing window, the
first at block `at` of it. -/
def State.blockMsgs (s : State) (p at0 : Nat) (as : List Nat) (owner : Option (Nat × Nat)) : List TxReq :=
  (List.range ((as.length + 15) / 16)).map (fun i =>
    let bs := (as.drop (16 * i)).take 16
    { mtype := 0, offset := (at0 + 16 * i) * 256, blocks := bs.map (s.block p), checks := bs.map (s.checkOf p), owner := owner })

/-- Append messages to what a stream has to send. -/
def State.queueTx (s : State) (idx : Nat) (l : List TxReq) : State :=
  s.setAux idx { s.getAux idx with txq := (s.getAux idx).txq ++ l }

/-- Put a message that says something to the peer's transport (a grant, R282, or a close, R274) ahead of the data that wait: it needs no
credit. -/
def State.queueCtl (s : State) (idx mtype offset : Nat) : State :=
  let a := s.getAux idx
  let ctl (r : TxReq) : Bool := r.mtype == 1 || r.mtype == 4
  let r : TxReq := { mtype := mtype, offset := offset, blocks := [], checks := [], owner := none }
  s.setAux idx { a with txq := a.txq.takeWhile ctl ++ [r] ++ a.txq.dropWhile ctl }

/-- Grant the peer of a stream the blocks of a window, or credit for blocks consumed (R282; log entry 82). -/
def State.queueGrant (s : State) (idx blocks : Nat) : State := s.queueCtl idx 1 (256 * blocks)

/-- The header block of a partition's mirror (R354), as its source sends it: the buddy writes COMPLETE. -/
def State.mirrorHeader (s : State) (p : Nat) : List Byte :=
  (leBytes 8 (s.rf (STR_STEP.STEP p)) ++ leBytes 4 1 ++ leBytes 4 (((s.getStrata p).ranges.map (·.2)).sum) ++ leBytes 8 (s.rf (ASY_NDET.COUNT p)) ++
    leBytes 8 (s.rf (STR_LSCALE.SCALE p)) ++ leBytes 8 (s.rf (STR_SKIPS.COUNT p)) ++ List.replicate 24 0#8 ++
    (List.range 4).flatMap (fun i => leBytes 8 (s.rf (ASY_UTAG.TAG p i))) ++ List.replicate 160 0#8)

/-- Send the header fields of the mirror last (R356). -/
def State.sendMirrorHeader (s : State) (p : Nat) : State :=
  let h := s.mirrorHeader p
  s.queueTx (s.rf (STR_BUDDY.HANDLE p) % 2 ^ 18) [{ mtype := 0, offset := 0, blocks := [h], checks := [checkWord h], owner := none }]

/-- Copy an extent to the buddy on the mirror stream with its check words carried (R353, R356); the extent is clean from then
on (R357). The state blocks follow the header block of the held mirror, whose fields are sent once no extent is left. A block
that fails verification is not forwarded (R12): its extent stays uncopied. -/
def State.copyExtent (s : State) (p ext : Nat) : State :=
  let x := s.getStrata p
  let as := rangeBlocks x.ranges (ext * 4096) 4096
  if !as.all (s.blockOk p) then s else
  let s := s.queueTx (s.rf (STR_BUDDY.HANDLE p) % 2 ^ 18) (s.blockMsgs p (1 + ext * 4096) as none)
  let left := x.copying.filter (· != ext)
  let s := (s.setStrata p { x with clean := ext :: x.clean.filter (· != ext), copying := left }).addf (STR_MBYTES.COUNT p) (256 * as.length)
  if left = [] then s.sendMirrorHeader p else s

/-- A block of the data region is about to be written: its extents become dirty (R357); a write to an extent that is
released and not yet copied follows the copy, and is counted (R358; log entry 12). -/
def State.touch (s : State) (p a : Nat) : List Nat → State
  | [] => s
  | e :: es =>
    let s := if (s.getStrata p).copying.contains e then (s.copyExtent p e).inc (STR_MWAIT.COUNT p) else s
    let x := s.getStrata p
    (s.setStrata p { x with clean := x.clean.filter (· != e) }).touch p a es

/-- A write of a check word that an uncorrectable pair keeps from being performed (R510): its request waits at the controller, which
meets the pair when it grants it, and records and reports it again (MEM_REQUEST_GRANT, R245; log entry 21). -/
def State.checkWriteWaits (s : State) (p a : Nat) (who : Requester) : State :=
  let (i, o) := s.pcOf (s.checkAddr a)
  let x := s.getPc p i
  s.setPc p i { x with reqs := x.reqs ++ [⟨who, o / 32 * 32, 1, true⟩] }

/-- Write one whole block with its check word, as requester `who`. The check word of a stacked-memory block is a write of part of a
pair; it is not performed when that pair is uncorrectable (R510). Answers whether every write was performed. -/
def State.writeBlock (s : State) (p addr : Nat) (bs : List Byte) (w : Word32) (who : Requester := .channel 0) : State × Bool :=
  let a := addr / 256 * 256
  let s := if a < s.fuse.variant.dataBytes then s.touch p a (extentsOf a 0 (s.getStrata p).ranges) else s
  let s1 := (s.setBytes (memKey p a) bs).pairsGood p a
  if a < s.fuse.variant.dataBytes ∧ s.pairBad p (s.checkAddr a) then (s1.checkWriteWaits p a who, false) else (s1.setCheck p a w, true)

/-- Count a failed block verification (R171): TLM_CHK of the core for tile memory, MOV_CHK for stacked memory. -/
def State.countCheckFail (s : State) (p addr : Nat) : State :=
  match s.place p addr with
  | .tile c off =>
    let s := s.inc (TLM_CHK.FAIL p c)
    if s.rf (TLM_CHK.VALID p c) = 1 then s else (s.wf (TLM_CHK.LAST_OFF p c) (off / 256 * 256)).wf (TLM_CHK.VALID p c) 1
  | _ =>
    let s := s.inc (MOV_CHK.FAIL p)
    if s.rf (MOV_CHK_ADDR.VALID p) = 1 then s
    else (s.wf (MOV_CHK_ADDR.ADDR p) (addr / 256 * 256)).wf (MOV_CHK_ADDR.VALID p) 1

/-! ## Error records (R337–R342, R453, R455) -/

/-- The classes of error records. -/
inductive Cls where
  | corr
  | trans
  | perm
  | fatal
deriving DecidableEq, Repr

/-- The code of a class in W0. -/
def Cls.code : Cls → Nat
  | .corr => 0
  | .trans => 1
  | .perm => 2
  | .fatal => 3

/-- What a unit reports: everything of a record but what the module adds (time, temperature, SEQ, CHK). `part` is the
partition of the unit or of the handle concerned; none for a module-wide event. -/
structure Report where
  unit : Nat
  cls : Cls
  code : Nat
  part : Option Nat
  retry : Nat := 0
  handle : Nat := 0
  epoch : Nat := 0
  /-- the fields of SYNDROME as (value, bytes), from byte 0 upwards (R338) -/
  synd : List (Nat × Nat) := []
  addr : Nat := 0
deriving DecidableEq, Repr

/-- SYNDROME packed as R338 gives. -/
def packSynd : List (Nat × Nat) → Nat
  | [] => 0
  | (v, n) :: r => v % 256 ^ n + 256 ^ n * packSynd r

/-- The 60 bytes under CHK. -/
def recBytes (ws : List Word64) : List Byte := (ws.flatMap (fun w => leBytes 8 w.toNat)).take 60

/-- Complete words W0–W6 with CHK in W7 (R337). -/
def sealRec (ws : List Word64) : Rec :=
  ws ++ [BitVec.ofNat 64 ((crc32c (recBytes (ws ++ [0#64]))).toNat * 2 ^ 32)]

/-- The record of a report (R337). The die temperature and the core-rail voltage are measured: a free value (log entry 30). -/
def State.recordOf (s : State) (r : Report) : Rec :=
  let m := (Config.freeValue s.freeCtr).toNat
  sealRec
    [ BitVec.ofNat 64 (r.unit % 65536 + r.cls.code * 2 ^ 16 + r.retry % 256 * 2 ^ 24 + r.code % 65536 * 2 ^ 32 +
        r.epoch % 65536 * 2 ^ 48),
      BitVec.ofNat 64 (r.handle % 2 ^ 32 + (match r.part with | some p => p % 16 * 2 ^ 32 | none => 2 ^ 36)),
      BitVec.ofNat 64 s.now,
      BitVec.ofNat 64 (m % 4096 + m / 4096 % 4096 * 2 ^ 16 +
        s.recSeq % 2 ^ 32 * 2 ^ 32),
      BitVec.ofNat 64 (packSynd r.synd % 2 ^ 64),
      BitVec.ofNat 64 (packSynd r.synd / 2 ^ 64),
      BitVec.ofNat 64 (r.addr % 2 ^ 48) ]

/-- The copy Bedrock keeps of a partition unit's record: HANDLE, EPOCH, ADDR and SYNDROME 0, CHK recomputed (R340). -/
def hideRec (w : Rec) : Rec :=
  match w with
  | [w0, w1, w2, w3, _, _, _, _] =>
    sealRec [w0 &&& 0x0000FFFFFFFFFFFF#64, w1 &&& 0xFFFFFFFF00000000#64, w2, w3, 0#64, 0#64, 0#64]
  | w => w

/-- The class of a record. -/
def recClass (w : Rec) : Nat := bits (w.headD 0#64).toNat 16 2

/-- Assert MGT_ALERT_N with a platform event that the controller has yet to read (R455). -/
def State.platform (s : State) (e : PlatformEvent) : State :=
  { s with events := s.events ++ [e], power := { s.power with alert := true }, out := s.out ++ [.platformEvent e] }

/-- Copy a record into the PF16 error-record ring, or count it lost (R453). -/
def State.elogCopy (s : State) (w : Rec) : State :=
  let s1 :=
    if (s.rf HST_ELOG.PROD + 1) % 1024 = s.rf HST_ELOG.CONS then s.inc HST_ELOG.LOST
    else { s with elog := s.elog.set [] (s.rf HST_ELOG.PROD) w }.inc HST_ELOG.PROD
  if 2 ≤ recClass w then s1.emit (.msix 16 0) else s1

/-- Count a record of class `c` as suppressed (R342). -/
def State.suppress (s : State) (c : Nat) : State := { s with suppressed := s.suppressed.modify c (· + 1) }

/-- The SUPPRESSED record that a flush adds when records were suppressed (R342): code 0x84, class CORR. -/
def State.suppressedRec (s : State) : List Rec :=
  if s.suppressed = [0, 0, 0, 0] then []
  else [s.recordOf { unit := unitId s.primarySite 8 0, cls := .corr, code := 0x84, part := none,
                     synd := s.suppressed.map (fun n => (n, 4)) }]

/-- Hand a log entry to the flash (R460, R464, R465). -/
def State.flashEntry (s : State) (region : Region) (p : Payload) : State :=
  let f := s.flash
  { s with flash := { f with nextSeq := f.nextSeq + 1 }.submit (.entry ⟨region, 0, 0, 0xFF, f.nextSeq, true, true, p⟩ 1 false) }

/-- Flush the pending records to the error log ring as an ERRLOG entry, which holds at most 16 records (R458), with a SUPPRESSED record
when some were counted and not written (R342): it follows in an entry of its own where 16 were pending, and PF16 has it as well (R340). -/
def State.flushRecords (s : State) : State :=
  match s.recPend with
  | [] => s
  | rs =>
    match s.suppressedRec with
    | [] => { s with recFlush := rs, recPend := [] }.flashEntry .errlog (.errlog rs)
    | w :: _ =>
      let s := { s with recSeq := (s.recSeq + 1) % 2 ^ 32, freeCtr := s.freeCtr + 1, suppressed := [0, 0, 0, 0]
                        recFlush := rs ++ [w], recPend := [] }.elogCopy w
      if rs.length < 16 then s.flashEntry .errlog (.errlog (rs ++ [w]))
      else (s.flashEntry .errlog (.errlog rs)).flashEntry .errlog (.errlog [w])

/-- Bedrock takes a record for the flash (R342): pending, or suppressed when both buffers are full or when it is a CORR
record that is not the first, of any class, with its UNIT and OPCODE in this second. Sixteen pending records are flushed. -/
def State.bedrockTake (s : State) (unit code : Nat) (w : Rec) : State :=
  let sec := s.now / 100000000
  let c := recClass w
  if c = 0 ∧ s.corrSeen.contains (unit, code, sec) then s.suppress 0
  else
    let s := { s with corrSeen := (unit, code, sec) :: s.corrSeen.filter (fun t => t.2.2 == sec && t != (unit, code, sec)) }
    if s.recPend.length = 16 then s.suppress c
    else
      let s := { s with recPend := s.recPend ++ [w] }
      if s.recPend.length = 16 ∧ s.recFlush = [] then s.flushRecords else s

/-- Write a record into the partition's record ring (R341). A block that fails verification is written afresh with the
record alone; then a PERM record 0x32 is owed for it, and its address is answered. -/
def State.ringWrite (s : State) (p : Nat) (w : Rec) : State × Option Nat :=
  let base := s.rf (ASY_RING_BASE.BASE p)
  let prod := s.rf (ASY_RING.PROD p)
  if base = 0 ∨ (prod + 1) % 1024 = s.rf (ASY_RING.CONS p) ∨ s.chanFailed p (base + prod * 64) then
    (s.inc (ASY_RING.LOST p), none)
  else
    let a := (base + prod * 64) / 256 * 256
    let ok := s.blockOk p a
    let old := if ok then s.block p a else List.replicate 256 0#8
    let o := (base + prod * 64) % 256
    let new := old.take o ++ w.flatMap (fun x => leBytes 8 x.toNat) ++ old.drop (o + 64)
    let s1 := (s.writeBlock p a new (checkWord new) .assay).1
    (s1.inc (ASY_RING.PROD p), if ok then none else some a)

/-- Raise a record: the partition's ring and Bedrock receive it. Answers the ring block that failed verification, for which a record is
owed (R341). -/
def State.raise1 (s : State) (r : Report) : State × Option Nat :=
  let w := s.recordOf r
  let s := { s with recSeq := (s.recSeq + 1) % 2 ^ 32, freeCtr := s.freeCtr + 1 }
  let (s, owed) := match r.part with
    | some p => s.ringWrite p w
    | none => (s, none)
  let kept := match r.part with
    | some _ => hideRec w
    | none => w
  let s := (s.bedrockTake r.unit r.code kept).elogCopy kept
  (if 2 ≤ r.cls.code then s.platform (.record kept) else s, owed)

/-- The unit of class 3 that a record 0x32 names (R338: its code gives class 3): the tile memory that holds the block; for a block of
stacked memory that of the core of the unit that met it, and of physical core 0 where that unit is no core's (log entry 79). -/
def State.checkUnit (s : State) (p unit addr : Nat) : Nat :=
  match s.place p addr with
  | .tile c _ => unitId p 3 (s.physCore p c)
  | _ =>
    let cls := unit / 64 % 16
    unitId p 3 (if cls = 0 then unit % 64 / 4 else if cls ≤ 3 then unit % 64 else 0)

/-- The report of a block that failed verification (R338): PERM 0x32, with the expected and found check words. -/
def State.checkReport (s : State) (p unit addr handle : Nat) : Report :=
  let a := addr / 256 * 256
  { unit := s.checkUnit p unit a, cls := .perm, code := 0x32, part := some p, handle := handle,
    synd := [((checkWord (s.block p a)).toNat, 4), ((s.checkOf p a).toNat, 4)], addr := a }

/-- Raise a record and, as often as the ring block that takes one fails verification, the record 0x32 of that block (R341); a ring of
1,024 entries is full after that many. -/
def raiseN : Nat → State → Report → State
  | 0, s, r => (s.raise1 r).1
  | n + 1, s, r =>
    match s.raise1 r with
    | (s1, none) => s1
    | (s1, some a) =>
      raiseN n (s1.countCheckFail (r.part.getD 0) a) (s.checkReport (r.part.getD 0) (unitId (r.part.getD 0) 8 0) a 0)

/-- Raise an error record: SEQ advances, the partition's ring and Bedrock receive it, a PERM or FATAL record alerts the
board management controller (R339–R342, R453, R455). -/
def State.raise (s : State) (r : Report) : State := raiseN 1024 s r

/-- The record 0x32 of a block that failed verification (R338, R12): counted, PERM, with the expected and found check words; `handle` is
the handle of the operation, where one stands for it. -/
def State.checkFailRec (s : State) (p unit addr : Nat) (handle : Nat := 0) : State :=
  (s.countCheckFail p (addr / 256 * 256)).raise (s.checkReport p unit addr handle)

end Sys2Proof.Machine
end

