-- ==== Sys2Proof/Machine/Access.lean ====
section
/-!
DEFINITION. Register accesses: which register a partition address, a management offset or a queue-window offset names
(R33, R438, R439), what a read returns, and what a write that has no row of its own does, field by field (R19, R513,
R514).
-/
namespace Sys2Proof.Machine

/-- A register an access names: its map, its key, its repetition number within the map (the pseudo-channel for MEM_) and
the clock enable that gates its block. -/
structure Hit where
  d : RegDef
  key : Nat
  inst : Nat
  clk : Option Fld
deriving DecidableEq, Repr

/-- Look an offset up in a window. -/
def hitIn (l : List RegDef) (base off inst : Nat) (clk : Option Fld) : Option Hit :=
  (findReg l off).map (fun d => ⟨d, base + off, inst, clk⟩)

/-- The register at byte offset `off` (a multiple of 8) of partition `p`'s register region (R33). COL_ and ZTP_ have no
clock-enable bit in PRT_CLK_EN, and PRT_ has none (R50). -/
def State.regAt (s : State) (p off : Nat) : Option Hit :=
  let r := off % 0x1000000
  let core (l : List RegDef) (clk : Fld) : Option Hit :=
    if r / 0x10000 < s.lcores p then hitIn l (regKey p (off - r % 0x10000)) (r % 0x10000) (r / 0x10000) (some clk) else none
  match off / 0x1000000 with
  | 0 => hitIn regsPrt (regKey p 0) r 0 none
  | 1 => core regsGrn (PRT_CLK_EN.GRN p)
  | 2 => core regsMca (PRT_CLK_EN.MCA p)
  | 3 => core regsFlt (PRT_CLK_EN.FLT p)
  | 4 => core regsTlm (PRT_CLK_EN.TLM p)
  | 5 => hitIn regsMov (regKey p (off - r)) r 0 (some (PRT_CLK_EN.MOV p))
  | 6 => if r / 0x1000 < s.fuse.variant.chans
      then hitIn regsMem (regKey p (off - r % 0x1000)) (r % 0x1000) (r / 0x1000) (some (PRT_CLK_EN.MEM p)) else none
  | 7 => hitIn regsZtp (regKey p (off - r)) r 0 none
  | 8 => hitIn regsCol (regKey p (off - r)) r 0 none
  | 9 => hitIn regsDsp (regKey p (off - r)) r 0 (some (PRT_CLK_EN.DSP p))
  | 10 => hitIn regsStr (regKey p (off - r)) r 0 (some (PRT_CLK_EN.STR p))
  | 11 => hitIn regsAsy (regKey p (off - r)) r 0 (some (PRT_CLK_EN.ASY p))
  | _ => none

/-- The register at an offset of the management space (R439); the summary copies and the record ring are read-only data
and no registers of this table. -/
def State.mgmtAt (s : State) (off : Nat) : Option Hit :=
  let r := off % 0x100000
  match off / 0x100000 with
  | 0 => hitIn regsHst (mgmtKey 0) r 0 none
  | 1 => hitIn regsBdr (mgmtKey (off - r)) r 0 none
  | 2 => hitIn regsQtz (mgmtKey (off - r)) r 0 none
  | 3 => hitIn regsPwr (mgmtKey (off - r)) r 0 none
  | 4 => if r / 0x100 < s.fuse.variant.ports
      then hitIn regsZlk (mgmtKey (off - r % 0x100)) (r % 0x100) (r / 0x100) none else none
  | 5 => hitIn regsZtpM (mgmtKey (off - r)) r 0 none
  | _ => none

/-- The register at an offset of the queue window of PF`n` (R438). -/
def pfAt (n off : Nat) : Option Hit := hitIn regsPf (pfKey n 0) off n none

/-! ## Reading -/

/-- The eight words of a stream context (R281). -/
def Ctx.word (x : Ctx) (w : Nat) : Nat :=
  match w with
  | 0 => x.state % 16 + x.kind % 16 * 2 ^ 4 + x.part % 16 * 2 ^ 8 + bit x.standing * 2 ^ 12 + bit x.stripe * 2 ^ 13 +
      x.gen % 2 ^ 14 * 2 ^ 18 + x.epoch % 2 ^ 16 * 2 ^ 32
  | 1 => x.peerHandle % 2 ^ 32 + x.peerEpoch % 2 ^ 16 * 2 ^ 32
  | 2 => x.peerKind % 4 + x.peerId % 2 ^ 22 * 4
  | 3 => x.txSeq % 2 ^ 48 + x.inflight % 2 ^ 16 * 2 ^ 48
  | 4 => x.txAcked % 2 ^ 48 + x.stale % 2 ^ 16 * 2 ^ 48
  | 5 => x.rxSeq % 2 ^ 48 + x.authFail % 2 ^ 16 * 2 ^ 48
  | 6 => x.winBase % 2 ^ 48 + x.credit % 2 ^ 16 * 2 ^ 48
  | 7 => x.rxMap % 2 ^ 32 + x.winLen % 2 ^ 32 * 2 ^ 32
  | _ => 0

/-- Whether handle `h` names a live context of partition `p` (R37, R38): its generation is the current one, it is not the
null handle, the context is not free and belongs to `p`. -/
def State.handleOk (s : State) (p h : Nat) : Bool :=
  let x := s.getCtx (h % 2 ^ 18)
  decide (h / 2 ^ 18 % 2 ^ 14 ≠ 0) && decide (h / 2 ^ 18 % 2 ^ 14 = x.gen) && decide (x.part = p) && decide (x.state ≠ 0)

/-- The handle of context `idx` (R36). -/
def State.handleOf (s : State) (idx : Nat) : Nat := (s.getCtx idx).gen % 2 ^ 14 * 2 ^ 18 + idx % 2 ^ 18

/-- The good-core mask of a compute die (fuse): all eight cores in grade F, exactly one of them disabled in grade E (R3). -/
def State.goodMask (s : State) (p : Nat) : Nat := if s.fuse.gradeE then 0xFF - 2 ^ (s.fuse.disabled.get 0 p % 8) else 0xFF

/-- The partition that owns the other pseudo-channel of the channel of owned pseudo-channel `i` (R28, MEM_ID). -/
def State.partner (s : State) (p i : Nat) : Nat :=
  let n := s.fuse.variant.chans
  let g := p * n + i
  (g / 64 * 64 + (g % 64 + 32) % 64) / n

/-- The value of a field of a register an access names. -/
def State.readFld (s : State) (p : Nat) (h : Hit) (f : RegF) : Nat :=
  if f.acc = .wo then 0
  else match f.src with
  | .stored => s.rf (f.at h.key)
  | .ctx =>
    let hd := s.rf (ZTP_CTX_SEL.HANDLE p)
    if s.handleOk p hd then (s.getCtx (hd % 2 ^ 18)).word (h.key % 0x1000000 % 0x80 / 8) else 0
  | .fusePart => p
  | .fuseVariant => s.fuse.variant.code
  | .fuseGood => s.goodMask p
  | .fuseStack => (p * s.fuse.variant.chans + h.inst) / 64
  | .fusePcq => (p * s.fuse.variant.chans + h.inst) % 64
  | .fuseChan => (p * s.fuse.variant.chans + h.inst) % 32
  | .fuseHalf => (p * s.fuse.variant.chans + h.inst) % 64 / 32
  | .fuseShared => bit (decide (s.partner p h.inst ≠ p))
  | .fusePartner => s.partner p h.inst
  | .chanFailed =>
    let (st, ch, _) := s.chanOf p h.inst
    bit (decide ((s.getChan st ch).st = 3))
  | .fuseSerial => s.fuse.serial
  | .fuseSvn => s.fuse.svn
  | .fuseDbgLock => bit s.fuse.dbgLock
  | .fusePkgW => match s.cfg.packageLimitW with
    | some w => w
    | none => s.fuse.variant.packageW

/-- The 64-bit value a read of a register returns: its fields in their places, reserved bits 0 (R18). -/
def State.readHit (s : State) (p : Nat) (h : Hit) : Nat :=
  h.d.flds.foldl (fun n f => n + s.readFld p h f % 2 ^ f.w * 2 ^ f.lo) 0

/-- Whether the block of a register is clocked (R20). -/
def State.clocked (s : State) (h : Hit) : Bool :=
  match h.clk with
  | none => true
  | some f => s.rf f == 1

/-! ## Writing -/

/-- The bits of a register that a store of `size` bytes at byte `b` of it covers (R514). -/
def coverMask (b size : Nat) : Nat := (2 ^ (8 * size) - 1) * 2 ^ (8 * b)

/-- The value a store puts into a register's bits: the stored bytes in their place, 0 elsewhere. -/
def placed (b size : Nat) (v : Word64) : Nat := v.toNat % 2 ^ (8 * size) * 2 ^ (8 * b)

/-- A field's value after a write that covers `mask`: the written bits inside it, the old ones outside. -/
def mixed (old new mask : Nat) : Nat := Nat.lor (Nat.land new mask) (Nat.xor old (Nat.land old mask))

/-- One field of a register takes a write of `v` under `mask` (R19, R513). Answers whether the write would change a locked
RWL field. WO fields act through their own rows. -/
def State.writeFld (s : State) (locked : Bool) (key : Nat) (v mask : Nat) (f : RegF) : State × Bool :=
  let old := s.rf (f.at key)
  let m := bits mask f.lo f.w
  let new := mixed old (bits v f.lo f.w) m
  let set := if m ≠ 0 ∧ f.okLo ≤ new ∧ new ≤ f.okHi then s.wf (f.at key) new else s
  match f.acc with
  | .ro | .wo => (s, false)
  | .rw => (set, false)
  | .w1c => (s.wf (f.at key) (Nat.xor old (Nat.land old (Nat.land (bits v f.lo f.w) m))), false)
  | .rwl => if locked then (s, decide (new ≠ old)) else (set, false)

/-- Every field of a register takes a write; answers whether any locked field would change. -/
def State.writeFlds (s : State) (locked : Bool) (key v mask : Nat) : List RegF → State × Bool
  | [] => (s, false)
  | f :: fs =>
    let (s1, e1) := s.writeFld locked key v mask f
    let (s2, e2) := s1.writeFlds locked key v mask fs
    (s2, e1 || e2)

/-- Give the fields that Bedrock alone writes the written values (R162, R343, R376). -/
def State.writeAll (s : State) (key v mask : Nat) : List RegF → State
  | [] => s
  | f :: fs =>
    (s.wf (f.at key) (mixed (s.rf (f.at key)) (bits v f.lo f.w) (bits mask f.lo f.w))).writeAll key v mask fs

/-- The registers that Bedrock alone writes (R162, R343, R376). -/
def bedrockOnly : List String :=
  ["FLT_CTRL", "ASY_PDIG", "ASY_VCFG", "ASY_VPEER", "ASY_RING_BASE", "STR_TSL", "STR_RING_BASE", "STR_RING_LEN"]

/-- The PRT_ registers a Flint may write (R50). -/
def flintPrt : List String := ["PRT_CLK_EN", "PRT_RESET", "PRT_BUSERR"]

/-- Whether an agent is a Flint core. -/
def isFlint (a : Agent) : Bool :=
  match a with
  | .flint _ => true
  | _ => false

/-- The communication queue of a COL_ queue register. -/
def colQueueOf (off : Nat) : Nat := (off % 0x1000000 - 0x10000) / 0x40

/-- Whether a write is refused as a whole: ignored and answered with a bus error (R50, R162, R197, R210, R311, R343, R344,
R376). `off` is the register's offset in the register region. -/
def State.writeDenied (s : State) (a : Agent) (p off size : Nat) (h : Hit) : Bool :=
  let fl := isFlint a
  (fl && decide (off / 0x1000000 = 0) && !flintPrt.contains h.d.name) ||
  (fl && bedrockOnly.contains h.d.name) ||
  (h.d.name == "MOV_DESC" && decide (size ≠ 8)) ||
  (h.d.name == "DSP_TXT" && (decide (off % 0x1000000 / 0x10000 % 2 = s.rf (DSP_CTRL.ACTIVE p)) || s.rf (DSP_CTRL.SWAP_ARM p) == 1)) ||
  (h.d.name == "DSP_RXT" && (decide (off % 0x1000000 / 0x1000 % 2 = s.rf (DSP_CTRL.ACTIVE p)) || s.rf (DSP_CTRL.SWAP_ARM p) == 1)) ||
  (decide (off / 0x1000000 = 8 ∧ 0x10000 ≤ off % 0x1000000) &&
    ((fl && decide (colQueueOf off = 255)) ||
     (["COL_Q_CFG", "COL_Q_MTBL", "COL_Q_STAGE", "COL_Q_RING"].contains h.d.name &&
       decide (s.rf (COL_Q_RANK.OPEN p (colQueueOf off)) = 1))))

/-- The bits of a write that take effect: a write of COL_Q_RANK to an open queue acts only on ERR (R311). -/
def State.writeMask (s : State) (p off mask : Nat) (h : Hit) : Nat :=
  if h.d.name == "COL_Q_RANK" ∧ s.rf (COL_Q_RANK.OPEN p (colQueueOf off)) = 1 then Nat.land mask (2 ^ 46) else mask

/-- A write of `size` bytes at offset `off` of partition `p`'s register region to a register without a row of its own.
Answers whether it draws a bus error (recorded by the caller, R30). -/
def State.regWrite (s : State) (a : Agent) (p off size : Nat) (v : Word64) : State × Bool :=
  match s.regAt p (off - off % 8) with
  | none => (s, true)
  | some h =>
    if !s.clocked h || s.writeDenied a p (off - off % 8) size h then (s, true)
    else
      let mask := s.writeMask p (off - off % 8) (coverMask (off % 8) size) h
      if bedrockOnly.contains h.d.name then (s.writeAll h.key (placed (off % 8) size v) mask h.d.flds, false)
      else s.writeFlds (s.rf (PRT_CTRL.LOCK p) == 1) h.key (placed (off % 8) size v) mask h.d.flds

/-- A write that the access types of a management register do not permit (R439): no field of it takes writes. -/
def mgmtIgnored (d : RegDef) : Bool := d.flds.all (fun f => f.acc == .ro)

/-- A write to the management space to a register without a row of its own; what is not permitted is ignored and counted
(R439). HST_ELOG.CONS is the host's. -/
def State.mgmtWrite (s : State) (a : Agent) (off size : Nat) (v : Word64) : State :=
  match s.mgmtAt (off - off % 8) with
  | none => if a = .pf16 then s.inc HST_LINKERR.IGNORED else s
  | some h =>
    if mgmtIgnored h.d then (if a = .pf16 then s.inc HST_LINKERR.IGNORED else s)
    else (s.writeFlds false h.key (placed (off % 8) size v) (coverMask (off % 8) size) h.d.flds).1

/-- A write to the queue window of PF`n` to a register without a row of its own (R438): ring bases only while the rings
are out of use, EN to 1 only with a secured session. -/
def State.pfWrite (s : State) (n off size : Nat) (v : Word64) : State :=
  match pfAt n (off - off % 8) with
  | none => s
  | some h =>
    let val := placed (off % 8) size v
    let mask := coverMask (off % 8) size
    if h.d.name == "HST_SQ_BASE" ∨ h.d.name == "HST_CQ_BASE" then
      (if s.rf (HST_QCFG.EN n) = 1 then s else (s.writeFlds false h.key val mask h.d.flds).1)
    else if h.d.name == "HST_QCFG" then
      let noSess := bitOf (Nat.land val mask) 0 && s.rf (BDR_PSEC.SESSION n) == 0
      (s.writeFlds false h.key val (if noSess then mask - bits mask 0 1 else mask) h.d.flds).1
    else (s.writeFlds false h.key val mask h.d.flds).1

/-- A bus error towards the agent: the address is recorded (R30, R33). -/
def State.busErrIf (s : State) (e : Bool) (p addr : Nat) : State := if e then s.busErr p addr else s

end Sys2Proof.Machine
end

