-- ==== Sys2Proof/Machine/Flags.lean ====
section
/-!
DEFINITION. Statuses and the command queues: the status codes of R149, the done value of R147, waits (R151), completion,
and the halting of a queue with all that depends on it (R150).
-/
namespace Sys2Proof.Machine

/-! ## Statuses (R149) -/

def stOK : Nat := 0
def stSTALE : Nat := 1
def stABORTED : Nat := 2
def stCHECKFAIL : Nat := 3
def stSKIPPED : Nat := 4
def stLOSSY : Nat := 5

/-- The status CHECKFAIL of a command that met an uncorrectable word of tile memory (R167): the abort wave starts once it has
completed. -/
def stFATAL : Nat := 16 + stCHECKFAIL

/-- The statuses that halt a queue (R150). -/
def halts (st : Nat) : Bool := st == stSTALE || st == stABORTED || st == stCHECKFAIL

/-! ## The FLT_Q registers of a queue: engine 0 Garnet, 1 Mica, 2 mover -/

def qIssued (p c e : Nat) : Fld := match e with
  | 0 => FLT_QG.ISSUED p c
  | 1 => FLT_QM.ISSUED p c
  | _ => FLT_QV.ISSUED p c
def qDone (p c e : Nat) : Fld := match e with
  | 0 => FLT_QG.DONE p c
  | 1 => FLT_QM.DONE p c
  | _ => FLT_QV.DONE p c
def qCount (p c e : Nat) : Fld := match e with
  | 0 => FLT_QG.COUNT p c
  | 1 => FLT_QM.COUNT p c
  | _ => FLT_QV.COUNT p c
def qErr (p c e : Nat) : Fld := match e with
  | 0 => FLT_QG.ERR p c
  | 1 => FLT_QM.ERR p c
  | _ => FLT_QV.ERR p c
def qErrStat (p c e : Nat) : Fld := match e with
  | 0 => FLT_QG.ERRSTAT p c
  | 1 => FLT_QM.ERRSTAT p c
  | _ => FLT_QV.ERRSTAT p c

/-- Sequence numbers are 24 bits wide (R147). -/
def seqMod : Nat := 0x1000000

/-- Whether sequence `sq` counts as complete against the done value `d` (R147). -/
def seqCovers (d sq : Nat) : Bool := decide ((d + seqMod - sq % seqMod) % seqMod < 0x800000)

/-- The done value of a queue: one below its oldest incomplete entry, or the last number issued (R147). -/
def State.doneOf (s : State) (p c e : Nat) : Nat :=
  match (s.getQueue p c e).entries with
  | [] => s.rf (qIssued p c e)
  | x :: _ => (x.seq + seqMod - 1) % seqMod

/-- Put a queue's entries in place and bring DONE and COUNT up to date. -/
def State.putQueue (s : State) (p c e : Nat) (q : Queue) : State :=
  let s := s.setQueue p c e q
  let s := (s.wf (qDone p c e) (s.doneOf p c e)).wf (qCount p c e) q.entries.length
  if e = 1 then s.wf (MCA_STATUS.QCOUNT p c) q.entries.length else s

/-- Whether sequence `sq` of a queue is complete. -/
def State.seqDone (s : State) (p c e sq : Nat) : Bool := seqCovers (s.doneOf p c e) sq

/-! ## Command words (R153) -/

/-- Word `i` of a command. -/
def wordAt (ws : List Word64) (i : Nat) : Word64 := ws.getD i 0#64

/-- The waits in force of a command: (queue, sequence). -/
def waitsOf (ws : List Word64) : List (Nat × Nat) :=
  let w := wordAt ws 0
  (if fieldOf w 12 12 = 1 then [(fieldOf w 11 10, fieldOf w 39 16)] else []) ++
  (if fieldOf w 15 15 = 1 then [(fieldOf w 14 13, fieldOf w 63 40)] else [])

/-- The waits of a queue entry. -/
def QKind.waits : QKind → List (Nat × Nat)
  | .cmd ws => waitsOf ws
  | _ => []

/-- The operation codes of an engine (R153). -/
def opsOf (e : Nat) : List Nat :=
  match e with
  | 0 => [0x01, 0x02]
  | 1 => [0x10]
  | 2 => [0x20]
  | _ => []

/-- Whether word W0 of a command in the queue of engine `e` is well-formed: its ENG and OP belong to the engine and no wait
in force names queue 3 (R153). W0 has no reserved field. -/
def w0Ok (e : Nat) (ws : List Word64) : Bool :=
  let w := wordAt ws 0
  decide (fieldOf w 9 8 = e) && (opsOf e).contains (fieldOf w 7 0) && (waitsOf ws).all (fun x => decide (x.1 ≠ 3))

/-- Whether a wait names a sequence not yet issued in its queue, at the moment of the TQUE (R151). -/
def State.badWaits (s : State) (p c : Nat) (ws : List Word64) : Bool :=
  (waitsOf ws).any (fun x => decide (x.1 ≠ 3) &&
    decide (0x800000 ≤ (s.rf (qIssued p c x.1) + seqMod - x.2 % seqMod) % seqMod))

/-- Whether every wait in force of an entry is complete (R151). -/
def State.waitsDone (s : State) (p c : Nat) (k : QKind) : Bool :=
  k.waits.all (fun x => x.1 == 3 || s.seqDone p c x.1 x.2)

/-- Whether an entry waits on a failed command (R150). -/
def State.waitsOnBad (s : State) (p c : Nat) (k : QKind) : Bool :=
  k.waits.any (fun x => (s.getQueue p c x.1).bad.contains x.2)

/-! ## Completion and halting -/

/-- Record a status other than OK as the queue's first since ERR was cleared (R148). -/
def Queue.note (q : Queue) (st : Nat) : Queue :=
  if st = 0 ∨ q.firstErr ≠ 0 then q else { q with firstErr := st }

/-- Set ERR, and ERRSTAT with the first failure (R150). -/
def State.setErr (s : State) (p c e st : Nat) : State :=
  if s.rf (qErr p c e) = 1 then s else (s.wf (qErr p c e) 1).wf (qErrStat p c e) st

/-- Abort the entries of a queue that have not started and satisfy `f`: they complete ABORTED without executing. -/
def State.abortEntries (s : State) (p c e : Nat) (f : QEntry → Bool) : State :=
  let q := s.getQueue p c e
  let gone := q.entries.filter (fun x => !x.started && f x)
  if gone = [] then s
  else s.putQueue p c e { q with entries := q.entries.filter (fun x => x.started || !f x), bad := gone.map QEntry.seq ++ q.bad }

/-- Whether sequence `b` comes after `a` in a queue: its numbers lie within 2^23 of one another (R147). -/
def seqAfter (a b : Nat) : Bool := decide (0 < (b + seqMod - a % seqMod) % seqMod ∧ (b + seqMod - a % seqMod) % seqMod < 0x800000)

/-- Halt a queue after failure `st` of entry `sq`: every later entry that has not started is aborted; an earlier one is not (R150). -/
def State.haltQueue (s : State) (p c e sq st : Nat) : State :=
  let q := s.getQueue p c e
  let s := s.putQueue p c e ({ q with bad := sq :: q.bad }.note st)
  (s.setErr p c e st).abortEntries p c e (fun x => seqAfter sq x.seq)

/-- One sweep over the three queues of a core: a queue with an unstarted entry that waits on a failed command loses that
entry to ABORTED and halts in its turn (R150). -/
def State.sweepBad (s : State) (p c : Nat) : List Nat → State
  | [] => s
  | e :: es =>
    let s1 := match (s.getQueue p c e).entries.find? (fun x => !x.started && s.waitsOnBad p c x.kind) with
      | none => s
      | some x =>
        let s2 := s.abortEntries p c e (fun y => y.seq == x.seq)
        s2.haltQueue p c e x.seq stABORTED
    s1.sweepBad p c es

/-- Complete entry `sq` of a queue with status `st`; a failing status halts the queue and reaches everything that waits
on it (R147–R150). Three sweeps reach every queue through the other two. -/
def State.complete (s : State) (p c e sq st : Nat) : State :=
  let q := s.getQueue p c e
  let s := s.putQueue p c e ({ q with entries := q.entries.filter (fun x => x.seq != sq) }.note st)
  if halts st then
    let s := s.haltQueue p c e sq st
    ((s.sweepBad p c [0, 1, 2]).sweepBad p c [0, 1, 2]).sweepBad p c [0, 1, 2]
  else s

/-- Mark an entry as started. -/
def State.start (s : State) (p c e sq : Nat) : State :=
  let q := s.getQueue p c e
  s.putQueue p c e { q with entries := q.entries.map (fun x => if x.seq = sq then { x with started := true } else x) }

/-- The oldest entry of a queue that has not started. -/
def State.nextEntry (s : State) (p c e : Nat) : Option QEntry := (s.getQueue p c e).entries.find? (fun x => !x.started)

/-- The entry with number `sq`. -/
def State.entry (s : State) (p c e sq : Nat) : Option QEntry :=
  (s.getQueue p c e).entries.find? (fun x => x.seq == sq)

/-- Enqueue an entry: it takes the next sequence number; in a halted queue, or waiting on a failed command, it completes
ABORTED without executing (R147, R150). Answers the number. -/
def State.enqueue (s : State) (p c e : Nat) (k : QKind) : State × Nat :=
  let sq := (s.rf (qIssued p c e) + 1) % seqMod
  let bad := match k with
    | .cmd ws => s.badWaits p c ws
    | _ => false
  let x : QEntry := ⟨sq, k, bad, (s.getFlint p c).upd, (s.getFlint p c).storeSeed, false⟩
  let dead := s.rf (qErr p c e) == 1
  let onBad := s.waitsOnBad p c k
  let s := s.wf (qIssued p c e) sq
  let q0 := s.getQueue p c e
  let q := { q0 with bad := q0.bad.filter (· != sq) }
  if dead then (s.putQueue p c e { q with bad := sq :: q.bad }, sq)
  else
    let s := s.putQueue p c e { q with entries := q.entries ++ [x] }
    (if onBad then s.complete p c e sq stABORTED else s, sq)

/-- Clear ERR of a queue (R148, R150): it goes on with the next command enqueued. Commands that failed stay failed for those that
wait on them. -/
def State.clearErr (s : State) (p c e : Nat) : State :=
  ((s.setQueue p c e { s.getQueue p c e with firstErr := 0 }).wf (qErr p c e) 0).wf (qErrStat p c e) 0

/-- Whether a queue has room (64 entries, R146). -/
def State.hasRoom (s : State) (p c e : Nat) : Bool := decide ((s.getQueue p c e).entries.length < 64)

/-- Every queue of a core is empty. -/
def State.queuesEmpty (s : State) (p c : Nat) : Bool :=
  [0, 1, 2].all (fun e => (s.getQueue p c e).entries.isEmpty)

/-- Abort every entry of a queue, running ones too (R152). -/
def State.abortQueue (s : State) (p c e : Nat) : State :=
  let q := s.getQueue p c e
  match q.entries with
  | [] => s
  | xs =>
    let s := (s.putQueue p c e ({ q with entries := [], bad := xs.map QEntry.seq ++ q.bad }.note stABORTED)).setErr p c e stABORTED
    if e = 0 then s.wf (GRN_MODE.SWITCHING p c) 0 else s

end Sys2Proof.Machine
end

