-- ==== Sys2Proof/Machine/Recovery.lean ====
section
/-!
DEFINITION. What the fault of one unit does to everything else: stream contexts taken and given back (R36–R41), host
handles completed, collective queues closed (R310), Flints halted (R143), the abort wave (R382–R387), FATAL records,
retired cores (R26), ADVISE (R314) and the non-determinism counter (R329, R330).
-/
namespace Sys2Proof.Machine

/-! ## Partition states (R43) -/

def psOFF : Nat := 0
def psRESET : Nat := 1
def psCONFIG : Nat := 2
def psREADY : Nat := 3
def psRUNNING : Nat := 4
def psFAULT : Nat := 5
def psOFFLINE : Nat := 6

/-- The state of a partition. -/
def State.pstate (s : State) (p : Nat) : Nat := s.rf (PRT_STATE.STATE p)

/-- Whether a partition is admitted to a job and not stopped. -/
def State.runs (s : State) (p : Nat) : Bool := s.pstate p == psRUNNING

/-- The cell and position of the module (R404 and the configuration record). -/
def State.ownCell (s : State) : Nat := s.cfg.cell
def State.ownPos (s : State) : Nat := s.cfg.pos

/-! ## Stream contexts -/

/-- The next value of an open choice; the counter advances. -/
def State.free (s : State) : State × Word64 := ({ s with freeCtr := s.freeCtr + 1 }, Config.freeValue s.freeCtr)

/-- The first free context at or after `i`, going round; every listed context is looked at once. -/
def State.freeFrom (s : State) : Nat → Nat → Nat
  | 0, i => i % 2 ^ 18
  | k + 1, i => if (s.getCtx (i % 2 ^ 18)).state = 0 then i % 2 ^ 18 else s.freeFrom k (i + 1)

/-- The salt of a partition's stream keys (R411, R424): ANONCE, MEPOCH and AWAVE. -/
def State.keySalt (s : State) (p : Nat) : Nat :=
  ((((s.getTen p).prov.map (·.anonce)).getD 0) % 2 ^ 128) + (s.rf (PRT_JOB2.MEPOCH p) + s.rf (PRT_JOB2.AWAVE p) * 2 ^ 32) * 2 ^ 128

/-- What the opening of a context fixes of its keys (R411, R423); for an external endpoint a CNONCE is drawn and sent in clear in the
first message (R426). -/
def State.openKeys (s : State) (i : Nat) (x : Ctx) : State :=
  let s := s.setAux i { s.getAux i with salt := if x.part < 16 then s.keySalt x.part else 0 }
  if x.peerKind = 2 then
    { s with freeCtr := s.freeCtr + 1, drbgReqs := s.drbgReqs + 1 }.setAux i { s.getAux i with
      cnonce := s.freeCtr, txq := [{ mtype := 0, offset := 0, blocks := [], checks := [], owner := none }] }
  else s

/-- Take a free context for partition `p` with the given content: which free index is taken is open (log entry 5). The
content keeps the context's generation. It does not look at the quota. -/
def State.takeCtx (s : State) (x : Ctx) : State × Nat :=
  let (s, v) := s.free
  let i := s.freeFrom (s.ctx.length + 1) v.toNat
  ((s.setCtx i { x with state := 1, gen := (s.getCtx i).gen, epoch := 0 }).openKeys i x, i)

/-- The contexts that partitions hold; the module's own (Bedrock's) belong to no partition. -/
def State.ctxsHeld (s : State) : Nat := (s.ctx.filter (fun e => decide (e.2.part < 16) && decide (e.2.state ≠ 0))).length

/-- Whether partition `p` may take `n` more contexts (R41): within its quota, and within the module's free contexts, of which 4,096
are reserved for module management (R42). -/
def State.quotaFor (s : State) (p n : Nat) : Bool :=
  decide (s.rf (PRT_CTX.INUSE p) + n ≤ s.rf (PRT_CTX.QUOTA p)) && decide (s.ctxsHeld + n ≤ 258048)

/-- Take a context within partition `p`'s quota (the caller has checked it); INUSE advances. -/
def State.takePartCtx (s : State) (p : Nat) (x : Ctx) : State × Nat :=
  let (s, i) := s.takeCtx { x with part := p }
  (s.inc (PRT_CTX.INUSE p), i)

/-- Take the messages of a stream out of its partition's park queue: the stream has ended (R310). -/
def State.dropParked (s : State) (p i : Nat) : State :=
  let l := s.getPark p
  if l.any (fun e => e.1 == i) then
    let k := l.filter (fun e => e.1 != i)
    (s.setPark p k).wf (ZTP_PARK.DEPTH p) k.length
  else s

/-- Free a context: its generation advances by 1 and wraps from 16,383 to 1 (R37). -/
def State.freeCtx (s : State) (i : Nat) : State :=
  let x := s.getCtx i
  if x.state = 0 then s
  else
    let s := ((s.dropParked x.part i).setCtx i { gen := if x.gen = 16383 then 1 else x.gen + 1 }).setAux i {}
    s.wf (PRT_CTX.INUSE x.part) (s.rf (PRT_CTX.INUSE x.part) - 1)

/-- Free a list of contexts. -/
def State.freeCtxs (s : State) (l : List Nat) : State := l.foldl State.freeCtx s

/-- The live contexts of a partition. -/
def State.ctxsOf (s : State) (p : Nat) : List Nat :=
  (s.ctx.filter (fun e => decide (e.2.part = p) && decide (e.2.state ≠ 0))).map (·.1)

/-! ## Host handles (R446–R449) -/

/-- Produce a completion of a handle; it waits for room in the ring (R447). -/
def State.produce (s : State) (n : Nat) (c : Completion) : State :=
  let h := s.getHost n
  s.setHost n { h with produced := h.produced ++ [c] }

/-- End the command of handle context `i` with a status: its DONE completion carries the units completed (R447). -/
def State.hostDone (s : State) (i st : Nat) : State :=
  match s.getHandle i with
  | none => s
  | some h =>
    match h.st with
    | .done _ => s
    | _ =>
      let st := if st = stOK ∧ (s.getTen h.fn).lossy then stLOSSY else st
      (s.setHandle i (some { h with st := .done st })).produce h.fn
        ⟨s.handleOf i, (s.getCtx i).epoch, st, true, h.tag, h.doneUnits⟩

/-- Whether a DONE says that its command did what it was asked. -/
def doneWell (st : Nat) : Bool := st == stOK || st == stLOSSY

/-- The target of a REBIND under its new epoch: it goes on from the unit named; an ended command produces its DONE again, but for a
transfer that is asked for units it had completed. -/
def State.resumeHandle (s : State) (j haddr unit : Nat) (t : HostHandle) : State :=
  let go (st : HandleSt) : State :=
    s.setHandle j (some { t with haddr := haddr, doneUnits := unit, st := st, image := t.image.take (4096 * unit) })
  match t.st with
  | .stopped => go .accepted
  | .done st =>
    if doneWell st && (t.op == 2 || t.op == 3) && decide (unit < t.units) then go .accepted
    else (s.setHandle j (some { t with haddr := haddr })).produce t.fn ⟨s.handleOf j, (s.getCtx j).epoch, st, true, t.tag, t.doneUnits⟩
  | st => go st

/-- Carry out the REBIND whose own context is `i` (R444, R449–R451): the handle's placement epoch advances, what was produced under the
old one and is not yet in the ring is discarded and counted stale, and the ACCEPT carries the new epoch. -/
def State.rebindNow (s : State) (i : Nat) : State :=
  match s.getHandle i with
  | none => s
  | some h =>
    let n := h.fn
    let accept (s : State) (e : Nat) : State := s.produce n ⟨s.handleOf i, e, stOK, false, h.tag, 0⟩
    let j := h.target % 2 ^ 18
    match (if s.handleOk n h.target then s.getHandle j else none) with
    | none => (accept s (s.getCtx i).epoch).hostDone i stSTALE
    | some t =>
      if t.doneUnits < h.paddr then (accept s (s.getCtx i).epoch).hostDone i stCHECKFAIL
      else
        let x := s.getCtx j
        let f := s.getHost n
        let old := f.produced.filter (fun c => c.handle == h.target)
        let e := (x.epoch + 1) % 65536
        let s := s.setHost n { f with produced := f.produced.filter (fun c => c.handle != h.target) }
        let s := (s.setCtx j { x with epoch := e, stale := Nat.min (x.stale + old.length) 65535 }).addf (ZTP_STALE.COUNT n) old.length
        let s := s.setAux j { s.getAux j with lastMigr := some s.now, migrWait := 0 }
        ((accept s e).resumeHandle j h.haddr h.paddr t).hostDone i stOK

/-- The open handles of function `p` that satisfy `f`. -/
def State.handlesOf (s : State) (p : Nat) (f : HostHandle → Bool) : List Nat :=
  (s.handles.filter (fun e => match e.2 with | some h => decide (h.fn = p) && f h | none => false)).map (·.1)

/-- Whether a context accepts a migration now: at most one per 2 µs (R39). -/
def State.mayMigrate (s : State) (j : Nat) : Bool :=
  match (s.getAux j).lastMigr with
  | some t => decide (t + 200 ≤ s.now)
  | none => true

/-- An accepted REBIND as an abort finds it: it is carried out where its handle may migrate; otherwise it waits out the 2 µs (R39, R451). -/
def State.rebindAtAbort (s : State) (p i : Nat) : State :=
  match s.getHandle i with
  | none => s
  | some h =>
    let j := h.target % 2 ^ 18
    let w := (s.getAux j).migrWait
    if !s.handleOk p h.target ∨ (s.mayMigrate j ∧ (w = 0 ∨ w = i + 1)) then s.rebindNow i
    else if w = 0 then s.setAux j { s.getAux j with migrWait := i + 1 } else s

/-- Abort every command of function `p` that has not ended (R449); a REBIND still completes its handle under the new epoch (R451). -/
def State.abortHandles (s : State) (p : Nat) : State :=
  let s := (s.handlesOf p (fun h => h.op != 4)).foldl (fun s i => s.hostDone i stABORTED) s
  (s.handlesOf p (fun h => h.op == 4 && h.st == .accepted)).foldl (fun s i => s.rebindAtAbort p i) s

/-! ## Collective queues (R303, R304, R310) -/

/-- Whether a partition address lies in a route-table copy that takes no writes (R286): the active one, or the shadow while a
swap is armed. -/
def State.rtProtected (s : State) (p a : Nat) : Bool :=
  let b := s.rf (ZTP_RT_BASE.BASE p)
  let copy := (a - b) / 0x02000000
  s.runs p && decide (b ≤ a) && decide (copy < 2) &&
    (copy == s.rf (ZTP_RT_CTRL.ACTIVE p) || s.rf (ZTP_RT_CTRL.SWAP_ARM p) == 1)

/-- Merge bytes into one block: it is read and verified, and written with a new check word. Answers whether the block
verified and the write was performed. A block of a protected copy of the route table is refused with a bus error (R286). -/
def State.mergeWrite (s : State) (p addr : Nat) (bs : List Byte) (who : Requester := .channel 0) : State × Bool :=
  if s.rtProtected p addr then (s.busErr p addr, false)
  else if s.blockOk p addr then
    let old := s.block p addr
    let o := addr % 256
    let new := old.take o ++ bs ++ old.drop (o + bs.length)
    s.writeBlock p addr new (checkWord new) who
  else (s, false)

/-- Write the completion record of an operation and advance DONE (R304). A record whose block fails verification is lost
and the operation completes (log entry 13). The spec places no ring for queue 255, which Strata alone uses: no record is
written for it (log entry 22). -/
def State.colRecord (s : State) (p q : Nat) (o : ColOp) (st : Nat) (flag : Bool) : State :=
  let a := s.rf (COL_Q_RING.BASE p q) + 4096 + 16 * (o.seq % 64)
  let s := if q = 255 then s else (s.mergeWrite p a (leBytes 16 (o.seq % seqMod + st * 2 ^ 24 + bit flag * 2 ^ 27))).1
  let s := (s.wf (COL_Q_SEQ.DONE p q) o.seq).inc (COL_OPS.COUNT p)
  let s := if st ≠ 0 ∧ s.rf (COL_Q_RANK.ERR p q) = 0
    then (s.wf (COL_Q_RANK.ERR p q) 1).wf (COL_Q_RANK.ERRSTAT p q) st else s
  if flag ∧ q < 255 then s.wf (STR_NF.FLAG p) 1 else s

/-- Write the records of the ended operations at the head of a queue, in sequence order (R303). -/
def State.colDrain (s : State) (p q : Nat) : List ColOp → State
  | [] => s
  | o :: os =>
    match o.status with
    | none => s
    | some st =>
      let x := s.getColq p q
      ((s.setColq p q { x with ops := x.ops.tail }).colRecord p q o st o.flag).colDrain p q os

/-- End operation `sq` of a queue with a status and the combined flag; records are written in sequence order. -/
def State.colEnd (s : State) (p q sq st : Nat) (flag : Bool) : State :=
  let x := s.getColq p q
  let ops := x.ops.map (fun o => if o.seq = sq then { o with status := some st, flag := flag } else o)
  (s.setColq p q { x with ops := ops }).colDrain p q ops

/-- Close a communication queue: operations complete ABORTED, its streams and its own context are freed (R310). -/
def State.colClose (s : State) (p q : Nat) : State :=
  let x := s.getColq p q
  let ops := x.ops.map (fun o => { o with status := some (o.status.getD stABORTED) })
  let s := (s.setColq p q { x with ops := ops }).colDrain p q ops
  let s := s.freeCtxs x.ctxs
  let s := s.setColq p q { everOpened := x.everOpened }
  let s := if x.opened then s.wf (COL_CFG.QOPEN p) (s.rf (COL_CFG.QOPEN p) - 1) else s
  (s.wf (COL_Q_RANK.OPEN p q) 0).wf (COL_Q_HANDLE.HANDLE p q) 0

/-- The communication queues of a partition that hold anything. -/
def State.colQueues (s : State) (p : Nat) : List Nat :=
  (s.colq.filter (fun e => decide (e.1 / 256 = p))).map (fun e => e.1 % 256)

/-! ## Flints (R143) -/

/-- Halt a Flint: RUN clears, STATE is halted, CAUSE and the PC are recorded. -/
def State.haltFlint (s : State) (p c cause : Nat) : State :=
  let f := s.getFlint p c
  let s := s.setFlint p c { f with stall := .none, access := [] }
  (((s.wf (FLT_CTRL.RUN p c) 0).wf (FLT_STATUS.STATE p c) 0).wf (FLT_STATUS.CAUSE p c) cause).wf (FLT_STATUS.PC p c) f.pc.toNat

/-- The units that stop in one core when the abort wave or a reset reaches it (R152). -/
def State.stopCore (s : State) (p c : Nat) : State :=
  let s := if s.rf (FLT_STATUS.STATE p c) = 0 then s else s.haltFlint p c 7
  let s := ((s.abortQueue p c 0).abortQueue p c 1).abortQueue p c 2
  let s := (s.setGarnet p c {}).setStage p c none
  let s := ((s.wf (GRN_STATUS.BUSY p c) 0).wf (GRN_STATUS.RECOMP p c) 0).wf (GRN_MODE.SWITCHING p c) 0
  (s.wf (MCA_STATUS.BUSY p c) 0).wf (MCA_STATUS.RECOMP p c) 0

/-- Stop cores `0` to `n - 1`. -/
def State.stopCores (s : State) (p : Nat) : Nat → State
  | 0 => s
  | n + 1 => (s.stopCores p n).stopCore p n

/-! ## The units of a partition under an abort (R224, R310, R321, R328, R387) -/

/-- Whether round identifier `a` is older than `b` modulo 2^32 (R221). -/
def ridOlder (a b : Nat) : Bool := decide (a % 2 ^ 32 ≠ b % 2 ^ 32) && decide ((b + 2 ^ 32 - a % 2 ^ 32) % 2 ^ 32 < 2 ^ 31)

/-- End the rounds of the dispatch unit with a status (R224). -/
def State.endRounds (s : State) (p st : Nat) : State :=
  let openR := s.rf (DSP_STATUS.SEND_OPEN p) + s.rf (DSP_STATUS.RECV_OPEN p) + s.rf (DSP_STATUS.RET_OPEN p)
  let d := s.getDisp p
  let s := s.setDisp p { opened := d.opened, list := d.list, staged := d.staged.filter (fun t => ridOlder (s.rf (DSP_STATUS.CUR_RID p)) t.tok.rid) }
  let s := (((s.wf (DSP_STATUS.SEND_OPEN p) 0).wf (DSP_STATUS.RECV_OPEN p) 0).wf (DSP_STATUS.RET_OPEN p) 0).wf
    (DSP_STATUS.SPILL_PHASE p) 0
  if openR = 0 ∨ s.rf (DSP_STATUS.ERR p) = 1 then s else (s.wf (DSP_STATUS.ERR p) 1).wf (DSP_STATUS.ERRSTAT p) st

/-- Whether a dispatch or return round of a partition is open. -/
def State.roundsOpen (s : State) (p : Nat) : Bool :=
  s.rf (DSP_STATUS.SEND_OPEN p) + s.rf (DSP_STATUS.RECV_OPEN p) + s.rf (DSP_STATUS.RET_OPEN p) != 0

/-- A round meets a failure: it closes with that status (R224). What is staged for a newer round stays. -/
def State.failRound (s : State) (p st : Nat) : State := s.endRounds p st

/-- Stop the Assay work of a partition: tags end ABORTED and votes without an outcome are discarded (R321, R328). -/
def State.stopAssay (s : State) (p : Nat) : State :=
  let x := s.getAssay p
  let s := if x.tagR.isSome
    then ((s.wf (ASY_TAG_STATUS.BUSY p) 0).wf (ASY_TAG_STATUS.STAT p) stABORTED).inc (ASY_TAG_STATUS.DONE p) else s
  (s.wf (ASY_STATUS.UBUSY p) 0).setAssay p { x with tagR := none, tagU := none, ownDone := false, decided := true }

/-- Stop Strata's snapshot or image with ABORTED (R369, R387). -/
def State.stopStrata (s : State) (p : Nat) : State :=
  let x := s.getStrata p
  let s := if x.snapRun ∨ x.suspRun ∨ x.snapReq ∨ x.snapDue ∨ x.suspReq
    then (s.wf (STR_CKPT_STATUS.BUSY p) 0).wf (STR_CKPT_STATUS.STAT p) stABORTED else s
  s.setStrata p { x with reports := [], phase := 0, barrier := 0, deciding := none, decided := false, copying := [], snapReq := false,
                         snapDue := false, snapRun := false, taken := [], suspReq := false, suspStop := false, suspRun := false, replay := none }

/-- What the aborted commands of a partition had handed to its streams is dropped: messages not yet sent, open posted
windows and copies that wait. -/
def State.quietCtxs (s : State) (l : List Nat) : State :=
  l.foldl (fun s i => s.setAux i { s.getAux i with txq := [], posted := none, recvWait := [], sends := [], grants := [] }) s

/-- Everything that runs in a partition stops (R152, R387). -/
def State.stopPartition (s : State) (p : Nat) : State :=
  let s := s.stopCores p (s.lcores p)
  let s := (s.setMover p {}).wf (MOV_STATUS.CHBUSY p) 0
  let s := ((s.setPark p []).wf (ZTP_PARK.DEPTH p) 0).quietCtxs (s.ctxsOf p)
  let s := s.endRounds p stABORTED
  let s := (s.colQueues p).foldl (fun s q => s.colClose p q) s
  ((s.stopAssay p).stopStrata p).abortHandles p

/-- The abort wave reaches a job partition of this module (R385, R387): AWAVE and PRT_ABORT record the block, and the
partition enters FAULT. -/
def State.deliverAbort (s : State) (p : Nat) (b : AbortBlock) : State :=
  let s := ((((s.wf (PRT_JOB2.AWAVE p) b.wave).wf (PRT_ABORT.CAUSE p) b.cause).wf (PRT_ABORT.OCELL p) b.ocell).wf
    (PRT_ABORT.OPOS p) b.opos).wf (PRT_ABORT.UNIT p) b.unit |>.inc (PRT_ABORT.WAVES p)
  if s.runs p then (s.stopPartition p).wf (PRT_STATE.STATE p) psFAULT else s

/-- The job partitions of this module: those of job `j` in RUNNING or FAULT. -/
def State.jobParts (s : State) (j : Nat) : List Nat :=
  (List.range 16).filter (fun p => decide (s.rf (PRT_JOB.JOB p) = j) && (s.pstate p == psRUNNING || s.pstate p == psFAULT))

/-! ## Forwarding (R384) -/

/-- The pseudocode `owns` of R384. -/
def owns (a d m : Nat) : Bool :=
  (decide (d < m) && a == d) || (decide (d + 13 < m) && a == d + 13) || (decide (m ≤ d) && a == d % m)

/-- The cells of a membership, ascending, without repeats. -/
def cellsOf (ms : List (Nat × Nat × Nat)) : List Nat :=
  (List.range 8192).filter (fun c => ms.any (fun m => m.2.1 == c))

/-- The positions of a membership in a cell, ascending. -/
def posOf (ms : List (Nat × Nat × Nat)) (c : Nat) : List Nat :=
  (List.range 32).filter (fun x => ms.any (fun m => m.2.1 == c && m.2.2 == x))

/-- The modules a module forwards a new wave to: the job modules of its own cell unless the block came from one of them, and
the owners of its cube dimensions (R384). -/
def forwardTo (ms : List (Nat × Nat × Nat)) (cell pos : Nat) (fromCellPeer : Bool) : List (Nat × Nat) :=
  let cells := cellsOf ms
  let ps := posOf ms cell
  let a := ps.idxOf pos
  let j := cells.idxOf cell
  let own := if fromCellPeer then [] else (ps.filter (· != pos)).map (fun x => (cell, x))
  let dims := (List.range 13).flatMap (fun d =>
    if owns a d ps.length ∧ Nat.xor j (2 ^ d) < cells.length then
      let c := cells.getD (Nat.xor j (2 ^ d)) 0
      let qs := posOf ms c
      (qs.filter (fun x => owns (qs.idxOf x) d qs.length)).map (fun x => (c, x))
    else [])
  own ++ dims

/-- Take a new wave: deliver it to the job's partitions of this module and forward it (R384, R385). -/
def State.takeWave (s : State) (b : AbortBlock) (fromCellPeer : Bool) : State :=
  let ps := s.jobParts b.job
  let ms := match ps with
    | [] => []
    | p :: _ => (s.getMember p).modules
  let s := ps.foldl (fun s p => s.deliverAbort p b) s
  (forwardTo ms s.ownCell s.ownPos fromCellPeer).foldl (fun s t => s.emit (.abort t.1 t.2 b)) s

/-- Start the abort wave of the job of partition `p` with a cause of R382 and a unit (R385). A partition that is in no
job, or already stopped, starts none. -/
def State.startWave (s : State) (p cause unit : Nat) : State :=
  if s.runs p then
    s.takeWave ⟨s.rf (PRT_JOB.JOB p), s.rf (PRT_JOB2.MEPOCH p), s.rf (PRT_JOB2.AWAVE p) + 1, cause, unit, s.ownCell,
      s.ownPos, s.now⟩ false
  else s

def waveFAULT : Nat := 1
def waveREWIND : Nat := 2
def waveEXPEL : Nat := 3
def waveRESET : Nat := 4
def waveWATCHDOG : Nat := 5
def waveTENANT : Nat := 6

/-- Raise a FATAL record of a job unit and start the abort wave of its job with cause FAULT (R382). -/
def State.fatal (s : State) (p : Nat) (r : Report) : State :=
  (s.raise { r with cls := .fatal, part := some p }).startWave p waveFAULT r.unit

/-! ## Retirement, ADVISE, the non-determinism counter -/

/-- Record the log's retirements in flash as a STATE entry (R466). -/
def State.logState (s : State) (l : StateLog) : State := { s with log := l }.flashEntry .config (.state l)

/-- Retire a physical core: it joins the die's retired-core mask in the log and PRT_CORES (R26). -/
def State.retireCore (s : State) (p phys : Nat) : State :=
  let m := Nat.lor (s.log.retiredCores.get 0 p) (2 ^ phys)
  (s.logState { s.log with retiredCores := s.log.retiredCores.set 0 p m }).wf (PRT_CORES.RETIRED p) m

/-- Retire a mover channel of a partition (R313). -/
def State.retireChan (s : State) (p k : Nat) : State :=
  s.logState { s.log with retiredChans := s.log.retiredChans.set 0 p (Nat.lor (s.log.retiredChans.get 0 p) (2 ^ k)) }

/-- 24 hours in ticks of the time base. -/
def day : Nat := 8640000000000

/-- Count a TRANS record of a unit; the eighth within 24 h advises a field test (R314). -/
def State.countTrans (s : State) (p unit : Nat) : State :=
  let x := s.getAssay p
  let ts := s.now :: (x.trans.get [] unit).filter (fun t => decide (s.now < t + day))
  let s := s.inc (ASY_TRANS.COUNT p)
  if 8 ≤ ts.length then
    ((s.setAssay p { x with trans := x.trans.set [] unit [] }).wf (ASY_STATUS.FT_ADVISED p) 1).raise
      { unit := unitId p 8 0, cls := .perm, code := 0x82, part := some p, synd := [(unit, 2)] }
  else s.setAssay p { x with trans := x.trans.set [] unit ts }

/-- Raise the TRANS record of a residue or duplicate check and count it (R314). -/
def State.transRec (s : State) (p : Nat) (r : Report) : State :=
  (s.raise { r with cls := .trans, part := some p }).countTrans p r.unit

/-- The source of a timing-dependent choice (R329). -/
inductive NdetSrc where
  | ksplit
  | coll
  | disp
deriving DecidableEq, Repr

/-- Advance the non-determinism counter and its per-source counter; they saturate (R329, R330). -/
def State.ndet (s : State) (p : Nat) (src : NdetSrc) (n : Nat) : State :=
  let f := match src with
    | .ksplit => ASY_NDET_KSPLIT.COUNT p
    | .coll => ASY_NDET_COLL.COUNT p
    | .disp => ASY_NDET_DISP.COUNT p
  (s.satAdd (ASY_NDET.COUNT p) n).satAdd f n

/-! ## Memory errors met by readers -/

/-- The unit ID of a core's tile memory (R24). -/
def State.tileUnit (s : State) (p c : Nat) : Nat := unitId p 3 (s.physCore p c)

/-- One word of a core's tile memory in which SEC-DED finds an error (R167): a corrected one is counted, with a CORR record; an
uncorrectable one sets UNCORR and raises FATAL. SYNDROME names its bank and bank row (R164, R338). The abort wave follows the
completion of the reading command (`stFATAL`). -/
def State.tileEcc1 (s : State) (p c : Nat) (e : EccWord) : State :=
  let r (cls : Cls) : Report :=
    { unit := s.tileUnit p c, cls := cls, code := 0x31, part := some p,
      synd := [(tileBank e.pos, 1), (tileRow e.pos, 2), (e.synd, 1)] }
  if e.fixed then (s.inc (TLM_ECC.CORR p c)).raise (r .corr) else (s.wf (TLM_ECC.UNCORR p c) 1).raise (r .fatal)

/-- The words in error among `n` bytes read from offset `off` of a core's tile memory (R167). -/
def State.tileEcc (s : State) (p c off n : Nat) (es : List EccWord) : State :=
  (es.filter (fun e => decide (off ≤ e.pos ∧ e.pos < off + n))).foldl (fun s e => s.tileEcc1 p c e) s

/-- Whether words in error among `n` bytes from offset `off` hold an uncorrectable one. -/
def eccBad (off n : Nat) (es : List EccWord) : Bool := es.any (fun e => decide (off ≤ e.pos ∧ e.pos < off + n) && !e.fixed)

end Sys2Proof.Machine
end

