-- ==== Sys2Proof/Machine/Links.lean ====
section
/-!
DEFINITION. Zenrix links (R254–R273): the bundle map, training and identity, flits with link-level retry and credits,
forwarding, retraining and retirement, and the Ethernet links of global ports.
-/
namespace Sys2Proof.Machine

/-! ## Port states, roles and the bundle map (R256, R257) -/

def zDOWN : Nat := 0
def zTRAINING : Nat := 1
def zIDENT : Nat := 2
def zUP : Nat := 3
def zQUARANTINE : Nat := 4
def zRETRAIN : Nat := 5
def zRETIRED : Nat := 6

def rolePEER : Nat := 0
def roleUPLINK : Nat := 1
def roleSERVICE : Nat := 2
def roleUNUSED : Nat := 3

/-- Ports per peer, W of R257. -/
def Variant.peerPorts : Variant → Nat
  | .a16 => 3
  | .m20 => 1
  | .n12 => 5

/-- The port at ordinal `o` of the default order. -/
def Variant.ordPort (v : Variant) (o : Nat) : Nat := 16 * (o % v.ioDies) + o / v.ioDies

/-- The ordinal of port `i` in the default order. -/
def Variant.ordinal (v : Variant) (i : Nat) : Nat := i % 16 * v.ioDies + i / 16

/-- The position of peer slot `sl` of the module at position `own`. -/
def slotPos (own sl : Nat) : Nat := if sl < own then sl else sl + 1

/-- The peer slot of position `pos` at the module at `own`. -/
def posSlot (own pos : Nat) : Nat := if pos < own then pos else pos - 1

/-- Role and target of port `i` in the default map (R257). -/
def Variant.defaultRole (v : Variant) (own i : Nat) : Nat × Nat :=
  let o := v.ordinal i
  let w := v.peerPorts
  if o < 31 * w then (rolePEER, slotPos own (o / w))
  else if o < 31 * w + 32 then (roleUPLINK, o - 31 * w)
  else (roleSERVICE, 0)

/-- Role and target that Bedrock gives a port at start (R256): the record's bundle map, or the default; a port the map does not
name is UNUSED. -/
def State.mapRole (s : State) (i : Nat) : Nat × Nat :=
  if s.cfg.bundleMap = [] then s.fuse.variant.defaultRole s.cfg.pos i
  else match s.cfg.bundleMap.find? (fun e => e.1 == i) with
    | some e => e.2
    | none => (roleUNUSED, 0)

/-- The state, role and target of a port. -/
def State.zstate (s : State) (i : Nat) : Nat := s.rf (ZLK_STATE.STATE i)
def State.zrole (s : State) (i : Nat) : Nat := s.rf (ZLK_STATE.ROLE i)
def State.ztarget (s : State) (i : Nat) : Nat := s.rf (ZLK_STATE.TARGET i)

/-- The module's ports in the default order. -/
def State.portOrder (s : State) : List Nat := (List.range s.fuse.variant.ports).map s.fuse.variant.ordPort

/-- The ports of a bundle, in default order. -/
def State.bundle (s : State) (role target : Nat) : List Nat :=
  s.portOrder.filter (fun i => s.zrole i == role && s.ztarget i == target)

/-- The UP ports of a bundle. -/
def State.upBundle (s : State) (role target : Nat) : List Nat := (s.bundle role target).filter (fun i => s.zstate i == zUP)

/-- The UP ports of a role. -/
def State.upRole (s : State) (role : Nat) : List Nat := s.portOrder.filter (fun i => s.zrole i == role && s.zstate i == zUP)

/-- The UP uplinks in ascending plane order (R278). -/
def State.upUplinks (s : State) : List Nat := (List.range 32).flatMap (s.upBundle roleUPLINK)

/-- The port index of the peer that R258 joins port `i` to. With the default map here the peer has it too, which places the bundle
towards this module at the peer slot of this module's position; where the record gives a bundle map, the peer's record gives its own,
which is not known here (log entry 17). -/
def State.expectedPort (s : State) (i : Nat) : Nat :=
  if s.cfg.bundleMap = [] then
    let v := s.fuse.variant
    let j := (s.bundle rolePEER (s.ztarget i)).idxOf i
    v.ordPort (posSlot (s.ztarget i) s.cfg.pos * v.peerPorts + j)
  else Config.peerPort i

/-- The unit ID of a port (R24). -/
def State.portUnit (s : State) (i : Nat) : Nat := unitId (s.primarySite + i / 16) 6 (i % 16)

/-- A report of a port: codes 0x63–0x65 carry port, lane, QCAUSE and target (R338). -/
def State.portReport (s : State) (i code lane qcause : Nat) : Report :=
  { unit := s.portUnit i, cls := .perm, code := code, part := none,
    synd := [(i, 1), (lane, 1), (qcause, 1), (s.ztarget i, 1)] }

/-- Whether a port in a state is no longer on its way up: DOWN, in QUARANTINE or RETIRED. -/
def settled (st : Nat) : Bool := st == zDOWN || st == zQUARANTINE || st == zRETIRED

/-- A bundle without an UP port is recorded, once until it has one again (R272). -/
def State.emptyBundle (s : State) (i : Nat) : State :=
  let b := (s.zrole i, s.ztarget i)
  if s.zrole i = roleUNUSED ∨ s.noUp.contains b then s
  else { s with noUp := b :: s.noUp }.raise (s.portReport i 0x65 0 0)

/-- A port takes a new state. Its bundle has no UP port when the last one leaves UP, or when none that is left is on its way up
(R272). -/
def State.portState (s : State) (i st : Nat) : State :=
  let was := s.zstate i
  let s := s.wf (ZLK_STATE.STATE i) st
  if st = zUP then { s with noUp := s.noUp.filter (· != (s.zrole i, s.ztarget i)) }
  else if s.upBundle (s.zrole i) (s.ztarget i) = [] ∧
      (was = zUP ∨ (s.bundle (s.zrole i) (s.ztarget i)).all (fun k => settled (s.zstate k))) then s.emptyBundle i
  else s

/-- A port's links start afresh: handshake, buffers, numbers and credits (log entry 18). -/
def Port.afresh (x : Port) : Port :=
  { enabled := x.enabled, ethUp := x.ethUp, lastTrans := x.lastTrans, laneFails0 := x.laneFails0, laneFails1 := x.laneFails1 }

/-! ## Bytes on the wire (R266, R274–R276) -/

/-- The header of a transport message (R274), 32 bytes. -/
def msgHeader (m : Msg) : List Byte :=
  leBytes 8 (m.dhandle % 2 ^ 32 + m.epoch % 2 ^ 16 * 2 ^ 32 + m.mtype % 2 ^ 8 * 2 ^ 48) ++
  leBytes 8 (m.seq % 2 ^ 48 + m.nblk % 2 ^ 5 * 2 ^ 48) ++
  leBytes 8 (m.offset % 2 ^ 48 + m.tstamp % 2 ^ 16 * 2 ^ 48) ++
  leBytes 8 (m.dcell % 2 ^ 13 + m.dpos % 2 ^ 5 * 2 ^ 13 + m.dpart % 2 ^ 4 * 2 ^ 18 + m.scell % 2 ^ 13 * 2 ^ 22 +
    m.spos % 2 ^ 5 * 2 ^ 35 + m.spart % 2 ^ 4 * 2 ^ 40)

/-- A context end as R423 codes it in 8 bytes: cell, position, partition, context index and generation. -/
def endBytes (cell pos part idx gen : Nat) : List Byte :=
  leBytes 8 (cell % 2 ^ 13 + pos % 2 ^ 5 * 2 ^ 13 + part % 2 ^ 4 * 2 ^ 18 + idx % 2 ^ 18 * 2 ^ 22 + gen % 2 ^ 14 * 2 ^ 40)

/-- The key of a message that context `idx` sends (R276, R411, R423, R424, R426): the external key for an endpoint, the stream key of its
direction for a job stream; Bedrock's own streams have keys whose derivation is not given (log entry 9). -/
def State.sendKey (s : State) (idx : Nat) (m : Msg) : List Byte :=
  let x := s.getCtx idx
  let a := s.getAux idx
  match (if x.part < 16 then (s.getTen x.part).prov else none) with
  | none => leBytes 32 (Config.bedrockKey x.gen idx).toNat
  | some v =>
    if x.peerKind = 2 then
      hkdf (leBytes 32 v.secret) (leBytes 16 (Config.randomDraw a.cnonce))
        (ascii "CZ40 EXT" ++ leBytes 8 v.job ++ leBytes 4 v.rank ++ leBytes 4 x.peerId) 32
    else
      hkdf (leBytes 32 v.secret) (leBytes 24 a.salt)
        (ascii "CZ40 STRM" ++ endBytes m.scell m.spos m.spart idx x.gen ++
          endBytes m.dcell m.dpos m.dpart (m.dhandle % 2 ^ 18) (m.dhandle / 2 ^ 18)) 32

/-- Whether a message is the first of a stream to an external endpoint, which carries the CNONCE in clear (R426; log entry 83). -/
def State.bearsNonce (s : State) (idx : Nat) (m : Msg) : Bool := (s.getCtx idx).peerKind == 2 && m.mtype == 0 && m.nblk == 0 && m.seq == 0

/-- The bytes of a message as it is sent (R275, R276): header, sealed blocks and check words, tag; the IV is 48 zero bits and SEQ. -/
def State.msgWire (s : State) (idx : Nat) (m : Msg) : List Byte :=
  let iv := List.replicate 6 0#8 ++ leBytes 6 m.seq
  if s.bearsNonce idx m then
    let n := leBytes 16 (Config.randomDraw (s.getAux idx).cnonce)
    msgHeader m ++ n ++ (gcmSeal (s.sendKey idx m) iv (msgHeader m ++ n) []).2
  else
    let c := gcmSeal (s.sendKey idx m) iv (msgHeader m) (m.blocks.flatten ++ m.checks.flatMap (fun w => leBytes 4 w.toNat))
    msgHeader m ++ c.1 ++ c.2

/-- Bytes 0–7 of a flit (R266). -/
def flitWord (f : Flit) : Nat :=
  f.typ % 2 ^ 4 + f.seq % 2 ^ 12 * 2 ^ 4 + f.ack % 2 ^ 12 * 2 ^ 16 + bit f.nak * 2 ^ 28 + bit f.vc * 2 ^ 29 + bit f.som * 2 ^ 30 +
  bit f.eom * 2 ^ 31 + f.len % 2 ^ 8 * 2 ^ 32 + f.cr0 % 2 ^ 8 * 2 ^ 48 + f.cr1 % 2 ^ 8 * 2 ^ 56

/-- The link CRC of a flit (R266). -/
def flitCrc (f : Flit) : Word32 := linkCrc (leBytes 8 (flitWord f) ++ (f.payload ++ List.replicate 244 0#8).take 244)

/-- A flit of a type that carries no message bytes. -/
def bareFlit (typ ack : Nat) (nak : Bool) (cr0 cr1 : Nat) : Flit :=
  let f : Flit := ⟨typ, 0, ack, nak, false, false, false, 0, cr0, cr1, [], true, 0, 0#32⟩
  { f with crc := flitCrc f }

/-- The flits of message bytes on VC 0 (R266, R267), without sequence number. -/
def flitsOf (fuel : Nat) (first : Bool) (bs : List Byte) : List Flit :=
  match fuel with
  | 0 => []
  | n + 1 =>
    let l := bs.take 244
    let r := bs.drop 244
    if l = [] then [] else ⟨1, 0, 0, false, false, first, r.isEmpty, l.length, 0, 0, l, true, 0, 0#32⟩ :: flitsOf n false r

/-- A flit of a type that carries a payload of its own: identity, accept or refuse. -/
def controlFlit (typ : Nat) (bs : List Byte) : Flit :=
  let f : Flit := ⟨typ, 0, 0, false, false, false, false, bs.length, 0, 0, bs, true, 0, 0#32⟩
  { f with crc := flitCrc f }

/-- The destination of a message by its header (R274): cell and position. -/
def headerDest (bs : List Byte) : Nat × Nat :=
  let h3 := leNat ((bs.drop 24).take 8)
  (bits h3 0 13, bits h3 13 5)

/-! ## Frames on global ports (R254, R284) -/

/-- A number's entry in a list of numbered values, 0 where it has none. -/
def numbered (l : List (Nat × Nat)) (k : Nat) : Nat := ((l.find? (fun e => e.1 == k)).map (·.2)).getD 0

/-- The address prefix of a global port: that of its plane, or of the service network. -/
def State.prefixOf (s : State) (i : Nat) : Nat :=
  if s.zrole i = roleUPLINK then numbered s.cfg.planePrefix (s.ztarget i) else s.cfg.servicePrefix

/-- The address of a module on the network of port `i`. -/
def State.addrOn (s : State) (i cell pos : Nat) : Nat := s.prefixOf i % 2 ^ 64 * 2 ^ 64 + (cell % 2 ^ 13 * 32 + pos % 32)

/-- The module's own address on a port. -/
def State.ownAddr (s : State) (i : Nat) : Nat := s.addrOn i s.ownCell s.ownPos

/-- The sum of big-endian 16-bit words. -/
def sum16 : List Byte → Nat
  | [] => 0
  | [a] => a.toNat * 256
  | a :: b :: l => a.toNat * 256 + b.toNat + sum16 l

/-- The UDP checksum of bytes (with the pseudo-header), sent as all ones where it is 0. -/
def udpSum (bs : List Byte) : Nat :=
  let c := 65535 - sum16 bs % 65535
  if sum16 bs = 0 then 65535 else c

/-- The Ethernet frame of an IPv6 UDP packet on a global port (R254, R284): its MAC addresses, one 802.1Q tag where ZTP_MCFG.VLAN_EN is
set, the IPv6 and UDP headers, the message, and the frame check sequence (log entry 83). -/
def State.frameBytes (s : State) (i dst sport : Nat) (bs : List Byte) : List Byte :=
  let src := beBytes 16 (s.ownAddr i)
  let len := 8 + bs.length
  let udp (sum : Nat) : List Byte := beBytes 2 sport ++ beBytes 2 (s.rf ZTP_MCFG.UDP_PORT) ++ beBytes 2 len ++ beBytes 2 sum ++ bs
  let sum := udpSum (src ++ beBytes 16 dst ++ beBytes 4 len ++ [0#8, 0#8, 0#8, 17#8] ++ udp 0)
  let ip := beBytes 4 (6 * 2 ^ 28 + s.rf ZTP_MCFG.DSCP % 64 * 2 ^ 22) ++ beBytes 2 len ++ [17#8, Config.hopLimit] ++ src ++ beBytes 16 dst
  let tag := if s.rf ZTP_MCFG.VLAN_EN = 1
    then [0x81#8, 0x00#8] ++ beBytes 2 (s.rf ZTP_MCFG.PCP % 8 * 2 ^ 13 + s.rf ZTP_MCFG.VID % 2 ^ 12) else []
  let f := beBytes 6 (numbered s.cfg.nextHopMac i) ++ beBytes 6 (Config.macAddr i) ++ tag ++ [0x86#8, 0xDD#8] ++ ip ++ udp sum
  f ++ leBytes 4 (linkCrc f).toNat

/-- The UDP source port for a context (R284). -/
def udpSource (idx : Nat) : Nat := 49152 + idx % 16384

/-- Where a message of context `idx` goes on a global port (R284): to an endpoint's configured address, or to the module. -/
def State.packetDst (s : State) (i idx : Nat) (m : Msg) : Nat :=
  if (s.getCtx idx).peerKind = 2 then numbered s.cfg.storageEndpoints (s.getCtx idx).peerId else s.addrOn i m.dcell m.dpos

/-! ## Sending (R267, R268, R284) -/

/-- Give the credits of flits back to the port whose receive buffer held them (R267). -/
def State.returnCredit (s : State) (q : QFlit) : State :=
  if !q.held ∨ 1024 ≤ q.src ∨ s.zstate (q.src - 1) ≠ zUP then s
  else s.emit (.flit (q.src - 1) (bareFlit 2 (((s.getPort (q.src - 1)).rxSeq + 4095) % 4096) false 1 0))

/-- The flit a port sends next: of the message being sent, and where none is, the first whose channel has a credit. -/
def Port.nextFlit (x : Port) : Option QFlit :=
  if x.cur = 0 then x.queue.find? (fun q => decide (0 < if q.flit.vc then x.credit1 else x.credit0))
  else (x.queue.find? (fun q => q.src == x.cur)).bind (fun q => if 0 < (if q.flit.vc then x.credit1 else x.credit0) then some q else none)

/-- The next flit goes out if its channel has a credit and the replay buffer has room; the place it took in a receive buffer is free. -/
def State.pump1 (s : State) (i : Nat) : State :=
  let x := s.getPort i
  match x.nextFlit with
  | none => s
  | some q =>
    if 64 ≤ x.replay.length ∨ s.zstate i ≠ zUP then s
    else
      let f := { q.flit with seq := x.txSeq, ack := (x.rxSeq + 4095) % 4096 }
      let f := { f with crc := flitCrc f }
      let s := (s.setPort i { x with queue := x.queue.erase q, kept := x.kept ++ [{ q with held := false }], replay := x.replay ++ [f]
                                     cur := if f.eom then 0 else q.src, txSeq := (x.txSeq + 1) % 4096
                                     credit0 := if f.vc then x.credit0 else x.credit0 - 1
                                     credit1 := if f.vc then x.credit1 - 1 else x.credit1 }).emit (.flit i f)
      s.returnCredit q

/-- Send up to `n` waiting flits. -/
def State.pump (s : State) (i : Nat) : Nat → State
  | 0 => s
  | n + 1 => (s.pump1 i).pump i n

/-- The context whose number gives the source port of a forwarded packet: the own one, or the one the header names (log entry 83). -/
def senderCtx (src : Nat) (bs : List Byte) : Nat := if 1024 ≤ src then src - 1024 else leNat (bs.take 4) % 2 ^ 18

/-- A message that goes on by a global port leaves as one packet once it has arrived whole (R284). -/
def State.packet1 (s : State) (i : Nat) : State :=
  let x := s.getPort i
  match x.queue.find? (fun q => q.flit.eom) with
  | none => s
  | some e =>
    let qs := x.queue.filter (fun q => q.src == e.src)
    let g := qs.take (qs.idxOf e + 1)
    let bs := g.flatMap (fun q => q.flit.payload)
    let s := s.setPort i { x with queue := g.foldl List.erase x.queue }
    let d := headerDest bs
    g.foldl State.returnCredit (s.emit (.frame i (s.frameBytes i (s.addrOn i d.1 d.2) (udpSource (senderCtx e.src bs)) bs)))

/-- Send the packets of up to `n` messages. -/
def State.packets (s : State) (i : Nat) : Nat → State
  | 0 => s
  | n + 1 => (s.packet1 i).packets i n

/-- Send all that may go. -/
def State.pumpAll (s : State) (i : Nat) : State :=
  if s.zrole i = rolePEER then s.pump i (s.getPort i).queue.length else s.packets i (s.getPort i).queue.length

/-- Hand flits to a port, behind those that wait there: the flits of one message go back to back (R267). -/
def State.enqueueFlits (s : State) (i : Nat) (qs : List QFlit) : State :=
  let x := s.getPort i
  (s.setPort i { x with queue := x.queue ++ qs }).pumpAll i

/-- Put a message on a port: on a PEER port as flits on VC 0; on a global port as one packet (R284). -/
def State.sendOn (s : State) (i idx : Nat) (m : Msg) : State :=
  let s := s.emit (.message idx [i] m)
  let bs := s.msgWire idx m
  if s.zrole i = rolePEER then s.enqueueFlits i ((flitsOf (bs.length + 1) true bs).map (fun f => ⟨1024 + idx, false, f⟩))
  else s.emit (.frame i (s.frameBytes i (s.packetDst i idx m) (udpSource idx) bs))

/-! ## Paths (R283) -/

/-- The UP ports of two-hop paths to position `pos`: the own bundles to every other position whose bundle to it is UP (log entry 19). -/
def State.twoHop (s : State) (pos : Nat) : List Nat :=
  s.portOrder.filter (fun i => s.zrole i == rolePEER && s.zstate i == zUP && s.ztarget i != pos && Config.farUp s.now (s.ztarget i) pos)

/-- The ports a message may leave on (R283), in the order of rotation. -/
def State.pathPorts (s : State) (stripe : Bool) (cell pos : Nat) : List Nat :=
  if cell = s.ownCell then
    let d := s.upBundle rolePEER pos
    if stripe then d ++ s.twoHop pos else if d = [] then s.twoHop pos else d
  else
    let u := s.upUplinks
    if u = [] then
      (match (List.range 32).find? (fun q => !(s.upBundle rolePEER q).isEmpty && Config.farUplink s.now q) with
       | some q => s.upBundle rolePEER q
       | none => [])
    else u

/-- The ports of a message to an external endpoint (R284). -/
def State.externalPorts (s : State) : List Nat :=
  s.upRole roleSERVICE ++ (if s.cfg.storageOnUplinks then s.upUplinks else [])

/-- The ports a message of context `idx` may leave on; none inside this module. -/
def State.portsFor (s : State) (idx : Nat) (m : Msg) : List Nat :=
  if (s.getCtx idx).peerKind = 2 then s.externalPorts
  else if m.dcell = s.ownCell ∧ m.dpos = s.ownPos then []
  else s.pathPorts (s.getCtx idx).stripe m.dcell m.dpos

/-- Send a message of context `idx` on the next port of its rotation; without any port, inside this module or left to retransmission,
it takes none. Answers the port plus 1. -/
def State.sendTo (s : State) (idx : Nat) (m : Msg) : State × Nat :=
  let ports := s.portsFor idx m
  let a := s.getAux idx
  match ports[a.rot % ports.length]? with
  | none => (s.emit (.message idx [] m), 0)
  | some i => ((s.setAux idx { a with rot := a.rot + 1 }).sendOn i idx m, i + 1)

/-! ## Retraining (R269, R270) -/

/-- Flits in the order they came, as the messages they belong to, the newest first; a flit belongs to the newest message of its
source. -/
def joinFlit (q : QFlit) : List (List QFlit) → List (List QFlit)
  | [] => [[q]]
  | g :: gs => if (g.head?.map QFlit.src) = some q.src then (g ++ [q]) :: gs else g :: joinFlit q gs
def messagesOf (qs : List QFlit) : List (List QFlit) :=
  (qs.foldl (fun gs q => if q.flit.som then [q] :: gs else joinFlit q gs) []).reverse

/-- Whether the flits of a message are all there. -/
def wholeMsg (g : List QFlit) : Bool := (g.getLast?.map (fun q => q.flit.eom)).getD false

/-- Set the port by which the message that is arriving on the port of a source goes on. -/
def State.redirect (s : State) (src onto : Nat) : State :=
  if 1024 ≤ src then s else s.setPort (src - 1) { s.getPort (src - 1) with fwd := onto }

/-- A message that a port carried is given up; its sender re-sends it (R278). -/
def State.dropMsg (s : State) (i : Nat) (g : List QFlit) : State :=
  let s := g.foldl State.returnCredit s
  match g with
  | [] => s
  | q :: _ => if wholeMsg g ∨ (s.getPort (q.src - 1)).fwd ≠ i + 1 then s else s.redirect q.src 0

/-- Send a message that port `i` carried again, whole, on another UP port of the bundle, or an own one on another path (R269): the `k`-th
in turn. One that is still arriving follows it; a forwarded one that has no other port of the bundle is given up (log entry 44). -/
def State.reroute (s : State) (i k : Nat) (g : List QFlit) : State :=
  match g with
  | [] => s
  | q :: _ =>
    let own := decide (1024 ≤ q.src)
    let d := headerDest (g.flatMap (fun q => q.flit.payload))
    let b := s.upBundle (s.zrole i) (s.ztarget i)
    let ports := if b = [] ∧ own then s.pathPorts false d.1 d.2 else b
    if !wholeMsg g ∧ (own ∨ (s.getPort (q.src - 1)).fwd ≠ i + 1) then s.dropMsg i g
    else match ports[k % ports.length]? with
    | none => s.dropMsg i g
    | some o =>
      let s := if wholeMsg g then s else s.redirect q.src (o + 1)
      s.enqueueFlits o g

/-- Send messages again in order. -/
def State.rerouteAll (s : State) (i : Nat) : Nat → List (List QFlit) → State
  | _, [] => s
  | k, g :: gs => (s.reroute i k g).rerouteAll i (k + 1) gs

/-- What port `i` was receiving of a message that goes on ends where it is: the flits of it that wait are dropped, and the port it goes
on by is free of it. -/
def State.cutForward (s : State) (i : Nat) : State :=
  match (s.getPort i).fwd with
  | 0 => s
  | o + 1 =>
    let y := s.getPort o
    let mine := (messagesOf y.queue).filter (fun g => !wholeMsg g && (g.head?.map QFlit.src) == some (i + 1))
    let q := mine.flatten.foldl List.erase y.queue
    let s := s.setPort o { y with queue := q, cur := if y.cur = i + 1 ∧ !q.any (fun e => e.src == i + 1) then 0 else y.cur }
    (s.setPort i { s.getPort i with fwd := 0 }).pumpAll o

/-- The messages a port carries, oldest first: those sent and not wholly acknowledged, and those that wait. -/
def Port.messages (x : Port) : List (List QFlit) := messagesOf (x.kept ++ x.queue)

/-- A port that carries traffic leaves for RETRAIN: the messages it had not got acknowledged are sent again, whole and in order,
on the other paths (R269). -/
def State.enterRetrain (s : State) (i : Nat) : State :=
  let s := s.cutForward i
  let x := s.getPort i
  let s := (s.setPort i x.afresh).inc (ZLK_RETRY.RETRAINS i)
  (s.portState i zRETRAIN).rerouteAll i 0 x.messages

/-- A port goes DOWN; what it carried is left to retransmission. -/
def State.portDown (s : State) (i : Nat) : State :=
  let s := s.cutForward i
  let x := s.getPort i
  let s := (s.setPort i x.afresh).portState i zDOWN
  x.messages.foldl (fun s g => s.dropMsg i g) s

/-- The digest of FABRIC_COMMON (R261) of the newest committed record, which Bedrock read at start (R466). -/
def State.fabricDigest (s : State) : Nat :=
  leNat (sha3_256 (Config.fabricBytes [s.cfg.protoMajor, s.cfg.protoMinor, s.cfg.udpPort, s.cfg.dscp, bit s.cfg.vlanEn, s.cfg.vid,
    s.cfg.pcp, s.cfg.rto]))

/-- The own identity block of a port (R261). -/
def State.ownIdentity (s : State) (i : Nat) : Identity :=
  ⟨s.fuse.serial, s.ownCell, s.ownPos, i, s.cfg.protoMajor, s.cfg.protoMinor, s.fabricDigest, s.zrole i⟩

/-- The payload of an identity flit (R261), 244 bytes, and the block it holds. -/
def identityBytes (d : Identity) : List Byte :=
  leBytes 8 d.serial ++ leBytes 2 (d.cell % 2 ^ 13) ++ leBytes 1 d.pos ++ leBytes 1 d.port ++ leBytes 1 d.major ++ leBytes 1 d.minor ++
  leBytes 2 0 ++ leBytes 32 d.digest ++ leBytes 1 d.role ++ List.replicate 195 0#8
def identityOf (bs : List Byte) : Identity :=
  let n (i k : Nat) : Nat := leNat ((bs.drop i).take k)
  ⟨n 0 8, n 8 2 % 2 ^ 13, n 10 1, n 11 1, n 12 1, n 13 1, n 16 32, n 48 1⟩

/-- The port enters IDENT and sends its identity flit. -/
def State.enterIdent (s : State) (i : Nat) : State := (s.portState i zIDENT).emit (.flit i (controlFlit 3 (identityBytes (s.ownIdentity i))))

/-- The accept and the refuse flit (R263, R266): what the payload holds is not given (log entry 84). -/
def acceptFlit : Flit := controlFlit 4 [1#8]
def refuseFlit (cause : Nat) : Flit := controlFlit 4 [2#8, BitVec.ofNat 8 cause]

/-- Both ends have accepted: the port is UP. -/
def State.portUp (s : State) (i : Nat) : State := s.portState i zUP

/-- The port enters QUARANTINE with a cause and one PERM record (R262, R263). -/
def State.quarantine (s : State) (i cause : Nat) : State :=
  let s := (s.portState i zQUARANTINE).wf (ZLK_STATE.QCAUSE i) cause
  s.raise (s.portReport i 0x64 0 cause)

/-- Whether the configuration record gives a next-hop MAC address for a global port (R260). -/
def State.macSet (s : State) (i : Nat) : Bool := s.cfg.nextHopMac.any (fun e => e.1 == i && e.2 != 0)

/-- Whether a port is held DOWN by ZLK_CTRL. -/
def State.held (s : State) (i : Nat) : Bool := s.rf (ZLK_CTRL.DISABLE i) == 1

/-- Whether a port is a global port in use. -/
def State.isGlobal (s : State) (i : Nat) : Bool := s.zrole i == roleUPLINK || s.zrole i == roleSERVICE

/-- A global port is UP when its Ethernet link is up, its MAC address set and it is not held (R260). -/
def State.globalState (s : State) (i : Nat) : State :=
  if (s.getPort i).ethUp && s.macSet i && !s.held i then s.portUp i else s.portDown i

/-- Guard of a command about a port. -/
def onPort (s0 : State) (i : Nat) (s : State) : Answer := if i < s0.fuse.variant.ports then .next s else .fault .noSuchUnit

/-! ## Meanings: training and identity (R260–R265) -/

/-- PORT_ENABLE (R260). -/
def execPortEnable (i : Nat) (s : State) : Answer :=
  onPort s i (
    if s.boot ≠ .running ∨ s.zrole i ≠ rolePEER ∨ s.zstate i ≠ zDOWN ∨ s.held i then s
    else (s.setPort i { (s.getPort i).afresh with enabled := true }).portState i zTRAINING)

/-- PMD_TRAINED (R260, R261). -/
def execPmdTrained (i : Nat) (s : State) : Answer := onPort s i (if s.zstate i ≠ zTRAINING then s else s.enterIdent i)

/-- The first condition of R262 that holds, 0 when none does. -/
def State.refusal (s : State) (i : Nat) (d : Identity) : Nat :=
  if d.cell ≠ s.ownCell then 1
  else if d.pos ≠ s.ztarget i then 2
  else if d.port ≠ s.expectedPort i then 3
  else if s.cfg.peerSerials.any (fun e => e.1 == i && e.2 != d.serial) then 4
  else if d.major ≠ s.cfg.protoMajor then 5
  else if d.digest ≠ s.fabricDigest then 6
  else if d.role ≠ 0 then 8
  else 0

/-- Show the fields of an identity block (ZLK_PEER_ID0, ZLK_PEER_ID1, ZLK_PEER_DIG). -/
def State.showPeer (s : State) (i : Nat) (d : Identity) : State :=
  let s := ((s.wf (ZLK_PEER_ID0.SERIAL i) d.serial).wf (ZLK_PEER_ID1.CELL i) d.cell).wf (ZLK_PEER_ID1.POS i) d.pos
  let s := ((s.wf (ZLK_PEER_ID1.PORT i) d.port).wf (ZLK_PEER_ID1.MAJOR i) d.major).wf (ZLK_PEER_ID1.MINOR i) d.minor
  s.wf (ZLK_PEER_DIG.DIGEST i) d.digest

/-- A flit that arrives while the identities are exchanged: what FEC and the link CRC find is counted, and one that fails is
discarded. Answers whether it is good and of a type (R266, R268). -/
def State.controlIn (s : State) (i typ : Nat) (f : Flit) : State × Bool :=
  let s := s.addf (ZLK_FEC.CORR i) f.fecCorrected
  if !f.fecOk then (s.inc (ZLK_FEC.UNCORR i), false)
  else if f.crc ≠ flitCrc f then (s.inc (ZLK_CRC.COUNT i), false)
  else (s, f.typ == typ)

/-- The identity block of a good identity flit is compared (R262, R264). -/
def State.compareIdentity (s : State) (i : Nat) (d : Identity) : State :=
  let s := s.showPeer i d
  let q := s.refusal i d
  if q ≠ 0 then (s.emit (.flit i (refuseFlit q))).quarantine i q
  else
    let x := s.getPort i
    let s := (s.emit (.flit i acceptFlit)).setPort i { x with sentAccept := true }
    let s := s.wf (ZLK_STATE.MINOR_RUN i) (Nat.min d.minor s.cfg.protoMinor)
    if x.gotRefuse then s.quarantine i 7 else if x.gotAccept then s.portUp i else s

/-- IDENTITY_RECEIVE (R262, R264). -/
def execIdentityReceive (i : Nat) (f : Flit) (s : State) : Answer :=
  onPort s i (
    if s.zstate i ≠ zIDENT then s
    else
      let (s, ok) := s.controlIn i 3 f
      if ok then s.compareIdentity i (identityOf f.payload) else s)

/-- The neighbour accepts (R263). -/
def State.takeAccept (s : State) (i : Nat) : State :=
  let x := s.getPort i
  let s := s.setPort i { x with gotAccept := true }
  if x.sentAccept then s.portUp i else s

/-- The neighbour refuses (R263): an end that has accepted enters QUARANTINE with QCAUSE 7; one that has not yet compared does so when
it accepts. -/
def State.takeRefuse (s : State) (i : Nat) : State :=
  if (s.getPort i).sentAccept then s.quarantine i 7 else s.setPort i { s.getPort i with gotRefuse := true }

/-- ACCEPT_RECEIVE (R263). -/
def execAcceptReceive (i : Nat) (f : Flit) (s : State) : Answer :=
  onPort s i (
    if s.zstate i ≠ zIDENT then s
    else
      let (s, ok) := s.controlIn i 4 f
      if ok ∧ f.payload.headD 0#8 = 1#8 then s.takeAccept i else s)

/-- REFUSE_RECEIVE (R263). -/
def execRefuseReceive (i : Nat) (f : Flit) (s : State) : Answer :=
  onPort s i (
    if s.zstate i ≠ zIDENT then s
    else
      let (s, ok) := s.controlIn i 4 f
      if ok ∧ f.payload.headD 0#8 = 2#8 then s.takeRefuse i else s)

/-- TRAINING_TIMEOUT (R260). -/
def execTrainingTimeout (i : Nat) (s : State) : Answer :=
  onPort s i (if s.zstate i = zTRAINING ∨ s.zstate i = zIDENT then s.portDown i else s)

/-- TRAINING_RESTART (R260). -/
def execTrainingRestart (i : Nat) (s : State) : Answer :=
  onPort s i (
    if s.zstate i ≠ zDOWN ∨ !(s.getPort i).enabled ∨ s.held i ∨ s.zrole i ≠ rolePEER ∨ s.boot ≠ .running then s
    else (s.inc (ZLK_RETRY.TRAIN_FAILS i)).portState i zTRAINING)

/-- ZLK_CTRL_RETRAIN (R265): an UP port or one in QUARANTINE retrains, unless it is held (log entry 44). -/
def execZlkCtrlRetrain (a : Agent) (i : Nat) (s : State) : Answer :=
  onPort s i (
    if isFlint a then s
    else if s.zstate i = zUP then
      let s1 := s.enterRetrain i
      s1.setPort i { s1.getPort i with sentAccept := true, gotAccept := true }
    else if s.zstate i = zQUARANTINE ∧ !s.held i then s.enterRetrain i
    else s)

/-- ZLK_CTRL_DISABLE (R260): hold the port DOWN, or release it to train again; a port in QUARANTINE stays there (R265). -/
def execZlkCtrlDisable (a : Agent) (i : Nat) (hold : Bool) (s : State) : Answer :=
  onPort s i (
    if isFlint a then s
    else
      let s := s.wf (ZLK_CTRL.DISABLE i) (bit hold)
      if s.zstate i = zRETIRED ∨ s.zstate i = zQUARANTINE then s
      else if hold then s.portDown i
      else if s.isGlobal i ∧ s.zstate i = zDOWN then s.globalState i else s)

/-- ZLK_CTRL_UNRETIRE (R271): through PF16 only; the record is cleared and the port trains afresh. -/
def execZlkCtrlUnretire (a : Agent) (i : Nat) (s : State) : Answer :=
  onPort s i (
    if a ≠ .pf16 ∨ s.log.retiredLanes.get 0 i = 0 then s
    else
      let s := s.logState { s.log with retiredLanes := s.log.retiredLanes.set 0 i 0 }
      let s := (s.wf (ZLK_STATE.LANES_RET i) 0).wf (ZLK_STATE.NARROW i) 0
      let s := s.setPort i { (s.getPort i).afresh with laneFails0 := 0, laneFails1 := 0 }
      if s.isGlobal i then s.globalState i
      else if s.held i then s.portState i zDOWN else s.portState i zTRAINING)

/-! ## Meanings: flits (R266–R269, R273) -/

/-- What a port still keeps once `n` of the flits it sent are acknowledged: a message goes with its last flit. -/
def ackKept : Nat → List QFlit → List QFlit
  | 0, l => l
  | n + 1, l =>
    match (l.take (n + 1)).getLast? with
    | some q => if q.flit.eom then l.drop (n + 1) else ackKept n l
    | none => l

/-- Take an acknowledgement: every flit up to its number leaves the replay buffer. -/
def State.linkAck (s : State) (i ack : Nat) : State :=
  let x := s.getPort i
  match x.replay.findIdx? (fun f => f.seq == ack % 4096) with
  | none => s
  | some k => s.setPort i { x with
      replay := x.replay.drop (k + 1), kept := ackKept (x.kept.length + (k + 1) - x.replay.length) x.kept
      fails := if (x.replay.take (k + 1)).any (fun f => f.seq == x.failSeq) then 0 else x.fails }

/-- A NAK: replay from the flit after ACK; at the fourth refusal of one flit, three replays of it having failed, the port
enters RETRAIN (R268, R269). -/
def State.linkNak (s : State) (i ack : Nat) : State :=
  let s := s.linkAck i ack
  let x := s.getPort i
  match x.replay with
  | [] => s
  | f :: _ =>
    let n := if x.fails ≠ 0 ∧ x.failSeq = f.seq then x.fails + 1 else 1
    let s := s.setPort i { x with failSeq := f.seq, fails := n }
    if n ≤ 3 then x.replay.foldl (fun s g => s.emit (.flit i g)) s
    else
      let s := s.enterRetrain i
      s.setPort i { s.getPort i with sentAccept := true, gotAccept := true, failSeq := f.seq }

/-- A flit number's distance ahead of the one that is due. -/
def Port.ahead (x : Port) (seq : Nat) : Nat := (seq + 4096 - x.rxSeq) % 4096

/-- A data flit that is discarded while the port waits for a replay: it will come again. -/
def Port.toCome (x : Port) (seq : Nat) : Port :=
  if x.discarding ∧ x.ahead seq < 2048 then { x with again := Nat.max x.again (x.ahead seq + 1) } else x

/-- A flit that fails: it and every later one are discarded, and the failure of the flit that is due is answered with a NAK. -/
def State.flitFailed (s : State) (i seq : Nat) : State :=
  let x := s.getPort i
  let s := s.setPort i ({ x with discarding := true }.toCome seq)
  if x.discarding ∧ seq ≠ x.rxSeq then s
  else (s.setPort i { s.getPort i with naks := (s.getPort i).naks + 1 }).emit (.flit i (bareFlit 2 ((x.rxSeq + 4095) % 4096) true 0 0))

/-- The port by which a message that arrives on VC 0 goes on, plus 1, and 0 for none (R267, R273, R283): an UP port of the bundle to its
position, or an UP uplink to another cell; which of them is open (log entry 5). A message on VC 1 is on its last hop. -/
def State.onward (s : State) (f : Flit) : State × Nat :=
  let d := headerDest f.payload
  if f.vc ∨ (d.1 = s.ownCell ∧ d.2 = s.ownPos) then (s, 0)
  else
    let ports := if d.1 = s.ownCell then s.upBundle rolePEER d.2 else s.upUplinks
    if ports = [] then (s, 0)
    else
      let (s, v) := s.free
      (s, ports.getD (v.toNat % ports.length) 0 + 1)

/-- Hand a flit of a message that goes on to the next port, on VC 1 (R267, R273). Answers whether it goes on: it then keeps its place in
the receive buffer until it is sent. -/
def State.forward (s : State) (i : Nat) (f : Flit) : State × Bool :=
  if f.vc then (s, false)
  else
    let (s, k) := if f.som then s.onward f else (s, (s.getPort i).fwd)
    let s := s.setPort i { s.getPort i with fwd := if f.eom then 0 else k }
    if k = 0 then (s, false) else (s.enqueueFlits (k - 1) [⟨i + 1, true, { f with vc := true }⟩], true)

/-- A flit received on a replay is counted, and the first in each 10 ms interval of the port is recorded (R268), with the replays asked
for it in RETRY (R337). -/
def State.replayed (s : State) (i seq naks : Nat) : State :=
  let s := s.inc (ZLK_RETRY.REPLAYS i)
  let iv := s.now / 1000000
  if (s.getPort i).lastTrans = some iv then s
  else (s.setPort i { s.getPort i with lastTrans := some iv }).raise
    { unit := s.portUnit i, cls := .trans, code := 0x61, part := none, retry := naks, synd := [(i, 1), (seq, 2)] }

/-- A data flit without error: in order it is accepted, passed on or taken, and acknowledged, with its credit where it has left the
receive buffer; out of order it is discarded. -/
def State.dataFlit (s : State) (i : Nat) (f : Flit) : State :=
  let x := s.getPort i
  if f.seq ≠ x.rxSeq then s.setPort i (x.toCome f.seq)
  else
    let s := s.setPort i { x with rxSeq := (x.rxSeq + 1) % 4096, discarding := false, naks := 0, again := x.again - 1 }
    let s := if 0 < x.again then s.replayed i f.seq x.naks else s
    let (s, on) := s.forward i f
    s.emit (.flit i (bareFlit 2 f.seq false (bit (!f.vc && !on)) (bit f.vc)))

/-- FLIT_RECEIVE (R266–R268, R273): FEC and link CRC are counted; acknowledgement, credits and NAK are taken from every good
flit that is not discarded. -/
def execFlitReceive (i : Nat) (f : Flit) (s : State) : Answer :=
  onPort s i (
    if s.zstate i ≠ zUP ∨ s.zrole i ≠ rolePEER then s
    else
      let s := s.addf (ZLK_FEC.CORR i) f.fecCorrected
      if !f.fecOk then (s.inc (ZLK_FEC.UNCORR i)).flitFailed i f.seq
      else if f.crc ≠ flitCrc f then (s.inc (ZLK_CRC.COUNT i)).flitFailed i f.seq
      else
        let x := s.getPort i
        if f.typ = 1 ∧ f.seq ≠ x.rxSeq then s.dataFlit i f
        else
          let s := s.setPort i { x with credit0 := Nat.min 128 (x.credit0 + f.cr0), credit1 := Nat.min 128 (x.credit1 + f.cr1) }
          let s := if f.nak then s.linkNak i f.ack else s.linkAck i f.ack
          let s := if f.typ = 1 ∧ s.zstate i = zUP then s.dataFlit i f else s
          s.pumpAll i)

/-- NAK_RECEIVE (R268, R269). -/
def execNakReceive (i ack : Nat) (s : State) : Answer := onPort s i (if s.zstate i ≠ zUP then s else s.linkNak i ack)

/-! ## RETRAIN_DONE (R270) -/

/-- Retire lane `k` of a port: recorded, logged, and shown (R270, R271). -/
def State.retireLane (s : State) (i k : Nat) : State :=
  let m := Nat.lor (s.log.retiredLanes.get 0 i) (2 ^ k)
  let s := s.raise (s.portReport i 0x63 k 0)
  (s.logState { s.log with retiredLanes := s.log.retiredLanes.set 0 i m }).wf (ZLK_STATE.LANES_RET i) m

/-- Whether the lanes retired retire the port as a whole (R270). -/
def wholeRetired (role lanes : Nat) : Bool := if role = rolePEER then lanes == 3 else lanes != 0

/-- The retraining of a lane: its failures in succession after it. -/
def laneCount (retired ok : Bool) (n : Nat) : Nat := if retired || ok then 0 else n + 1

/-- RETRAIN_DONE (R270): with every lane in use passed the port carries traffic again or exchanges identities; a failure counts,
a lane that failed twice is retired, and the port retrains, or is retired as a whole. -/
def execRetrainDone (i : Nat) (ok0 ok1 : Bool) (s : State) : Answer :=
  onPort s i (
    if s.zstate i ≠ zRETRAIN then s
    else
      let x := s.getPort i
      let r := s.rf (ZLK_STATE.LANES_RET i)
      let n0 := laneCount (bitOf r 0) ok0 x.laneFails0
      let n1 := laneCount (bitOf r 1) ok1 x.laneFails1
      let s := s.setPort i { x with laneFails0 := n0, laneFails1 := n1 }
      if n0 = 0 ∧ n1 = 0 then
        let s := s.raise
          { unit := s.portUnit i, cls := .trans, code := 0x62, part := none, synd := [(i, 1), (x.failSeq, 2)] }
        if s.isGlobal i then s.globalState i
        else if x.sentAccept ∧ x.gotAccept then (s.portUp i).pumpAll i else s.enterIdent i
      else
        let s := s.inc (ZLK_RETRY.TRAIN_FAILS i)
        let s := if 2 ≤ n0 then s.retireLane i 0 else s
        let s := if 2 ≤ n1 then s.retireLane i 1 else s
        let lanes := s.rf (ZLK_STATE.LANES_RET i)
        if wholeRetired (s.zrole i) lanes then s.portState i zRETIRED
        else (if lanes = 0 then s else s.wf (ZLK_STATE.NARROW i) 1).inc (ZLK_RETRY.RETRAINS i))

/-- ETHERNET_LINK_CHANGE (R260): of a global port. -/
def execEthernetLinkChange (i : Nat) (up : Bool) (s : State) : Answer :=
  onPort s i (
    if !s.isGlobal i then s
    else
      let s := s.setPort i { s.getPort i with ethUp := up }
      if s.zstate i = zRETIRED ∨ s.zstate i = zRETRAIN then s else s.globalState i)

end Sys2Proof.Machine
end

