-- ==== Sys2Proof/Machine/Numeric.lean ====
section
/-!
DEFINITION. Number formats and arithmetic (chapter 2 of spec/): the ten storage formats, exact values, rounding to
nearest even and stochastic rounding, narrowing conversions and MX blocks, the Garnet column sum and the canonical
reduction trees. Exact values are integers times powers of two, so nothing is lost before the one rounding a rule names.
-/
namespace Sys2Proof.Machine

/-- A number as the units compute it: NaN, an infinity or an exact dyadic magnitude `m * 2^e` with a sign (zeros keep
theirs). -/
inductive Val where
  | nan
  | inf (neg : Bool)
  | fin (neg : Bool) (m : Nat) (e : Int)
deriving DecidableEq, Repr

/-- A floating-point element format (R52, R53): exponent and mantissa widths, bias, whether it has infinities, its NaN
code (none for the MX formats), its largest finite code. -/
structure FloatFmt where
  eb : Nat
  mb : Nat
  bias : Nat
  hasInf : Bool
  nan : Option Nat
  maxCode : Nat
deriving DecidableEq, Repr

/-- The floating-point formats by their codes of R52. -/
def floatFmt : Nat → Option FloatFmt
  | 0 => some ⟨8, 23, 127, true, some 0x7FC00000, 0x7F7FFFFF⟩
  | 1 => some ⟨8, 7, 127, true, some 0x7FC0, 0x7F7F⟩
  | 2 => some ⟨5, 10, 15, true, some 0x7E00, 0x7BFF⟩
  | 3 => some ⟨4, 3, 7, false, some 0x7F, 0x7E⟩
  | 4 => some ⟨5, 2, 15, true, some 0x7E, 0x7B⟩
  | 5 => some ⟨3, 2, 3, false, none, 0x1F⟩
  | 6 => some ⟨2, 3, 1, false, none, 0x1F⟩
  | 7 => some ⟨2, 1, 1, false, none, 0x7⟩
  | _ => none

/-- Bits per element of a format code (R52). -/
def fmtBits : Nat → Nat
  | 0 => 32
  | 1 => 16
  | 2 => 16
  | 3 => 8
  | 4 => 8
  | 5 => 6
  | 6 => 6
  | 7 => 4
  | 8 => 8
  | 9 => 4
  | _ => 0

/-- The MX formats (R52). -/
def isMx (f : Nat) : Bool := f == 5 || f == 6 || f == 7

/-- The integer formats (R52). -/
def isIntFmt (f : Nat) : Bool := f == 8 || f == 9

/-- Two's complement of `w` bits as an integer. -/
def toInt (w n : Nat) : Int := if 2 ^ (w - 1) ≤ n % 2 ^ w then (n % 2 ^ w : Nat) - (2 ^ w : Nat) else (n % 2 ^ w : Nat)

/-- An integer as a value. -/
def Val.ofInt (i : Int) : Val := .fin (decide (i < 0)) i.natAbs 0

/-- Decode a floating-point code. -/
def FloatFmt.decode (f : FloatFmt) (n : Nat) : Val :=
  let neg := bitOf n (f.eb + f.mb)
  let ex := bits n f.mb f.eb
  let man := bits n 0 f.mb
  let top := 2 ^ f.eb - 1
  if f.hasInf ∧ ex = top then (if man = 0 then .inf neg else .nan)
  else if f.nan.isSome ∧ !f.hasInf ∧ ex = top ∧ man = 2 ^ f.mb - 1 then .nan
  else if ex = 0 then .fin neg man (1 - (f.bias : Int) - f.mb)
  else .fin neg (2 ^ f.mb + man) ((ex : Int) - f.bias - f.mb)

/-- Decode a code of any format, without a block scale (R52). -/
def decodeFmt (fmt n : Nat) : Val :=
  match floatFmt fmt with
  | some f => f.decode n
  | none => .ofInt (toInt (fmtBits fmt) n)

/-- The FP32 value of a word. -/
def f32 (w : Word32) : Val := decodeFmt 0 w.toNat

/-- Apply an MX block scale byte (R57): 0xFF makes the element NaN. -/
def Val.scaled (v : Val) (fmt scale : Nat) : Val :=
  if isMx fmt then
    (if scale = 0xFF then .nan
     else match v with
      | .fin n m e => .fin n m (e + (scale : Int) - 127)
      | w => w)
  else v

def Val.isNan : Val → Bool
  | .nan => true
  | _ => false

def Val.isInf : Val → Bool
  | .inf _ => true
  | _ => false

def Val.isZero : Val → Bool
  | .fin _ 0 _ => true
  | _ => false

/-- Whether the value is neither NaN nor an infinity. -/
def Val.finite (v : Val) : Bool := !v.isNan && !v.isInf

def Val.neg : Val → Val
  | .nan => .nan
  | .inf n => .inf (!n)
  | .fin n m e => .fin (!n) m e

def Val.abs : Val → Val
  | .nan => .nan
  | .inf _ => .inf false
  | .fin _ m e => .fin false m e

def Val.sign : Val → Bool
  | .nan => false
  | .inf n => n
  | .fin n _ _ => n

/-! ## Exact arithmetic -/

/-- The exact integer of a finite value at exponent `q ≤ e`. -/
def Val.atExp (q : Int) : Val → Int
  | .fin n m e => if n then -((m * 2 ^ (e - q).toNat : Nat) : Int) else ((m * 2 ^ (e - q).toNat : Nat) : Int)
  | _ => 0

/-- The exponent of a finite value. -/
def Val.exp : Val → Int
  | .fin _ _ e => e
  | _ => 0

/-- Exact sum with IEEE 754 special values; an exact zero is +0 unless both operands are −0. -/
def Val.add : Val → Val → Val
  | .nan, _ => .nan
  | _, .nan => .nan
  | .inf a, .inf b => if a = b then .inf a else .nan
  | .inf a, _ => .inf a
  | _, .inf b => .inf b
  | .fin na ma ea, .fin nb mb eb =>
    let q := min ea eb
    let t := (Val.fin na ma ea).atExp q + (Val.fin nb mb eb).atExp q
    if t = 0 then .fin (na && nb && ma == 0 && mb == 0) 0 q else .fin (decide (t < 0)) t.natAbs q

/-- Exact product with IEEE 754 special values. -/
def Val.mul : Val → Val → Val
  | .nan, _ => .nan
  | _, .nan => .nan
  | .inf a, .inf b => .inf (xor a b)
  | .inf a, .fin b m _ => if m = 0 then .nan else .inf (xor a b)
  | .fin a m _, .inf b => if m = 0 then .nan else .inf (xor a b)
  | .fin na ma ea, .fin nb mb eb => .fin (xor na nb) (ma * mb) (ea + eb)

/-- Quotient to more bits than any format keeps, with a sticky bit, so that one rounding of it is the rounding of the
exact quotient. -/
def Val.div : Val → Val → Val
  | .nan, _ => .nan
  | _, .nan => .nan
  | .inf _, .inf _ => .nan
  | .inf a, .fin b _ _ => .inf (xor a b)
  | .fin a _ _, .inf b => .fin (xor a b) 0 0
  | .fin na ma ea, .fin nb mb eb =>
    if mb = 0 then (if ma = 0 then .nan else .inf (xor na nb))
    else
      let k := 40 + Nat.log2 mb
      let q := ma * 2 ^ k / mb
      .fin (xor na nb) (2 * q + (if ma * 2 ^ k % mb = 0 then 0 else 1)) (ea - eb - k - 1)

/-- The integer square root, bit by bit from bit `k - 1`. -/
def isqrtFrom (n : Nat) : Nat → Nat → Nat
  | 0, r => r
  | k + 1, r => if (r + 2 ^ k) * (r + 2 ^ k) ≤ n then isqrtFrom n k (r + 2 ^ k) else isqrtFrom n k r

/-- Square root to more bits than any format keeps, with a sticky bit. -/
def Val.sqrt : Val → Val
  | .nan => .nan
  | .inf n => if n then .nan else .inf false
  | .fin n m e =>
    if m = 0 then .fin n 0 e
    else if n then .nan
    else
      let sh : Nat := if e % 2 = 0 then 76 else 75
      let v : Nat := m * 2 ^ sh
      let r := isqrtFrom v 64 0
      .fin false (2 * r + (if r * r = v then 0 else 1)) ((e - sh) / 2 - 1)

/-! ## Rounding (R61, R62) -/

/-- `m / 2^k` to the nearest integer, ties to even. -/
def rneShift (m k : Nat) : Nat :=
  let q := m / 2 ^ k
  let r := m % 2 ^ k
  if k = 0 then m
  else if 2 ^ (k - 1) < r ∨ (r = 2 ^ (k - 1) ∧ q % 2 = 1) then q + 1 else q

/-- The integer multiple of 2^q nearest `m * 2^e` under R61 (`rnd` 0) or R62 (`rnd` 1 with the random bits `r`). -/
def roundAt (rnd r m : Nat) (e q : Int) : Nat :=
  if q ≤ e then m * 2 ^ (e - q).toNat
  else
    let k := (q - e).toNat
    if rnd = 0 then rneShift m k
    else
      let lo := m / 2 ^ k
      if r < m % 2 ^ k * 65536 / 2 ^ k then lo + 1 else lo

/-- The spacing exponent of a format at `m * 2^e`. -/
def FloatFmt.spacing (f : FloatFmt) (m : Nat) (e : Int) : Int :=
  max ((Nat.log2 m : Nat) + e - f.mb) (1 - (f.bias : Int) - f.mb)

/-- The code without sign of a magnitude rounded into a format, and whether it overflows (R61, R62, R64). -/
def FloatFmt.roundMag (f : FloatFmt) (rnd r m : Nat) (e : Int) : Nat × Bool :=
  if m = 0 then (0, false)
  else
    let emin : Int := 1 - (f.bias : Int) - f.mb
    let q := f.spacing m e
    let k := roundAt rnd r m e q
    let code := (q - emin).toNat * 2 ^ f.mb + k
    -- largest finite value plus half its last place (R61)
    let maxK := 2 ^ f.mb + bits f.maxCode 0 f.mb
    let maxQ : Int := (f.maxCode / 2 ^ f.mb : Nat) - 1 + emin
    let half := decide ((Val.fin false (2 * maxK + 1) (maxQ - 1)).atExp (min e (maxQ - 1)) ≤ (Val.fin false m e).atExp (min e (maxQ - 1)))
    (code, decide (f.maxCode < code) || (rnd == 0 && half))

/-- Whether a format is one of the MX element formats: those have no NaN. -/
def FloatFmt.mx (f : FloatFmt) : Bool := f.nan.isNone

/-- Narrow a value into a floating-point format (R61, R62, R64). Infinities and NaNs of the MX formats are the block's
matter (R65) and give 0 here. -/
def FloatFmt.encode (f : FloatFmt) (rnd sat r : Nat) (v : Val) : Nat :=
  let sgn (n : Bool) := bit n * 2 ^ (f.eb + f.mb)
  let infCode (n : Bool) := if f.hasInf then sgn n + (2 ^ f.eb - 1) * 2 ^ f.mb else f.nan.getD 0
  match v with
  | .nan => f.nan.getD 0
  | .inf n => infCode n
  | .fin n m e =>
    let (c, ov) := f.roundMag rnd r m e
    if ov then (if sat = 1 ∨ f.mx then sgn n + f.maxCode else infCode n) else sgn n + c
where
  bit (b : Bool) : Nat := if b then 1 else 0

/-- Narrow a value into an integer format of `w` bits (R61, R62, R64): it saturates whatever SAT says. -/
def encodeInt (w rnd r : Nat) (v : Val) : Nat :=
  let hi : Int := (2 ^ (w - 1) : Nat) - 1
  let lo : Int := -((2 ^ (w - 1) : Nat) : Int)
  let code (i : Int) : Nat := (max lo (min hi i) % (2 ^ w : Nat)).toNat
  match v with
  | .nan => 0
  | .inf n => code (if n then lo else hi)
  | .fin n m e => let k : Int := (roundAt rnd r m e 0 : Nat)
    code (if n then -k else k)

/-- Narrow a value into any format without a block scale under a conversion control field (R60): format, RND, SAT. -/
def narrow (fmt rnd sat r : Nat) (v : Val) : Nat :=
  match floatFmt fmt with
  | some f => f.encode rnd sat r v
  | none => encodeInt (fmtBits fmt) rnd r v

/-- Round to FP32 under R61, overflow to infinity (R73), canonical NaN (R56). -/
def toF32 (v : Val) : Word32 := BitVec.ofNat 32 (narrow 0 0 0 0 v)

/-- Round to FP32 and decode again. -/
def rnd32 (v : Val) : Val := f32 (toF32 v)

/-! ## MX blocks (R57, R58, R65) -/

/-- `emax` of R65. -/
def mxEmax : Nat → Int
  | 5 => 4
  | _ => 2

/-- Order of finite magnitudes. -/
def magLe (m1 : Nat) (e1 : Int) (m2 : Nat) (e2 : Int) : Bool :=
  decide (m1 * 2 ^ (e1 - min e1 e2).toNat ≤ m2 * 2 ^ (e2 - min e1 e2).toNat)

/-- floor(log2) of the largest magnitude of finite values, none when all are zero. -/
def maxLog2 : List Val → Option Int
  | [] => none
  | .fin _ m e :: vs =>
    if m = 0 then maxLog2 vs
    else match maxLog2 vs with
      | none => some ((Nat.log2 m : Nat) + e)
      | some k => some (max ((Nat.log2 m : Nat) + e) k)
  | _ :: vs => maxLog2 vs

/-- One MX block: its scale byte and element codes (R64, R65). -/
def mxBlock (fmt rnd : Nat) (vs : List Val) (rs : List Nat) : Nat × List Nat :=
  if vs.any (fun v => !v.finite) then (0xFF, vs.map (fun _ => 0))
  else
    let x : Int := match maxLog2 vs with
      | none => -127
      | some k => max (-127) (min 127 (k - mxEmax fmt))
    let enc (v : Val) (r : Nat) : Nat := match v with
      | .fin n m e => narrow fmt rnd 1 r (.fin n m (e - x))
      | _ => 0
    ((x + 127).toNat, List.zipWith enc vs (rs ++ List.replicate (vs.length - rs.length) 0))

/-! ## FP32 operations -/

def addF32 (a b : Word32) : Word32 := toF32 ((f32 a).add (f32 b))
def mulF32 (a b : Word32) : Word32 := toF32 ((f32 a).mul (f32 b))
def canonicalNan : Word32 := 0x7FC00000#32

/-- Whether `a` comes before `b` in the order of R77, where +0 is greater than −0. -/
def Val.lt77 : Val → Val → Bool
  | .nan, _ => false
  | _, .nan => false
  | .inf a, .inf b => a && !b
  | .inf a, _ => a
  | _, .inf b => !b
  | .fin na ma ea, .fin nb mb eb =>
    let q := min ea eb
    let x := (Val.fin na ma ea).atExp q
    let y := (Val.fin nb mb eb).atExp q
    decide (x < y) || (decide (x = y) && na && !nb)

/-- Maximum of R77. -/
def Val.max77 (a b : Val) : Val := if a.isNan || b.isNan then .nan else if a.lt77 b then b else a

/-- Minimum of R77. -/
def Val.min77 (a b : Val) : Val := if a.isNan || b.isNan then .nan else if b.lt77 a then b else a

/-- IEEE comparison: less than, with −0 equal to +0. -/
def Val.lt : Val → Val → Bool
  | .fin na ma ea, .fin nb mb eb =>
    let q := min ea eb
    decide ((Val.fin na ma ea).atExp q < (Val.fin nb mb eb).atExp q)
  | a, b => a.lt77 b

/-- IEEE comparison: equal. -/
def Val.eq : Val → Val → Bool
  | .nan, _ => false
  | _, .nan => false
  | .inf a, .inf b => a == b
  | .fin na ma ea, .fin nb mb eb =>
    let q := min ea eb
    decide ((Val.fin na ma ea).atExp q = (Val.fin nb mb eb).atExp q)
  | _, _ => false

/-! ## The column sum (R68–R73) -/

/-- Exact sum of a list, from +0. -/
def exactSum : List Val → Val
  | [] => .fin false 0 0
  | v :: vs => v.add (exactSum vs)

/-- The exact column sum of narrow operands: NaN and infinity rules of R70, an exact zero is +0 (R69). -/
def exactColumn (products : List Val) : Val :=
  if products.any Val.isNan then .nan
  else if products.any (fun v => decide (v = .inf true)) then
    (if products.any (fun v => decide (v = .inf false)) then .nan else .inf true)
  else if products.any (fun v => decide (v = .inf false)) then .inf false
  else match exactSum products with
    | .fin _ 0 _ => .fin false 0 0
    | v => v

/-- Round a finite value to a 12-bit significand with unbounded exponent (R72). -/
def round12 : Val → Val
  | .fin n m e =>
    if m = 0 then .fin n 0 e
    else
      let lg := Nat.log2 m
      if lg < 12 then .fin n m e else .fin n (rneShift m (lg - 11)) (e + (lg - 11 : Nat))
  | v => v

/-- The FP32 element product of R72. -/
def fp32Product (a b : Val) : Val :=
  if !a.finite || !b.finite || a.isZero || b.isZero then rnd32 (a.mul b)
  else
    let ah := round12 a
    let al := a.add ah.neg
    let bh := round12 b
    let bl := b.add bh.neg
    rnd32 (((ah.mul bh).add (ah.mul bl)).add (al.mul bh))

/-- One element product before the fixed nodes (R71, R72). -/
def nodeProduct (fmt : Nat) (a b : Val) : Val := if fmt = 0 then fp32Product a b else rnd32 (a.mul b)

/-- A node of R71: four inputs summed exactly and rounded once. -/
def node4 (a b c d : Val) : Val := rnd32 (((a.add b).add c).add d)

/-- One level of nodes. -/
def nodeLevel : List Val → List Val
  | a :: b :: c :: d :: r => node4 a b c d :: nodeLevel r
  | _ => []

/-- The fixed nodes of R71 over 64 or 128 products. -/
def nodeTree (p : List Val) : Val :=
  match nodeLevel (nodeLevel (nodeLevel p)) with
  | [a] => a
  | [a, b] => rnd32 (a.add b)
  | _ => .fin false 0 0

/-- Whether a format takes the exact tree of R68 (8 bits and narrower). -/
def narrowFmt (f : Nat) : Bool := decide (fmtBits f ≤ 8)

/-- The column sum of products that entered (`some` operands) and of +0 products (`none`), over `n` rows. -/
def columnSum (fmt n : Nat) (ps : List (Option (Val × Val))) : Val :=
  if narrowFmt fmt then exactColumn (ps.filterMap (fun o => o.map (fun (a, b) => a.mul b)))
  else nodeTree ((ps.map (fun o => match o with
      | some (a, b) => nodeProduct fmt a b
      | none => .fin false 0 0)) ++ List.replicate (n - ps.length) (.fin false 0 0))

/-- Whether a stationary and a streamed format may meet (R67). -/
def pairOk (a b : Nat) : Bool :=
  a == b || ((a == 3 || a == 4) && (b == 3 || b == 4)) || (isMx a && isMx b)

/-! ## Canonical trees (R75, R76) -/

/-- One level of the pairwise tree: an odd last entry passes up unchanged. -/
def pairLevel {α : Type} (op : α → α → α) : List α → List α
  | a :: b :: r => op a b :: pairLevel op r
  | l => l

/-- The pairwise tree over `fuel` levels. -/
def pairTree {α : Type} (op : α → α → α) : Nat → List α → List α
  | 0, l => l
  | k + 1, l => pairTree op k (pairLevel op l)

/-- The pairwise tree of R75 and R76 (at most 128 entries: seven levels). -/
def tree {α : Type} (op : α → α → α) (d : α) (l : List α) : α := (pairTree op 7 l).headD d

end Sys2Proof.Machine
end

