-- ==== Sys2Proof/Machine/Operands.lean ====
section
/-!
DEFINITION. Operands of the engines: tensor descriptors (R173, R176), the local piece and the address of an element (R178–
R181), flattened rows (R511), clamping and suppression (R182–R184), 2:4 compressed tensors (R101, R512), occupancy maps
(R198–R205), the key/value area (R227); reading elements with the blocks they verify, and assembling whole blocks to write.
-/
namespace Sys2Proof.Machine

/-! ## Descriptors (R173) -/

/-- One dimension of a descriptor: extent, KIND, shard count, chunk size, window, rank stride and granule. -/
structure Dim where
  ext : Nat
  kind : Nat
  shards : Nat
  c : Nat
  worg : Nat
  wext : Nat
  wen : Bool
  rs : Nat
  gran : Nat
deriving DecidableEq, Repr

/-- A descriptor, field by field. -/
structure Desc where
  fmt : Nat
  ndim : Nat
  tile : Bool
  orient : Nat
  sparse : Bool
  index : Bool
  base : Nat
  sbase : Nat
  mbase : Nat
  pitchF : Nat
  dims : List Dim
deriving DecidableEq, Repr

/-- Rank stride of dimension `d`: 22 bits each in D5, D6, D7 and D24. -/
def rankStride (ws : List Word64) (d : Nat) : Nat :=
  bits (wordAt ws (if d < 6 then 5 + d / 2 else 24)).toNat (22 * (d % 2)) 22

/-- The granule of dimension `d` (text before R178). -/
def granule (ws : List Word64) (d : Nat) : Nat :=
  let w := wordAt ws 0
  let fmt := fieldOf w 4 1
  let inner := decide (d + 1 = fieldOf w 8 5)
  if fieldOf w 12 12 = 1 then 1
  else if fieldOf w 11 11 = 1 ∧ d = fieldOf w 10 10 then 64
  else if inner ∧ isMx fmt then 32
  else if inner ∧ fmtBits fmt = 4 then 2
  else 1

/-- Dimension `d` of descriptor words. -/
def dimOf (ws : List Word64) (d : Nat) : Dim :=
  let a := wordAt ws (8 + 2 * d)
  let b := wordAt ws (9 + 2 * d)
  { ext := fieldOf a 39 0 + 1, kind := fieldOf a 41 40, shards := fieldOf a 59 42 + 1, c := 2 ^ fieldOf a 63 60
    worg := fieldOf b 39 0, wext := fieldOf b 62 40 + 1, wen := fieldOf b 63 63 == 1, rs := rankStride ws d
    gran := granule ws d }

/-- The descriptor that 32 words hold. -/
def descOf (ws : List Word64) : Desc :=
  let w := wordAt ws 0
  { fmt := fieldOf w 4 1, ndim := fieldOf w 8 5, tile := fieldOf w 9 9 == 1, orient := fieldOf w 10 10
    sparse := fieldOf w 11 11 == 1, index := fieldOf w 12 12 == 1
    base := fieldOf (wordAt ws 1) 47 0, sbase := fieldOf (wordAt ws 2) 47 0, mbase := fieldOf (wordAt ws 3) 47 0
    pitchF := fieldOf (wordAt ws 4) 31 0
    dims := (List.range (fieldOf w 8 5)).map (dimOf ws) }

/-- Every reserved field of a descriptor is 0. -/
def descReserved (ws : List Word64) : Bool :=
  decide (fieldOf (wordAt ws 0) 63 13 = 0) &&
  [1, 2, 3].all (fun i => decide (fieldOf (wordAt ws i) 63 48 = 0)) &&
  decide (fieldOf (wordAt ws 4) 63 32 = 0) &&
  [5, 6, 7, 24].all (fun i => decide (fieldOf (wordAt ws i) 63 44 = 0)) &&
  [25, 26, 27, 28, 29, 30, 31].all (fun i => wordAt ws i == 0#64)

/-- Bits per element. -/
def Desc.ebits (d : Desc) : Nat := if d.index then 32 else fmtBits d.fmt

/-- Whether the tensor has MX block scales. -/
def Desc.mx (d : Desc) : Bool := !d.index && isMx d.fmt

/-! ## The local piece (R178) -/

/-- The shard the rank selects. -/
def Dim.shard (rank : Nat) (d : Dim) : Nat := rank / d.rs % d.shards

/-- Round up to a multiple of `g`. -/
def roundup (x g : Nat) : Nat := (x + g - 1) / g * g

/-- The shard length of a BLOCK dimension. -/
def Dim.blockLen (d : Dim) : Nat := roundup (ceilDiv d.ext d.shards) d.gran

/-- `piece` of R178. -/
def Dim.piece (rank : Nat) (d : Dim) : Nat × Nat :=
  let lo := if d.kind = 0 then 0 else Nat.min (d.shard rank * d.blockLen) d.ext
  let hi := if d.kind = 0 then d.ext else Nat.min (lo + d.blockLen) d.ext
  if d.wen then
    let lo' := Nat.max lo d.worg
    (lo', Nat.max lo' (Nat.min hi (d.worg + d.wext)))
  else (lo, hi)

/-- `stored_extent` of R178. -/
def Dim.stored (rank : Nat) (d : Dim) : Nat :=
  if d.kind ≠ 2 then (d.piece rank).2 - (d.piece rank).1
  else
    let nch := ceilDiv d.ext d.c
    let s := d.shard rank
    if nch ≤ s then 0
    else
      let mine := (nch - 1 - s) / d.shards + 1
      let last := s + (mine - 1) * d.shards
      mine * d.c - (if last = nch - 1 then nch * d.c - d.ext else 0)

/-- `local_index` of R178; none is NONLOCAL. -/
def Dim.local (rank : Nat) (d : Dim) (g : Nat) : Option Nat :=
  if d.kind = 2 then
    (let k := g / d.c
     if k % d.shards ≠ d.shard rank then none else some (k / d.shards * d.c + g % d.c))
  else
    let (lo, hi) := d.piece rank
    if lo ≤ g ∧ g < hi then some (g - lo) else none

/-- The dimension at `i`. -/
def Desc.dim (d : Desc) (i : Nat) : Dim := d.dims.getD i ⟨1, 0, 1, 1, 0, 1, false, 1, 1⟩

/-- The logical stored extents. -/
def Desc.exts (d : Desc) (rank : Nat) : List Nat := d.dims.map (Dim.stored rank)

/-- The extents of the value array: the K dimension of a 2:4 tensor holds two rows per group of four (R181). -/
def Desc.valExts (d : Desc) (rank : Nat) : List Nat :=
  if d.sparse then (d.exts rank).modify d.orient (fun k => 2 * ceilDiv k 4) else d.exts rank

/-- The minimum pitch (R179). -/
def Desc.minPitch (d : Desc) (rank : Nat) : Nat :=
  let b := ceilDiv ((d.valExts rank).getLastD 1 * d.ebits) 8
  if d.ebits = 6 then roundup b 3 else b

/-- The row pitch in force. -/
def Desc.pitch (d : Desc) (rank : Nat) : Nat := if d.pitchF = 0 then d.minPitch rank else d.pitchF

/-- The scale-array row pitch (R180). -/
def Desc.scalePitch (d : Desc) (rank : Nat) : Nat := ceilDiv ((d.exts rank).getLastD 1) 32

/-- Product of all but the last. -/
def prodInit (l : List Nat) : Nat := l.dropLast.foldl (· * ·) 1

/-- Row number of local indices in row-major order over all but the innermost dimension. -/
def rowOf (exts idx : List Nat) : Nat := ((exts.zip idx).dropLast).foldl (fun r e => r * e.1 + e.2) 0

/-- Metadata words per stored column (R181). -/
def Desc.metaPer (d : Desc) (rank : Nat) : Nat := ceilDiv ((d.exts rank).getD d.orient 0) 64

/-- Bytes of the value array. -/
def Desc.valueBytes (d : Desc) (rank : Nat) : Nat :=
  let r := prodInit (d.valExts rank)
  if r = 0 ∨ (d.valExts rank).getLastD 0 = 0 then 0 else (r - 1) * d.pitch rank + d.minPitch rank

/-- Bytes of the scale array; none for a tensor without scales. -/
def Desc.scaleBytes (d : Desc) (rank : Nat) : Nat := if d.mx then prodInit (d.exts rank) * d.scalePitch rank else 0

/-- Bytes of the metadata array; none for a tensor that is not compressed. -/
def Desc.metaBytes (d : Desc) (rank : Nat) : Nat :=
  if d.sparse then 8 * d.metaPer rank * (d.exts rank).getD (1 - d.orient) 0 else 0

/-! ## Operands -/

/-- A descriptor with its binding entry, as a command copies them when it starts (R174, R201), in the place of the executing
core and rank; with the map bytes it copied, by address, where it runs on beyond its start. -/
structure Opnd where
  p : Nat
  core : Nat
  rank : Nat
  d : Desc
  bind : Word64
  snap : List (Nat × Nat)
deriving DecidableEq, Repr

/-- The words of descriptor entry `i`. -/
def State.descWords (s : State) (p i : Nat) : List Word64 :=
  (List.range 32).map (fun w => BitVec.ofNat 64 (s.rf (MOV_DESC.D p i w)))

/-- The job rank of a partition. -/
def State.rankOf (s : State) (p : Nat) : Nat := s.rf (MOV_RANK.RANK p)

/-- The operand that descriptor words give. -/
def State.opndOf (s : State) (p c : Nat) (ws : List Word64) (bind : Word64) : Opnd := ⟨p, c, s.rankOf p, descOf ws, bind, []⟩

/-- The operand of descriptor index `i`. -/
def State.opnd (s : State) (p c i : Nat) : Opnd := s.opndOf p c (s.descWords p i) (BitVec.ofNat 64 (s.rf (DSP_OCC.BIND p i)))

/-- Whether a binding is in force. -/
def Opnd.bound (o : Opnd) : Bool := fieldOf o.bind 49 49 == 1

/-- The conditions of R199 on a binding in force. -/
def Opnd.bindOk (o : Opnd) : Bool :=
  !o.bound ||
  (decide (fieldOf o.bind 63 50 = 0) && decide (o.d.ndim = 2) &&
   o.d.dims.all (fun d => (decide (d.kind ≠ 1) || decide (d.blockLen % 64 = 0)) &&
     (decide (d.kind ≠ 2) || decide (64 ≤ d.c)) && (!d.wen || decide (d.worg % 64 = 0))))

/-- The conditions of R176 on dimension values. -/
def Dim.ok (d : Dim) : Bool :=
  decide (d.kind ≠ 3) && (decide (d.kind = 0) || decide (d.rs ≠ 0)) &&
  (decide (d.kind ≠ 2) || (!d.wen && decide (d.c % d.gran = 0))) &&
  (!d.wen || decide (d.gran = 1) || decide (d.worg % d.gran = 0))

/-- The size of the space a descriptor addresses: the data region or the populated tile memory. -/
def State.spaceOf (s : State) (o : Opnd) : Nat := if o.d.tile then 0x1800000 else s.fuse.variant.dataBytes

/-- The conditions of R176 on a descriptor. -/
def State.descOk (s : State) (ws : List Word64) (o : Opnd) : Bool :=
  let d := o.d
  decide (fieldOf (wordAt ws 0) 0 0 = 1) && descReserved ws &&
  (d.index || decide (d.fmt ≤ 9)) && decide (1 ≤ d.ndim) && decide (d.ndim ≤ 8) && d.dims.all Dim.ok &&
  (decide (d.pitchF = 0) || decide (d.minPitch o.rank ≤ d.pitchF)) &&
  (!d.sparse || decide (d.ndim = 2)) && (!d.index || decide (d.ndim = 1)) &&
  decide (d.base + d.valueBytes o.rank ≤ s.spaceOf o) &&
  (!d.mx || decide (d.sbase + d.scaleBytes o.rank ≤ s.spaceOf o)) &&
  (!d.sparse || decide (d.mbase + d.metaBytes o.rank ≤ s.spaceOf o))

/-- The conditions of R176 and R199 that hold of every descriptor a command names. -/
def State.opndOk (s : State) (ws : List Word64) (o : Opnd) : Bool := s.descOk ws o && o.bindOk

/-- Whether descriptor index `i` is permitted and its entry valid (R176). -/
def State.idxOk (s : State) (p c i : Nat) : Bool := decide (i < 4096) && s.opndOk (s.descWords p i) (s.opnd p c i)

/-! ## Coordinates (R511, R182, R183) -/

/-- The mixed-radix coordinates of a flattened row over extents from dimension `ndim − 2` down to 0, given innermost first. -/
def mixed511 : Nat → List Nat → List Nat
  | _, [] => []
  | r, [_] => [r]
  | r, e :: es => (r % e) :: mixed511 (r / e) es

/-- The coordinates of (row, column), outermost first; a 1-D tensor keeps only its column. -/
def Desc.coords (d : Desc) (r c : Nat) : List Nat := (mixed511 r (d.dims.dropLast.reverse.map Dim.ext)).reverse ++ [c]

/-- The flattened row count (R511). -/
def Desc.rows (d : Desc) : Nat := d.dims.dropLast.foldl (fun n x => n * x.ext) 1

/-- The innermost extent. -/
def Desc.cols (d : Desc) : Nat := (d.dims.getLastD ⟨1, 0, 1, 1, 0, 1, false, 1, 1⟩).ext

/-- Whether (row, column) is out of bounds. -/
def Desc.oob (d : Desc) (r c : Nat) : Bool := decide (d.rows ≤ r) || decide (d.cols ≤ c)

/-- The coordinates a read of (row, column) uses: each dimension clamped (R182). -/
def Desc.clamped (d : Desc) (r c : Nat) : List Nat := (d.dims.zip (d.coords r c)).map (fun e => Nat.min e.2 (e.1.ext - 1))

/-- The local indices of coordinates; none when the element is non-local (R184). -/
def Opnd.locals (o : Opnd) (g : List Nat) : Option (List Nat) := (o.d.dims.zip g).mapM (fun e => e.1.local o.rank e.2)

/-! ## Addresses (R178–R181) -/

/-- A base address in the partition address space: tile-memory offsets lie in the executing core's window. -/
def Opnd.abs (o : Opnd) (a : Nat) : Nat := if o.d.tile then tileBase o.core + a else a

/-- The metadata word address and the group within it of local indices. -/
def Opnd.metaAt (o : Opnd) (l : List Nat) : Nat × Nat :=
  let k := l.getD o.d.orient 0
  (o.abs (o.d.mbase + 8 * (l.getD (1 - o.d.orient) 0 * o.d.metaPer o.rank + k / 64)), k % 64 / 4)

/-- The two indices of group `g` of a metadata word. -/
def metaIdx (w g : Nat) : Nat × Nat := (bits w (4 * g) 2, bits w (4 * g + 2) 2)

/-- The bit address of an element of the value array at value-array indices. -/
def Opnd.bitAt (o : Opnd) (l : List Nat) : Nat :=
  o.abs (o.d.base + rowOf (o.d.valExts o.rank) l * o.d.pitch o.rank) * 8 + l.getLastD 0 * o.d.ebits

/-- The scale byte address of an element at logical local indices (R180). -/
def Opnd.scaleAt (o : Opnd) (l : List Nat) : Nat :=
  o.abs (o.d.sbase + rowOf (o.d.exts o.rank) l * o.d.scalePitch o.rank + l.getLastD 0 / 32)

/-- The number at `n` bits from a bit address of partition `p`. -/
def State.readBits (s : State) (p bit n : Nat) : Nat :=
  bits (leNat (s.bytes (memKey p (bit / 8)) (ceilDiv (bit % 8 + n) 8))) (bit % 8) n

/-- The value-array indices of an element: for a 2:4 tensor those the metadata gives, none at a pruned position. -/
def State.valueIdx (s : State) (o : Opnd) (l : List Nat) : Option (List Nat) :=
  if o.d.sparse then
    (let (a, g) := o.metaAt l
     let (i0, i1) := metaIdx (s.readBits o.p (a * 8) 64) g
     let k := l.getD o.d.orient 0
     if i0 = k % 4 then some (l.set o.d.orient (2 * (k / 4)))
     else if i1 = k % 4 then some (l.set o.d.orient (2 * (k / 4) + 1))
     else none)
  else some l

/-! ## Occupancy maps (R200) -/

/-- The byte address and bit of the map bit of an element at logical local indices. A map in tile memory does not leave the core's
window: an offset at or beyond 32 MiB lies in the window's hole, and its access is a bus error (R32; log entry 67 for the address). -/
def Opnd.mapAt (o : Opnd) (l : List Nat) : Nat × Nat :=
  let t := l.getD 0 0 / 64 * ceilDiv ((o.d.exts o.rank).getD 1 0) 64 + l.getD 1 0 / 64
  let b := fieldOf o.bind 47 0 + t / 8
  ((if fieldOf o.bind 48 48 = 1 then tileBase o.core + (if b < 0x2000000 then b else 0x1800000 + b % 0x800000) else b), t % 8)

/-- Whether an element lies in an absent tile: by the copied map byte, where the command copied it (R201). -/
def State.absent (s : State) (o : Opnd) (l : List Nat) : Bool :=
  o.bound && (let (a, b) := o.mapAt l; !bitOf ((o.snap.lookup a).getD (s.byte (memKey o.p a)).toNat) b)

/-- Numbers in ascending order, each once. -/
def ascending (l : List Nat) : List Nat := (l.foldl (fun t b => Tbl.set false t b true) []).map (·.1)

/-- The map bytes that elements need, none where no binding is in force. -/
def Opnd.mapAddrs (o : Opnd) (ls : List (List Nat)) : List Nat :=
  if o.bound then ascending (ls.map (fun l => (o.mapAt l).1)) else []

/-- A copy of those map bytes (R201). -/
def State.mapCopy (s : State) (p : Nat) (as : List Nat) : List (Nat × Nat) := as.map (fun a => (a, (s.byte (memKey p a)).toNat))

/-! ## What an element access touches -/

/-- The byte addresses of `n` bits from a bit address. -/
def spanOf (bit n : Nat) : List Nat := (List.range ((bit % 8 + n + 7) / 8)).map (fun i => bit / 8 + i)

/-- The map byte that reading an element touches, unless it was copied before (R201). -/
def Opnd.mapTouched (o : Opnd) (l : List Nat) : List Nat :=
  if o.bound && (o.snap.lookup (o.mapAt l).1).isNone then [(o.mapAt l).1] else []

/-- The byte addresses that reading an element at logical local indices touches: map byte (unless copied before), metadata
word, value, scale. -/
def State.touched (s : State) (o : Opnd) (l : List Nat) : List Nat :=
  o.mapTouched l ++
  (if s.absent o l then []
   else
    (if o.d.sparse then (List.range 8).map ((o.metaAt l).1 + ·) else []) ++
    (match s.valueIdx o l with
     | some v => spanOf (o.bitAt v) o.d.ebits
     | none => []) ++
    (if o.d.mx then [o.scaleAt l] else []))

/-- R227: in a serving partition every touched byte of the key/value area lies in the sequence slot of the descriptor's
BASE. -/
def State.kvOk (s : State) (o : Opnd) (addrs : List Nat) : Bool :=
  let b := s.rf (DSP_KV_BASE.VALUE o.p)
  let sl := s.rf (DSP_KV_SLOT.VALUE o.p)
  let n := s.rf (DSP_KV_SEQS.VALUE o.p)
  let inArea (a : Nat) := decide (b ≤ a ∧ a < b + n * sl)
  decide (s.rf (DSP_CFG.CLASS o.p) = 0) ||
  addrs.all (fun a => !inArea a || (!o.d.tile && inArea o.d.base && decide ((a - b) / sl = (o.d.base - b) / sl)))

/-- Whether a block can be read (R20, R30–R32) and verifies (R171). -/
def State.goodBlock (s : State) (p a : Nat) : Bool := s.reach p a && s.blockOk p a

/-- A block that cannot be read: the bus error of an access that nothing serves is recorded (R30–R32); one that does not verify is
counted and recorded (R12). -/
def State.badBlock (s : State) (p unit a : Nat) : State := if s.reach p a then s.checkFailRec p unit a else s.busErr p a

/-- Whether a request to an address meets a failed channel (R252). -/
def State.lost (s : State) (p a : Nat) : Bool := decide (s.place p a = .data) && s.chanFailed p a

/-- What the code of tile memory finds in a block that is read (R167): the errors of its words are counted and recorded. Answers
whether a word is uncorrectable. -/
def State.eccBlock (s : State) (p a : Nat) (es : List EccWord) : State × Bool :=
  match s.place p a with
  | .tile c off => (s.tileEcc p c (off / 256 * 256) 256 es, eccBad (off / 256 * 256) 256 es)
  | _ => (s, false)

/-- Read and verify blocks in order. The first that nothing serves is a bus error (R20, R30–R32), an uncorrectable word of tile memory
is fatal (R167), the first block that does not verify is counted and recorded (R12): each fails the command; a failed channel
completes the request ABORTED (R252). `es` are the words in error. Answers the status. -/
def State.verify (s : State) (p unit : Nat) (as : List Nat) (es : List EccWord := []) (handle : Nat := 0) : State × Nat :=
  match as with
  | [] => (s, stOK)
  | a :: as =>
    if !s.reach p a then (s.busErr p a, stCHECKFAIL)
    else if s.lost p a then (s, stABORTED)
    else
      let (s, fatal) := s.eccBlock p a es
      if fatal then (s, stFATAL)
      else if s.blockOk p a then s.verify p unit as es handle
      else (s.checkFailRec p unit a handle, stCHECKFAIL)

/-- The blocks of byte addresses, each once. -/
def blocksOfAddrs (as : List Nat) : List Nat := (as.map (fun a => a / 256 * 256)).eraseDups

/-! ## Reading a region -/

/-- One element as read through an operand: `zero` marks an element of an absent tile. -/
structure Got where
  elem : Elem
  zero : Bool
  clamp : Bool
deriving DecidableEq, Repr

/-- Read the element at logical local indices, the blocks having been verified. -/
def State.getAt (s : State) (o : Opnd) (l : List Nat) : Elem :=
  ⟨(match s.valueIdx o l with
    | some v => s.readBits o.p (o.bitAt v) o.d.ebits
    | none => 0),
   if o.d.mx then (s.byte (memKey o.p (o.scaleAt l))).toNat else 0⟩

/-- The local indices a read of (row, column) uses, and whether it was clamped; none when non-local. -/
def Opnd.readLocals (o : Opnd) (rc : Nat × Nat) : Option (List Nat × Bool) :=
  (o.locals (o.d.clamped rc.1 rc.2)).map (fun l => (l, o.d.oob rc.1 rc.2))

/-- What reading a list of positions answers: a failure with its status (before any access under R184 and R227, or a block
that does not verify), or the elements. -/
inductive ReadAns where
  | fail (s : State) (st : Nat)
  | ok (s : State) (l : List Got)

/-- Whether (row, column) is a missing position of the last block of an MX tensor: it reads as 0 (R58; log entry 68). -/
def Desc.missing (d : Desc) (r c : Nat) : Bool := d.mx && decide (r < d.rows) && decide (d.cols ≤ c) && decide (c < roundup d.cols 32)

/-- Read elements in the order given, with clamping, maps and verification; TLM_CLAMP_RD and DSP_OCC_ZERO count. -/
def State.readList (s : State) (unit : Nat) (o : Opnd) (rcs : List (Nat × Nat)) (es : List EccWord := []) : ReadAns :=
  match rcs.mapM o.readLocals with
  | none => .fail s stCHECKFAIL
  | some ls =>
    let addrs := ls.flatMap (fun l => s.touched o l.1)
    if !s.kvOk o addrs then .fail s stCHECKFAIL
    else
      let (s1, st) := s.verify o.p unit (blocksOfAddrs addrs) es
      if st ≠ 0 then .fail s1 st else
      let gs := (rcs.zip ls).map (fun e =>
        if s.absent o e.2.1 then (⟨⟨0, 0⟩, true, e.2.2⟩ : Got)
        else ⟨if o.d.missing e.1.1 e.1.2 then { s.getAt o e.2.1 with code := 0 } else s.getAt o e.2.1, false, e.2.2⟩)
      let s2 := s1.addf (TLM_CLAMP_RD.ELEMS o.p o.core) (gs.filter Got.clamp).length
      .ok (s2.addf (DSP_OCC_ZERO.COUNT o.p) (gs.filter Got.zero).length) gs

/-- The value of an element in its storage format, scale included. -/
def Desc.value (d : Desc) (e : Elem) : Val := (decodeFmt d.fmt e.code).scaled d.fmt e.scale

/-- The positions of a region, row by row. -/
def region (r0 c0 nr nc : Nat) : List (Nat × Nat) :=
  (List.range nr).flatMap (fun i => (List.range nc).map (fun j => (r0 + i, c0 + j)))

/-! ## Assembling writes -/

/-- Blocks to write by block number: the mask of covered bits and the bits, as 2048-bit numbers. -/
abbrev WriteSet := Tbl (Nat × Nat)

/-- Put `n` bits at a bit address that lie in one block; a later write replaces an earlier one. -/
def WriteSet.put1 (t : WriteSet) (bit n v : Nat) : WriteSet :=
  let m := (2 ^ n - 1) * 2 ^ (bit % 2048)
  t.upd (0, 0) (bit / 2048) (fun x => (Nat.lor x.1 m, Nat.lor (Nat.xor x.2 (Nat.land x.2 m)) (v % 2 ^ n * 2 ^ (bit % 2048))))

/-- Put `n` bits at a bit address, across a block boundary if need be. -/
def WriteSet.put (t : WriteSet) (bit n v : Nat) : WriteSet :=
  let k := 2048 - bit % 2048
  if n ≤ k then t.put1 bit n v else (t.put1 bit k v).put1 (bit + k) (n - k) (v / 2 ^ k)

/-- The blocks a write set covers only in part; they are read, verified and merged (R172). -/
def WriteSet.partials (t : WriteSet) : List Nat := (t.filter (fun e => decide (e.2.1 ≠ 2 ^ 2048 - 1))).map (fun e => e.1 * 256)

/-- Write the assembled blocks with newly generated check words (R170); the partly covered ones merge. Answers whether every
write was performed (R510). -/
def State.writeSet (s : State) (p : Nat) : WriteSet → State × Bool
  | [] => (s, true)
  | (b, cov, v) :: t =>
    let old := leNat (s.block p (b * 256))
    let bs := leBytes 256 (Nat.lor (Nat.xor old (Nat.land old cov)) v)
    let (s1, ok1) := s.writeBlock p (b * 256) bs (checkWord bs)
    let (s2, ok2) := s1.writeSet p t
    (s2, ok1 && ok2)

/-- Where an element to be written goes. -/
inductive Dest where
  | oob
  | nonlocal
  | pruned
  | at (bit scale : Nat)
deriving DecidableEq, Repr

/-- The destination of (row, column) (R183, R184, R512). -/
def State.destOf (s : State) (o : Opnd) (r c : Nat) : Dest :=
  if o.d.oob r c then .oob
  else match o.locals (o.d.coords r c) with
  | none => .nonlocal
  | some l => match s.valueIdx o l with
    | none => .pruned
    | some v => .at (o.bitAt v) (o.scaleAt l)

/-- Whether the metadata group of an element obeys R102. -/
def State.metaOk (s : State) (o : Opnd) (r c : Nat) : Bool :=
  !o.d.sparse || o.d.oob r c ||
  match o.locals (o.d.coords r c) with
  | none => true
  | some l =>
    let (a, g) := o.metaAt l
    let (i0, i1) := metaIdx (s.readBits o.p (a * 8) 64) g
    decide (i0 < i1)

/-- The metadata words a write of (row, column) reads (R512). -/
def Opnd.metaAddrs (o : Opnd) (r c : Nat) : List Nat :=
  if o.d.sparse && !o.d.oob r c then
    (match o.locals (o.d.coords r c) with
     | none => []
     | some l => (List.range 8).map ((o.metaAt l).1 + ·))
  else []

/-- An element to write: its logical position, its code and the scale byte of its block. -/
structure Put where
  r : Nat
  c : Nat
  elem : Elem
  nonzero : Bool
deriving DecidableEq, Repr

/-- A write assembled and checked: the blocks, the counts of suppressed and pruned elements. -/
structure Built where
  t : WriteSet
  oob : Nat
  pruned : Nat
deriving DecidableEq, Repr

/-- The bits of a stored row that lie behind the last element of an MX tensor: its missing positions, which are written as 0 (R58,
R65; log entry 68). Answers their bit address and number. -/
def Opnd.fill (o : Opnd) (c b : Nat) : Nat × Nat :=
  let n := (o.d.valExts o.rank).getLastD 0
  if o.d.mx ∧ c + 1 = o.d.cols ∧ !o.d.sparse then (b + o.d.ebits, 8 * o.d.minPitch o.rank - n * o.d.ebits) else (b, 0)

/-- Add one element to a write. The scale byte of an MX element is written with it, and the missing positions behind the last. -/
def State.build1 (s : State) (o : Opnd) (x : Built) (e : Put) : Built :=
  match s.destOf o e.r e.c with
  | .oob => { x with oob := x.oob + 1 }
  | .nonlocal => x
  | .pruned => { x with pruned := x.pruned + bit e.nonzero }
  | .at b sc =>
    let t := x.t.put b o.d.ebits e.elem.code
    let t := if (o.fill e.c b).2 = 0 then t else t.put (o.fill e.c b).1 (o.fill e.c b).2 0
    { x with t := if o.d.mx then t.put (sc * 8) 8 e.elem.scale else t }

/-- What building a write answers: a failure with its status, or the assembled blocks. -/
inductive BuildAns where
  | fail (s : State) (st : Nat)
  | ok (s : State) (x : Built)

/-- Check and assemble a write of elements through an operand: non-local elements and metadata that breaks R102 fail it
before any access, and every block it reads (metadata, partly covered destinations) is verified. Nothing is written yet;
TLM_OOB_WR and TLM_PRUNED are counted. -/
def State.build (s : State) (unit : Nat) (o : Opnd) (es : List Put) (ecc : List EccWord := []) : BuildAns :=
  if es.any (fun e => decide (s.destOf o e.r e.c = .nonlocal)) then .fail s stCHECKFAIL
  else
    let metas := es.flatMap (fun e => o.metaAddrs e.r e.c)
    let x := es.foldl (s.build1 o) ⟨[], 0, 0⟩
    if !s.kvOk o (metas ++ es.flatMap (fun e => match s.destOf o e.r e.c with
        | .at b sc => spanOf b o.d.ebits ++ (if o.d.mx then [sc] else [])
        | _ => [])) then .fail s stCHECKFAIL
    else
      let (s1, st1) := s.verify o.p unit (blocksOfAddrs metas) ecc
      if st1 ≠ 0 then .fail s1 st1
      else if es.any (fun e => !s.metaOk o e.r e.c) then .fail s stCHECKFAIL
      else
        let (s2, st2) := s1.verify o.p unit x.t.partials ecc
        if st2 ≠ 0 then .fail s2 st2
        else match x.t.find? (fun e => !s.reach o.p (e.1 * 256)) with
        | some e => .fail (s2.busErr o.p (e.1 * 256)) stCHECKFAIL
        | none =>
        if x.t.any (fun e => s.lost o.p (e.1 * 256)) then .fail s2 stABORTED
        else .ok ((s2.addf (TLM_OOB_WR.ELEMS o.p o.core) x.oob).addf (TLM_PRUNED.ELEMS o.p o.core) x.pruned) x

end Sys2Proof.Machine
end

