-- ==== Sys2Proof/Machine/Reset.lean ====
section
/-!
DEFINITION. Partition resets (R45–R51, R388–R397): the request and its merging, the stages and their work, CONFIG with the
core map, quotas and configuration registers, the watchdogs and the escalation to a cold reset and a module power cycle;
and the clock enables (R484).
-/
namespace Sys2Proof.Machine

/-! ## CONFIG (R25, R27, R42, R51) -/

/-- The physical cores enabled at start: the fuse mask without the retired cores (R25), ascending. -/
def State.enabledCores (s : State) (p : Nat) : List Nat :=
  (List.range 8).filter (fun c => bitOf (s.goodMask p) c && !bitOf (s.log.retiredCores.get 0 p) c)

/-- The core map: physical core of logical core `l` in three bits from 3 `l` (PRT_CORES.MAP). -/
def packMap : List Nat → Nat
  | [] => 0
  | c :: cs => c + 8 * packMap cs

/-- The quota the configuration record gives a partition (R42). -/
def State.quotaOf (s : State) (p : Nat) : Nat :=
  match s.cfg.quota.find? (fun e => e.1 == p) with
  | some e => e.2
  | none => 16128

/-- Whether a partition owns a pseudo-channel of a failed channel (R252). -/
def State.ownsFailed (s : State) (p : Nat) : Bool :=
  (List.range s.fuse.variant.chans).any (fun i => let (st, ch, _) := s.chanOf p i; (s.getChan st ch).st == 3)

/-- Whether Bedrock holds a partition in OFF: a failed channel (R252), a die suspect twice (R394), maintenance (R470). Which cause
shows when several reasons hold (MAINT, then SUSPECT, then CHANNEL) is the model's choice (log entry 65). -/
def State.heldOff (s : State) (p : Nat) : Option Nat :=
  if s.boot = .maint then some 10
  else if 2 ≤ s.log.suspect.get 0 p then some 8
  else if s.ownsFailed p then some 7
  else none

/-- The contexts granted to partitions below `p`, ascending: a quota that would pass 258,048 is granted nothing (R42), nor
is a partition held in OFF (log entry 61). The quota of a partition that ends OFFLINE for CORES or ISOLATION counts in the total: the
model's choice (log entry 65). -/
def State.grantedBelow (s : State) : Nat → Nat
  | 0 => 0
  | p + 1 =>
    let g := s.grantedBelow p
    if (s.heldOff p).isNone ∧ g + s.quotaOf p ≤ 258048 then g + s.quotaOf p else g

/-- The RATE of a port the configuration record gives (chapter 8): MEMORY_PORT_RATES, else the preset. -/
def State.rateOf (s : State) (p port : Nat) : Nat :=
  match s.cfg.memPortRates.find? (fun e => e.1 == p) with
  | some e => e.2.getD port 0
  | none => if s.cfg.memRegulation = 0 then 0 else if port = 4 then 18 else 48

/-- The sum of the five RATE values of a partition: a rate above 256 is not taken, and RATE keeps its reset value 0 (MEM_REG). -/
def State.rateSum (s : State) (p : Nat) : Nat := ((List.range 5).map (fun k => if s.rateOf p k ≤ 256 then s.rateOf p k else 0)).sum

/-- The other partitions on shared channels of partition `p`. -/
def State.sharers (s : State) (p : Nat) : List Nat :=
  ((List.range s.fuse.variant.chans).map (s.partner p)).filter (· != p) |>.eraseDups

/-- Whether MEMORY_ISOLATION is in force for a partition (R431). -/
def State.isolated (s : State) (p : Nat) : Bool := s.cfg.memIsolation && !(s.sharers p).isEmpty

/-- Why a partition that finished CONFIG is OFFLINE, if it is (R27, R42, R431). Which cause shows when several reasons hold (CORES,
then QUOTA, then ISOLATION) is the model's choice (log entry 65). -/
def State.offlineCause (s : State) (p : Nat) : Option Nat :=
  if (s.enabledCores p).length < 7 then some 5
  else if 258048 < s.grantedBelow p + s.quotaOf p then some 6
  else if s.isolated p ∧ (s.sharers p).any (fun q => decide (115 < s.rateSum p + s.rateSum q)) then some 9
  else none

/-- Write the configuration registers of the cores `0` to `n - 1` from the record. -/
def State.configCores (s : State) (p : Nat) : Nat → State
  | 0 => s
  | c + 1 =>
    let s := s.configCores p c
    let s := ((s.wf (GRN_CFG.GATE_EN p c) (bit s.cfg.garnetGating)).wf (GRN_CFG.FAST_EN p c) (bit s.cfg.garnetFast)).wf
      (GRN_CFG.IDLE_OFF p c) s.cfg.garnetIdleOff
    s.wf (MCA_CFG.IDLE_OFF p c) s.cfg.micaIdleOff

/-- Bedrock writes a configuration field with a value of the record; a value outside those its register map permits is ignored. -/
def State.cfgField (s : State) (f : Fld) (lo hi v : Nat) : State := if lo ≤ v ∧ v ≤ hi then s.wf f v else s

/-- Write the regulators of the owned pseudo-channels `0` to `n - 1`; SCRUB_H takes 1 to 255 and RATE 0 to 256 (MEM_CFG, MEM_REG). -/
def State.configChans (s : State) (p : Nat) : Nat → State
  | 0 => s
  | i + 1 =>
    let s := (s.configChans p i).cfgField (MEM_CFG.SCRUB_H p i) 1 255 s.cfg.scrubHours
    (List.range 5).foldl (fun s k =>
      ((s.cfgField (MEM_REG.RATE p i k) 0 256 (s.rateOf p k)).wf (MEM_REG.BURST p i k) 64).wf (MEM_REG.LIMIT p i k) (bit (s.isolated p))) s

/-- The clock enables the record gives a partition; all of them where it gives none (log entry 14). -/
def State.enablesOf (s : State) (p : Nat) : Nat :=
  match s.cfg.clkEn.find? (fun e => e.1 == p) with
  | some e => e.2
  | none => 0x11BF

/-- Write the nine clock enables. -/
def State.setEnables (s : State) (p m : Nat) : State :=
  let b (i : Nat) := bit (bitOf m i)
  let s := ((s.wf (PRT_CLK_EN.GRN p) (b 0)).wf (PRT_CLK_EN.MCA p) (b 1)).wf (PRT_CLK_EN.FLT p) (b 2)
  let s := ((s.wf (PRT_CLK_EN.TLM p) (b 3)).wf (PRT_CLK_EN.MOV p) (b 4)).wf (PRT_CLK_EN.MEM p) (b 5)
  ((s.wf (PRT_CLK_EN.STR p) (b 7)).wf (PRT_CLK_EN.ASY p) (b 8)).wf (PRT_CLK_EN.DSP p) (b 12)

/-- The work of CONFIG (R25, R42, R51): core map, memory extent, quota and every block's configuration registers, then the
record's clock enables, then LOCK. -/
def State.configure (s : State) (p : Nat) : State :=
  let v := s.fuse.variant
  let cs := s.enabledCores p
  let s := (((s.wf (PRT_CORES.LCORES p) cs.length).wf (PRT_CORES.MAP p) (packMap cs)).wf
    (PRT_CORES.RETIRED p) (s.log.retiredCores.get 0 p)).wf (PRT_ID.GCLASS p) (bit (decide (cs.length = 7)))
  let s := (s.wf (PRT_ID.CELL p) s.cfg.cell).wf (PRT_ID.POS p) s.cfg.pos
  let s := ((s.wf (PRT_MEM.PC_BASE p) (p * v.chans)).wf (PRT_MEM.PC_COUNT p) v.chans).wf
    (PRT_MEM.DATA_MIB p) (v.dataBytes / 0x100000)
  let s := s.setEnables p 0x11BF
  let s := (s.configCores p cs.length).configChans p v.chans
  let s := s.cfgField (MOV_CFG.QCHAN p) 1 32 s.cfg.moverChannels
  let s := (s.wf (COL_CFG.FAST_EN p) (bit s.cfg.collectiveFast)).cfgField (COL_CFG.QCHAN p) 1 32 s.cfg.collectiveChannels
  let s := ((s.wf (DSP_CFG.FAST_EN p) (bit s.cfg.dispatchFast)).wf (DSP_CFG.CLASS p) (bit s.cfg.serving)).cfgField
    (DSP_CFG.QCHAN p) 1 32 s.cfg.dispatchChannels
  let s := ((s.wf (DSP_KV_BASE.VALUE p) s.cfg.kvBase).wf (DSP_KV_SLOT.VALUE p) (262144 * s.cfg.kvTokenBytes)).wf
    (DSP_KV_SEQS.VALUE p) s.cfg.kvSeqs
  let s := ((s.wf (STR_CFG.MIRROR_EN p) (bit s.cfg.strataMirror)).wf (STR_CFG.NARROW p) (bit s.cfg.ckptNarrow)).wf
    (STR_CFG.ONCE_EN p) (bit s.cfg.ckptOnce)
  let s := ((s.wf (PRT_WDT_CFG.ENG_MS p) s.cfg.engineMs).wf (PRT_WDT_CFG.FLT_MS p) s.cfg.flintMs).wf
    (PRT_WDT_CFG.STEP_S p) s.cfg.stepS
  let s := if s.offlineCause p = some 6 then s else s.wf (PRT_CTX.QUOTA p) (s.quotaOf p)
  (s.setEnables p (s.enablesOf p)).wf (PRT_CTRL.LOCK p) 1

/-! ## The work of the other stages (R390, R397) -/

/-- QUIESCE: engines and Flints stopped, open handles completed, queued requests discarded (R49). -/
def State.quiesce (s : State) (p : Nat) : State :=
  let s := s.stopPartition p
  (List.range s.fuse.variant.chans).foldl (fun s i => s.setPc p i { s.getPc p i with reqs := [] }) s

/-- The offset in the register region of a field's cell of partition `p`, if it belongs to `p`. -/
def cellOff (p cell : Nat) : Option Nat :=
  let k := cell / 64
  if regKey p 0 ≤ k ∧ k < regKey p 0x0C000000 then some (k - regKey p 0) else none

/-- Register fields that a partition reset leaves as they are (R397, R405): the PRT_ registers but for lock, enables,
contexts and the bus error; failed channels, repaired lanes and temperatures; the outcome of the last field test, which ends
with a reset (R335); that a dispatch round failed, until software clears it (R224; log entry 85); under WARM also what describes the held mirror and the replay ring, whose contents are kept. -/
def keptField (retenant : Bool) (off lo : Nat) : Bool :=
  if off < 0x01000000 then !([0x20, 0x28, 0x38, 0x40, 0x48].contains off)
  else if 0x06000000 ≤ off ∧ off < 0x07000000 then
    (let r := off % 0x1000
     (r == 0x88 && lo == 24) || r == 0x90)
  else if off = 0x09000028 then lo == 4 || lo == 7
  else if off = 0x0B000130 then [1, 3, 8, 16].contains lo
  else if 0x0A000000 ≤ off ∧ off < 0x0B000000 then
    (let r := off % 0x1000000
     !retenant && ((r == 0x08 && (lo == 4 || lo == 6)) || [0x18, 0x30, 0x38, 0x70].contains r))
  else false

/-- CLEAR: the zeroing, freeing and revoking of R45 and R397. -/
def State.clearPartition (s : State) (p : Nat) (retenant : Bool) : State :=
  let s := (s.colQueues p).foldl (fun s q => s.colClose p q) s
  let s := (s.freeCtxs (s.ctxsOf p)).wf (HST_QSTAT.OPEN p) 0
  let x := s.getStrata p
  { s with
    flds := s.flds.drop (fun c => match cellOff p c with
      | some off => !keptField retenant off (c % 64)
      | none => false)
    mem := Tbl.drop (fun k => decide (memKey p 0xF00000000000 ≤ k ∧ k < memKey p regBase)) s.mem
    tileChk := s.tileChk.drop (fun k => k / 2 ^ 40 == p)
    acc := s.acc.drop (fun k => k / 2 ^ 20 == p)
    treg := s.treg.drop (fun k => k / 2 ^ 19 == p)
    loaded := s.loaded.drop (fun k => k / 32 == p)
    garnet := s.garnet.drop (fun k => k / 8 == p)
    stage := s.stage.drop (fun k => k / 8 == p)
    flint := s.flint.drop (fun k => k / 8 == p)
    queue := s.queue.drop (fun k => k / 24 == p)
    handles := s.handles.filter (fun e => match e.2 with | some h => h.fn != p | none => true)
    mover := s.mover.drop (· == p)
    disp := s.disp.drop (· == p)
    park := s.park.drop (· == p)
    colq := s.colq.drop (fun k => k / 256 == p)
    assay := s.assay.set {} p (if retenant then {}
      else { tags := (s.getAssay p).tags, step := (s.getAssay p).step, attempt := (s.getAssay p).attempt, redo := (s.getAssay p).redo })
    strata := s.strata.set {} p (if retenant then {} else { slot0 := x.slot0, slot1 := x.slot1, values := x.values, rewind := x.rewind })
    pc := (s.pc.map (fun e => if e.1 / 80 = p
      then (e.1, { e.2 with reqs := [], corrected := [] }) else e)).filter (fun e => decide (e.2 ≠ {})) }

/-- One ZERO stage: 256 MiB of every owned pseudo-channel are written 0, check words included (R46, R390). -/
def State.zeroStage (s : State) (p k : Nat) : State :=
  { s with
    mem := Tbl.drop (fun key => decide (memKey p 0 ≤ key ∧ key < memKey p s.fuse.variant.stackedBytes) &&
      (s.pcOf (key - memKey p 0)).2 / 0x10000000 == k) s.mem
    pc := (s.pc.map (fun e => if e.1 / 80 = p
      then (e.1, { e.2 with bad := e.2.bad.filter (fun b => b * 64 / 0x10000000 != k) }) else e)).filter
        (fun e => decide (e.2 ≠ {})) }

/-- Draw a memory key (R413), which its place among the draws stands for; refused after a health failure of the entropy source (R412). -/
def State.drawKey (s : State) (p : Nat) : Option State :=
  if s.rf BDR_SEC.DRBG_OK = 1 then
    some ({ s with drbgReqs := s.drbgReqs + 1, freeCtr := s.freeCtr + 1, mkey := s.mkey.set 0 p s.freeCtr }.inc (BDR_PSEC.KEYGEN p))
  else none

/-- A RETENANT reset ends the claim and everything provisioned under it (R411, R418). -/
def State.endClaim (s : State) (p : Nat) : State :=
  (((s.setTen p {}).setMember p {}).wf (BDR_PSEC.CLAIMED p) 0).wf (BDR_PSEC.PROVISIONED p) 0

/-! ## The sequence -/

/-- Enter a stage. -/
def State.enterStage (s : State) (p : Nat) (r : ResetRun) (stage : Nat) : State :=
  (s.setReset p (some { r with stage := stage })).wf (PRT_RST_LOG.STAGE p) stage

/-- The request of HST_MREQ with number `k` is done (R452): partition for a reset, partition plus 16 for a field test. -/
def State.mgmtDone (s : State) (k : Nat) : State :=
  if s.mreq = some k then ({ s with mreq := none }.wf HST_MREQ_STAT.BUSY 0).wf HST_MREQ_STAT.RESULT 1 else s

/-- A running field test ends with result ABORTED (R336); it has retired no unit. -/
def State.endFieldTest (s : State) (p : Nat) : State :=
  let x := s.getFt p
  if x.running then
    let s := ((s.setFt p { x with running := false }).wf (ASY_FT.BUSY p) 0).wf (ASY_FT.RESULT p) 3
    (((s.wf (ASY_FT.PHASE p) 0).wf (ASY_FT.CORES p) 0).wf (ASY_FT.CHANS p) 0).mgmtDone (p + 16)
  else s

/-- Start a partition reset of a kind with a cause (R388, R390). -/
def State.beginReset (s : State) (p kind cause : Nat) : State :=
  let s := s.startWave p waveRESET s.bedrockUnit
  let s := s.endFieldTest p
  let s := s.setReset p (some ⟨kind, 0, false, false, false, false⟩)
  let s := (s.wf (PRT_STATE.STATE p) psRESET).wf (PRT_STATE.CAUSE p) cause
  let s := ((s.wf (PRT_RST_LOG.KIND p) kind).wf (PRT_RST_LOG.STAGE p) 0).wf (PRT_RST_LOG.ESC p) 0
  s.inc (PRT_RST_LOG.RESETS p)

/-- A reset request: merged into one in progress, an escalation too (R48, R396), and without effect on a partition in OFF (R43). A
merge that makes a WARM reset RETENANT makes CAUSE 2, whatever it showed; any other merge leaves CAUSE. No request shows CAUSE 4
(abort). Both are the model's choice (log entry 66). -/
def State.resetRequest (s : State) (p kind : Nat) : State :=
  if s.pstate p = psOFF then s
  else match s.getReset p with
  | some r =>
    if r.kind < kind then
      ((s.setReset p (some { r with kind := kind })).wf (PRT_RST_LOG.KIND p) kind).wf (PRT_STATE.CAUSE p) kind
    else s
  | none => s.beginReset p kind kind

/-- Begin ZERO1 with a new memory key (R390, R413); without a key the stage cannot begin. -/
def State.enterZero (s : State) (p : Nat) (r : ResetRun) : State :=
  match s.drawKey p with
  | none => s
  | some s => ((s.endClaim p).enterStage p r 2).wf (PRT_STATE.STATE p) psRESET

/-- Begin CONFIG. -/
def State.enterConfig (s : State) (p : Nat) (r : ResetRun) : State :=
  (s.enterStage p r 6).wf (PRT_STATE.STATE p) psCONFIG

/-- The reset ends: OFF or OFFLINE with its cause, or READY; a suspect die is field-tested first at module start (R44,
R394). -/
def State.finishReset (s : State) (p : Nat) (r : ResetRun) : State :=
  let s := ((s.configure p).setReset p none).mgmtDone p
  let s := s.setTen p { s.getTen p with lastRetenant := r.kind == 2, claimedSinceReset := false }
  match s.heldOff p with
  | some c => (s.wf (PRT_STATE.STATE p) psOFF).wf (PRT_STATE.CAUSE p) c
  | none =>
    match s.offlineCause p with
    | some c => (s.wf (PRT_STATE.STATE p) psOFFLINE).wf (PRT_STATE.CAUSE p) c
    | none =>
      if s.rf (PRT_STATE.CAUSE p) = 0 ∧ s.log.suspect.get 0 p = 1 then
        (s.setFt p { running := true }).wf (ASY_FT.BUSY p) 1
      else s.wf (PRT_STATE.STATE p) psREADY

/-- The stage in progress completes and the next begins (R390). A RETENANT merged in after the CLEAR of a WARM reset clears what a
RETENANT reset clears and zeroes, before CONFIG takes effect (R48, R397). -/
def State.stageDone (s : State) (p : Nat) : State :=
  match s.getReset p with
  | none => s
  | some r =>
    if r.cold ∨ r.powerCycle then s
    else match r.stage with
    | 0 => (s.quiesce p).enterStage p r 1
    | 1 =>
      let s := s.clearPartition p (r.kind == 2)
      if r.kind = 2 then s.enterZero p r else s.enterConfig p r
    | 2 => (s.zeroStage p 0).enterStage p r 3
    | 3 => (s.zeroStage p 1).enterStage p r 4
    | 4 => (s.zeroStage p 2).enterStage p r 5
    | 5 => (s.zeroStage p 3).enterConfig p { r with zeroed := true }
    | _ => if r.kind = 2 ∧ !r.zeroed then (s.clearPartition p true).enterZero p r else s.finishReset p r

/-! ## Escalation (R391–R396) -/

/-- Record a watchdog expiry in PRT_WDT_STAT. -/
def State.wdtStat (s : State) (p kind unit : Nat) : State :=
  ((s.wf (PRT_WDT_STAT.LAST p) kind).wf (PRT_WDT_STAT.UNIT p) unit).inc (PRT_WDT_STAT.COUNT p)

/-- Request a module power cycle from the board management controller (R393, R455). -/
def State.askPowerCycle (s : State) : State := { s with pwrCycle := true }.platform .powerCycle

/-- Every job with a partition on this module aborts with cause FAULT (R393). -/
def State.abortJobs (s : State) (unit : Nat) : State :=
  (List.range 16).foldl (fun s p => s.startWave p waveFAULT unit) s

/-- The escalation of partition `p` reaches the module (R393): FATAL 0x94, every job aborts, records are flushed, the die is
suspect and a power cycle is requested. -/
def State.escalate (s : State) (p : Nat) (r : ResetRun) : State :=
  let s := s.raise { unit := s.bedrockUnit, cls := .fatal, code := 0x94, part := none, synd := [(p, 1)] }
  let s := (s.abortJobs s.bedrockUnit).flushRecords
  let s := s.logState { s.log with suspect := s.log.suspect.set 0 p (s.log.suspect.get 0 p + 1) }
  let s := (s.wf (PRT_RST_LOG.SUSPECT p) 1).wf (PRT_RST_LOG.ESC p) 2
  (s.setReset p (some { r with powerCycle := true })).askPowerCycle

/-- The ticks of the die wakes within the last 100 µs (R486). -/
def State.recentWakes (s : State) : List Nat := s.gov.wakes.filter (fun t => decide (s.now < t + 10000))

/-- Ask the governor for a wake slot of compute die `d`; a request that cannot be granted at once is counted (R486, R487). -/
def State.askDie (s : State) (d : Nat) : State :=
  let n := s.recentWakes.length + s.gov.dieWaiting.length
  let s := { s with gov := { s.gov with dieWaiting := s.gov.dieWaiting ++ [(d, s.gov.slots)], awake := s.gov.awake.filter (· != d) } }
  if 2 ≤ n then s.inc PWR_DELAY.DIE else s

/-- The stage watchdog expires (R391). -/
def State.stageExpired (s : State) (p : Nat) : State :=
  match s.getReset p with
  | none => s
  | some r =>
    if r.cold ∨ r.powerCycle then s
    else
      let s := s.wdtStat p 4 s.bedrockUnit
      let s := s.raise { unit := s.bedrockUnit, cls := .perm, code := 0x93, part := none, synd := [(p, 1), (r.stage, 1)] }
      if r.escalated then s.escalate p r
      else
        let s := s.setReset p (some { r with cold := true, escalated := true })
        let s := ((s.wf (PRT_RST_LOG.ESC p) 1).inc (PRT_RST_LOG.COLD p)).wf (PRT_STATE.CAUSE p) 3
        s.askDie p

/-- The cold reset completes, its die awake again, and the reset resumes at CLEAR with the kind it had (R391, R392). -/
def State.coldDone (s : State) (p : Nat) : State :=
  match s.getReset p with
  | none => s
  | some r => if r.cold ∧ !r.powerCycle ∧ s.gov.awake.contains p then s.enterStage p { r with cold := false } 1 else s

/-- The cold-reset watchdog expires (R393). -/
def State.coldExpired (s : State) (p : Nat) : State :=
  match s.getReset p with
  | none => s
  | some r => if r.cold ∧ !r.powerCycle then (s.wdtStat p 5 s.bedrockUnit).escalate p r else s

/-! ## Module start (R43, R249, R397) -/

/-- Whether every stack channel has ended its training. -/
def State.trained (s : State) : Bool :=
  (List.range (32 * s.fuse.variant.stacks)).all (fun k => (s.getChan (k / 32) (k % 32)).st != 0)

/-- A partition leaves OFF at module start: once its die is awake and the stacks are trained, its first reset begins, a RETENANT one
with cause power-on; one that Bedrock holds in OFF shows why. -/
def State.leaveOff (s : State) (p : Nat) : State :=
  if s.boot ≠ .running ∨ s.pstate p ≠ psOFF ∨ (s.getReset p).isSome then s
  else match s.heldOff p with
  | some c => s.wf (PRT_STATE.CAUSE p) c
  | none =>
    if s.gov.awake.contains p ∧ s.trained then
      ((s.setReset p (some ⟨2, 0, false, false, false, false⟩)).wf (PRT_STATE.STATE p) psRESET).wf (PRT_RST_LOG.KIND p) 2
    else s

/-- Every partition that can leaves OFF. -/
def State.leaveOffs (s : State) : State := (List.range 16).foldl State.leaveOff s

/-! ## Clock enables (R484) -/

/-- The blocks of a partition that hold queued or running work, as a mask of PRT_CLK_EN bits. Tile memory counts as at work
while any command of a core is queued (log entry 16). -/
def State.busyBlocks (s : State) (p : Nat) : Nat :=
  let cores := List.range (s.lcores p)
  let q (e : Nat) := cores.any (fun c => !(s.getQueue p c e).entries.isEmpty)
  let m := s.getMover p
  let mov := q 2 || !m.copies.isEmpty || !m.waiting.isEmpty || !m.chans.isEmpty
  let st := s.getStrata p
  let asy := s.getAssay p
  bit (q 0) + bit (q 1) * 2 + bit (cores.any (fun c => s.rf (FLT_CTRL.RUN p c) == 1)) * 2 ^ 2 +
  bit (q 0 || q 1 || mov) * 2 ^ 3 + bit mov * 2 ^ 4 +
  bit ((List.range s.fuse.variant.chans).any (fun i => !(s.getPc p i).reqs.isEmpty)) * 2 ^ 5 +
  bit ((1 < st.phase && decide (st.phase < 7)) || st.snapReq || st.snapDue || st.snapRun || st.suspReq || st.suspRun || st.replay.isSome) * 2 ^ 7 +
  bit (asy.tagR.isSome || asy.tagU.isSome) * 2 ^ 8 +
  bit (s.rf (DSP_STATUS.SEND_OPEN p) + s.rf (DSP_STATUS.RECV_OPEN p) + s.rf (DSP_STATUS.RET_OPEN p) != 0) * 2 ^ 12

/-- The value of PRT_CLK_EN. -/
def State.enables (s : State) (p : Nat) : Nat :=
  s.rf (PRT_CLK_EN.GRN p) + s.rf (PRT_CLK_EN.MCA p) * 2 + s.rf (PRT_CLK_EN.FLT p) * 2 ^ 2 + s.rf (PRT_CLK_EN.TLM p) * 2 ^ 3 +
  s.rf (PRT_CLK_EN.MOV p) * 2 ^ 4 + s.rf (PRT_CLK_EN.MEM p) * 2 ^ 5 + s.rf (PRT_CLK_EN.STR p) * 2 ^ 7 +
  s.rf (PRT_CLK_EN.ASY p) * 2 ^ 8 + s.rf (PRT_CLK_EN.DSP p) * 2 ^ 12

/-- Whether enable bit `i` after a write of `v` that covers `mask`: locked RWL bits and enables of busy blocks stay. -/
def enableBit (locked : Bool) (old busy v mask i : Nat) : Bool :=
  let o := bitOf old i
  let n := bitOf v i
  if !bitOf mask i then o
  else if locked && [2, 5, 8].contains i then o
  else if o && !n && bitOf busy i then true
  else n

/-- A write to PRT_CLK_EN (R484, R513); answers whether it draws a bus error. -/
def State.writeEnables (s : State) (p v mask : Nat) : State × Bool :=
  let locked := s.rf (PRT_CTRL.LOCK p) == 1
  let old := s.enables p
  let busy := s.busyBlocks p
  let bitsOf := [0, 1, 2, 3, 4, 5, 7, 8, 12]
  let new := (bitsOf.map (fun i => bit (enableBit locked old busy v mask i) * 2 ^ i)).sum
  (s.setEnables p new, bitsOf.any (fun i => bitOf mask i && bitOf v i != bitOf new i))

/-! ## Meanings -/

/-- Guard of a command about partition `p`. -/
def onPart (p : Nat) (s : State) : Answer := if p < 16 then .next s else .fault .noSuchUnit

/-- Guard of a command about logical core `c` of partition `p` (R33). -/
def onCore (s0 : State) (p c : Nat) (s : State) : Answer :=
  if p < 16 ∧ c < s0.lcores p then .next s else .fault .noSuchUnit

/-- CLOCK_ENABLE_WRITE (R484): from a Flint of the partition or from Bedrock; no PCIe function reaches the register (R34). -/
def execClockEnableWrite (a : Agent) (p : Nat) (v : Word64) (s : State) : Answer :=
  onPart p (if a = .pf16 then s
    else
      let (s1, e) := s.writeEnables p v.toNat (2 ^ 64 - 1)
      s1.busErrIf e p (regBase + 0x28))

/-- PARTITION_RESET_WARM (R46, R48, R388): through PRT_RESET KIND 1 or from Bedrock. -/
def execPartitionResetWarm (a : Agent) (p : Nat) (s : State) : Answer :=
  onPart p (if a = .pf16 then s else s.resetRequest p 1)

/-- PARTITION_RESET_RETENANT (R46, R48): from Bedrock; from a Flint it is ignored and answered with a bus error (PRT_RESET). -/
def execPartitionResetRetenant (a : Agent) (p : Nat) (s : State) : Answer :=
  onPart p (match a with
    | .pf16 => s
    | .flint _ => s.busErr p (regBase + 0x30)
    | .bedrock => s.resetRequest p 2)

/-- RESET_STAGE_DONE (R390). -/
def execResetStageDone (p : Nat) (s : State) : Answer := onPart p (s.stageDone p)

/-- RESET_STAGE_WATCHDOG (R391). -/
def execResetStageWatchdog (p : Nat) (s : State) : Answer := onPart p (s.stageExpired p)

/-- COLD_RESET_DONE (R392). -/
def execColdResetDone (p : Nat) (s : State) : Answer := onPart p (s.coldDone p)

/-- COLD_RESET_WATCHDOG (R393). -/
def execColdResetWatchdog (p : Nat) (s : State) : Answer := onPart p (s.coldExpired p)

end Sys2Proof.Machine
end

