-- ==== Sys2Proof/Machine/Queues.lean ====
section
/-!
DEFINITION. How the command queues move on between the commands that name an engine's event: entries that complete without
executing (malformed commands R153, waits on numbers not issued R151, skipped update-phase commands R350, seeds R133), when
a command may start, and the requests to the power governor that a gated engine's queue makes (R98, R485, R487).
-/
namespace Sys2Proof.Machine

/-- The Mica operation codes of R122 with the number of operations each names. -/
def micaOps : List (Nat × Nat) :=
  [(0x01, 1), (0x02, 1), (0x03, 1), (0x04, 1), (0x05, 2), (0x06, 2), (0x08, 1), (0x09, 1), (0x0A, 1), (0x10, 3), (0x13, 1),
   (0x20, 1), (0x21, 1), (0x22, 1), (0x23, 1), (0x24, 1), (0x25, 1), (0x26, 1), (0x30, 1), (0x31, 1),
   (0x40, 1), (0x41, 1), (0x42, 1), (0x43, 1), (0x44, 1), (0x50, 5), (0x58, 5), (0x60, 2), (0x62, 1)]

/-- Whether a Mica command names an operation of R122 (its MOP listed, its SUBOP within the operations of the MOP). -/
def micaKnown (ws : List Word64) : Bool :=
  micaOps.any (fun e => decide (fieldOf (wordAt ws 1) 7 0 = e.1 ∧ fieldOf (wordAt ws 1) 10 8 < e.2))

/-- The step's decision is SKIP (R350). -/
def State.skips (s : State) (p : Nat) : Bool := (s.getStrata p).decided && s.rf (STR_STATUS.SKIP p) == 1

/-- The status with which an entry at the front completes without executing, if it does; a MODE that names the current mode
completes without a drain (R86). -/
def State.frontStatus (s : State) (p c e : Nat) (x : QEntry) : Option Nat :=
  match x.kind with
  | .seed _ => some stOK
  | .mode m => if m = s.rf (GRN_MODE.MODE p c) then some stOK else none
  | .cmd ws =>
    if x.upd && s.skips p then some stSKIPPED
    else if x.badWait || !w0Ok e ws || (e == 1 && !micaKnown ws) then some stCHECKFAIL
    else none

/-- Whether a queue holds a MODE whose switch has begun: nothing behind it moves (R86). -/
def State.switching (s : State) (p c e : Nat) : Bool :=
  (s.getQueue p c e).entries.any (fun x => match x.kind with
    | .mode _ => x.started
    | _ => false)

/-- Complete the entries at the front of a queue that need no engine, up to `n`. Mica looks at the next entry only when it is
idle (R119). -/
def State.settleQueue (s : State) (p c e : Nat) : Nat → State
  | 0 => s
  | n + 1 =>
    match s.nextEntry p c e with
    | none => s
    | some x =>
      if (e == 1 && (s.getStage p c).isSome) || s.switching p c e then s
      else match s.frontStatus p c e x with
      | none => s
      | some st =>
        let s := match x.kind with
          | .seed v => s.wf (MCA_SEED.SEED p c) v.toNat
          | _ => s
        (s.complete p c e x.seq st).settleQueue p c e n

/-! ## The power governor's requests -/

/-- Append a request to those waiting at the governor, with the slot of its arrival (R487). -/
def State.govRequest (s : State) (r : GovReq) : State :=
  { s with gov := { s.gov with waiting := s.gov.waiting ++ [(r, s.gov.slots)] } }

/-- Whether a request is waiting. -/
def State.govWaits (s : State) (r : GovReq) : Bool := s.gov.waiting.any (fun e => e.1 == r)

/-- Whether a core is in fused mode. -/
def State.fused (s : State) (p c : Nat) : Bool := s.rf (GRN_MODE.MODE p c) == 1

/-- The entries of a partial list (R157). -/
def State.partialList (s : State) (p c : Nat) (ws : List Word64) : List Nat :=
  (List.range (fieldOf (wordAt ws 1) 56 53 + 1)).map (fun i =>
    leNat (s.bytes (memKey p (tileBase c + fieldOf (wordAt ws 5) 24 0 + 8 * i)) 8))

/-- The arrays a command belongs to (R105): that of its ARRAY field, or those its partial list names. -/
def State.arraysOf (s : State) (p c : Nat) (ws : List Word64) : List Nat :=
  if fieldOf (wordAt ws 0) 7 0 = 0x02 ∧ fieldOf (wordAt ws 1) 56 53 ≠ 0 then
    ((s.partialList p c ws).filter (fun e => e % 2 == 0)).map (fun e => bits e 1 2)
  else [fieldOf (wordAt ws 1) 33 32]

/-- The physical arrays a Garnet entry works on: in fused mode all four work as one (R82). -/
def State.clockedArrays (s : State) (p c : Nat) (x : QEntry) : List Nat :=
  match x.kind with
  | .cmd ws => if s.fused p c then [0, 1, 2, 3] else s.arraysOf p c ws
  | _ => []

/-- A gated engine with a command in its queue asks the governor for its ramp (R98, R485): the arrays when a command for a gated
one is queued, Mica when any command is. -/
def State.askWake (s : State) (p c : Nat) : State :=
  let s :=
    if (s.getQueue p c 0).entries.any (fun x => (s.clockedArrays p c x).any (bitOf (s.rf (GRN_STATUS.GATED p c)))) &&
        !(s.getGarnet p c).waking && !s.govWaits (.arrays p c true)
    then s.govRequest (.arrays p c true) else s
  if !(s.getQueue p c 1).entries.isEmpty && s.rf (MCA_STATUS.GATED p c) == 1 && !s.govWaits (.mica p c true)
  then s.govRequest (.mica p c true) else s

/-- A MODE entry that names the other mode and has reached the head of the Garnet queue starts: the drain begins, and a failure of
an earlier command no longer aborts it (R86, R150). -/
def State.noteSwitch (s : State) (p c : Nat) : State :=
  match s.nextEntry p c 0 with
  | some x => match x.kind with
    | .mode m => if m ≠ s.rf (GRN_MODE.MODE p c) ∧ !s.switching p c 0 then (s.start p c 0 x.seq).wf (GRN_MODE.SWITCHING p c) 1 else s
    | _ => s
  | none => s

/-- Bring the three queues of a core up to date. -/
def State.settle (s : State) (p c : Nat) : State :=
  ((((s.settleQueue p c 0 64).settleQueue p c 1 64).settleQueue p c 2 64).noteSwitch p c).askWake p c

/-- Complete an entry and bring the core's queues up to date; after an uncorrectable word of tile memory the abort wave follows
(R167). -/
def State.finish (s : State) (p c e sq st : Nat) : State :=
  let t := (s.complete p c e sq (st % 16)).settle p c
  if st = stFATAL then t.startWave p waveFAULT (s.tileUnit p c) else t

/-- Settle cores `0` to `n - 1` of a partition. -/
def State.settleAll (s : State) (p : Nat) : Nat → State
  | 0 => s
  | n + 1 => (s.settleAll p n).settle p n

/-- Whether an entry that has not started may: its waits are complete and an update-phase command has its decision (R151,
R350). -/
def State.canStart (s : State) (p c : Nat) (x : QEntry) : Bool :=
  !x.started && !x.badWait && !(s.getStrata p).suspRun && s.waitsDone p c x.kind && (!x.upd || ((s.getStrata p).decided && !s.skips p))

end Sys2Proof.Machine
end

