-- ==== Sys2Proof/Machine/Mover.lean ====
section
/-!
DEFINITION. The mover (R159, R172, R193–R196, R512): copies and their conditions, the moves of their elements, segments and
channels, and the copies to and from streams with the posted windows they open and the grants that serve them (R282).
-/
namespace Sys2Proof.Machine

/-! ## The command (R159) -/

/-- A mover copy command, field by field. -/
structure VCmd where
  sdesc : Nat
  ddesc : Nat
  skind : Nat
  dkind : Nat
  row0 : Nat
  col0 : Nat
  nrows : Nat
  ncols : Nat
  handle : Nat
  rsv : Bool
deriving DecidableEq, Repr

/-- The fields of the eight words. -/
def moverCmd (ws : List Word64) : VCmd :=
  let w1 := wordAt ws 1
  let w4 := wordAt ws 4
  { sdesc := fieldOf w1 15 0, ddesc := fieldOf w1 31 16, skind := fieldOf w1 33 32, dkind := fieldOf w1 35 34
    row0 := fieldOf (wordAt ws 2) 39 0, col0 := fieldOf (wordAt ws 3) 39 0, nrows := fieldOf w4 31 0, ncols := fieldOf w4 63 32
    handle := fieldOf (wordAt ws 5) 31 0
    rsv := fieldOf w1 63 36 == 0 && fieldOf (wordAt ws 2) 63 40 == 0 && fieldOf (wordAt ws 3) 63 40 == 0 &&
      fieldOf (wordAt ws 5) 63 32 == 0 && wordAt ws 6 == 0#64 && wordAt ws 7 == 0#64 }

/-- The positions of the region, row by row. -/
def VCmd.region (m : VCmd) : List (Nat × Nat) := Sys2Proof.Machine.region m.row0 m.col0 m.nrows m.ncols

/-- The operand that copied descriptor words, with their binding entry as word 32, give. -/
def State.opndCopy (s : State) (p c : Nat) (ws : List Word64) : Opnd := s.opndOf p c ws (wordAt ws 32)

/-- The source operand of a started copy, with the map bytes it copied (R201). -/
def State.sourceOf (s : State) (p : Nat) (x : Copy) : Opnd := { s.opndCopy p x.core x.sdesc with snap := x.map }

/-- A descriptor with its binding entry as word 32. -/
def State.copyWords (s : State) (p i : Nat) : List Word64 :=
  s.descWords p i ++ [BitVec.ofNat 64 (s.rf (DSP_OCC.BIND p i))]

/-! ## Moves -/

/-- One field of bits that a copy moves: from a bit address (none: from nothing, 0), or the given bits, to a bit address. -/
structure Move where
  src : Option Nat
  given : Option Nat
  dst : Nat
  n : Nat
deriving DecidableEq, Repr

/-- What a copy does for one position: the source bytes it reads, whether the read was clamped, whether the element lies in an
absent tile, whether the write is dropped at a pruned position with a value other than ±0, and the fields it moves. -/
structure Cell where
  addrs : List Nat
  clamp : Bool
  zero : Bool
  pruned : Bool
  moves : List Move
deriving DecidableEq, Repr

/-- The stored value fields at local indices `l`, as (bit address, bits): of a 2:4 tensor both value rows of the group, at its
first position. -/
def Opnd.valFields (o : Opnd) (l : List Nat) : List (Nat × Nat) :=
  if o.d.sparse then
    let k := l.getD o.d.orient 0
    if k % 4 = 0 then
      [(o.bitAt (l.set o.d.orient (2 * (k / 4))), o.d.ebits), (o.bitAt (l.set o.d.orient (2 * (k / 4) + 1)), o.d.ebits)]
    else []
  else [(o.bitAt l, o.d.ebits)]

/-- The first position of the group of four that holds local indices `l`; `l` itself where the tensor is not compressed. -/
def Opnd.groupOf (o : Opnd) (l : List Nat) : List Nat :=
  if o.d.sparse then l.set o.d.orient (l.getD o.d.orient 0 / 4 * 4) else l

/-- The scale field of an MX element. -/
def Opnd.scaleFields (o : Opnd) (l : List Nat) : List (Nat × Nat) := if o.d.mx then [(o.scaleAt l * 8, 8)] else []

/-- The metadata word of a 2:4 tensor, at the first position of 64. -/
def Opnd.metaFields (o : Opnd) (l : List Nat) : List (Nat × Nat) :=
  if o.d.sparse ∧ l.getD o.d.orient 0 % 64 = 0 then [((o.metaAt l).1 * 8, 64)] else []

/-- All stored fields that begin at local indices `l`. -/
def Opnd.rawFields (o : Opnd) (l : List Nat) : List (Nat × Nat) := o.valFields l ++ o.scaleFields l ++ o.metaFields l

/-- The value of an element as the source gives it: +0 in an absent tile. -/
def State.srcVal (s : State) (o : Opnd) (l : List Nat) : Val :=
  if s.absent o l then .fin false 0 0 else o.d.value (s.getAt o l)

/-- Whether a position of the destination is written through its descriptor and kept. -/
def State.keeps (s : State) (d : Opnd) (r c : Nat) : Bool :=
  match s.destOf d r c with
  | .at _ _ => true
  | _ => false

/-- The code and scale of a position of an MX block that is formed anew from the values kept (R512, R65). -/
def State.reform (s : State) (o d : Opnd) (r c : Nat) : Nat × Nat :=
  let blk := (List.range 32).filterMap (fun i =>
    let c' := c / 32 * 32 + i
    if d.d.oob r c' then none
    else some (c', if s.keeps d r c' then
      (match o.readLocals (r, c') with
       | some (l, _) => s.srcVal o l
       | none => .fin false 0 0) else .fin false 0 0))
  let (sc, codes) := mxBlock d.d.fmt 0 (blk.map (·.2)) (blk.map (fun _ => 0))
  (codes.getD (blk.findIdx (fun x => x.1 == c)) 0, sc)

/-- What an ordinary copy does for a position inside the destination's extent. -/
def State.cellAt (s : State) (o d : Opnd) (rc : Nat × Nat) : Cell :=
  match o.readLocals rc with
  | none => ⟨[], false, false, false, []⟩
  | some (l, cl) =>
    let z := s.absent o l
    let val := if z then none else (s.valueIdx o l).map o.bitAt
    let reform := d.d.sparse && d.d.mx
    let addrs := if reform then
        (List.range 32).flatMap (fun i => match o.readLocals (rc.1, rc.2 / 32 * 32 + i) with
          | some (l', _) => s.touched o l'
          | none => [])
      else s.touched o l
    match s.destOf d rc.1 rc.2 with
    | .at b sc =>
      if reform then
        let (code, scale) := s.reform o d rc.1 rc.2
        ⟨addrs, cl, z, false, [⟨none, some code, b, d.d.ebits⟩, ⟨none, some scale, sc * 8, 8⟩]⟩
      else ⟨addrs, cl, z, false, ⟨val, none, b, d.d.ebits⟩ ::
        (if d.d.mx then [⟨if z then none else some (o.scaleAt l * 8), none, sc * 8, 8⟩] else [])⟩
    | _ => ⟨addrs, cl, z, !(s.srcVal o l).isZero, []⟩

/-- What a copy between two 2:4 tensors does for a position: the stored fields move as they are; the values and scales of an absent tile
are not read and move as 0 (R205). -/
def State.rawCell (s : State) (o d : Opnd) (rc : Nat × Nat) : Cell :=
  match o.readLocals rc, d.locals (d.d.coords rc.1 rc.2) with
  | some (l, cl), some l' =>
    let fs := o.rawFields l
    let z := s.absent o l
    let gone (f : Nat × Nat) : Bool := z && !(o.metaFields l).contains f
    ⟨o.mapTouched l ++ (fs.filter (fun f => !gone f)).flatMap (fun f => spanOf f.1 f.2), cl, z, false,
      (fs.zip (d.rawFields l')).map (fun e => ⟨if gone e.1 then none else some e.1.1, none, e.2.1, e.2.2⟩)⟩
  | _, _ => ⟨[], false, false, false, []⟩

/-- Whether a copy moves stored fields as they are (R512). -/
def rawCopy (o d : Opnd) : Bool := o.d.sparse && d.d.sparse

/-- The cells of a copy, for the positions its destination does not suppress (R183). -/
def State.cellsOf (s : State) (o d : Opnd) (m : VCmd) : List Cell :=
  (m.region.filter (fun rc => !d.d.oob rc.1 rc.2)).map (if rawCopy o d then s.rawCell o d else s.cellAt o d)

/-- The moves cut at block boundaries. -/
def Move.pieces (m : Move) : List Move :=
  let k := 2048 - m.dst % 2048
  if m.n ≤ k then [m]
  else [{ m with n := k, given := m.given.map (· % 2 ^ k) },
        { src := m.src.map (· + k), given := m.given.map (· / 2 ^ k), dst := m.dst + k, n := m.n - k }]

/-- The pieces of all moves of a list of cells. -/
def pieces (cs : List Cell) : List Move := cs.flatMap (fun c => c.moves.flatMap Move.pieces)

/-- The bits a move writes. -/
def State.moveVal (s : State) (p : Nat) (m : Move) : Nat :=
  match m.given, m.src with
  | some v, _ => v
  | none, some a => s.readBits p a m.n
  | none, none => 0

/-- The write that pieces make. -/
def State.assemble (s : State) (p : Nat) (ms : List Move) : WriteSet :=
  ms.foldl (fun t m => t.put m.dst m.n (s.moveVal p m)) []

/-- Whether a copy carries check words (R172): every destination block it writes is covered wholly and takes exactly one whole
source block. -/
def carries (ms : List Move) : Bool :=
  let t := ms.foldl (fun (t : WriteSet) m => t.put m.dst m.n 0) []
  t.partials.isEmpty &&
  ms.all (fun m => match m.src, (ms.find? (fun x => x.dst / 2048 == m.dst / 2048)).bind Move.src with
    | some a, some b => a % 2048 == m.dst % 2048 && a / 2048 == b / 2048
    | _, _ => false)

/-- Whether any bit read is also written (R194). -/
def overlaps (cs : List Cell) : Bool :=
  let dst := cs.flatMap (fun c => c.moves.flatMap (fun m => spanOf m.dst m.n))
  cs.any (fun c => c.addrs.any dst.contains)

/-! ## Conditions before any access (R176, R184, R194, R199, R227, R512) -/

/-- The kind a descriptor's location must have. -/
def kindOk (k : Nat) (d : Desc) : Bool := k == (if d.tile then 1 else 0)

/-- The K range of a copy between 2:4 tensors starts and ends on a multiple of 64 or at the K extent. -/
def kRangeOk (o d : Opnd) (m : VCmd) : Bool :=
  let (k0, n) := if o.d.orient = 0 then (m.row0, m.nrows) else (m.col0, m.ncols)
  o.d.orient == d.d.orient && k0 % 64 == 0 && ((k0 + n) % 64 == 0 || k0 + n == (o.d.dim o.d.orient).ext)

/-- Every MX block of a 2:4 destination that the region touches is covered wholly within the extent (R190, R512). -/
def mxRegionOk (d : Opnd) (m : VCmd) : Bool :=
  !(d.d.sparse && d.d.mx) || (m.col0 % 32 == 0 && ((m.col0 + m.ncols) % 32 == 0 || decide (d.d.cols ≤ m.col0 + m.ncols)))

/-- The conditions on the descriptors and the region of a copy between two places of this partition. -/
def State.copyShape (s : State) (p c : Nat) (m : VCmd) : Bool :=
  let o := s.opnd p c m.sdesc
  let d := s.opnd p c m.ddesc
  s.idxOk p c m.sdesc && s.idxOk p c m.ddesc && kindOk m.skind o.d && kindOk m.dkind d.d &&
  (o.d.index == d.d.index && (o.d.index || o.d.fmt == d.d.fmt)) &&
  (!rawCopy o d || kRangeOk o d m) && (rawCopy o d || mxRegionOk d m) &&
  (m.region.filter (fun rc => !d.d.oob rc.1 rc.2)).all (fun rc =>
    (o.readLocals rc).isSome && (d.locals (d.d.coords rc.1 rc.2)).isSome)

/-- The first destination address of a copy in a route-table copy that takes no writes. -/
def State.protectedDst (s : State) (p c : Nat) (m : VCmd) : Option Nat :=
  ((s.cellsOf (s.opnd p c m.sdesc) (s.opnd p c m.ddesc) m).flatMap (fun x => x.moves.map (fun y => y.dst / 8))).find?
    (s.rtProtected p)

/-- The conditions on a copy between two places of this partition, before any access. -/
def State.copyOk (s : State) (p c : Nat) (m : VCmd) : Bool :=
  let o := s.opnd p c m.sdesc
  let d := s.opnd p c m.ddesc
  s.copyShape p c m && (s.protectedDst p c m).isNone &&
  (let cs := s.cellsOf o d m
   s.kvOk o (cs.flatMap Cell.addrs) && s.kvOk d (cs.flatMap (fun c => c.moves.flatMap (fun x => spanOf x.dst x.n))) &&
   !overlaps cs)

/-! ## Segments (R193) -/

/-- Cut a list into pieces of `n`. -/
def chunksOf {α : Type} (n : Nat) : Nat → List α → List (List α)
  | 0, _ => []
  | _ + 1, [] => []
  | k + 1, l => l.take n :: chunksOf n k (l.drop n)

/-- The segments of a copy over its blocks: at most 256 blocks (64 KiB) each, in ascending order. -/
def segmentsOf (c sq : Nat) (blocks : List Nat) : List Segment :=
  let cs := chunksOf 256 (blocks.length + 1) blocks
  (List.range cs.length).map (fun i => ⟨c, sq, cs.getD i [], 256 * i, i + 1 == cs.length⟩)

/-- The CHBUSY bits follow the channels. -/
def State.putMover (s : State) (p : Nat) (m : Mover) : State :=
  (s.setMover p m).wf (MOV_STATUS.CHBUSY p) ((m.chans.map (fun e => 2 ^ e.1)).sum)

/-- Forget a copy, its waiting segments and those on channels. -/
def State.dropCopy (s : State) (p c sq : Nat) : State :=
  let m := s.getMover p
  s.putMover p { m with
    copies := m.copies.filter (fun x => !(x.core == c && x.seq == sq))
    waiting := m.waiting.filter (fun x => !(x.core == c && x.seq == sq))
    chans := m.chans.filter (fun e => match e.2 with
      | some r => !(r.seg.core == c && r.seg.seq == sq)
      | none => false) }

/-- End a copy with a status. -/
def State.endCopy (s : State) (p c sq st : Nat) : State := (s.dropCopy p c sq).finish p c 2 sq st

/-- The started copy of a queue entry. -/
def Mover.copy (m : Mover) (c sq : Nat) : Option Copy := m.copies.find? (fun x => x.core == c && x.seq == sq)

/-- Note that `n` more parts of a copy are outstanding and one is done; the last ends the copy with OK. -/
def State.copyProgress (s : State) (p c sq more : Nat) : State :=
  let m := s.getMover p
  match m.copy c sq with
  | none => s
  | some x =>
    if x.left + more ≤ 1 then s.endCopy p c sq stOK
    else s.putMover p { m with copies := m.copies.map (fun y =>
      if y.core = c ∧ y.seq = sq then { y with left := y.left + more - 1 } else y) }

/-- Start a copy's segments; a copy without any is complete. -/
def State.cutCopy (s : State) (p : Nat) (x : Copy) (segs : List Segment) : State :=
  let m := s.getMover p
  if segs = [] then s.endCopy p x.core x.seq stOK
  else s.putMover p { m with
    copies := m.copies.filter (fun y => !(y.core == x.core && y.seq == x.seq)) ++ [{ x with left := segs.length }]
    waiting := m.waiting ++ segs }

/-- Remember a started copy that has no segments yet. -/
def State.holdCopy (s : State) (p : Nat) (x : Copy) : State :=
  let m := s.getMover p
  s.putMover p { m with copies := m.copies ++ [x] }

/-! ## Stream windows (R282) -/

/-- The positions of a region out of an operand's bounds. -/
def VCmd.outside (m : VCmd) (o : Opnd) : List (Nat × Nat) := m.region.filter (fun rc => o.d.oob rc.1 rc.2)

/-- The local indices of the positions of a region of an operand, and none for a non-local one: a copy to a stream reads every position,
clamped (R182), a copy from a stream writes those within the bounds (R183). -/
def Opnd.spots (o : Opnd) (m : VCmd) : List (Option (List Nat)) :=
  if m.dkind = 2 then m.region.map (fun rc => (o.readLocals rc).map (·.1))
  else (m.region.filter (fun rc => !o.d.oob rc.1 rc.2)).map (fun rc => o.locals (o.d.coords rc.1 rc.2))

/-- The local ones. -/
def Opnd.within (o : Opnd) (m : VCmd) : List (List Nat) := (o.spots m).filterMap id

/-- The blocks of a region as an operand maps it: those of the value array, then of the scale array, then of the metadata
array, each ascending. -/
def Opnd.windowBlocks (o : Opnd) (m : VCmd) : List Nat :=
  let ls := o.within m
  let blocksOf (f : List Nat → List (Nat × Nat)) : List Nat :=
    ascending ((ls.flatMap f).flatMap (fun e => [e.1 / 2048, (e.1 + e.2 - 1) / 2048]))
  (blocksOf o.valFields ++ blocksOf o.scaleFields ++ blocksOf o.metaFields).eraseDups

/-- The conditions on the operand of a copy to or from a stream, before any access. -/
def State.streamOk (s : State) (o : Opnd) (i kind : Nat) (m : VCmd) : Bool :=
  s.idxOk o.p o.core i && kindOk kind o.d && (o.spots m).all Option.isSome &&
  s.kvOk o ((o.windowBlocks m).map (· * 256) ++ (if m.dkind = 2 then o.mapAddrs (o.within m) else []))

/-- Open the posted window of a receiving copy and grant its blocks; a region without blocks is complete. -/
def State.openPosted (s : State) (idx p c sq : Nat) (ws ddesc : List Word64) : State :=
  let bs := (s.opndCopy p c ddesc).windowBlocks (moverCmd ws)
  if bs = [] then s.endCopy p c sq stOK
  else
    let s := s.setAux idx { s.getAux idx with posted := some ⟨c, sq, bs, List.range bs.length⟩ }
    (s.setCtx idx { s.getCtx idx with winBase := bs.headD 0 * 256, winLen := bs.length }).queueGrant idx bs.length

/-- The window of a context closes; the next receiving copy that waits opens its own. -/
def State.closePosted (s : State) (idx : Nat) : State :=
  let a := s.getAux idx
  let p := (s.getCtx idx).part
  let s := (s.setAux idx { a with posted := none, recvWait := a.recvWait.tail }).setCtx idx
    { s.getCtx idx with winBase := 0, winLen := 0 }
  match a.recvWait with
  | [] => s
  | (c, sq) :: _ => match (s.getMover p).copy c sq with
    | none => s
    | some x => s.openPosted idx p c sq x.words x.ddesc

/-- A send copy gets its grant: its blocks are cut into segments, or it ends with a window violation when the count
differs, and the other end is told (R282; log entry 84). -/
def State.serveSend (s : State) (p c sq n granted : Nat) : State :=
  match (s.getMover p).copy c sq with
  | none => s
  | some x =>
    if n = granted then
      s.cutCopy p x (segmentsOf c sq ((s.opndCopy p c x.sdesc).windowBlocks (moverCmd x.words)))
    else (((s.inc (ZTP_WINVIOL.COUNT p)).endCopy p c sq stCHECKFAIL)).queueCtl ((moverCmd x.words).handle % 2 ^ 18) 4 0

/-! ## MOVER_COPY -/

/-- A copy to a stream waits for the grant of its blocks, unless that came before. Its clamped reads are counted (R182). -/
def State.startSend (s : State) (p c sq idx : Nat) (ws : List Word64) (es : List EccWord) : State :=
  let m := moverCmd ws
  let o := s.opnd p c m.sdesc
  if !s.streamOk o m.sdesc m.skind m then s.finish p c 2 sq stCHECKFAIL
  else
    let maps := o.mapAddrs (o.within m)
    let (s, st) := s.verify p (s.tileUnit p c) (blocksOfAddrs maps) es
    if st ≠ 0 then s.finish p c 2 sq st
    else
      let s := s.addf (TLM_CLAMP_RD.ELEMS p c) (m.outside o).length
      let n := (o.windowBlocks m).length
      let a := s.getAux idx
      let s := s.holdCopy p ⟨c, sq, ws, s.copyWords p m.sdesc, [], true, 0, s.mapCopy p maps⟩
      if n = 0 then s.endCopy p c sq stOK
      else match a.sends, a.grants with
      | [], g :: gs => (s.setAux idx { a with grants := gs }).serveSend p c sq n g
      | _, _ => s.setAux idx { a with sends := a.sends ++ [(c, sq, n)] }

/-- A copy from a stream opens its posted window, or waits while another is open. Its suppressed writes are counted (R183). -/
def State.startReceive (s : State) (p c sq idx : Nat) (ws : List Word64) : State :=
  let m := moverCmd ws
  let o := s.opnd p c m.ddesc
  if !s.streamOk o m.ddesc m.dkind m then s.finish p c 2 sq stCHECKFAIL
  else
    let a := s.getAux idx
    let dd := s.copyWords p m.ddesc
    let s := s.addf (TLM_OOB_WR.ELEMS p c) (m.outside o).length
    let s := s.holdCopy p ⟨c, sq, ws, [], dd, true, 0, []⟩
    if a.posted.isSome then s.setAux idx { a with recvWait := a.recvWait ++ [(c, sq)] }
    else s.openPosted idx p c sq ws dd

/-- The map bytes a copy inside the partition copies (R201), and the metadata bytes of its destination that it reads (R512). -/
def State.localMaps (s : State) (p c : Nat) (m : VCmd) : List Nat :=
  let o := s.opnd p c m.sdesc
  let d := s.opnd p c m.ddesc
  o.mapAddrs ((m.region.filter (fun rc => !d.d.oob rc.1 rc.2)).filterMap (fun rc => (o.readLocals rc).map (·.1)))
def State.localMetas (s : State) (p c : Nat) (m : VCmd) : List Nat :=
  let o := s.opnd p c m.sdesc
  let d := s.opnd p c m.ddesc
  if rawCopy o d then [] else m.region.flatMap (fun rc => d.metaAddrs rc.1 rc.2)

/-- Whether a copy reads, as it starts, a block that the mover is writing: it waits (R195). -/
def State.copyWaits (s : State) (p c : Nat) (m : VCmd) : Bool :=
  if m.dkind = 2 then
    let o := s.opnd p c m.sdesc
    s.streamOk o m.sdesc m.skind m && (o.mapAddrs (o.within m)).any (s.interlocked p)
  else m.skind != 2 && s.copyOk p c m && (s.localMaps p c m ++ s.localMetas p c m).any (s.interlocked p)

/-- A copy inside the partition: its conditions, the suppressed writes it counts (R183), the map bytes it copies (R201), the metadata
it must find in order (R512), and its segments. -/
def State.startLocal (s : State) (p c sq : Nat) (ws : List Word64) (es : List EccWord) : State :=
  let m := moverCmd ws
  let s := match (if s.copyShape p c m then s.protectedDst p c m else none) with
    | some a => s.busErr p a
    | none => s
  if !s.copyOk p c m then s.finish p c 2 sq stCHECKFAIL
  else
    let o := s.opnd p c m.sdesc
    let d := s.opnd p c m.ddesc
    let s0 := s.addf (TLM_OOB_WR.ELEMS p c) (m.region.filter (fun rc => d.d.oob rc.1 rc.2)).length
    let maps := s.localMaps p c m
    let (s1, st) := s0.verify p (s.tileUnit p c) (blocksOfAddrs (maps ++ s.localMetas p c m)) es
    if st ≠ 0 then s1.finish p c 2 sq st
    else if !rawCopy o d && m.region.any (fun rc => !s.metaOk d rc.1 rc.2) then s.finish p c 2 sq stCHECKFAIL
    else
      let cs := s1.cellsOf o d m
      let ms := pieces cs
      let x : Copy := ⟨c, sq, ws, s.copyWords p m.sdesc, s.copyWords p m.ddesc, carries ms, 0, s1.mapCopy p maps⟩
      let blocks := ascending (ms.map (fun q => q.dst / 2048))
      let segs := if blocks = [] ∧ cs ≠ [] then [⟨c, sq, [], 0, true⟩] else segmentsOf c sq blocks
      s1.cutCopy p x segs

/-- MOVER_COPY (R159, R194): the oldest copy of its queue that has not started, once its waits allow. `es` are the tile-memory words in
error among the map and metadata words it reads (R167). -/
def execMoverCopy (p c sq : Nat) (es : List EccWord) (s : State) : Answer :=
  onCore s p c (match s.nextEntry p c 2 with
  | none => s
  | some x => match x.kind with
    | .cmd ws =>
      if x.seq ≠ sq ∨ !s.canStart p c x ∨ !w0Ok 2 ws ∨ s.copyWaits p c (moverCmd ws) then s
      else
        let m := moverCmd ws
        let s := s.start p c 2 sq
        State.settle (if !m.rsv ∨ m.skind = 3 ∨ m.dkind = 3 ∨ (m.skind = 2 ∧ m.dkind = 2) then s.finish p c 2 sq stCHECKFAIL
        else if m.skind ≠ 2 ∧ m.dkind ≠ 2 then s.startLocal p c sq ws es
        else if !s.handleOk p m.handle then s.finish p c 2 sq stSTALE
        else if (s.getCtx (m.handle % 2 ^ 18)).state ≠ 1 then s.finish p c 2 sq stABORTED
        else if m.dkind = 2 then s.startSend p c sq (m.handle % 2 ^ 18) ws es
        else s.startReceive p c sq (m.handle % 2 ^ 18) ws) p c
    | _ => s)

/-! ## MOVER_SEGMENT_START -/

/-- The channels a core's queue holds. -/
def Mover.held (m : Mover) (c : Nat) : Nat :=
  (m.chans.filter (fun e => match e.2 with
    | some r => r.seg.core == c
    | none => false)).length

/-- The queues that share the channels (R193, R228, R306): the logical cores, then the dispatch unit, then the collective queues
together. -/
def State.dspTurn (s : State) (p : Nat) : Nat := s.lcores p
def State.colTurn (s : State) (p : Nat) : Nat := s.lcores p + 1

/-- The core whose queue is served next (R193): ascending from the one after the queue last served, among those with waiting
segments that hold fewer than QCHAN channels. -/
def State.nextCore (s : State) (p : Nat) : Option Nat :=
  let m := s.getMover p
  let n := s.lcores p + 2
  ((List.range n).map (fun i => (m.next + i) % n)).find? (fun c =>
    m.waiting.any (fun x => x.core == c) && decide (m.held c < s.rf (MOV_CFG.QCHAN p)))

/-- The lowest-numbered channel that is free and not retired (R193, R313). -/
def State.freeChannel (s : State) (p : Nat) : Option Nat :=
  (List.range 32).find? (fun k => ((s.getMover p).chans.get none k).isNone && !bitOf (s.log.retiredChans.get 0 p) k)

/-- The segment takes the channel, and the round goes on after its core. -/
def State.takeChannel (s : State) (p k : Nat) (r : Running) : State :=
  let m := s.getMover p
  s.putMover p { m with
    waiting := m.waiting.erase r.seg, chans := m.chans.set none k (some r), next := (r.seg.core + 1) % (s.lcores p + 2) }

/-- The dispatch unit or the collective queues take the lowest free channel for one operation of theirs, which begins and ends in one
command of this model, and the round goes on after them (R228, R306; log entry 76). None is free: the operation waits. -/
def State.takeTurn (s : State) (p q : Nat) : Option (Nat × State) :=
  (s.freeChannel p).map (fun k => (k, s.setMover p { s.getMover p with next := (q + 1) % (s.lcores p + 2) }))

/-- The cells of a copy that a segment moves: those with a field in its blocks; the last segment has those without any. -/
def Segment.has (g : Segment) (c : Cell) : Bool :=
  match c.moves with
  | [] => g.last
  | ms => (ms.flatMap Move.pieces).any (fun m => g.blocks.contains (m.dst / 2048))

/-- Whether a segment counts a cell: its first field lies in the segment. -/
def Segment.counts (g : Segment) (c : Cell) : Bool :=
  match c.moves with
  | [] => g.last
  | m :: _ => g.blocks.contains (m.dst / 2048)

/-- What starting a segment does: it waits for a block that is being written, it fails its copy, or it runs. -/
inductive SegAns where
  | wait
  | fail (s : State) (st : Nat)
  | run (s : State) (r : Running)

/-- A block as a send copy takes it, with its check word: the bits of `mask`, those of elements in absent tiles, are 0 (R205),
and then its check word is new (R170, R172). -/
def State.sentBlock (s : State) (p a mask : Nat) : List Byte × Word32 :=
  if mask = 0 then (s.block p a, s.checkOf p a)
  else
    let v := leNat (s.block p a)
    let bs := leBytes 256 (Nat.xor v (Nat.land v mask))
    (bs, checkWord bs)

/-- Read the source blocks of a segment and assemble what it writes. -/
def State.readSegment (s : State) (p : Nat) (x : Copy) (g : Segment) (es : List EccWord) : SegAns :=
  let m := moverCmd x.words
  let unit := s.tileUnit p x.core
  if m.dkind = 2 then
    let o := s.sourceOf p x
    let gone := (o.within m).filter (s.absent o)
    let zero := gone.foldl (fun (t : WriteSet) l => (o.valFields l ++ o.scaleFields l).foldl (fun t f => t.put f.1 f.2 0) t) []
    let as := g.blocks.map (· * 256)
    let read := as.filter (fun a => (zero.get (0, 0) (a / 256)).1 != 2 ^ 2048 - 1)
    if read.any (s.interlocked p) then .wait
    else
      let (s1, st) := s.verify p unit read es
      if st ≠ 0 then .fail s1 st
      else
        let counted := gone.filter (fun l => match o.valFields (o.groupOf l) with
          | f :: _ => g.blocks.contains (f.1 / 2048)
          | [] => false)
        .run (s1.addf (DSP_OCC_ZERO.COUNT p) counted.length)
          ⟨g, [], 0, 256 * as.length, (List.range ((as.length + 15) / 16)).map (fun i =>
            let bs := ((as.drop (16 * i)).take 16).map (fun a => s1.sentBlock p a (zero.get (0, 0) (a / 256)).1)
            { mtype := 0, offset := (g.first + 16 * i) * 256, blocks := bs.map (·.1), checks := bs.map (·.2), owner := some (x.core, x.seq) })⟩
  else
    let o := s.sourceOf p x
    let d := s.opndCopy p x.core x.ddesc
    let cs := (s.cellsOf o d m).filter g.has
    let srcs := blocksOfAddrs (cs.flatMap Cell.addrs)
    let ms := (pieces cs).filter (fun q => g.blocks.contains (q.dst / 2048))
    let t := s.assemble p ms
    if (srcs ++ t.partials).any (s.interlocked p) then .wait
    else
      let (s1, st1) := s.verify p unit srcs es
      if st1 ≠ 0 then .fail s1 st1
      else
        let (s2, st2) := s1.verify p unit t.partials es
        if st2 ≠ 0 then .fail s2 st2
        else match t.find? (fun e => !s.reach p (e.1 * 256)) with
        | some e => .fail (s2.busErr p (e.1 * 256)) stCHECKFAIL
        | none =>
        if t.any (fun e => s.lost p (e.1 * 256)) then .fail s2 stABORTED
        else
          let ours := cs.filter g.counts
          let s2 := s2.addf (TLM_CLAMP_RD.ELEMS p x.core) (ours.filter Cell.clamp).length
          .run (s2.addf (DSP_OCC_ZERO.COUNT p) (ours.filter Cell.zero).length)
            ⟨g, t, (ours.filter Cell.pruned).length, ((ms.map Move.n).sum + 7) / 8, []⟩

/-- MOVER_SEGMENT_START (R193): `es` are the tile-memory words in error among those it reads (R167). -/
def execMoverSegmentStart (p : Nat) (es : List EccWord) (s : State) : Answer :=
  onPart p (match s.nextCore p, s.freeChannel p with
  | some c, some k =>
    match (s.getMover p).waiting.find? (fun g => g.core == c) with
    | none => s
    | some g => match (s.getMover p).copy c g.seq with
      | none => s
      | some x =>
        match s.readSegment p x g es with
        | .wait => s
        | .fail s1 st => s1.endCopy p c g.seq st
        | .run s1 r => s1.takeChannel p k r
  | _, _ => s)

/-! ## MOVER_SEGMENT_DONE -/

/-- MOVER_SEGMENT_DONE (R193, R196): the blocks are written; encryption under the partition's memory key leaves what an agent
of the partition reads unchanged. The last segment completes its copy. -/
def execMoverSegmentDone (p k : Nat) (s : State) : Answer :=
  onPart p (match (s.getMover p).chans.get none k with
  | none => s
  | some r =>
    let m := s.getMover p
    let c := r.seg.core
    let s := s.putMover p { m with chans := m.chans.set none k none }
    match m.copy c r.seg.seq with
    | none => s
    | some x =>
      let v := moverCmd x.words
      if v.dkind = 2 then
        let s := s.addf (MOV_BYTES.COUNT p) r.bytes
        (s.queueTx (v.handle % 2 ^ 18) r.msgs).copyProgress p c r.seg.seq r.msgs.length
      else
        let (s, ok) := s.writeSet p r.blocks
        let s := (s.addf (MOV_BYTES.COUNT p) r.bytes).addf (TLM_PRUNED.ELEMS p c) r.pruned
        let s := s.addf (if x.carry then MOV_BLK_CARRY.COUNT p else MOV_BLK_REGEN.COUNT p) r.blocks.length
        if ok then s.copyProgress p c r.seg.seq 0 else s.endCopy p c r.seg.seq stCHECKFAIL)

end Sys2Proof.Machine
end

