-- ==== Sys2Proof/Machine/Transport.lean ====
section
/-!
DEFINITION. The Zenrix transport (R274–R288): route tables and park queues, sending against credit, receiving into windows,
acknowledgement, retransmission, tag failures and stale messages; and what Strata takes from the data messages it sees: the
replay ring (R360, R361) and the held mirror (R356).
-/
namespace Sys2Proof.Machine

/-! ## Ends of what waits on a stream -/

/-- The mover copies that wait on a context: its posted window, those behind it, sends waiting for a grant or for
acknowledgement. -/
def CtxAux.owners (a : CtxAux) (unackedToo : Bool) (owners : List (Nat × Nat)) : List (Nat × Nat) :=
  (match a.posted with
   | some w => [(w.core, w.seq)]
   | none => []) ++ a.recvWait ++ a.sends.map (fun e => (e.1, e.2.1)) ++ a.txq.filterMap TxReq.owner ++
  (if unackedToo then owners else [])

/-- End mover copies of a partition with a status. -/
def State.endCopies (s : State) (p st : Nat) (l : List (Nat × Nat)) : State :=
  l.eraseDups.foldl (fun s o => if ((s.getMover p).copy o.1 o.2).isSome then s.endCopy p o.1 o.2 st else s) s

/-- The mover copies that own an unacknowledged message of a context. -/
def State.ownersOf (s : State) (idx : Nat) : List (Nat × Nat) := (s.getAux idx).unacked.filterMap Unacked.owner

/-- End the started operations of the collective queue that a context belongs to. -/
def State.endOps (s : State) (p idx st : Nat) : State :=
  let qs := (s.colQueues p).filter (fun q => (s.getColq p q).ctxs.contains idx)
  qs.foldl (fun s q => (s.getColq p q).ops.foldl (fun s o => if o.started then s.colEnd p q o.seq st false else s) s) s

/-- End what the units of a partition do on a stream with a status (R277, R279, R288): the operations of its collective queue, an open
round of the dispatch unit (R224), a snapshot, an image or the mirror copy of Strata, and the host command whose handle it is. -/
def State.endUnits (s : State) (idx st : Nat) : State :=
  let x := s.getCtx idx
  let p := x.part
  let s := s.endOps p idx st
  let s := if p < 16 ∧ x.kind = 2 ∧ s.roundsOpen p then s.failRound p st else s
  let y := s.getStrata p
  let s := if p < 16 ∧ ((y.snapRun ∧ idx = s.rf (STR_CKPT_EP.HELD p) % 2 ^ 18) ∨ (y.suspRun ∧ idx = s.rf (STR_CKPT_EP.OWN p) % 2 ^ 18))
    then s.setStrata p { y with ckptStat := st } else s
  let s := if p < 16 ∧ x.kind = 3 ∧ idx = s.rf (STR_BUDDY.HANDLE p) % 2 ^ 18
    then s.setStrata p { s.getStrata p with mirrorLost := true, clean := [] } else s
  s.hostDone idx st

/-- End what uses a context with a status: mover copies and what the other units do on it (R277, R279). -/
def State.endUsers (s : State) (idx st : Nat) : State :=
  let p := (s.getCtx idx).part
  let parked := (s.getPark p).filterMap (fun e => if e.1 = idx then e.2.owner else none)
  (s.endCopies p st ((s.getAux idx).owners true (s.ownersOf idx) ++ parked)).endUnits idx st

/-- Close a context: STATE becomes CLOSED, nothing of it is sent, parked or awaited any more, and what uses it ends with a
status. -/
def State.closeCtx (s : State) (idx st : Nat) : State :=
  let s := s.endUsers idx st
  let s := s.dropParked (s.getCtx idx).part idx
  let a := s.getAux idx
  (s.setCtx idx { s.getCtx idx with state := 3, inflight := 0 }).setAux idx
    { rot := a.rot, lastMigr := a.lastMigr, migrWait := a.migrWait, dest := a.dest }

/-! ## Route tables (R285–R288) -/

/-- Entry `r` of copy `c` of a partition's route table: CELL, POS and PART when VALID; a block that fails verification gives no
entry (R12). -/
def State.routeIn (s : State) (p c r : Nat) : Option (Nat × Nat × Nat) :=
  let a := s.rf (ZTP_RT_BASE.BASE p) + c * 0x02000000 + 8 * r
  if s.goodBlock p a then
    let e := leNat (s.bytes (memKey p a) 8)
    if bitOf e 22 then some (bits e 0 13, bits e 13 5, bits e 18 4) else none
  else none

/-- What a lookup answers: a destination, a message to park, or one to fail. -/
inductive Route where
  | to (cell pos part : Nat)
  | external
  | park
  | none
deriving DecidableEq, Repr

/-- Resolve the peer of a context (R281, R285–R288). -/
def State.routeOf (s : State) (idx : Nat) : Route :=
  let x := s.getCtx idx
  match (s.getAux idx).dest with
  | some (c, q) => .to c q 0
  | none =>
    if x.peerKind = 0 then .to s.ownCell s.ownPos (x.peerId % 16)
    else if x.peerKind = 2 then .external
    else
      let act := s.rf (ZTP_RT_CTRL.ACTIVE x.part)
      match s.routeIn x.part act x.peerId with
      | some (c, q, k) => .to c q k
      | none => if (s.routeIn x.part (1 - act) x.peerId).isSome then .park else .none

/-! ## Sending (R276, R278, R283, R287) -/

/-- The message that carries a request on a stream (R274). -/
def State.msgOf (s : State) (idx : Nat) (r : TxReq) (cell pos part : Nat) : Msg :=
  let x := s.getCtx idx
  { dhandle := x.peerHandle, epoch := x.peerEpoch, mtype := r.mtype, seq := x.txSeq, nblk := r.blocks.length, offset := r.offset
    tstamp := bits s.now 18 16, dcell := cell, dpos := pos, dpart := part, scell := s.ownCell, spos := s.ownPos
    spart := x.part % 16, blocks := r.blocks, checks := r.checks, tagOk := true }

/-- Send a request of a stream: SEQ, INFLIGHT and CREDIT move and the message is kept until it is acknowledged. -/
def State.sendMsg (s : State) (idx : Nat) (r : TxReq) (m : Msg) : State :=
  let x := s.getCtx idx
  let a := s.getAux idx
  let s := s.setCtx idx { x with
    txSeq := (x.txSeq + 1) % 2 ^ 48, inflight := x.inflight + 1, credit := x.credit - r.blocks.length
    txAcked := if a.unacked = [] then x.txSeq else x.txAcked }
  let (s, via) := s.sendTo idx m
  let a := s.getAux idx
  s.setAux idx { a with unacked := a.unacked ++ [⟨m, s.now, s.now, r.owner, via, r.parked⟩] }

/-- Take the oldest request off a stream. -/
def State.popTx (s : State) (idx : Nat) : State := s.setAux idx { s.getAux idx with txq := (s.getAux idx).txq.tail }

/-- Put a request that waits for the route-table swap into the park queue (R287). -/
def State.parkMsg (s : State) (p idx : Nat) (r : TxReq) : State :=
  let l := s.getPark p ++ [(idx, { r with parked := true })]
  let s := (s.setPark p l).wf (ZTP_PARK.DEPTH p) l.length
  if r.parked then s else s.inc (ZTP_PARK.PARKED p)

/-- A request whose rank no copy of the route table knows: its handle completes CHECKFAIL (R288), the mover copy it belongs to, with what
else that copy wants to send, or what its unit does. -/
def State.failSend (s : State) (p idx : Nat) (r : TxReq) : State :=
  match r.owner with
  | some o =>
    let a := s.getAux idx
    (s.setAux idx { a with txq := a.txq.filter (fun t => t.owner != r.owner) }).endCopies p stCHECKFAIL [o]
  | none => s.endUnits idx stCHECKFAIL

/-- Send a request of a stream where its peer is found, park it, or fail it (R285–R288); answers none where it must wait: for credit, or
for room in the park queue. A request that waits there is looked up again with `parked`. -/
def State.trySend (s : State) (idx : Nat) (r : TxReq) : Option State :=
  let x := s.getCtx idx
  if x.credit < r.blocks.length then none
  else match s.routeOf idx with
  | .to c q k => some (s.sendMsg idx r (s.msgOf idx r c q k))
  | .external => some (s.sendMsg idx r (s.msgOf idx r 0 0 0))
  | .park => if 256 ≤ (s.getPark x.part).length then none else some (s.parkMsg x.part idx r)
  | .none => some (s.failSend x.part idx r)

/-- MESSAGE_SEND (R282, R283, R287, R288): the oldest request of the stream, against credit; in a local replay a data message of
the job is counted and not sent, and a grant or a close is not sent either (R362); while a suspend image is taken no new data message is sent (R373). -/
def execMessageSend (idx : Nat) (s : State) : Answer :=
  if 2 ^ 18 ≤ idx then .fault .noSuchUnit
  else .next (
    let x := s.getCtx idx
    match (s.getAux idx).txq with
    | [] => s
    | r :: _ =>
      if x.state ≠ 1 then s
      else if x.part < 16 ∧ (s.getStrata x.part).suspRun ∧ x.kind ≠ 4 then s
      else if x.part < 16 ∧ (s.getStrata x.part).replay.isSome ∧ r.mtype = 0 ∧ x.kind ≠ 4 then
        let s := (s.popTx idx).inc (STR_SUPP.COUNT x.part)
        match r.owner with
        | some o => s.copyProgress x.part o.1 o.2 0
        | none => s
      else if x.part < 16 ∧ (s.getStrata x.part).replay.isSome ∧ (x.kind = 0 ∨ x.kind = 1 ∨ x.kind = 2) then s.popTx idx
      else ((s.popTx idx).trySend idx r).getD s)

/-- Put a request that has been parked ahead of the later messages of its stream (R287). -/
def State.requeue (s : State) (idx : Nat) (r : TxReq) : State :=
  let a := s.getAux idx
  s.setAux idx { a with txq := a.txq.takeWhile TxReq.parked ++ [r] ++ a.txq.dropWhile TxReq.parked }

/-- After a swap the parked messages are looked up again in park order, and each goes ahead of the later ones of its stream (R287): one
that cannot be sent at once stays first there. -/
def State.unpark (s : State) (p : Nat) : State :=
  let l := s.getPark p
  let s := (s.setPark p []).wf (ZTP_PARK.DEPTH p) 0
  l.foldl (fun s e =>
    if (s.getAux e.1).txq.any TxReq.parked then s.requeue e.1 e.2 else (s.trySend e.1 e.2).getD (s.requeue e.1 e.2)) s

/-- Whether messages that have waited in the park queue are not yet delivered (R287). -/
def State.parkedOut (s : State) (p : Nat) : Bool :=
  (s.ctxsOf p).any (fun i => (s.getAux i).txq.any TxReq.parked || (s.getAux i).unacked.any Unacked.parked)

/-- An armed route table becomes active (R286). -/
def State.swapRoutes (s : State) (p : Nat) : State :=
  if s.rf (ZTP_RT_CTRL.SWAP_ARM p) = 0 then s
  else
    let s := (s.wf (ZTP_RT_CTRL.ACTIVE p) (1 - s.rf (ZTP_RT_CTRL.ACTIVE p))).wf (ZTP_RT_CTRL.SWAP_ARM p) 0
    (s.inc (ZTP_RT_CTRL.SWAPS p)).unpark p

/-! ## What every received message must pass (R38, R47, R277, R280) -/

/-- A message whose tag fails (R277): counted, recorded, and the sixteenth within 1 s closes the context. `src` packs the source
as H3 does, from bit 0: cell, position, partition. -/
def State.tagFailure (s : State) (idx src : Nat) : State :=
  let x := s.getCtx idx
  let s := s.setCtx idx { x with authFail := Nat.min (x.authFail + 1) 65535 }
  let s := if x.part < 16 then s.inc (ZTP_AUTHFAIL.COUNT x.part) else s
  let s := s.raise
    { unit := s.transportUnit, cls := .perm, code := 0x68, part := if x.part < 16 then some x.part else none
      handle := s.handleOf idx, epoch := x.epoch
      synd := [(bits src 0 13, 2), (bits src 13 5, 1), (bits src 18 4, 1)] }
  let a := s.getAux idx
  let ts := s.now :: a.authTimes.filter (fun t => decide (s.now < t + 100000000))
  let s := s.setAux idx { a with authTimes := ts }
  if 16 ≤ ts.length then s.closeCtx idx stCHECKFAIL else s

/-- Count a stale completion (R40, R280). -/
def State.staleMsg (s : State) (idx : Nat) : State :=
  let x := s.getCtx idx
  let s := s.setCtx idx { x with stale := Nat.min (x.stale + 1) 65535 }
  if x.part < 16 then s.inc (ZTP_STALE.COUNT x.part) else s

/-- Whether a message is too old by its time stamp (R280). -/
def State.tooOld (s : State) (tstamp : Nat) : Bool := decide (38 ≤ (bits s.now 18 16 + 65536 - tstamp % 65536) % 65536)

/-- Whether a handle names a context that is not free (R38). -/
def State.liveHandle (s : State) (h : Nat) : Bool :=
  let x := s.getCtx (h % 2 ^ 18)
  decide (h / 2 ^ 18 % 2 ^ 14 ≠ 0) && decide (h / 2 ^ 18 % 2 ^ 14 = x.gen) && decide (x.state ≠ 0)

/-- Whether the grants and acknowledgements of a context carry no tag: those of external endpoints (R426). -/
def State.unsealed (s : State) (idx : Nat) : Bool := (s.getCtx idx).peerKind == 2

/-- The source of a message as a record names it, packed as H3 does from bit 0: cell, position, partition. -/
def msgSrc (m : Msg) : Nat := m.scell + m.spos * 2 ^ 13 + m.spart * 2 ^ 18

/-- What a received message is found to be before its content counts: dropped, or for its context. One for a partition that is OFF, in
RESET or in CONFIG is dropped and counted there, whatever its handle (R47); so is one whose handle no context of the partition answers
to (R38). -/
def State.admitMsg (s : State) (m : Msg) : State × Bool :=
  let idx := m.dhandle % 2 ^ 18
  let x := s.getCtx idx
  let own := s.liveHandle m.dhandle && decide (16 ≤ x.part)
  if !own ∧ [psOFF, psRESET, psCONFIG].contains (s.pstate (m.dpart % 16)) then (s.inc (ZTP_STALE.COUNT (m.dpart % 16)), false)
  else if !s.liveHandle m.dhandle ∨ (!own ∧ x.part ≠ m.dpart % 16) then (s, false)
  else if !(m.tagOk || (m.mtype != 0 && s.unsealed idx)) then (s.tagFailure idx (msgSrc m), false)
  else if m.epoch % 65536 ≠ x.epoch ∨ s.tooOld m.tstamp then (s.staleMsg idx, false)
  else if x.state ≠ 1 then (s, false)
  else (s, true)

/-! ## Receiving data (R275, R278, R282) -/

/-- The addresses of a data message's blocks in the window of its context; none when a block lies outside. -/
def State.windowAddrs (s : State) (idx offset n : Nat) : Option (List Nat) :=
  let x := s.getCtx idx
  if offset % 256 ≠ 0 then none
  else match (s.getAux idx).posted with
  | some w => if offset / 256 + n ≤ w.blocks.length then some (((w.blocks.drop (offset / 256)).take n).map (· * 256)) else none
  | none => if x.standing ∧ offset / 256 + n ≤ x.winLen then some (blocksFrom (x.winBase + offset) n) else none

/-- Write blocks with the check words they carry (R275). A block of a protected copy of the route table is refused with a bus error
(R286). -/
def State.placeBlocks (s : State) (p : Nat) : List (Nat × List Byte × Word32) → State × Bool
  | [] => (s, true)
  | (a, b, w) :: l =>
    let (s1, ok1) :=
      if s.lost p a then (s, false) else if s.rtProtected p a then (s.busErr p a, false) else s.writeBlock p a b w
    let (s2, ok2) := s1.placeBlocks p l
    (s2, ok1 && ok2)

/-- Advance RX_SEQ over what has arrived. -/
def rxAdvance : Nat → Nat → Nat → Nat × Nat
  | 0, sq, m => (sq, m)
  | n + 1, sq, m => if m % 2 = 1 then rxAdvance n ((sq + 1) % 2 ^ 48) (m / 2) else (sq, m)

/-- Mark a SEQ as arrived. -/
def Ctx.arrived (x : Ctx) (k : Nat) : Ctx :=
  let (sq, m) := rxAdvance 32 x.rxSeq (Nat.lor x.rxMap (2 ^ k))
  { x with rxSeq := sq, rxMap := m }

/-- Acknowledge cumulatively to the sender of message `m`: the highest SEQ received in order. An acknowledgement takes no number of its
stream and is not acknowledged (R278; log entry 82). -/
def State.ackUp (s : State) (idx : Nat) (m : Msg) : State :=
  let x := s.getCtx idx
  if x.rxSeq = 0 then s
  else
    let r : TxReq := { mtype := 2, offset := 0, blocks := [], checks := [], owner := none }
    (s.sendTo idx { s.msgOf idx r m.scell m.spos m.spart with seq := x.rxSeq - 1 }).1

/-- The step whose messages Strata records (R360): the one after the last boundary. -/
def State.curStep (s : State) (p : Nat) : Nat := s.rf (STR_STEP.STEP p) + 1

/-- The recording of a slot of the replay ring. -/
def Strata.slot (x : Strata) (k : Nat) : List RingMsg := if k = 0 then x.slot0 else x.slot1

/-- The overflow flag and the KiB of a slot. -/
def ringOvf (p k : Nat) : Fld := if k = 0 then STR_RING_USE.OVF0 p else STR_RING_USE.OVF1 p
def ringUsed (p k : Nat) : Fld := if k = 0 then STR_RING_USE.USED0 p else STR_RING_USE.USED1 p

/-- The bytes a slot's messages take. -/
def ringSize (l : List RingMsg) : Nat := (l.map (fun m => Config.ringBytes m.blocks.length)).sum

/-- Record a received job data message in the replay ring (R360); one that does not fit sets OVF, stops the recording of the
step and raises PERM 0x72 (R361). -/
def State.ringRecord (s : State) (p : Nat) (r : RingMsg) : State :=
  let k := s.curStep p % 2
  let x := s.getStrata p
  let len := s.rf (STR_RING_LEN.LEN p)
  if len = 0 ∨ s.rf (ringOvf p k) = 1 then s
  else
    let l := x.slot k ++ [r]
    if len / 2 < ringSize l then
      (s.wf (ringOvf p k) 1).raise
        { unit := unitId p 7 0, cls := .perm, code := 0x72, part := some p,
          synd := [(s.curStep p, 8), (k, 1), (Config.ringBytes r.blocks.length, 6)] }
    else
      (s.setStrata p (if k = 0 then { x with slot0 := l } else { x with slot1 := l })).wf (ringUsed p k) ((ringSize l + 1023) / 1024)

/-- Whether a context is the stream whose window is the held mirror (R353). -/
def State.isHeldMirror (s : State) (idx : Nat) : Bool :=
  let x := s.getCtx idx
  decide (x.part < 16) && x.standing && decide (x.kind = 3) && decide (x.winBase ≠ 0) &&
    decide (x.winBase = s.rf (STR_MHELD.BASE x.part))

/-- Rewrite the header block of the held mirror (R354), with a new check word: it is read and verified first, and one that fails is
recorded and stays (R12). Answers whether it was written. -/
def State.putHeld (s : State) (p : Nat) (f : List Byte → List Byte) : State × Bool :=
  let a := s.rf (STR_MHELD.BASE p)
  if s.blockOk p a then s.writeBlock p a (f (s.block p a)) (checkWord (f (s.block p a))) .strata
  else (s.checkFailRec p (unitId p 7 0) a, false)

/-- Set the state byte of the held mirror's header. -/
def State.heldState (s : State) (p st : Nat) : State :=
  let (s, ok) := s.putHeld p (fun b => b.set 8 (BitVec.ofNat 8 st))
  if ok then s.wf (STR_STATUS.HELD p) st else s

/-- Once every block of the mirror copy up to its header has arrived, the buddy writes COMPLETE (R356). -/
def State.heldArrived (s : State) (idx : Nat) : State :=
  let x := s.getCtx idx
  match (s.getStrata x.part).heldHdr with
  | some h => if h < x.rxSeq then (s.heldState x.part 2).setStrata x.part { s.getStrata x.part with heldHdr := none } else s
  | none => s

/-- Whether a context is a vote stream (chapter 11), whose window of four blocks is Assay's own: what its blocks say is
VOTE_BLOCK_RECEIVE. -/
def State.isVote (s : State) (idx : Nat) : Bool :=
  decide ((s.getCtx idx).part < 16) && (s.getAssay (s.getCtx idx).part).ctxs.contains idx

/-- What Strata and the window's owner take from a data message that has been placed. -/
def State.afterPlace (s : State) (idx : Nat) (m : Msg) (addrs : List Nat) (held : Bool) (ok : Bool) : State :=
  let x := s.getCtx idx
  let p := x.part
  if held then
    let s := if m.offset = 0 ∧ m.nblk = 1
      then s.setStrata p { s.getStrata p with heldHdr := some m.seq } else s
    (s.heldArrived idx).queueGrant idx m.nblk
  else if s.isVote idx then s.queueGrant idx m.nblk
  else
    let s := if p < 16 ∧ s.runs p ∧ x.kind ≠ 4 ∧ m.nblk ≠ 0
      then s.ringRecord p ⟨idx, m.seq, addrs.headD 0, m.blocks, m.checks, x.peerKind == 2 || x.kind == 0⟩ else s
    match (s.getAux idx).posted with
    | none => if x.kind = 1 ∧ ok then s.setAux idx { s.getAux idx with fresh := (s.getAux idx).fresh ++ addrs } else s
    | some w =>
      let left := w.left.filter (fun i => decide (i < m.offset / 256 ∨ m.offset / 256 + m.nblk ≤ i))
      if !ok then (s.closePosted idx).endCopies p stCHECKFAIL [(w.core, w.seq)]
      else if left = [] then (s.endCopies p stOK [(w.core, w.seq)]).closePosted idx
      else s.setAux idx { s.getAux idx with posted := some { w with left := left } }

/-- A data message outside its window (R282): discarded and counted; the receiving copy completes CHECKFAIL, and the sending end is told
(log entry 84). -/
def State.winViolation (s : State) (idx : Nat) : State :=
  let p := (s.getCtx idx).part
  let s := (if p < 16 then s.inc (ZTP_WINVIOL.COUNT p) else s).queueCtl idx 4 0
  match (s.getAux idx).posted with
  | some w => (s.closePosted idx).endCopies p stCHECKFAIL [(w.core, w.seq)]
  | none => s

/-- A numbered message arrives (R278): one from RX_SEQ to RX_SEQ + 31 that is new is for its owner; a duplicate is acknowledged again; a
later one is discarded. Answers how far ahead it is. -/
def State.arrive (s : State) (m : Msg) : State × Option Nat :=
  let idx := m.dhandle % 2 ^ 18
  let (s, go) := s.admitMsg m
  if !go then (s, none)
  else
    let x := s.getCtx idx
    let k := (m.seq + 2 ^ 48 - x.rxSeq) % 2 ^ 48
    if 2 ^ 47 ≤ k ∨ (k ≤ 31 ∧ bitOf x.rxMap k) then (s.ackUp idx m, none)
    else if 31 < k then (s, none)
    else (s, some k)

/-- Mark a message as arrived (RX_MAP, RX_SEQ). -/
def State.markIn (s : State) (idx k : Nat) : State := s.setCtx idx ((s.getCtx idx).arrived k)

/-- Whether SEQ `a` comes before `b`. -/
def seqBefore (a b : Nat) : Bool := decide (a ≠ b) && decide ((b + 2 ^ 48 - a % 2 ^ 48) % 2 ^ 48 < 2 ^ 47)

/-- Put a message among others in SEQ order. -/
def insertMsg (m : Msg) : List Msg → List Msg
  | [] => [m]
  | e :: l => if seqBefore m.seq e.seq then m :: e :: l else e :: insertMsg m l

/-- A message of a stream of the dispatch unit waits in its window, which is the unit's own buffer, until the unit takes it (R282; log entry
81); `k` is how far ahead it is. -/
def State.intoBox (s : State) (idx k : Nat) (m : Msg) : State :=
  let a := s.getAux idx
  if (s.getCtx idx).winLen < ((m :: a.inbox).map Msg.nblk).sum then s.winViolation idx
  else ((s.setAux idx { a with inbox := insertMsg m a.inbox }).markIn idx k).ackUp idx m

/-- A data message that is new: it is placed, marked and acknowledged. -/
def State.placeData (s : State) (idx k : Nat) (m : Msg) : State :=
  match (if m.nblk = 0 ∨ (s.isVote idx ∧ m.offset / 256 + m.nblk ≤ 4) then some [] else s.windowAddrs idx m.offset m.nblk) with
  | none => s.winViolation idx
  | some as =>
    let held := s.isHeldMirror idx
    let (s, ok) := s.placeBlocks (s.getCtx idx).part ((as.zip (m.blocks.zip m.checks)))
    ((s.markIn idx k).afterPlace idx m as held ok).ackUp idx m

/-! ## Grants, closes and acknowledgements -/

/-- A grant gives credit for the blocks of a window; it serves the oldest waiting send (R282). -/
def State.takeGrant (s : State) (idx blocks : Nat) : State :=
  let x := s.getCtx idx
  let a := s.getAux idx
  let give (s : State) : State := s.setCtx idx { s.getCtx idx with credit := Nat.min (x.credit + blocks) 65535 }
  match a.sends with
  | (c, q, n) :: r =>
    let s := s.setAux idx { a with sends := r }
    (if n = blocks then give s else s).serveSend x.part c q n blocks
  | [] =>
    let s := give s
    if x.standing ∨ x.kind ≠ 3 ∨ 16 ≤ x.part then s else s.setAux idx { a with grants := a.grants ++ [blocks] }

/-- The other end has met a window violation: what uses the stream here ends CHECKFAIL too (R282; log entry 84). -/
def State.takeClose (s : State) (idx : Nat) : State :=
  let p := (s.getCtx idx).part
  let s := match (s.getAux idx).posted with
    | some w => (s.closePosted idx).endCopies p stCHECKFAIL [(w.core, w.seq)]
    | none => s
  let a := s.getAux idx
  (s.endCopies p stCHECKFAIL (a.txq.filterMap TxReq.owner ++ s.ownersOf idx)).endUnits idx stCHECKFAIL

/-- GRANT_RECEIVE (R282): the blocks granted are OFFSET / 256 (log entry 82). -/
def execGrantReceive (m : Msg) (s : State) : Answer :=
  .next (
    let idx := m.dhandle % 2 ^ 18
    if m.mtype ≠ 1 then s
    else match s.arrive m with
    | (s, some k) => ((s.markIn idx k).takeGrant idx (m.offset / 256)).ackUp idx m
    | (s, none) => s)

/-- Take a cumulative acknowledgement (R278): every message up to SEQ is acknowledged; each counts for the copy that owns it. -/
def State.takeAck (s : State) (idx seq : Nat) : State :=
  let a := s.getAux idx
  let x := s.getCtx idx
  let old (u : Unacked) : Bool := decide ((seq % 2 ^ 48 + 2 ^ 48 - u.msg.seq) % 2 ^ 48 < 2 ^ 47)
  let gone := a.unacked.filter old
  let left := a.unacked.filter (fun u => !old u)
  let s := (s.setAux idx { a with unacked := left }).setCtx idx
    { x with inflight := left.length, txAcked := ((left.map (fun u => u.msg.seq)).headD x.txSeq) }
  gone.foldl (fun s u => match u.owner with
    | some o => s.copyProgress x.part o.1 o.2 0
    | none => s) s

/-- ACK_RECEIVE (R278). -/
def execAckReceive (m : Msg) (s : State) : Answer :=
  .next (
    if m.mtype ≠ 2 then s
    else match s.admitMsg m with
    | (s, true) => s.takeAck (m.dhandle % 2 ^ 18) m.seq
    | (s, false) => s)

/-- The UP uplink after that of port `i` in ascending plane order (R278). -/
def State.nextUplink (s : State) (i : Nat) : Option Nat :=
  (s.upUplinks.find? (fun k => decide (s.ztarget i < s.ztarget k))).or s.upUplinks.head?

/-- Send an unacknowledged message again: one that left on an uplink goes out on the next (R278). Answers the port plus 1. -/
def State.sendAgain (s : State) (idx : Nat) (u : Unacked) : State × Nat :=
  match (if u.via ≠ 0 ∧ s.zrole (u.via - 1) = roleUPLINK then s.nextUplink (u.via - 1) else none) with
  | some i => (s.sendOn i idx u.msg, i + 1)
  | none => s.sendTo idx u.msg

/-- RETRANSMIT_TIMEOUT (R278): an unacknowledged message is sent again as it was first sent. -/
def execRetransmitTimeout (idx seq : Nat) (s : State) : Answer :=
  if 2 ^ 18 ≤ idx then .fault .noSuchUnit
  else .next (
    match (s.getAux idx).unacked.find? (fun u => u.msg.seq == seq) with
    | none => s
    | some u =>
      let x := s.getCtx idx
      let (s, via) := (if x.part < 16 then s.inc (ZTP_RETX.COUNT x.part) else s).sendAgain idx u
      let a := s.getAux idx
      s.setAux idx { a with
        unacked := a.unacked.map (fun v => if v.msg.seq = seq then { v with last := s.now, via := via } else v) })

/-- MESSAGE_ACK_TIMEOUT (R279, R381, R382): the context closes, its handles complete ABORTED, and FATAL 0x69 against the peer
starts the abort wave; one of Bedrock's own streams concerns every job of the module. -/
def execMessageAckTimeout (idx : Nat) (s : State) : Answer :=
  if 2 ^ 18 ≤ idx then .fault .noSuchUnit
  else .next (
    let x := s.getCtx idx
    if (s.getAux idx).unacked = [] then s
    else
      let u := s.transportUnit
      let s := s.closeCtx idx stABORTED
      let s := s.raise
        { unit := u, cls := .fatal, code := 0x69, part := if x.part < 16 then some x.part else none
          handle := s.handleOf idx, epoch := x.epoch, synd := [(x.peerKind, 1), (x.peerId, 3)] }
      if x.part < 16 then s.startWave x.part waveFAULT u else s.abortJobs u)

end Sys2Proof.Machine
end

