-- ==== Sys2Proof/Machine/Route.lean ====
section
/-!
DEFINITION. The dispatch unit (R206–R224): routing lists and tables, opening a dispatch or return round, sending tokens and
end markers, staging, delivery in key order or arrival order, overflow and spilling, and the return of rows.
-/
namespace Sys2Proof.Machine

/-- The unit ID of the dispatch unit. -/
def dspUnit (p : Nat) : Nat := unitId p 12 0

/-! ## Tables (R208–R211) -/

/-- Send-table entry `e` of the active copy: its handle when VALID. -/
def State.sendEntry (s : State) (p e : Nat) : Option Nat :=
  let w := s.rf (DSP_TXT.ENTRY p (s.rf (DSP_CTRL.ACTIVE p)) e)
  if e < 8192 ∧ bitOf w 32 then some (w % 2 ^ 32) else none

/-- The distinct valid handles of the active send table. -/
def State.sendHandles (s : State) (p : Nat) : List Nat := ((List.range 8192).filterMap (s.sendEntry p)).eraseDups

/-- The words of receive-table entry `j` of the active copy. -/
def State.recvWords (s : State) (p j : Nat) : List Word64 :=
  (List.range 8).map (fun w => BitVec.ofNat 64 (s.rf (DSP_RXT.W p (s.rf (DSP_CTRL.ACTIVE p)) j w)))

/-- The valid receive-table entries of the active copy. -/
def State.hostWords (s : State) (p : Nat) : List (List Word64) :=
  ((List.range 64).map (s.recvWords p)).filter (fun ws => fieldOf (wordAt ws 0) 0 0 == 1)

/-- Fields of a receive-table entry (R209). -/
def rxSpill (ws : List Word64) : Bool := fieldOf (wordAt ws 0) 1 1 == 1
def rxExpert (ws : List Word64) : Nat := fieldOf (wordAt ws 0) 28 16
def rxCap (ws : List Word64) : Nat := fieldOf (wordAt ws 0) 51 32
def rxSrc (ws : List Word64) : Nat := fieldOf (wordAt ws 1) 18 0
def rxSp (ws : List Word64) : Nat := fieldOf (wordAt ws 1) 50 32
def rxSlot (ws : List Word64) : Nat := fieldOf (wordAt ws 2) 15 0
def rxOut (ws : List Word64) : Nat := fieldOf (wordAt ws 2) 31 16
def rxStage (ws : List Word64) : Nat := fieldOf (wordAt ws 4) 47 0
def rxMeta (ws : List Word64) : Nat := fieldOf (wordAt ws 3) 47 0

/-- An armed pair of dispatch tables becomes active (R211). -/
def State.swapTables (s : State) (p : Nat) : State :=
  if s.rf (DSP_CTRL.SWAP_ARM p) = 0 then s
  else ((s.wf (DSP_CTRL.ACTIVE p) (1 - s.rf (DSP_CTRL.ACTIVE p))).wf (DSP_CTRL.SWAP_ARM p) 0).inc (DSP_CTRL.SWAPS p)

/-! ## Peers -/

/-- The job rank of the partition at the other end of a stream (R35): that of a partition of this module is in its MOV_RANK. -/
def State.peerRank (s : State) (idx : Nat) : Nat :=
  let x := s.getCtx idx
  if x.peerKind = 0 then s.rankOf (x.peerId % 16) else x.peerId

/-- The routed-token streams of a partition. -/
def State.tokenStreams (s : State) (p : Nat) : List Nat := (s.ctxsOf p).filter (fun i => (s.getCtx i).kind == 2)

/-! ## Rows -/

/-- The operand of a descriptor the dispatch unit uses: in stacked memory, of elements. -/
def State.dspOpnd (s : State) (p i : Nat) : Opnd := s.opnd p 0 i

/-- Whether descriptor `i` is one the dispatch unit can use for rows: valid, in stacked memory, not INDEX. -/
def State.rowDescOk (s : State) (p i : Nat) : Bool :=
  s.idxOk p 0 i && !(s.dspOpnd p i).d.tile && !(s.dspOpnd p i).d.index

/-- Bits as whole bytes, first element lowest. -/
def packCodes (w : Nat) (l : List Nat) : Nat := l.foldr (fun c n => c % 2 ^ w + 2 ^ w * n) 0

/-- The bytes of a row as it travels: the element codes packed, then one scale byte per MX block. -/
def rowBytes (d : Desc) (es : List Elem) : List Byte :=
  leBytes (ceilDiv (es.length * d.ebits) 8) (packCodes d.ebits (es.map Elem.code)) ++
  (if d.mx then (List.range (ceilDiv es.length 32)).map (fun b => BitVec.ofNat 8 ((es.getD (32 * b) ⟨0, 0⟩).scale)) else [])

/-- The elements of a row of `d` that travelled as bytes. -/
def rowElems (d : Desc) (bs : List Byte) : List Elem :=
  let n := d.cols
  let k := ceilDiv (n * d.ebits) 8
  let v := leNat (bs.take k)
  (List.range n).map (fun i => ⟨bits v (i * d.ebits) d.ebits, (bs.getD (k + i / 32) 0#8).toNat⟩)

/-- The elements of a row of +0. -/
def zeroRow (d : Desc) : List Elem :=
  (List.range d.cols).map (fun _ => ⟨0, (mxBlock d.fmt 0 (List.replicate 32 (Val.fin false 0 0)) (List.replicate 32 0)).1⟩)

/-- Read row `r` of descriptor `i`. -/
def State.readRow (s : State) (p i r : Nat) : ReadAns :=
  s.readList (dspUnit p) (s.dspOpnd p i) (region r 0 1 (s.dspOpnd p i).d.cols)

/-- Write row `r` of descriptor `i`; answers whether it was done. -/
def State.writeRow (s : State) (p i r : Nat) (es : List Elem) : State × Nat :=
  let o := s.dspOpnd p i
  match s.build (dspUnit p) o ((List.range es.length).map (fun c => ⟨r, c, es.getD c ⟨0, 0⟩, false⟩)) with
  | .fail s st => (s, st)
  | .ok s b =>
    match b.t.find? (fun e => s.rtProtected p (e.1 * 256)) with
    | some e => (s.busErr p (e.1 * 256), stCHECKFAIL)
    | none =>
      let (s, ok) := s.writeSet p b.t
      (s, if ok then stOK else stCHECKFAIL)

/-- Whether row `r` of descriptor `i` lies in a block that the mover is writing (R195): reading it waits. -/
def State.rowWaits (s : State) (p i r : Nat) : Bool :=
  let o := s.dspOpnd p i
  ((region r 0 1 o.d.cols).filterMap o.readLocals).any (fun l => (s.touched o l.1).any (s.interlocked p))

/-- Write bytes into blocks of the data region from address `a` on, each read, verified and written with a new check word. The first that
cannot be written ends it: a bus error (R20, R30, R286), a failed channel (R252), a block that does not verify (R12). Answers the
status. -/
def State.mergeBytes (s : State) (p a : Nat) : Nat → List Byte → State × Nat
  | 0, _ => (s, stOK)
  | n + 1, bs =>
    if bs = [] then (s, stOK)
    else if !s.reach p a ∨ s.rtProtected p a then (s.busErr p a, stCHECKFAIL)
    else if s.lost p a then (s, stABORTED)
    else if !s.blockOk p a then (s.checkFailRec p (dspUnit p) a, stCHECKFAIL)
    else
      let k := 256 - a % 256
      let (s, ok) := s.mergeWrite p a (bs.take k)
      if ok then s.mergeBytes p (a + k) n (bs.drop k) else (s, stCHECKFAIL)

/-- Slot metadata (R217) as 16 bytes. -/
def metaBytes (m : TokenMsg) : List Byte :=
  leBytes 8 (m.token % 2 ^ 40 + m.choice % 8 * 2 ^ 40 + bit m.spilled * 2 ^ 43 + 2 ^ 63) ++
  leBytes 8 (m.gate.toNat + m.sender % 2 ^ 22 * 2 ^ 32)

/-- Write the metadata of a slot. -/
def State.writeMeta (s : State) (p : Nat) (ws : List Word64) (slot : Nat) (bs : List Byte) : State × Nat :=
  s.mergeBytes p (rxMeta ws + 16 * slot) 1 bs

/-! ## Opening a dispatch round (R206, R207, R213) -/

/-- The routing entry of sixteen 32-bit words. -/
def routeEntry (ws : List Nat) : RouteEntry :=
  let w (i : Nat) : Nat := ws.getD (2 * i) 0 + ws.getD (2 * i + 1) 0 * 2 ^ 32
  { token := bits (w 0) 0 40, k := bits (w 0) 40 4, spillx := bits (w 0) 44 16, row := bits (w 1) 0 40
    exps := (List.range 8).map (fun j => bits (w (2 + j / 4)) (16 * (j % 4)) 16)
    gates := (List.range 8).map (fun j => BitVec.ofNat 32 (ws.getD (8 + j) 0)) }

/-- Whether the reserved bits of an entry's words are 0. -/
def routeReserved (ws : List Nat) : Bool := bits (ws.getD 1 0) 28 4 == 0 && bits (ws.getD 3 0) 8 24 == 0

/-- The entries of a list of index words. -/
def routeEntries : Nat → List Nat → List (List Nat)
  | 0, _ => []
  | n + 1, l => l.take 16 :: routeEntries n (l.drop 16)

/-- Values strictly ascend. -/
def ascends : List Nat → Bool
  | a :: b :: l => decide (a < b) && ascends (b :: l)
  | _ => true

/-- No value twice. -/
def distinct : List Nat → Bool
  | [] => true
  | a :: l => !l.contains a && distinct l

/-- The conditions of R207 on a list. -/
def State.listValid (s : State) (p : Nat) (l : List RouteEntry) : Bool :=
  l.all (fun e => decide (1 ≤ e.k) && decide (e.k ≤ 8) && distinct (e.exps.take e.k) &&
    (e.exps.take e.k).all (fun x => (s.sendEntry p x).isSome)) && ascends (l.map RouteEntry.token)

/-- The token-choices of a list, in order, as (entry, choice). -/
def choicesOf (l : List RouteEntry) : List (RouteEntry × Nat) := l.flatMap (fun e => (List.range e.k).map (fun j => (e, j)))

/-- The bytes of a row of a descriptor. -/
def Desc.rowSize (d : Desc) : Nat := ceilDiv (d.cols * d.ebits) 8 + (if d.mx then ceilDiv d.cols 32 else 0)

/-- Whether a slot descriptor is as R209 says: REPL, in stacked memory, with CAP rows. -/
def State.slotDescOk (s : State) (p : Nat) (ws : List Word64) (i : Nat) : Bool :=
  let d := (s.dspOpnd p i).d
  s.rowDescOk p i && d.dims.all (fun x => x.kind == 0) && d.rows == rxCap ws

/-- Whether a hosting entry holds permitted values: CAP and the slot input descriptor. -/
def State.hostOk (s : State) (p : Nat) (ws : List Word64) : Bool := decide (1 ≤ rxCap ws) && s.slotDescOk p ws (rxSlot ws)

/-- Whether DSP_GO is refused (R213, R224). -/
def State.goRefused (s : State) (p : Nat) : Bool := s.roundsOpen p || s.rf (DSP_STATUS.ERR p) == 1

/-! ## What travels on a stream of the dispatch unit (R214; log entry 81) -/

/-- Bytes as whole blocks of 256, the last filled with zeros. -/
def cutBlocks (bs : List Byte) : List (List Byte) :=
  (List.range (ceilDiv bs.length 256)).map (fun i =>
    let b := (bs.drop (256 * i)).take 256
    b ++ List.replicate (256 - b.length) 0#8)

/-- The row bytes of a token that one message carries beside its 32-byte head. -/
def partBytes : Nat := 4064

/-- The head of a part of a token or a returned row: what R214 names, the row's length and the place of this part in it. -/
def tokenHead (m : TokenMsg) (ret : Bool) (off : Nat) : List Byte :=
  leBytes 4 m.rid ++ leBytes 5 m.token ++ leBytes 1 (m.choice % 8 + 8 * bit m.spilled + 16 * bit ret) ++ leBytes 2 m.expert ++
  leBytes 2 m.spillx ++ leBytes 2 0 ++ leBytes 4 m.gate.toNat ++ leBytes 4 m.sender ++ leBytes 4 m.row.length ++ leBytes 4 off

/-- The messages of a token or a returned row. -/
def tokenMsgs (m : TokenMsg) (ret : Bool) : List TxReq :=
  (List.range (Nat.max 1 (ceilDiv m.row.length partBytes))).map (fun i =>
    let bs := cutBlocks (tokenHead m ret (partBytes * i) ++ (m.row.drop (partBytes * i)).take partBytes)
    { mtype := 0, offset := 0, blocks := bs, checks := bs.map checkWord, owner := none })

/-- A part of a token as it has come: what the head says, the whole row's length, the part's place, and its bytes in `tok.row`. -/
structure TokenPart where
  tok : TokenMsg
  ret : Bool
  len : Nat
  off : Nat
deriving DecidableEq, Repr

/-- Read a part. -/
def tokenPart (bs : List Byte) : TokenPart :=
  let n (i k : Nat) : Nat := leNat ((bs.drop i).take k)
  let c := n 9 1
  { tok := ⟨n 0 4, n 4 5, c % 8, n 20 4, BitVec.ofNat 32 (n 16 4), n 10 2, bitOf c 3, n 12 2,
      (bs.drop 32).take (Nat.min partBytes (n 24 4 - n 28 4))⟩
    ret := bitOf c 4, len := n 24 4, off := n 28 4 }

/-- An end marker: kind 0 of a dispatch round, 1 of its spill phase (R219), 2 of a return round (R223). -/
def markerMsg (rid kind : Nat) : TxReq :=
  { mtype := 3, offset := 256 * (rid % 2 ^ 32) + 2 ^ 40 * kind, blocks := [], checks := [], owner := none }
def markerRid (m : Msg) : Nat := m.offset / 256 % 2 ^ 32
def markerKind (m : Msg) : Nat := m.offset / 2 ^ 40

/-- Send an end marker on every distinct valid handle of the active send table (R214, R219, R223); a handle that is not open ends the round
STALE. -/
def State.sendMarkers (s : State) (p kind : Nat) : State :=
  let hs := s.sendHandles p
  if hs.any (fun h => !s.handleOk p h) then s.failRound p stSTALE
  else hs.foldl (fun s h => s.queueTx (h % 2 ^ 18) [markerMsg (s.rf (DSP_STATUS.CUR_RID p)) kind]) s

/-! ## Staging (R216, R221) -/

/-- The key of a token (R216). -/
def keyLt (a b : TokenMsg) : Bool :=
  decide (a.token < b.token) || (a.token == b.token && (decide (a.choice < b.choice) ||
    (a.choice == b.choice && decide (a.sender < b.sender))))

/-- The staged token with the least key. -/
def leastKey : List Staged → Option Staged
  | [] => none
  | m :: l => match leastKey l with
    | none => some m
    | some n => if keyLt n.tok m.tok then some n else some m

/-- How many sources have ended or have a token staged. -/
def sourcesKnown (ended : List Nat) (l : List Staged) : Nat := (ended ++ l.map Staged.src).eraseDups.length

/-- The place for one more token of a source among those staged for a hosting entry: the source's part, or a free one where none of its
tokens is staged, and the first free row of it. None is free: the stream waits (R216; log entry 81). -/
def stagePlace (l : List Staged) (src parts : Nat) : Option (Nat × Nat) :=
  let part := match l.find? (fun t => t.src == src) with
    | some t => some t.part
    | none => (List.range parts).find? (fun k => !l.any (fun t => t.part == k))
  part.bind (fun k =>
    ((List.range 64).find? (fun r => !l.any (fun t => t.part == k && t.slot == r))).map (fun r => (k, r)))

/-- Whether something of round `rid` is for the receiver's current round. -/
def State.ridNow (s : State) (p rid : Nat) : Bool := (s.getDisp p).opened && rid % 2 ^ 32 == s.rf (DSP_STATUS.CUR_RID p)

/-- Whether something of round `rid` is stale. -/
def State.ridStale (s : State) (p rid : Nat) : Bool := (s.getDisp p).opened && ridOlder rid (s.rf (DSP_STATUS.CUR_RID p))

/-- Stage a token whose row has come whole (R216): its row goes to the part of its source in the staging area of its expert's hosting
entry. None: the part is full and the stream waits. A token that no hosting entry takes, or for a round whose receive side is closed, is
discarded (log entry 81). -/
def State.stageToken (s : State) (p src : Nat) (m : TokenMsg) : Option State :=
  if s.ridNow p m.rid ∧ s.rf (DSP_STATUS.RECV_OPEN p) = 0 then some s
  else match (s.hostWords p).find? (fun ws => rxExpert ws == m.expert) with
  | none => some s
  | some ws =>
    let d := s.getDisp p
    (stagePlace (d.staged.filter (fun t => t.tok.expert == m.expert)) src (rxSrc ws)).map (fun (k, r) =>
      let size := (s.dspOpnd p (rxSlot ws)).d.rowSize
      let a := rxStage ws + (64 * k + r) * size
      if m.row.length ≠ size then (if s.ridNow p m.rid then s.failRound p stCHECKFAIL else s)
      else
        let (s, st) := s.mergeBytes p a (m.row.length + 1) m.row
        if st ≠ stOK then (if s.ridNow p m.rid then s.failRound p st else s)
        else s.setDisp p { s.getDisp p with staged := (s.getDisp p).staged ++ [⟨{ m with row := [] }, src, k, r, a, m.row.length⟩] })

/-- Read a staged row, verified. -/
def State.stagedRow (s : State) (p : Nat) (t : Staged) : State × Nat × List Byte :=
  let (s, st) := s.verify p (dspUnit p) (blocksOfAddrs (spanBlocks t.addr t.len))
  (s, st, s.bytes (memKey p t.addr) t.len)

/-- Whether a staged row lies in a block that the mover is writing (R195). -/
def State.stagedWaits (s : State) (p : Nat) (t : Staged) : Bool := (spanBlocks t.addr t.len).any (s.interlocked p)

/-- The tokens staged for a hosting entry in the current round, of its primary or its spill phase. -/
def State.stagedFor (s : State) (p : Nat) (h : Hosting) (spilled : Bool) : List Staged :=
  (s.getDisp p).staged.filter (fun t => t.tok.expert == rxExpert h.words && t.tok.spilled == spilled && s.ridNow p t.tok.rid)

/-! ## The receive side (R216–R222) -/

/-- Finish an entry's delivery: every slot not filled gets a row of +0 and metadata with VALID 0 (R220). -/
def State.fillSlots (s : State) (p : Nat) (ws : List Word64) (from' : Nat) : Nat → State × Nat
  | 0 => (s, stOK)
  | n + 1 =>
    let (s1, st1) := s.writeRow p (rxSlot ws) from' (zeroRow (s.dspOpnd p (rxSlot ws)).d)
    if st1 ≠ 0 then (s1, st1)
    else
      let (s2, st2) := s1.writeMeta p ws from' (leBytes 16 0)
      if st2 ≠ 0 then (s2, st2) else s2.fillSlots p ws (from' + 1) n

/-- Whether an entry's primary phase is over: every source has ended and nothing is staged. -/
def State.primaryOver (s : State) (p : Nat) (h : Hosting) : Bool :=
  (s.stagedFor p h false).isEmpty && decide (rxSrc h.words ≤ h.ended.length)

/-- Whether an entry's delivery is over: nothing spilled is staged and every spill end marker has come. -/
def State.hostOver (s : State) (p : Nat) (h : Hosting) : Bool :=
  s.primaryOver p h && (s.stagedFor p h true).isEmpty && decide (rxSp h.words ≤ (s.getDisp p).spillEnds.length)

/-- Finish the entries whose delivery is over. -/
def State.finishHosts (s : State) (p : Nat) : List Hosting → State × Nat × List Hosting
  | [] => (s, stOK, [])
  | h :: hs =>
    if h.finished ∨ !s.hostOver p h then
      let (s1, st, l) := s.finishHosts p hs
      (s1, st, { h with primaryDone := s.primaryOver p h } :: l)
    else
      let (s1, st1) := s.fillSlots p h.words h.filled (rxCap h.words - h.filled)
      if st1 ≠ 0 then (s1, st1, h :: hs)
      else
        let (s2, st, l) := s1.finishHosts p hs
        (s2, st, { h with primaryDone := true, finished := true } :: l)

/-- Bring the receive side up to date (R219, R220): after the primary phase of every entry the spill end markers go out; when
every entry has finished it closes. -/
def State.recvProgress (s : State) (p : Nat) : State :=
  if s.rf (DSP_STATUS.RECV_OPEN p) = 0 then s
  else
    let d := s.getDisp p
    let primary := d.hosts.all (s.primaryOver p)
    let s := if primary ∧ !d.spillSent then (s.sendMarkers p 1).wf (DSP_STATUS.SPILL_PHASE p) 1 else s
    if s.rf (DSP_STATUS.RECV_OPEN p) = 0 then s
    else
      let (s, st, hs) := s.finishHosts p d.hosts
      if st ≠ 0 then s.failRound p st
      else
        let s := s.setDisp p { s.getDisp p with hosts := hs, spillSent := d.spillSent || primary }
        if hs.all Hosting.finished then (s.wf (DSP_STATUS.RECV_OPEN p) 0).wf (DSP_STATUS.SPILL_PHASE p) 0 else s

/-- A source's end marker reaches every hosting entry. -/
def State.noteEnd (s : State) (p src : Nat) : State :=
  let d := s.getDisp p
  s.setDisp p { d with hosts := d.hosts.map (fun h => if h.ended.contains src then h else { h with ended := src :: h.ended }) }

/-! ## The return side (R223) -/

/-- The return round ends: every dropped choice gets a row of +0 (R223). -/
def State.closeReturn (s : State) (p : Nat) : State :=
  let d := s.getDisp p
  let rd := s.rf (DSP_RND2.RDESC p)
  let drops := (choicesOf d.list).filter (fun c => !d.returned.contains (c.1.token, c.2))
  let (s, st) := if rd = 0xFFFF then (s, stOK)
    else drops.foldl (fun (a : State × Nat) c =>
      if a.2 ≠ 0 then a else a.1.writeRow p rd (c.1.row * 8 + c.2) (zeroRow (a.1.dspOpnd p rd).d)) (s, stOK)
  if st ≠ 0 then s.failRound p st else s.wf (DSP_STATUS.RET_OPEN p) 0

/-- The partitions whose end markers a return round awaits: those the active send table leads to. -/
def State.returnPeers (s : State) (p : Nat) : List Nat := ((s.sendHandles p).map (fun h => s.peerRank (h % 2 ^ 18))).eraseDups

/-- The return round closes once every end marker has come. -/
def State.retProgress (s : State) (p : Nat) : State :=
  if s.rf (DSP_STATUS.RET_OPEN p) = 1 ∧ (s.returnPeers p).all (fun r => (s.getDisp p).retEnds.contains r) then s.closeReturn p else s

/-- An end marker for the return round. -/
def State.noteRetEnd (s : State) (p src : Nat) : State :=
  let d := s.getDisp p
  if d.retEnds.contains src then s else s.setDisp p { d with retEnds := src :: d.retEnds }

/-- A returned row is written to its row of the return buffer. -/
def State.takeRow (s : State) (p : Nat) (m : TokenMsg) : State :=
  let d := s.getDisp p
  let rd := s.rf (DSP_RND2.RDESC p)
  match d.list.find? (fun e => e.token == m.token) with
  | none => s
  | some e =>
    let od := (s.dspOpnd p rd).d
    let (s, st) := if rd = 0xFFFF then (s, stOK)
      else if m.row.length = od.rowSize then s.writeRow p rd (e.row * 8 + m.choice) (rowElems od m.row) else (s, stCHECKFAIL)
    if st ≠ 0 then s.failRound p st
    else s.setDisp p { s.getDisp p with returned := (m.token, m.choice) :: d.returned }

/-! ## Taking what has arrived (R216, R219, R221, R223) -/

/-- A token or a returned row whose parts have all come is staged, or written; none where it waits. -/
def State.takeToken (s : State) (p src : Nat) (ret : Bool) (m : TokenMsg) : Option State :=
  if ret then (if s.ridNow p m.rid ∧ s.rf (DSP_STATUS.RET_OPEN p) = 1 then some (s.takeRow p m) else none) else s.stageToken p src m

/-- A part of a token or of a returned row: a stale one is discarded, and counted with its first part; the rest are kept until the row is
whole. -/
def State.takePart (s : State) (p idx : Nat) (t : TokenPart) : Option State :=
  let have_ := if t.off = 0 then [] else (s.getAux idx).rowPart
  let row := have_ ++ t.tok.row
  if s.ridStale p t.tok.rid then some (if t.off = 0 then s.inc (DSP_STALE.COUNT p) else s)
  else if row.length < t.len then some (s.setAux idx { s.getAux idx with rowPart := row })
  else (s.takeToken p (s.peerRank idx) t.ret { t.tok with row := row }).map (fun s => s.setAux idx { s.getAux idx with rowPart := [] })

/-- An end marker: a stale one is discarded and counted, one for a newer round waits (R221), and so does one of a return round that is not
open yet. -/
def State.takeMarker (s : State) (p idx : Nat) (m : Msg) : Option State :=
  let src := s.peerRank idx
  if s.ridStale p (markerRid m) then some (s.inc (DSP_STALE.COUNT p))
  else if !s.ridNow p (markerRid m) then none
  else match markerKind m with
  | 2 => if s.rf (DSP_STATUS.RET_OPEN p) = 1 then some ((s.noteRetEnd p src).retProgress p) else none
  | 1 =>
    let d := s.getDisp p
    some (if s.rf (DSP_STATUS.RECV_OPEN p) = 0 ∨ d.spillEnds.contains src then s
      else (s.setDisp p { d with spillEnds := src :: d.spillEnds }).recvProgress p)
  | _ => some (if s.rf (DSP_STATUS.RECV_OPEN p) = 1 then (s.noteEnd p src).recvProgress p else s)

/-- A block of a message of the dispatch unit does not verify (R12): the record, and the open round ends CHECKFAIL. -/
def State.badPart (s : State) (p idx : Nat) (b : List Byte) (w : Word32) : State :=
  let s := s.raise
    { unit := unitId p 3 0, cls := .perm, code := 0x32, part := some p, handle := s.handleOf idx, epoch := (s.getCtx idx).epoch
      synd := [((checkWord b).toNat, 4), (w.toNat, 4)] }
  if s.roundsOpen p then s.failRound p stCHECKFAIL else s

/-- The dispatch unit takes a message of a stream; none where it must wait. -/
def State.takeItem (s : State) (p idx : Nat) (m : Msg) : Option State :=
  if m.mtype = 3 then s.takeMarker p idx m
  else match (m.blocks.zip m.checks).find? (fun e => checkWord e.1 != e.2) with
  | some e => some (s.badPart p idx e.1 e.2)
  | none => s.takePart p idx (tokenPart m.blocks.flatten)

/-- Take what waits on a stream, in SEQ order (R278), as far as it may be taken; the credit of what is taken goes back (R282). -/
def State.drainBox (s : State) (p idx : Nat) : Nat → State
  | 0 => s
  | n + 1 =>
    match (s.getAux idx).inbox with
    | [] => s
    | m :: _ =>
      if !seqBefore m.seq (s.getCtx idx).rxSeq then s
      else match s.takeItem p idx m with
      | none => s
      | some s =>
        let s := s.setAux idx { s.getAux idx with inbox := (s.getAux idx).inbox.tail }
        (if m.nblk = 0 then s else s.queueGrant idx m.nblk).drainBox p idx n

/-- Take what waits on every stream of the dispatch unit. -/
def State.drainAll (s : State) (p : Nat) : State :=
  (s.tokenStreams p).foldl (fun s i => s.drainBox p i (s.getAux i).inbox.length) s

/-- A message of a stream of the dispatch unit arrives (R278). -/
def State.boxMessage (s : State) (m : Msg) : State :=
  let idx := m.dhandle % 2 ^ 18
  match s.arrive m with
  | (s, none) => s
  | (s, some k) =>
    let x := s.getCtx idx
    let s := if x.part < 16 ∧ s.runs x.part
      then s.ringRecord x.part ⟨idx, m.seq, m.offset, m.blocks, m.checks, x.peerKind == 2⟩ else s
    (s.intoBox idx k m).drainBox x.part idx (((s.getAux idx).inbox.length) + 1)

/-! ## Opening a dispatch round (R206, R207, R213) -/

/-- Open a dispatch round (R213); a list that breaks R207 closes it with CHECKFAIL before anything is sent. What waited for this round
is taken, and what is older is stale (R221). -/
def State.openRound (s : State) (p : Nat) : State :=
  let rid := s.rf (DSP_RND.RID p)
  let li := s.rf (DSP_RND.LIST p)
  let o := s.dspOpnd p li
  let d := s.getDisp p
  let old := d.staged.filter (fun t => ridOlder t.tok.rid rid)
  let s := (s.wf (DSP_STATUS.CUR_RID p) rid).setDisp p
    { d with opened := true, list := [], sent := [], hosts := [], staged := d.staged.filter (fun t => !ridOlder t.tok.rid rid) }
  let s := s.addf (DSP_STALE.COUNT p) old.length
  let s := s.wf (DSP_STATUS.SEND_OPEN p) 1
  if !(s.idxOk p 0 li && !o.d.tile && o.d.index && o.d.cols % 16 == 0 && s.rowDescOk p (s.rf (DSP_RND.XDESC p))) then
    s.failRound p stCHECKFAIL
  else match s.readList (dspUnit p) o (region 0 0 1 o.d.cols) with
  | .fail s st => s.failRound p st
  | .ok s gs =>
    let es := routeEntries (o.d.cols / 16) (gs.map (fun g => g.elem.code))
    let l := es.map routeEntry
    let hosts := s.hostWords p
    if !(es.all routeReserved && s.listValid p l && decide ((s.dspOpnd p (s.rf (DSP_RND.XDESC p))).d.rowSize ≤ 65536) &&
        hosts.all (s.hostOk p)) then s.failRound p stCHECKFAIL
    else
      let fast := s.rf (DSP_CFG.FAST_EN p) == 1 && s.rf (DSP_RND2.FAST p) == 1
      let s := s.setDisp p { s.getDisp p with
        list := l, sent := [], hosts := hosts.map (fun ws => ⟨ws, [], 0, false, false⟩), spillEnds := [], spillSent := false
        fast := fast, retEnds := [], returned := [] }
      let s := s.wf (DSP_STATUS.RECV_OPEN p) (bit (!hosts.isEmpty))
      (s.recvProgress p).drainAll p

/-- DISPATCH_ROUND_OPEN: DSP_GO.OPEN (R213); refused with a bus error while a round is open or ERR is set. -/
def execDispatchRoundOpen (a : Agent) (p : Nat) (s : State) : Answer :=
  onPart p (
    if a = .pf16 then s
    else if s.rf (PRT_CLK_EN.DSP p) = 0 ∨ s.goRefused p then s.busErr p (regBase + 0x09000020)
    else s.openRound p)

/-! ## TOKEN_SEND (R214, R215) -/

/-- After the last token-choice the end markers go out and the send side closes. -/
def State.endSend (s : State) (p : Nat) : State := (s.sendMarkers p 0).wf (DSP_STATUS.SEND_OPEN p) 0

/-- Whether the stream of a handle takes another token: nothing of it waits to be sent (R215). -/
def State.streamFree (s : State) (h : Nat) : Bool := (s.getAux (h % 2 ^ 18)).txq.isEmpty

/-- The number of the next token-choice: the first in list order that is not sent and whose stream takes it (R215). -/
def State.nextChoice (s : State) (p : Nat) : Option Nat :=
  let d := s.getDisp p
  let cs := choicesOf d.list
  (List.range cs.length).find? (fun i => !d.sent.contains i && (match cs[i]? with
    | some (e, j) => (match s.sendEntry p (e.exps.getD j 0) with
      | some h => s.streamFree h
      | none => true)
    | none => false))

/-- Send one token-choice: its row is read and verified, and goes out on the handle of its expert. -/
def State.sendChoice (s : State) (p i : Nat) (e : RouteEntry) (j : Nat) : State :=
  let x := e.exps.getD j 0
  let xd := s.rf (DSP_RND.XDESC p)
  match s.sendEntry p x with
  | none => s.failRound p stCHECKFAIL
  | some h =>
    if !s.handleOk p h then s.failRound p stSTALE
    else if (s.getCtx (h % 2 ^ 18)).state ≠ 1 then s.failRound p stABORTED
    else match s.readRow p xd e.row with
    | .fail s st => s.failRound p st
    | .ok s gs =>
      let m : TokenMsg := ⟨s.rf (DSP_STATUS.CUR_RID p), e.token, j, s.rankOf p, e.gates.getD j 0#32, x, false, e.spillx,
        rowBytes (s.dspOpnd p xd).d (gs.map Got.elem)⟩
      let s := s.queueTx (h % 2 ^ 18) (tokenMsgs m false)
      let d := s.getDisp p
      let s := s.setDisp p { d with sent := i :: d.sent }
      if d.sent.length + 1 = (choicesOf d.list).length then s.endSend p else s

/-- TOKEN_SEND (R214, R215, R228): the next token-choice, once the dispatch unit has a mover channel and the mover writes nothing of its
row (R195). -/
def execTokenSend (p : Nat) (s : State) : Answer :=
  onPart p (
    if s.rf (DSP_STATUS.SEND_OPEN p) = 0 then s
    else if choicesOf (s.getDisp p).list = [] then s.endSend p
    else match s.nextChoice p with
    | none => s
    | some i => match (choicesOf (s.getDisp p).list)[i]?, s.takeTurn p (s.dspTurn p) with
      | some (e, j), some (_, t) => if s.rowWaits p (s.rf (DSP_RND.XDESC p)) e.row then s else t.sendChoice p i e j
      | _, _ => s)

/-! ## TOKEN_ARRIVE, END_MARKER_ARRIVE, SPILL_END_MARKER_ARRIVE (R216, R219, R221) -/

/-- A message of one of the dispatch unit's kinds for partition `p`: it arrives on a routed-token stream, or is judged as every message
is. -/
def State.dispMessage (s : State) (p : Nat) (ok : Bool) (m : Msg) : State :=
  if !ok ∨ m.dpart % 16 ≠ p ∨ (s.liveHandle m.dhandle ∧ (s.getCtx (m.dhandle % 2 ^ 18)).kind ≠ 2) then s else s.boxMessage m

/-- TOKEN_ARRIVE (R216, R221). -/
def execTokenArrive (p : Nat) (m : Msg) (s : State) : Answer :=
  onPart p (s.dispMessage p (m.mtype == 0 && !(tokenPart m.blocks.flatten).ret) m)

/-- END_MARKER_ARRIVE (R216, R221, R223): for the receive side of the round, or for its return round. -/
def execEndMarkerArrive (p : Nat) (m : Msg) (s : State) : Answer :=
  onPart p (s.dispMessage p (m.mtype == 3 && markerKind m != 1) m)

/-- SPILL_END_MARKER_ARRIVE (R219, R220). -/
def execSpillEndMarkerArrive (p : Nat) (m : Msg) (s : State) : Answer :=
  onPart p (s.dispMessage p (m.mtype == 3 && markerKind m == 1) m)

/-- RETURN_ROW_ARRIVE (R223); a row that comes before the return round opens waits for it. -/
def execReturnRowArrive (p : Nat) (m : Msg) (s : State) : Answer :=
  onPart p (s.dispMessage p (m.mtype == 0 && (tokenPart m.blocks.flatten).ret) m)

/-! ## TOKEN_DELIVER (R216–R219, R222) -/

/-- Which token an entry delivers next, and whether from the primary phase. In key order a token waits for every source that may
still send a lower one: a sending partition in the primary phase, a spilling one after it; in arrival order it does not (R222). Spilled
tokens come after the primary phase (R219). -/
def State.nextToken (s : State) (p : Nat) (h : Hosting) : Option (Staged × Bool) :=
  let d := s.getDisp p
  let l := s.stagedFor p h false
  let r := s.stagedFor p h true
  if h.finished then none
  else if !s.primaryOver p h then
    (if d.fast then l.head?.map (fun m => (m, true))
     else if sourcesKnown h.ended l < rxSrc h.words then none
     else (leastKey l).map (fun m => (m, true)))
  else
    (if h.filled = rxCap h.words ∧ d.spillEnds.length < rxSp h.words then none
     else if d.fast then r.head?.map (fun m => (m, false))
     else if sourcesKnown d.spillEnds r < rxSp h.words then none
     else (leastKey r).map (fun m => (m, false)))

/-- Replace hosting entry `i`. -/
def State.putHost (s : State) (p i : Nat) (h : Hosting) : State :=
  let d := s.getDisp p
  s.setDisp p { d with hosts := d.hosts.set i h }

/-- A token leaves the staging area. -/
def State.unstage (s : State) (p : Nat) (t : Staged) : State :=
  let d := s.getDisp p
  s.setDisp p { d with staged := d.staged.erase t }

/-- Whether an overflowing token goes on to its spill expert (R218). -/
def spillsOn (h : Hosting) (m : TokenMsg) (primary : Bool) : Bool :=
  primary && rxSpill h.words && m.spillx != 0xFFFF && m.spillx != rxExpert h.words

/-- A token that overflows (R218): forwarded to its spill expert, or dropped. -/
def State.overflow (s : State) (p : Nat) (h : Hosting) (m : TokenMsg) (primary : Bool) : State :=
  if spillsOn h m primary then
    match s.sendEntry p m.spillx with
    | some hd =>
      if !s.handleOk p hd then s.failRound p stSTALE
      else (s.queueTx (hd % 2 ^ 18) (tokenMsgs { m with expert := m.spillx, spilled := true } false)).inc (DSP_SPILL.COUNT p)
    | none => s.failRound p stCHECKFAIL
  else s.inc (DSP_DROP.COUNT p)

/-- Whether the stream of a token's spill expert takes it, where it overflows to there (R215). -/
def State.spillFree (s : State) (p : Nat) (h : Hosting) (m : TokenMsg) (primary : Bool) : Bool :=
  decide (h.filled < rxCap h.words) || !spillsOn h m primary || (match s.sendEntry p m.spillx with
    | some hd => s.streamFree hd
    | none => true)

/-- A token takes the next slot of entry `i`: its row and its metadata are written (R217), and in arrival order it is counted
(R222). -/
def State.fillSlot (s : State) (p i : Nat) (h : Hosting) (m : TokenMsg) : State :=
  let d := s.getDisp p
  let od := (s.dspOpnd p (rxSlot h.words)).d
  let (s, st1) := s.writeRow p (rxSlot h.words) h.filled (rowElems od m.row)
  if st1 ≠ 0 then s.failRound p st1
  else
    let (s, st2) := s.writeMeta p h.words h.filled (metaBytes m)
    if st2 ≠ 0 then s.failRound p st2
    else
      let s := (s.putHost p i { h with filled := h.filled + 1 }).inc (DSP_DELIV.COUNT p)
      (if d.fast then s.ndet p .disp 1 else s).recvProgress p

/-- Hosting entry `i` takes token `t`; then its place in the staging area is free for what waits. -/
def State.deliverToken (s : State) (p i : Nat) (h : Hosting) (t : Staged) (primary : Bool) : State :=
  let (s, st, row) := s.stagedRow p t
  if st ≠ 0 then s.failRound p st
  else
    let m := { t.tok with row := row }
    let s := s.unstage p t
    let s := if h.filled < rxCap h.words then s.fillSlot p i h m else (s.overflow p h m primary).recvProgress p
    s.drainAll p

/-- TOKEN_DELIVER (R216–R219, R222, R228): hosting entry `i` takes its next token, once the dispatch unit has a mover channel. -/
def execTokenDeliver (p i : Nat) (s : State) : Answer :=
  onPart p (
    if s.rf (DSP_STATUS.RECV_OPEN p) = 0 then s
    else match (s.getDisp p).hosts[i]? with
    | none => s
    | some h => match s.nextToken p h, s.takeTurn p (s.dspTurn p) with
      | some (t, primary), some (_, u) =>
        if s.stagedWaits p t ∨ !s.spillFree p h t.tok primary then s else u.deliverToken p i h t primary
      | _, _ => s)

/-! ## Return rounds (R223) -/

/-- The slot metadata of a slot, when VALID. -/
def State.slotMeta (s : State) (p rid : Nat) (ws : List Word64) (slot : Nat) : Option TokenMsg :=
  let w0 := leNat (s.bytes (memKey p (rxMeta ws + 16 * slot)) 8)
  let w1 := leNat (s.bytes (memKey p (rxMeta ws + 16 * slot + 8)) 8)
  if bitOf w0 63 then
    some ⟨rid, bits w0 0 40, bits w0 40 3, bits w1 32 22, BitVec.ofNat 32 (bits w1 0 32), rxExpert ws, bitOf w0 43, 0xFFFF, []⟩
  else none

/-- The stream back to a rank: a handle of the active send table that leads there, or else a routed-token stream with it. -/
def State.streamTo (s : State) (p rank : Nat) : Option Nat :=
  (((s.sendHandles p).map (· % 2 ^ 18)).find? (fun i => s.peerRank i == rank)).or
    ((s.tokenStreams p).find? (fun i => s.peerRank i == rank))

/-- Send the rows of a hosting entry's valid slots back to their senders. -/
def State.returnSlots (s : State) (p rid : Nat) (ws : List Word64) : List Nat → State × Nat
  | [] => (s, stOK)
  | k :: ks =>
    let (s, st) := s.verify p (dspUnit p) (blocksOfAddrs [rxMeta ws + 16 * k])
    if st ≠ 0 then (s, st)
    else match s.slotMeta p rid ws k with
    | none => s.returnSlots p rid ws ks
    | some m => match s.readRow p (rxOut ws) k with
      | .fail s st => (s, st)
      | .ok s gs => match s.streamTo p m.sender with
        | none => (s, stCHECKFAIL)
        | some i =>
          (s.queueTx i (tokenMsgs { m with row := rowBytes (s.dspOpnd p (rxOut ws)).d (gs.map Got.elem) } true)).returnSlots p rid ws ks

/-- Send the rows of every hosting entry. -/
def State.returnAll (s : State) (p rid : Nat) : List (List Word64) → State × Nat
  | [] => (s, stOK)
  | ws :: l =>
    if !s.slotDescOk p ws (rxOut ws) then (s, stCHECKFAIL)
    else
      let (s, st) := s.returnSlots p rid ws (List.range (rxCap ws))
      if st ≠ 0 then (s, st) else s.returnAll p rid l

/-- Open a return round: the hosting entries' rows and the end markers go out, and what came early is taken. -/
def State.openReturn (s : State) (p : Nat) : State :=
  let rid := s.rf (DSP_STATUS.CUR_RID p)
  let rd := s.rf (DSP_RND2.RDESC p)
  let s := s.wf (DSP_STATUS.RET_OPEN p) 1
  if rd ≠ 0xFFFF ∧ !s.rowDescOk p rd then s.failRound p stCHECKFAIL
  else
    let s := s.setDisp p { s.getDisp p with retEnds := [], returned := [] }
    let (s, st) := s.returnAll p rid (s.hostWords p)
    if st ≠ 0 then s.failRound p st
    else
      let s := s.sendMarkers p 2
      (s.retProgress p).drainAll p

/-- RETURN_ROUND_OPEN: DSP_GO.RETURN (R223). -/
def execReturnRoundOpen (a : Agent) (p : Nat) (s : State) : Answer :=
  onPart p (
    if a = .pf16 then s
    else if s.rf (PRT_CLK_EN.DSP p) = 0 ∨ s.goRefused p then s.busErr p (regBase + 0x09000020)
    else s.openReturn p)

/-! ## Messages as they come (R255, R278, R284) -/

/-- A message arrives: what its kind and its stream make of it (R274). -/
def State.receive (s : State) (m : Msg) : State :=
  let idx := m.dhandle % 2 ^ 18
  if s.liveHandle m.dhandle ∧ (s.getCtx idx).kind = 2 ∧ (m.mtype = 0 ∨ m.mtype = 3) then s.boxMessage m
  else match m.mtype with
  | 1 => (execGrantReceive m s).stateOr s
  | 2 => (execAckReceive m s).stateOr s
  | 0 => match s.arrive m with
    | (s, some k) => s.placeData idx k m
    | (s, none) => s
  | 4 => match s.arrive m with
    | (s, some k) => ((s.markIn idx k).takeClose idx).ackUp idx m
    | (s, none) => s
  | _ => s

/-- DATA_MESSAGE_RECEIVE (R278); a close comes as one too, having no command of its own (log entry 84). -/
def execDataMessageReceive (m : Msg) (s : State) : Answer := .next (if m.mtype = 0 ∨ m.mtype = 4 then s.receive m else s)

/-- FRAME_RECEIVE (R254, R255, R284): an IPv6 UDP packet to the module's address and port on this port carries a message; one with a wrong
checksum, and every other frame but a Neighbor Solicitation for that address, is discarded and counted. -/
def execFrameReceive (i : Nat) (fr : Frame) (s : State) : Answer :=
  onPort s i (
    if !s.isGlobal i ∨ s.zstate i ≠ zUP then s
    else match fr with
    | .udp dst port ok m =>
      if dst = s.ownAddr i ∧ port = s.rf ZTP_MCFG.UDP_PORT ∧ ok then s.receive m else s.inc (ZLK_RXDROP.COUNT i)
    | .neighborSolicitation target => if target = s.ownAddr i then s.emit (.neighborAdvert i) else s.inc (ZLK_RXDROP.COUNT i)
    | .other => s.inc (ZLK_RXDROP.COUNT i))

end Sys2Proof.Machine
end

