-- ==== Sys2Proof/Machine/Collective.lean ====
section
/-!
DEFINITION. Collective operations (R290–R311): the rank-ordered radix tree, opening and closing communication queues, the
commands of the ring, the contributions a member sends when an operation starts, the combining of a node's inputs, and the
results that pass down the tree. The completion of an operation is in Strata.lean, because Strata acts on it.
-/
namespace Sys2Proof.Machine

/-! ## The tree (R292, R295, R306) -/

/-- The levels of a tree over `n` ranks with radix `r`, counted from a node of `sz` ranks. -/
def levelsFrom (n r : Nat) : Nat → Nat → Nat
  | 0, _ => 0
  | k + 1, sz => if sz < n then levelsFrom n r k (sz * r) + 1 else 0

/-- `levels` of R292; 22 doublings reach 4,194,304 members. -/
def levels (n r : Nat) : Nat := levelsFrom n r 23 1

/-- 1 + r + … + r^(L-1). -/
def repunit (r L : Nat) : Nat := (r ^ L - 1) / (r - 1)

/-- `executor` of R292: the member that forms node (L, b) for chunk `c`. -/
def executor (n r L b c : Nat) : Nat := if b + c % r * repunit r L < n then b + c % r * repunit r L else b

/-- The first rank of the level-`L` node that holds rank `m`. -/
def baseOf (r L m : Nat) : Nat := m / r ^ L * r ^ L

/-- The children of node (L, b), L at least 1, by first rank. -/
def childrenOf (n r L b : Nat) : List Nat :=
  ((List.range r).map (fun j => b + j * r ^ (L - 1))).filter (fun x => decide (x < n))

/-- The ranks that rank `m` exchanges partials or results with at node level `L` for chunks `d` modulo `r` (R295). -/
def peersAt (n r m L d : Nat) : List Nat :=
  let b := baseOf r L m
  let e := executor n r L b d
  let hs := (childrenOf n r L b).map (fun cb => executor n r (L - 1) cb d)
  if e = m then hs else if hs.contains m then [e] else []

/-- A list of ranks without `m`, ascending, each once. -/
def ranksBut (m : Nat) (l : List Nat) : List Nat := ((l.filter (· != m)).foldl (fun t x => Tbl.set false t x true) []).map (·.1)

/-- The ranks that rank `m` exchanges partials or results with, ascending (R295). -/
def treeMates (n r m : Nat) : List Nat :=
  ranksBut m ((List.range (levels n r)).flatMap (fun k => (List.range r).flatMap (fun d => peersAt n r m (k + 1) d)))

/-- Every rank that rank `m` has a stream to, ascending (R306): those, and at each level above the first the executor of the chunks that
it forms at level 1. It exchanges nothing with the executors of nodes whose children it forms no partial of (log entry 86). -/
def treePeers (n r m : Nat) : List Nat :=
  ranksBut m (treeMates n r m ++ (List.range (levels n r)).map (fun k => executor n r (k + 1) (baseOf r (k + 1) m) (m % r)))

/-! ## The queue and its unit -/

/-- The unit that a record of a queue names where no channel has been taken: the free channel that the queues would take next. -/
def State.colUnit (s : State) (p : Nat) : Nat := unitId p 4 ((s.freeChannel p).getD 0)

/-- Whether `n` bytes from `a` lie in the data region, `a` 256-byte aligned. -/
def State.dataRange (s : State) (a n : Nat) : Bool := a % 256 == 0 && decide (a + n ≤ s.fuse.variant.dataBytes)

/-! ## Commands (R298, R299, R301) -/

/-- A collective command, field by field (R298). -/
structure ColCmd where
  op : Nat
  rop : Nat
  bf16 : Bool
  fast : Bool
  nf : Bool
  root : Nat
  src : Nat
  dst : Nat
  count : Nat
  rsv : Bool
deriving DecidableEq, Repr

/-- The fields of the eight words; `rsv` says that every reserved bit is 0. -/
def colCmd (ws : List Word64) : ColCmd :=
  let w0 := wordAt ws 0
  { op := fieldOf w0 3 0, rop := fieldOf w0 5 4, bf16 := fieldOf w0 6 6 == 1, fast := fieldOf w0 7 7 == 1, nf := fieldOf w0 8 8 == 1
    root := fieldOf (wordAt ws 1) 17 0, src := fieldOf (wordAt ws 2) 47 0, dst := fieldOf (wordAt ws 3) 47 0
    count := fieldOf (wordAt ws 4) 39 0
    rsv := fieldOf w0 63 9 == 0 && fieldOf (wordAt ws 1) 63 18 == 0 && fieldOf (wordAt ws 2) 63 48 == 0 &&
      fieldOf (wordAt ws 3) 63 48 == 0 && fieldOf (wordAt ws 4) 63 40 == 0 &&
      wordAt ws 5 == 0#64 && wordAt ws 6 == 0#64 && wordAt ws 7 == 0#64 }

/-- The eight words of the BARRIER Strata issues (R344, R355). -/
def barrierWords (nf : Bool) : List Word64 := [BitVec.ofNat 64 (5 + bit nf * 2 ^ 8), 0#64, 0#64, 0#64, 0#64, 0#64, 0#64, 0#64]

/-- Bytes of one element. -/
def ColCmd.es (m : ColCmd) : Nat := if m.bf16 then 2 else 4

/-- Bytes of one rank's segment (R299). -/
def ColCmd.segBytes (m : ColCmd) (n : Nat) : Nat := m.count / n * m.es

/-- Whether the operation reduces. -/
def ColCmd.reduces (m : ColCmd) : Bool := m.op == 0 || m.op == 1 || m.op == 3

/-- Blocks of the operation's elements. -/
def ColCmd.blocks (m : ColCmd) : Nat := if m.op = 5 then 0 else ceilDiv (m.count * m.es) 256

/-- What a member's own entry must satisfy (R299, R301). A SRC or DST that is not 256-byte aligned breaks its field's form. -/
def State.colCmdOk (s : State) (n : Nat) (m : ColCmd) : Bool :=
  let seg := m.segBytes n
  let all := m.count * m.es
  m.rsv && decide (m.op ≤ 5) && decide (m.rop ≤ 2) && decide (m.root < n) &&
  (m.op == 5 || (m.count % (if m.op = 3 ∨ m.op = 4 then 64 * n else 64) == 0)) &&
  (m.op == 5 ||
    (s.dataRange m.src (Nat.max 1 (if m.op = 4 then seg else all)) && s.dataRange m.dst (Nat.max 1 (if m.op = 3 then seg else all))))

/-- The status block of an operation (R300). -/
def statusOf (sq : Nat) (m : ColCmd) (flag : Bool) (fail : Bool := false) : StatusBlock :=
  ⟨sq, m.op, m.rop, bit m.bf16, m.count, flag, fail⟩

/-- Whether a status block agrees with the own operation and reports no failure (R301); COUNT of a BARRIER is ignored (R299). -/
def statusAgrees (own b : StatusBlock) : Bool :=
  own.seq == b.seq && own.op == b.op && own.rop == b.rop && own.fmt == b.fmt && (own.op == 5 || own.count == b.count) && !b.fail

/-- The op blocks that overlap the segments of ranks `lo` to `hi - 1` (R299). -/
def ColCmd.segBlocks (m : ColCmd) (n lo hi : Nat) : Nat × Nat :=
  (lo * m.segBytes n / 256, ceilDiv (hi * m.segBytes n) 256)

/-- The blocks [first, end) that the node of ranks `lo` to `hi - 1` holds on the way up. -/
def ColCmd.upBlocks (m : ColCmd) (n lo hi : Nat) : Nat × Nat :=
  if m.op = 4 then m.segBlocks n lo hi
  else if m.op = 2 then (if lo ≤ m.root ∧ m.root < hi then (0, m.blocks) else (0, 0))
  else (0, m.blocks)

/-- The blocks [first, end) that ranks `lo` to `hi - 1` are delivered. -/
def ColCmd.downBlocks (m : ColCmd) (n lo hi : Nat) : Nat × Nat :=
  if m.op = 3 then m.segBlocks n lo hi
  else if m.op = 1 then (if lo ≤ m.root ∧ m.root < hi then (0, m.blocks) else (0, 0))
  else (0, m.blocks)

/-- The blocks of a range that lie in chunk `c` of `ch` blocks (R295). -/
def inChunk (ch c : Nat) (r : Nat × Nat) : List Nat :=
  ((List.range ch).map (· + c * ch)).filter (fun j => decide (r.1 ≤ j ∧ j < r.2))

/-! ## Sending along the tree -/

/-- The stream context of a queue to a group rank. -/
def State.ctxTo (s : State) (p q k : Nat) : Option Nat :=
  let x := s.getColq p q
  ((x.peers.zip (x.ctxs.drop 1)).find? (fun e => e.1 == k)).map (·.2)

/-- The messages of a run of blocks from block `at0` of the peer's window on. -/
def runMsgs (at0 : Nat) (bs : List (List Byte × Word32)) : List TxReq :=
  (List.range ((bs.length + 15) / 16)).map (fun i =>
    let l := (bs.drop (16 * i)).take 16
    { mtype := 0, offset := (at0 + 16 * i) * 256, blocks := l.map (·.1), checks := l.map (·.2), owner := none })

/-- Send blocks of a chunk to group rank `k`, the first at block `at0` of the chunk. Which half of the peer's window of two chunks
they take is open (log entry 23); BF16 partials, held in FP32, take both. -/
def State.colSend (s : State) (p q k at0 : Nat) (bs : List (List Byte × Word32)) : State :=
  match s.ctxTo p q k with
  | none => s
  | some c =>
    let ch := s.rf (COL_Q_CFG.CHUNK p q)
    let (s, v) := s.free
    s.queueTx c (runMsgs ((if at0 + bs.length ≤ ch then v.toNat % 2 * ch else 0) + at0) bs)

/-- The bytes [lo, hi) of rank `k`'s segment that lie in op block `j`, by position in the segment. -/
def ColCmd.segPart (m : ColCmd) (n k j : Nat) : Nat × Nat :=
  let b := m.segBytes n
  (256 * j - k * b, Nat.min (256 * (j + 1)) ((k + 1) * b) - k * b)

/-- Rank `k`'s contribution to op block `j` with its check word: the stored block, or for ALLGATHER its segment's bytes in
their places. -/
def State.contribution (s : State) (p n k : Nat) (m : ColCmd) (j : Nat) : List Byte × Word32 :=
  if m.op ≠ 4 then (s.block p (m.src + 256 * j), s.checkOf p (m.src + 256 * j))
  else
    let b := m.segBytes n
    if k * b ≤ 256 * j ∧ 256 * (j + 1) ≤ (k + 1) * b ∧ k * b % 256 = 0 then
      (s.block p (m.src + (256 * j - k * b)), s.checkOf p (m.src + (256 * j - k * b)))
    else
      let (lo, hi) := m.segPart n k j
      let pre := k * b - 256 * j
      let bs := ((List.replicate pre 0#8 ++ s.bytes (memKey p (m.src + lo)) (hi - lo)) ++ List.replicate 256 0#8).take 256
      (bs, checkWord bs)

/-- The blocks of SRC that a member's contribution reads. -/
def ColCmd.srcBlocks (m : ColCmd) (n k : Nat) : List Nat :=
  if m.op = 5 ∨ (m.op = 2 ∧ k ≠ m.root) then []
  else blocksFrom m.src (if m.op = 4 then ceilDiv (m.segBytes n) 256 else m.blocks)

/-- The tree of a queue (R291, R292): its members, the own rank, its radix and its chunk size. -/
structure ColTree where
  n : Nat
  k : Nat
  r : Nat
  ch : Nat
deriving DecidableEq, Repr

/-- The tree of queue `q`. -/
def State.colTree (s : State) (p q : Nat) : ColTree :=
  ⟨s.rf (COL_Q_RANK.N p q), s.rf (COL_Q_RANK.RANK p q), s.rf (COL_Q_CFG.RADIX p q), s.rf (COL_Q_CFG.CHUNK p q)⟩

/-- The level of the top node. -/
def ColTree.top (t : ColTree) : Nat := levels t.n t.r

/-- The end of the ranks that node (lev, b) covers. -/
def ColTree.hi (t : ColTree) (lev b : Nat) : Nat := Nat.min t.n (b + t.r ^ lev)

/-- The executor of the parent of node (lev, b) for chunk `c`. -/
def ColTree.parent (t : ColTree) (lev b c : Nat) : Nat := executor t.n t.r (lev + 1) (baseOf t.r (lev + 1) b) c

/-- The chunks of an operation. Status blocks travel as one chunk more, after the last (R300; log entry 86). -/
def ColTree.chunks (t : ColTree) (m : ColCmd) : Nat := ceilDiv m.blocks t.ch

/-- The op blocks of chunk `c` that node (lev, b) holds on the way up, and those its ranks are delivered. -/
def ColTree.upIn (t : ColTree) (m : ColCmd) (lev b c : Nat) : List Nat := inChunk t.ch c (m.upBlocks t.n b (t.hi lev b))
def ColTree.downIn (t : ColTree) (m : ColCmd) (lev b c : Nat) : List Nat := inChunk t.ch c (m.downBlocks t.n b (t.hi lev b))

/-- Send a member's own contribution, chunk by chunk, to the executors of its level-1 node (R295, R299). -/
def State.contribute (s : State) (p q : Nat) (t : ColTree) (m : ColCmd) : State :=
  if t.top = 0 then s
  else (List.range (t.chunks m)).foldl (fun s c =>
    let e := t.parent 0 t.k c
    let js := t.upIn m 0 t.k c
    if e = t.k ∨ js = [] then s
    else s.colSend p q e (js.headD 0 - c * t.ch) (js.map (s.contribution p t.n t.k m))) s

/-- A member ends its contribution with its status block (R300), to the executor of its level-1 node for the chunk of status blocks. -/
def State.sendStatus (s : State) (p q sq : Nat) (m : ColCmd) : State :=
  let t := s.colTree p q
  let e := t.parent 0 t.k (t.chunks m)
  if t.top = 0 ∨ e = t.k then s else s.emit (.status p q e (statusOf sq m m.nf))

/-- An operation fails at this member (R12, R301): it completes with a status other than OK, and every member it has a stream to is told,
so that the operation fails everywhere (log entry 86). -/
def State.colFail (s : State) (p q : Nat) (o : ColOp) (st : Nat) : State :=
  let m := colCmd o.words
  let s := (s.getColq p q).peers.foldl (fun s k => s.emit (.status p q k (statusOf o.seq m m.nf true))) s
  s.colEnd p q o.seq st m.nf

/-! ## Starting operations (R299, R301, R303) -/

/-- The next operation of a queue that has not started. -/
def ColQueue.next (x : ColQueue) : Option ColOp := x.ops.find? (fun o => !o.started && o.status.isNone)

/-- The command of a ring entry; none when its block fails verification (R12). -/
def State.ringEntry (s : State) (p q sq : Nat) : Option (List Word64) :=
  let a := s.rf (COL_Q_RING.BASE p q) + 64 * (sq % 64)
  if s.goodBlock p a then some ((List.range 8).map (fun i => BitVec.ofNat 64 (leNat (s.bytes (memKey p (a + 8 * i)) 8)))) else none

/-- Mark an operation started with its words. -/
def State.colStarted (s : State) (p q sq : Nat) (ws : List Word64) : State :=
  let x := s.getColq p q
  s.setColq p q { x with ops := x.ops.map (fun o => if o.seq = sq then { o with words := ws, started := true } else o) }

/-- An operation begins (R299–R301): an entry that breaks R301 fails it; otherwise the member sends its contribution and its status
block. -/
def State.colBegin (s : State) (p q sq : Nat) (ws : List Word64) : State :=
  let t := s.colTree p q
  let m := colCmd ws
  let o : ColOp := { seq := sq, words := ws, started := true }
  let s := s.colStarted p q sq ws
  if !s.colCmdOk t.n m then s.colFail p q o stCHECKFAIL
  else
    let (s, st) := s.verify p (s.colUnit p) (m.srcBlocks t.n t.k) [] (s.rf (COL_Q_HANDLE.HANDLE p q))
    if st ≠ 0 then s.colFail p q o st else (s.contribute p q t m).sendStatus p q sq m

/-- Operations at the front whose entry cannot be read or whose OP names none of the six kinds fail at once. -/
def State.colSweep (s : State) (p q : Nat) : Nat → State
  | 0 => s
  | k + 1 =>
    let x := s.getColq p q
    if !x.opened then s
    else match x.next with
    | none => s
    | some o =>
      if s.lost p (s.rf (COL_Q_RING.BASE p q) + 64 * (o.seq % 64)) then
        ((s.colStarted p q o.seq []).colFail p q { seq := o.seq, words := [] } stABORTED).colSweep p q k
      else match s.ringEntry p q o.seq with
      | none =>
        let s := s.checkFailRec p (s.colUnit p) (s.rf (COL_Q_RING.BASE p q) + 64 * (o.seq % 64)) (s.rf (COL_Q_HANDLE.HANDLE p q))
        ((s.colStarted p q o.seq []).colFail p q { seq := o.seq, words := [] } stCHECKFAIL).colSweep p q k
      | some ws => if 5 < (colCmd ws).op then (s.colBegin p q o.seq ws).colSweep p q k else s

/-- Whether a TAIL value may be written (R303): not backwards, at most 64 operations outstanding. -/
def State.tailOk (s : State) (p q tail : Nat) : Bool :=
  decide ((tail % seqMod + seqMod - s.rf (COL_Q_SEQ.TAIL p q)) % seqMod < 0x800000) &&
  decide ((tail % seqMod + seqMod - s.rf (COL_Q_SEQ.DONE p q)) % seqMod ≤ 64)

/-- Issue operations up to the new TAIL (R303). -/
def State.colIssue (s : State) (p q tail : Nat) : State :=
  let old := s.rf (COL_Q_SEQ.TAIL p q)
  let k := (tail % seqMod + seqMod - old) % seqMod
  let new := (List.range k).map (fun i => ({ seq := (old + 1 + i) % seqMod, words := [] } : ColOp))
  let x := s.getColq p q
  (s.setColq p q { x with ops := x.ops ++ new }).wf (COL_Q_SEQ.TAIL p q) tail

/-- A write of TAIL (R303): the new ring entries are issued; on a closed queue they complete ABORTED at once (R310). -/
def State.tailWrite (s : State) (p q tail : Nat) : State :=
  let s := s.colIssue p q tail
  let x := s.getColq p q
  if x.opened then s.colSweep p q 64
  else if x.opening then s
  else
    let ops := x.ops.map (fun o => { o with status := some stABORTED })
    (s.setColq p q { x with ops := ops }).colDrain p q ops

/-- Whether a write of TAIL draws a bus error (R303, R344). -/
def State.tailErr (s : State) (a : Agent) (p q tail : Nat) : Bool := (isFlint a && q == 255) || !s.tailOk p q tail

/-- COLLECTIVE_TAIL_WRITE (R303). -/
def execCollectiveTailWrite (a : Agent) (p q tail : Nat) (s : State) : Answer :=
  if 16 ≤ p ∨ 256 ≤ q then .fault .noSuchUnit
  else .next (
    if a = .pf16 then s
    else if s.tailErr a p q tail then s.busErr p (regBase + 0x08010030 + 0x40 * q)
    else s.tailWrite p q tail)

/-- Start the next operation of a queue when it is of kind `op`. One with data takes a mover channel (R306) and waits for blocks of SRC
that are being written (R195). -/
def State.startKind (s : State) (p q op : Nat) : State :=
  let x := s.getColq p q
  if !x.opened then s
  else match x.next with
  | none => s
  | some o => match s.ringEntry p q o.seq with
    | none => s
    | some ws =>
      let m := colCmd ws
      if m.op ≠ op ∨ (m.srcBlocks (s.rf (COL_Q_RANK.N p q)) (s.rf (COL_Q_RANK.RANK p q))).any (s.interlocked p) then s
      else match (if op = 5 then some (0, s) else s.takeTurn p (s.colTurn p)) with
      | none => s
      | some (_, s) => (s.colBegin p q o.seq ws).colSweep p q 64

/-- Guard of a command about queue `q` of partition `p`. -/
def onQueue (p q : Nat) (s : State) : Answer := if p < 16 ∧ q < 256 then .next s else .fault .noSuchUnit

/-- ALLREDUCE (R299). -/
def execAllreduce (p q : Nat) (s : State) : Answer := onQueue p q (s.startKind p q 0)
/-- REDUCE (R299). -/
def execReduce (p q : Nat) (s : State) : Answer := onQueue p q (s.startKind p q 1)
/-- BROADCAST (R299). -/
def execBroadcast (p q : Nat) (s : State) : Answer := onQueue p q (s.startKind p q 2)
/-- REDUCE_SCATTER (R299). -/
def execReduceScatter (p q : Nat) (s : State) : Answer := onQueue p q (s.startKind p q 3)
/-- ALLGATHER (R299). -/
def execAllgather (p q : Nat) (s : State) : Answer := onQueue p q (s.startKind p q 4)
/-- BARRIER (R299). -/
def execBarrier (p q : Nat) (s : State) : Answer := onQueue p q (s.startKind p q 5)

/-! ## Combining (R292–R297, R302) -/

/-- The little-endian numbers of `k` bytes each in a byte list, `n` of them. -/
def unpack (k : Nat) : Nat → List Byte → List Nat
  | 0, _ => []
  | n + 1, bs => leNat (bs.take k) :: unpack k n (bs.drop k)

/-- The reduction operator on FP32 words (R293). -/
def ropF32 (rop : Nat) (a b : Word32) : Word32 :=
  match rop with
  | 0 => addF32 a b
  | 1 => toF32 ((f32 a).max77 (f32 b))
  | _ => toF32 ((f32 a).min77 (f32 b))

/-- Blocks that a value of level `lev` below the top takes for one block of the operation: BF16 partials are held in FP32 (R293). -/
def ColCmd.width (m : ColCmd) (lev : Nat) : Nat := if m.bf16 ∧ m.reduces ∧ 1 ≤ lev then 2 else 1

/-- The FP32 elements of one op block of a value of level `lev`: a BF16 contribution is widened exactly (R293). -/
def ColCmd.elems (m : ColCmd) (lev : Nat) (bs : List (List Byte × Word32)) : List Word32 :=
  if m.bf16 ∧ lev = 0 then bs.flatMap (fun b => (unpack 2 128 b.1).map (fun v => BitVec.ofNat 32 (v * 65536)))
  else bs.flatMap (fun b => (unpack 4 64 b.1).map (BitVec.ofNat 32))

/-- Op applied once per input after the first, in order (R292). -/
def foldInputs (rop : Nat) : List (List Word32) → List Word32
  | [] => []
  | x :: xs => xs.foldl (fun acc y => (acc.zip y).map (fun e => ropF32 rop e.1 e.2)) x

/-- Cut elements into blocks of `n` codes of `k` bytes with new check words. -/
def blocksOfCodes (k n : Nat) (l : List Nat) : List (List Byte × Word32) :=
  (chunksOf n (l.length + 1) l).map (fun c => let bs := c.flatMap (leBytes k); (bs, checkWord bs))

/-- The combined blocks of an op block: FP32 partials, or at the top the result in the operation's format (R293). -/
def ColCmd.formed (m : ColCmd) (top : Bool) (ins : List (List Word32)) : List (List Byte × Word32) :=
  let v := foldInputs m.rop ins
  if m.bf16 ∧ top then blocksOfCodes 2 128 (v.map (fun x => narrow 1 0 0 0 (f32 x)))
  else blocksOfCodes 4 64 (v.map BitVec.toNat)

/-- Blocks laid over each other where two ranks share one (ALLGATHER segments of BF16 that end inside a block). -/
def overlay : List (List Byte × Word32) → List Byte × Word32
  | [] => (List.replicate 256 0#8, 0#32)
  | [x] => x
  | l => let bs := l.foldl (fun acc e => (acc.zip e.1).map (fun b => b.1 ||| b.2)) (List.replicate 256 0#8); (bs, checkWord bs)

/-- Where a value that this member needs lies: its own contribution, one it formed or has been passed, the window of a stream from an
address on, or nowhere yet. -/
inductive ColIn where
  | own
  | held (x : ColNode)
  | window (ctx a : Nat)
  | missing
deriving DecidableEq, Repr

/-- What this member did at a node. -/
def ColOp.node (o : ColOp) (lev b c : Nat) (up : Bool) : Option ColNode :=
  o.nodes.find? (fun x => x.lev == lev && x.base == b && x.chunk == c && x.up == up)

/-- A node that this member formed or passed down. -/
def ColOp.held (o : ColOp) (lev b c : Nat) (up : Bool) : ColIn :=
  match o.node lev b c up with
  | some x => .held x
  | none => .missing

/-- A value that rank `h` holds: `mine` when that is this member, else in the window of its stream. -/
def State.fromRank (s : State) (p q : Nat) (t : ColTree) (h a : Nat) (mine : ColIn) : ColIn :=
  if h = t.k then mine
  else match s.ctxTo p q h with
    | some i => .window i a
    | none => .missing

/-- The input that child `cb` of a node of level `lev` gives for chunk `c` (R292, R295): its partial, held by that node's executor. -/
def State.childIn (s : State) (p q : Nat) (t : ColTree) (o : ColOp) (lev cb c a : Nat) : ColIn :=
  s.fromRank p q t (executor t.n t.r (lev - 1) cb c) a (if lev ≤ 1 then .own else o.held (lev - 1) cb c true)

/-- The result that node (lev, b) passes down for chunk `c`: of the top node its value, below what the parent's executor passed. -/
def State.resultIn (s : State) (p q : Nat) (t : ColTree) (o : ColOp) (lev b c a : Nat) : ColIn :=
  if t.top ≤ lev then (if lev = 0 then .own else o.held lev b c true)
  else s.fromRank p q t (t.parent lev b c) a (o.held (lev + 1) (baseOf t.r (lev + 1) b) c false)

/-- The addresses of op blocks `js`, `w` blocks each, of a chunk whose first op block is `c0`, in a window from `a` on. -/
def windowAt (a w c0 : Nat) (js : List Nat) : List Nat :=
  js.flatMap (fun j => (List.range w).map (fun i => a + 256 * (w * (j - c0) + i)))

/-- The stored blocks an input is read from. -/
def ColIn.reads (x : ColIn) (t : ColTree) (m : ColCmd) (w c0 : Nat) (js : List Nat) : List Nat :=
  match x with
  | .own => if js = [] then [] else m.srcBlocks t.n t.k
  | .window _ a => windowAt a w c0 js
  | _ => []

/-- Whether an input is there: it has arrived, and no block of it is being written (R195, R296). -/
def State.inReady (s : State) (p : Nat) (t : ColTree) (m : ColCmd) (w c0 : Nat) (x : ColIn × List Nat) : Bool :=
  (x.1.reads t m w c0 x.2).all (fun a => !s.interlocked p a) &&
  match x.1 with
  | .missing => x.2.isEmpty
  | .window i _ => (x.1.reads t m w c0 x.2).all (s.getAux i).fresh.contains
  | _ => true

/-- The blocks of an input for op block `j`. -/
def State.inBlocks (s : State) (p : Nat) (t : ColTree) (m : ColCmd) (w c0 : Nat) (x : ColIn) (j : Nat) : List (List Byte × Word32) :=
  match x with
  | .own => [s.contribution p t.n t.k m j]
  | .held y => ((y.blocks.find? (fun e => e.1 == j)).map (·.2)).getD []
  | .window _ a => (windowAt a w c0 [j]).map (fun b => (s.block p b, s.checkOf p b))
  | .missing => []

/-- Inputs in a window are taken out of it, and their credit goes back (R305). -/
def State.inTaken (s : State) (t : ColTree) (m : ColCmd) (w c0 : Nat) (x : ColIn × List Nat) : State :=
  match x.1 with
  | .window i _ =>
    let as := x.1.reads t m w c0 x.2
    if as = [] then s
    else (s.setAux i { s.getAux i with fresh := (s.getAux i).fresh.filter (fun a => !as.contains a) }).queueGrant i as.length
  | _ => s

/-- Record a node of an operation. -/
def State.addNode (s : State) (p q sq : Nat) (x : ColNode) : State :=
  let y := s.getColq p q
  s.setColq p q { y with ops := y.ops.map (fun o => if o.seq = sq then { o with nodes := o.nodes ++ [x] } else o) }

/-- The record of a combine residue (R297, R338). -/
def State.combineRec (s : State) (p q k : Nat) (cls : Cls) : Report :=
  { unit := unitId p 4 k, cls := cls, code := 0x41, part := some p, handle := s.rf (COL_Q_HANDLE.HANDLE p q), retry := 1, synd := [(k, 1)] }

/-- Hand the formed blocks of a node to the executor of its parent, or keep them when that is this member or the node is the top. -/
def State.passUp (s : State) (p q sq : Nat) (t : ColTree) (m : ColCmd) (x : ColNode) : State :=
  let e := t.parent x.lev x.base x.chunk
  if t.top ≤ x.lev ∨ e = t.k then s.addNode p q sq x
  else (s.addNode p q sq { x with blocks := [] }).colSend p q e
    (m.width x.lev * ((x.blocks.map (·.1)).headD 0 - x.chunk * t.ch)) (x.blocks.flatMap (·.2))

/-- Form node (lev, b) of chunk `c` from the inputs `ins`, one of each child with the op blocks it gives, on mover channel `k` (R292, R295,
R296): a reduction combines them in rank order, or in arrival order in fast mode (R302); other kinds copy them. -/
def State.nodeUp (s : State) (p q : Nat) (t : ColTree) (o : ColOp) (m : ColCmd) (lev b c k : Nat) (ins : List (ColIn × List Nat))
    (order : List Nat) (res retry : Residue) : State :=
  let js := t.upIn m lev b c
  let w := m.width (lev - 1)
  let c0 := c * t.ch
  let taken (s : State) : State := ins.foldl (fun s x => s.inTaken t m w c0 x) s
  let x : ColNode := { lev := lev, base := b, chunk := c, up := true }
  let need := ins.flatMap (fun x => x.1.reads t m w c0 x.2)
  let (s, st) := s.verify p (unitId p 4 k) need [] (s.rf (COL_Q_HANDLE.HANDLE p q))
  if st ≠ 0 then s.colFail p q o st
  else if m.reduces then
    let fast := m.fast && s.rf (COL_CFG.FAST_EN p) == 1
    let idx := if fast ∧ order.isPerm (List.range ins.length) then order else List.range ins.length
    let bad := res != .agree
    let failed := bad && retry != .agree
    let s := if failed then s.raise (s.combineRec p q k .perm) else if bad then s.transRec p (s.combineRec p q k .trans) else s
    if failed then ((s.colFail p q o stCHECKFAIL).retireChan p k).startWave p waveFAULT (unitId p 4 k)
    else
      let s := if fast then s.ndet p .coll (ins.length - 1) else s
      let bs := js.map (fun j => (j, m.formed (decide (lev = t.top)) (idx.map (fun i =>
        m.elems (lev - 1) (s.inBlocks p t m w c0 (ins.getD i (.missing, [])).1 j)))))
      let s := (s.addf (COL_BYTES.COUNT p) (256 * w * js.length * ins.length)).addf (MOV_BLK_REGEN.COUNT p) (bs.flatMap (·.2)).length
      taken (s.passUp p q o.seq t m { x with blocks := bs })
  else
    let bs := js.map (fun j => (j, [overlay ((ins.filter (fun x => x.2.contains j)).flatMap (fun x => s.inBlocks p t m w c0 x.1 j))]))
    taken (s.passUp p q o.seq t m { x with blocks := bs })

/-- Write a block or a part of one at partition address `a`: a whole block with its check word, otherwise merged (R172). A block of the
route table that takes no writes is refused with a bus error (R286); one that fails verification is recorded (R12). -/
def State.writePart (s : State) (p q k a : Nat) (bs : List Byte) (w : Word32) : State × Bool :=
  if s.lost p a then (s, false)
  else if s.rtProtected p a then (s.busErr p a, false)
  else if bs.length = 256 then s.writeBlock p a bs w
  else if s.blockOk p a then s.mergeWrite p a bs
  else (s.checkFailRec p (unitId p 4 k) a (s.rf (COL_Q_HANDLE.HANDLE p q)), false)

/-- Write part of an op block to DST; `o` is the byte offset from DST. -/
def State.deliverPart (s : State) (p q k dst o : Nat) (bs : List Byte) (w : Word32) : State × Bool :=
  let n1 := Nat.min bs.length (256 - o % 256)
  let (s1, ok1) := s.writePart p q k (dst + o) (bs.take n1) w
  if bs.length ≤ n1 then (s1, ok1)
  else
    let (s2, ok2) := s1.writePart p q k (dst + o + n1) (bs.drop n1) w
    (s2, ok1 && ok2)

/-- Deliver op blocks of the result at this member's DST (R299). -/
def State.deliver (s : State) (p q k : Nat) (t : ColTree) (m : ColCmd) (l : List (Nat × List Byte × Word32)) : State × Bool :=
  l.foldl (fun (s, ok) (j, bs, w) =>
    let (s1, ok1) :=
      if m.op = 3 then
        let (lo, hi) := m.segPart t.n t.k j
        let pre := t.k * m.segBytes t.n - 256 * j
        s.deliverPart p q k m.dst lo ((bs.drop pre).take (hi - lo)) w
      else s.deliverPart p q k m.dst (256 * j) (bs.take (Nat.min 256 (m.count * m.es - 256 * j))) w
    (s1, ok && ok1)) (s, true)

/-- The result of node (lev, b) for chunk `c` passes down from input `x` on mover channel `k` (R299): to the executors of the children
that need it, or at level 0 to DST. -/
def State.nodeDown (s : State) (p q : Nat) (t : ColTree) (o : ColOp) (m : ColCmd) (lev b c k : Nat) (x : ColIn) : State :=
  let js := t.downIn m lev b c
  let c0 := c * t.ch
  let bs := js.map (fun j => (j, s.inBlocks p t m 1 c0 x j))
  let y : ColNode := { lev := lev, base := b, chunk := c, up := false }
  let (s, st) := s.verify p (unitId p 4 k) (x.reads t m 1 c0 js) [] (s.rf (COL_Q_HANDLE.HANDLE p q))
  if st ≠ 0 then s.colFail p q o st
  else if lev = 0 then
    let (s, ok) := s.deliver p q k t m (bs.flatMap (fun e => e.2.map (fun v => (e.1, v))))
    if ok then (s.addNode p q o.seq y).inTaken t m 1 c0 (x, js) else s.colFail p q o stCHECKFAIL
  else
    let kids := childrenOf t.n t.r lev b
    let s := kids.foldl (fun s cb =>
      let e := executor t.n t.r (lev - 1) cb c
      let l := t.downIn m (lev - 1) cb c
      if e = t.k ∨ l = [] then s
      else s.colSend p q e (l.headD 0 - c0) ((bs.filter (fun v => l.contains v.1)).flatMap (·.2))) s
    let mine := kids.any (fun cb => decide (executor t.n t.r (lev - 1) cb c = t.k))
    (s.addNode p q o.seq { y with blocks := if mine then bs else [] }).inTaken t m 1 c0 (x, js)

/-! ## Status blocks (R300, R301) -/

/-- The status block that a rank's node gives: its own where this member holds it, else the one that came. -/
def ColOp.statusIn (o : ColOp) (t : ColTree) (h : Nat) (mine : Option Bool) (came : Option StatusBlock) : Option StatusBlock :=
  if h = t.k then mine.map (statusOf o.seq (colCmd o.words)) else came

/-- The status blocks of a node's children meet at its executor (R300, R301): they agree, and their flags are ORed and go on; or the
operation fails. `stat` holds those that came, one for each child. -/
def State.statusUp (s : State) (p q : Nat) (t : ColTree) (o : ColOp) (m : ColCmd) (lev b c : Nat) (stat : List StatusBlock) : State :=
  let kids := childrenOf t.n t.r lev b
  match (List.range kids.length).mapM (fun i =>
    o.statusIn t (executor t.n t.r (lev - 1) (kids.getD i 0) c)
      (if lev ≤ 1 then some m.nf else (o.node (lev - 1) (kids.getD i 0) c true).map (·.flag)) stat[i]?) with
  | none => s
  | some l =>
    if !l.all (statusAgrees (statusOf o.seq m m.nf)) then s.colFail p q o stCHECKFAIL
    else
      let flag := l.any StatusBlock.flag
      let s := s.addNode p q o.seq { lev := lev, base := b, chunk := c, up := true, flag := flag }
      let e := t.parent lev b c
      if t.top ≤ lev ∨ e = t.k then s else s.emit (.status p q e (statusOf o.seq m flag))

/-- The combined status passes down (R300): to the executors of the children, or at level 0 to this member. -/
def State.statusDown (s : State) (p q : Nat) (t : ColTree) (o : ColOp) (m : ColCmd) (lev b c : Nat) (stat : List StatusBlock) : State :=
  match (if t.top ≤ lev then o.statusIn t t.k (if lev = 0 then some m.nf else (o.node lev b c true).map (·.flag)) none
    else o.statusIn t (t.parent lev b c) ((o.node (lev + 1) (baseOf t.r (lev + 1) b) c false).map (·.flag)) stat.head?) with
  | none => s
  | some x =>
    if !statusAgrees (statusOf o.seq m m.nf) x then s.colFail p q o stCHECKFAIL
    else
      let s := s.addNode p q o.seq { lev := lev, base := b, chunk := c, up := false, flag := x.flag }
      if lev = 0 then
        let y := s.getColq p q
        s.setColq p q { y with ops := y.ops.map (fun v => if v.seq = o.seq then { v with settled := true, flag := x.flag } else v) }
      else (childrenOf t.n t.r lev b).foldl (fun s cb =>
        let e := executor t.n t.r (lev - 1) cb c
        if e = t.k then s else s.emit (.status p q e (statusOf o.seq m x.flag))) s

/-- What this member does for an operation (R295, R299, R300): every node of which it is the executor, with the way, up or down. -/
def ColTree.duties (t : ColTree) (m : ColCmd) : List (Nat × Nat × Nat × Bool) :=
  (List.range (t.top + 1)).flatMap (fun lev => (List.range (t.chunks m + 1)).flatMap (fun c =>
    let b := baseOf t.r lev t.k
    if executor t.n t.r lev b c ≠ t.k then []
    else
      (if 1 ≤ lev ∧ (c = t.chunks m ∨ t.upIn m lev b c ≠ []) then [(lev, b, c, true)] else []) ++
      (if c = t.chunks m ∨ t.downIn m lev b c ≠ [] then [(lev, b, c, false)] else [])))

/-- Whether this member has done all of an operation: its status is known and every node of its is formed and passed on (R299, R300). -/
def State.opDone (s : State) (p q : Nat) (o : ColOp) : Bool :=
  o.settled && ((s.colTree p q).duties (colCmd o.words)).all (fun d => (o.node d.1 d.2.1 d.2.2.1 d.2.2.2).isSome)

/-- CHUNK_COMBINE (R295–R297, R300, R302, R305): of a started operation, one node of the tree and one chunk of which this member is the
executor; `up` says whether its inputs are partials on the way up or the result on the way down. The inputs that came lie in the windows
of their streams from `addrs` on, one address for each child in rank order (where staging places them is not given: log entry 23). The
chunk after the last is that of the status blocks, which came as `stat`. A node whose inputs have not all arrived waits, and so does a
result for DST until the combined status is known (R301). -/
def execChunkCombine (p q sq lev b c : Nat) (up : Bool) (addrs : List Nat) (stat : List StatusBlock) (order : List Nat)
    (res retry : Residue) (s : State) : Answer :=
  onQueue p q (
    let t := s.colTree p q
    match (s.getColq p q).ops.find? (fun o => o.seq == sq && o.started && o.status.isNone) with
    | none => s
    | some o =>
      let m := colCmd o.words
      if !(t.duties m).contains (lev, b, c, up) ∨ (o.node lev b c up).isSome then s
      else if c = t.chunks m then (if up then s.statusUp p q t o m lev b c stat else s.statusDown p q t o m lev b c stat)
      else
        let kids := childrenOf t.n t.r lev b
        let ins := (List.range kids.length).map (fun i =>
          (s.childIn p q t o lev (kids.getD i 0) c (addrs.getD i 0), t.upIn m (lev - 1) (kids.getD i 0) c))
        let x := s.resultIn p q t o lev b c (addrs.headD 0)
        let ready := if up then ins.all (s.inReady p t m (m.width (lev - 1)) (c * t.ch))
          else (lev != 0 || o.settled) && s.inReady p t m 1 (c * t.ch) (x, t.downIn m lev b c)
        match (if ready then s.takeTurn p (s.colTurn p) else none) with
        | none => s
        | some (k, s) =>
          if up then s.nodeUp p q t o m lev b c k ins order res retry else s.nodeDown p q t o m lev b c k x)

/-! ## Opening (R290, R291, R308, R309) -/

/-- Entry `k` of the member table (R290): the job rank of a group rank; the Strata group's ranks are job ranks. -/
def State.jobRankOf (s : State) (p q k : Nat) : Nat :=
  if q = 255 then k
  else leNat (s.bytes (memKey p (s.rf (COL_Q_MTBL.BASE p q) + 4 * k)) 4) % 2 ^ 22

/-- Whether N, RANK, the member table, RADIX, CHUNK, the staging area and the ring hold permitted values (R308). -/
def State.openOk (s : State) (p q : Nat) : Bool :=
  let n := s.rf (COL_Q_RANK.N p q)
  let m := s.rf (COL_Q_RANK.RANK p q)
  let r := s.rf (COL_Q_CFG.RADIX p q)
  let ch := s.rf (COL_Q_CFG.CHUNK p q)
  let mt := s.rf (COL_Q_MTBL.BASE p q)
  decide (1 ≤ n ∧ n ≤ (if q = 255 then 4194304 else 262144) ∧ m < n ∧ 2 ≤ r ∧ r ≤ 64 ∧ 4 ≤ ch ∧ ch ≤ 256) &&
  (q == 255 ||
    (s.dataRange mt (4 * n) && s.dataRange (s.rf (COL_Q_STAGE.BASE p q)) ((treePeers n r m).length * 2 * ch * 256) &&
     s.dataRange (s.rf (COL_Q_RING.BASE p q)) 5120 &&
     (List.range ((4 * n + 255) / 256)).all (fun i => s.goodBlock p (mt + 256 * i)) && decide (s.jobRankOf p q m = s.rankOf p)))

/-- The queues of a list that are open or opening. -/
def queuesUp (l : Tbl ColQueue) : Nat := (l.filter (fun e => e.2.opening || e.2.opened)).length

/-- The join block a queue sends (R308). -/
def State.ownJoin (s : State) (p q : Nat) : JoinBlock :=
  ⟨s.rf (COL_Q_CFG.GROUP p q), s.rf (COL_Q_CFG.EPOCH p q), s.rf (COL_Q_RANK.N p q), s.rf (COL_Q_CFG.RADIX p q), s.rf (COL_Q_RANK.RANK p q)⟩

/-- A queue whose peers have all joined is open (R309); operations issued before begin. -/
def State.joinProgress (s : State) (p q : Nat) : State :=
  let x := s.getColq p q
  if x.opening ∧ !x.waiting ∧ x.awaited.all (fun k => x.joined.contains k) then
    (((s.setColq p q { x with opening := false, opened := true }).wf (COL_Q_RANK.OPEN p q) 1).inc (COL_CFG.QOPEN p)).colSweep p q 64
  else s

/-- Take the contexts of an opening queue: its own, then one for each peer with a standing window of 2 × CHUNK blocks in the
staging area (R291, R305). What handle the peer's context has is the peer's to say: a free value (log entry 23). -/
def State.takeStreams (s : State) (p q : Nat) : List Nat → Nat → State × List Nat
  | [], _ => (s, [])
  | k :: ks, i =>
    let w := 2 * s.rf (COL_Q_CFG.CHUNK p q)
    let (s, v) := s.free
    let (s, c) := s.takePartCtx p
      { kind := 1, standing := true, peerKind := 1, peerId := s.jobRankOf p q k, peerHandle := v.toNat % 2 ^ 32
        winBase := if q = 255 then 0 else s.rf (COL_Q_STAGE.BASE p q) + i * w * 256
        winLen := if q = 255 then 0 else w, credit := if q = 255 then 0 else w }
    let (s, l) := s.takeStreams p q ks (i + 1)
    (s, c :: l)

/-- An opening queue takes its contexts and sends its join blocks, or waits for contexts within its quota, which is counted
(R41, R308). -/
def State.openStreams (s : State) (p q : Nat) : State :=
  let x := s.getColq p q
  if !s.quotaFor p (x.peers.length + 1) then s.setColq p q { x with waiting := true }
  else
    let (s, own) := s.takePartCtx p { kind := 1 }
    let (s, cs) := s.takeStreams p q x.peers 0
    let s := (s.setColq p q { s.getColq p q with waiting := false, ctxs := own :: cs }).wf (COL_Q_HANDLE.HANDLE p q) (s.handleOf own)
    (x.peers.foldl (fun s k => s.emit (.join p q k (s.ownJoin p q))) s).joinProgress p q

/-- Open a communication queue (R308): its epoch is 0 at its first OPEN after a partition reset and advances at each later one. -/
def State.colOpen (s : State) (p q : Nat) : State :=
  let x := s.getColq p q
  let t := s.colTree p q
  let ps := treePeers t.n t.r t.k
  let s := s.wf (COL_Q_CFG.EPOCH p q) (if x.everOpened then s.rf (COL_Q_CFG.EPOCH p q) + 1 else 0)
  let s := s.setColq p q { opening := true, everOpened := true, peers := ps, awaited := treeMates t.n t.r t.k }
  let s := if s.quotaFor p (ps.length + 1) then s else s.inc (PRT_CTX_WAIT.WAITS p)
  s.openStreams p q

/-- Offset of COL_Q`q`_CTRL in the register region. -/
def colCtrlOff (q : Nat) : Nat := 0x08010028 + 0x40 * q

/-- A write of 1 to OPEN (R291, R308, R344); answers whether it draws a bus error. -/
def State.openWrite (s : State) (a : Agent) (p q : Nat) : State × Bool :=
  let x := s.getColq p q
  if isFlint a ∧ q = 255 then (s, true)
  else if x.opening ∨ x.opened ∨ !s.openOk p q then (s, false)
  else if 4096 ≤ queuesUp s.colq ∨ 256 ≤ queuesUp (s.colq.filter (fun e => decide (e.1 / 256 = p))) then (s, true)
  else (s.colOpen p q, false)

/-- A write of 1 to CLOSE (R310, R344). -/
def State.closeWrite (s : State) (a : Agent) (p q : Nat) : State × Bool :=
  let x := s.getColq p q
  if isFlint a ∧ q = 255 then (s, true)
  else (if x.opening ∨ x.opened then s.colClose p q else s, false)

/-- COLLECTIVE_OPEN (R291, R308): ignored on an open queue and with values not permitted; a bus error beyond the limits of R291
and from a Flint on queue 255 (R344). -/
def execCollectiveOpen (a : Agent) (p q : Nat) (s : State) : Answer :=
  if 16 ≤ p ∨ 256 ≤ q then .fault .noSuchUnit
  else .next (if a = .pf16 then s
    else
      let (t, e) := s.openWrite a p q
      t.busErrIf e p (regBase + colCtrlOff q))

/-- COLLECTIVE_CLOSE (R310, R344). -/
def execCollectiveClose (a : Agent) (p q : Nat) (s : State) : Answer :=
  if 16 ≤ p ∨ 256 ≤ q then .fault .noSuchUnit
  else .next (if a = .pf16 then s
    else
      let (t, e) := s.closeWrite a p q
      t.busErrIf e p (regBase + colCtrlOff q))

/-- A join that failed (R309): PERM, ERR with CHECKFAIL, and the queue closes. The spec lists no operation code for the record: within
the class of its unit (R338) a free value (log entry 23). -/
def State.joinFailed (s : State) (p q : Nat) : State :=
  let (s, v) := s.free
  let s := s.raise { unit := s.colUnit p, cls := .perm, code := 0x40 + v.toNat % 16, part := some p, handle := s.rf (COL_Q_HANDLE.HANDLE p q) }
  let s := if s.rf (COL_Q_RANK.ERR p q) = 0
    then (s.wf (COL_Q_RANK.ERR p q) 1).wf (COL_Q_RANK.ERRSTAT p q) stCHECKFAIL else s
  s.colClose p q

/-- JOIN_BLOCK_RECEIVE (R309). -/
def execJoinBlockReceive (p q : Nat) (j : JoinBlock) (s : State) : Answer :=
  if 16 ≤ p ∨ 256 ≤ q then .fault .noSuchUnit
  else .next (
    let x := s.getColq p q
    if !x.opening ∨ !x.peers.contains j.rank then s
    else if { j with rank := s.rf (COL_Q_RANK.RANK p q) } = s.ownJoin p q then
      (s.setColq p q { x with joined := x.joined ++ [j.rank] }).joinProgress p q
    else s.joinFailed p q)

/-- JOIN_TIMEOUT (R309): the join of an opening queue has not completed within 50 ms. -/
def execJoinTimeout (p q : Nat) (s : State) : Answer :=
  if 16 ≤ p ∨ 256 ≤ q then .fault .noSuchUnit
  else .next (if (s.getColq p q).opening then s.joinFailed p q else s)

end Sys2Proof.Machine
end

