-- ==== Sys2Proof/Machine/Assay.lean ====
section
/-!
DEFINITION. Assay (R312–R336): the blocks and the message of a tag, result tags on channel R, the update tag on channel U, the
flushing of pending records (R342), and field tests. The vote on update tags is in Strata.lean, because Strata acts on it.
-/
namespace Sys2Proof.Machine

/-! ## Tags (R315–R321) -/

/-- The unit ID of a partition's Assay engine. -/
def asyUnit (p : Nat) : Nat := unitId p 8 0

/-- The blocks of a descriptor's stored piece row by row, then of its scale and its metadata array, each group ascending (R317). -/
def Opnd.tagBlocks (o : Opnd) : List Nat :=
  let ve := o.d.valExts o.rank
  let row := ceilDiv (ve.getLastD 1 * o.d.ebits) 8
  let vals := (List.range (prodInit ve)).flatMap (fun i => (spanBlocks (o.d.base + i * o.d.pitch o.rank) row).map (· / 256))
  (ascending vals).map (· * 256) ++ spanBlocks o.d.sbase (o.d.scaleBytes o.rank) ++ spanBlocks o.d.mbase (o.d.metaBytes o.rank)

/-- `k` little-endian 16-bit numbers from an address. -/
def State.halfwords (s : State) (p a k : Nat) : List Nat := (List.range k).map (fun i => leNat (s.bytes (memKey p (a + 2 * i)) 2))

/-- The three lists of a tag list's header word. -/
def tagCounts (h : Nat) : Nat × Nat × Nat := (bits h 0 8, bits h 8 8, bits h 16 8)

/-- Whether a list may name descriptor `i` (R316, R347): it keeps R176 and has LOC 0. Bindings are ignored (R317). -/
def State.listedOk (s : State) (p i : Nat) : Bool :=
  decide (i < 4096) && s.descOk (s.descWords p i) (s.opnd p 0 i) && !(s.opnd p 0 i).d.tile

/-- Whether a tag over the list at `a` reads check words (R316). The list's own blocks must verify (R12). -/
def State.tagListOk (s : State) (p a : Nat) : Bool :=
  let h := leNat (s.bytes (memKey p a) 8)
  let (nw, ni, nr) := tagCounts h
  a % 8 == 0 && decide (a + 8 ≤ s.fuse.variant.dataBytes) && s.goodBlock p a && h / 2 ^ 24 == 0 &&
  decide (nw ≤ 64 ∧ ni ≤ 64 ∧ nr ≤ 64) && decide (a + 8 + 2 * (nw + ni + nr) ≤ s.fuse.variant.dataBytes) &&
  (spanBlocks a (8 + 2 * (nw + ni + nr))).all (s.goodBlock p) &&
  (s.halfwords p (a + 8) (nw + ni + nr)).all (fun i => s.listedOk p i)

/-- The blocks of a list of descriptors in list order. -/
def State.listBlocks (s : State) (p : Nat) (l : List Nat) : List Nat := l.flatMap (fun i => (s.opnd p 0 i).tagBlocks)

/-- The program digest of a partition (ASY_PDIG). -/
def State.pdigest (s : State) (p : Nat) : List Byte := (List.range 4).flatMap (fun i => leBytes 8 (s.rf (ASY_PDIG.DIGEST p i)))

/-- The message a tag hashes (R318): its header and the check words as they stand. -/
def State.tagMessage (s : State) (p kind : Nat) (t : TagRun) : List Byte :=
  leBytes 4 0x31545941 ++ leBytes 4 kind ++ leBytes 8 t.step ++ leBytes 4 t.weights.length ++ leBytes 4 t.inputs.length ++
  leBytes 4 t.results.length ++ leBytes 4 0 ++ s.pdigest p ++
  (t.weights ++ t.inputs ++ t.results).flatMap (fun a => leBytes 4 (s.checkOf p a).toNat)

/-- The tag of a run, as a number of 32 little-endian bytes. -/
def State.tagOf (s : State) (p kind : Nat) (t : TagRun) : Nat := leNat (sha3_256 (s.tagMessage p kind t))

/-- Start a result tag (R321). -/
def State.startTag (s : State) (p : Nat) : State :=
  let v := s.rf (ASY_TAG_LIST.VALUE p)
  let a := v % 2 ^ 48
  let step := s.rf (ASY_TAG_STEP.VALUE p)
  let t : TagRun :=
    if v / 2 ^ 48 = 0 ∧ s.tagListOk p a then
      let (nw, ni, nr) := tagCounts (leNat (s.bytes (memKey p a) 8))
      let l := s.halfwords p (a + 8) (nw + ni + nr)
      ⟨step, s.listBlocks p (l.take nw), s.listBlocks p ((l.drop nw).take ni), s.listBlocks p (l.drop (nw + ni)), stOK⟩
    else ⟨step, [], [], [], stCHECKFAIL⟩
  (s.setAssay p { s.getAssay p with tagR := some t }).wf (ASY_TAG_STATUS.BUSY p) 1

/-- RESULT_TAG (R321): a write of GO while BUSY draws a bus error. -/
def execResultTag (a : Agent) (p : Nat) (s : State) : Answer :=
  onPart p (
    if a = .pf16 then s
    else if s.rf (PRT_CLK_EN.ASY p) = 0 ∨ s.rf (ASY_TAG_STATUS.BUSY p) = 1 then s.busErr p (regBase + 0x0B000060)
    else s.startTag p)

/-- Write a 32-byte tag to four registers. -/
def State.putTag (s : State) (f : Nat → Fld) (v : Nat) : State :=
  (List.range 4).foldl (fun s i => s.wf (f i) (v / 2 ^ (64 * i))) s

/-- TAG_COMPLETE (R318–R321): ASY_TAG changes only when the tag ends with OK. -/
def execTagComplete (p : Nat) (s : State) : Answer :=
  onPart p (
    match (s.getAssay p).tagR with
    | none => s
    | some t =>
      let s1 := s.setAssay p { s.getAssay p with tagR := none }
      let s1 := ((s1.wf (ASY_TAG_STATUS.BUSY p) 0).wf (ASY_TAG_STATUS.STAT p) t.status).inc (ASY_TAG_STATUS.DONE p)
      if t.status = stOK then s1.putTag (ASY_TAG.TAG p) (s.tagOf p 0 t) else s1)

/-- Start the update tag of step `step` on channel U over the state blocks (R323, R348). -/
def State.startUpdateTag (s : State) (p step : Nat) : State :=
  let rs := (s.getStrata p).ranges
  let as := rangeBlocks rs 0 ((rs.map (·.2)).sum)
  (s.setAssay p { s.getAssay p with tagU := some ⟨step, as, [], [], stOK⟩ }).wf (ASY_STATUS.UBUSY p) 1

/-! ## Pending records (R342) -/

/-- RECORD_FLUSH_TIMEOUT (R342): 10 ms after the oldest pending record; while a flush runs, the second buffer waits for it. -/
def execRecordFlushTimeout (s : State) : Answer := .next (if s.recFlush = [] then s.flushRecords else s)

/-! ## Field tests (R332–R336) -/

/-- A request for a field test waits until it can start, and is merged into a running one (R332). -/
def State.askFieldTest (s : State) (p : Nat) : State :=
  let x := s.getFt p
  if x.running then s else s.setFt p { x with pending := true }

/-- FIELD_TEST_START (R332, R333): only in READY or FAULT. -/
def execFieldTestStart (p : Nat) (s : State) : Answer :=
  onPart p (
    let x := s.getFt p
    if x.pending ∧ !x.running ∧ (s.pstate p = psREADY ∨ s.pstate p = psFAULT) then
      (s.setFt p ⟨false, true⟩).wf (ASY_FT.BUSY p) 1
    else s)

/-- The record of a unit that failed a field test (R335). -/
def ftRecord (p : Nat) (e : FtFail) : Report :=
  { unit := unitId p e.cls e.inst, cls := .perm, code := 0x83, part := some p, synd := [(e.phase, 1), (e.test, 2)] }

/-- The physical core that a failing array, lane, bank or checker retires (R24, R335). -/
def ftCore (e : FtFail) : Option Nat := if e.cls = 0 then some (e.inst / 4 % 8) else if e.cls ≤ 3 then some (e.inst % 8) else none

/-- The mover channel that a failing channel retires. -/
def ftChan (e : FtFail) : Option Nat := if e.cls = 4 then some (e.inst % 32) else none

/-- The mask of a list of bit numbers. -/
def ftMask (l : List Nat) : Nat := l.foldl (fun m k => Nat.lor m (2 ^ k)) 0

/-- Open host commands of function `p` with operation code `op` end with a status. -/
def State.endHostOps (s : State) (p op st : Nat) : State :=
  (s.handles.filter (fun e => match e.2 with
    | some h => h.fn == p && h.op == op
    | none => false)).foldl (fun s e => s.hostDone e.1 st) s

/-- What a field test found (R335): every failing unit raises its record, and what it retires is retired. -/
def State.ftRetire (s : State) (p : Nat) (fails : List FtFail) : State :=
  let s := fails.foldl (fun s e => s.raise (ftRecord p e)) s
  let s := (fails.filterMap ftCore).eraseDups.foldl (fun s c => s.retireCore p c) s
  (fails.filterMap ftChan).eraseDups.foldl (fun s k => s.retireChan p k) s

/-- FIELD_TEST_DONE (R334, R335): the outcome is recorded, failing units are retired, and the test ends with a WARM reset.
`fails` lists every unit that failed. -/
def execFieldTestDone (p : Nat) (fails : List FtFail) (s : State) : Answer :=
  onPart p (
    if !(s.getFt p).running then s
    else
      let s := s.ftRetire p fails
      let s := (s.setFt p {}).wf (ASY_FT.BUSY p) 0
      let first := (fails.map FtFail.phase).foldl Nat.min ((fails.map FtFail.phase).headD 0)
      let s := ((s.wf (ASY_FT.RESULT p) (if fails = [] then 1 else 2)).wf (ASY_FT.PHASE p) first).wf (ASY_FT.CORES p)
        (ftMask (fails.filterMap ftCore))
      let s := (s.wf (ASY_FT.CHANS p) (ftMask (fails.filterMap ftChan))).inc (ASY_FT.RUNS p)
      ((s.endHostOps p 6 stOK).mgmtDone (p + 16)).resetRequest p 1)

end Sys2Proof.Machine
end

