-- ==== Sys2Proof/Machine/Strata.lean ====
section
/-!
DEFINITION. Strata's step (R344–R359) with the vote it waits for (R322–R328): the boundary, release and mirrored BARRIERs of the
Strata group, what each of them completes, the update decision, mirror copies, vote blocks and outcomes; and the completion of
collective operations (R300, R304), on which Strata acts.
-/
namespace Sys2Proof.Machine

/-- The unit ID of a partition's Strata engine. -/
def strUnit (p : Nat) : Nat := unitId p 7 0

/-! ## Barriers of the Strata group (R344, R345, R355, R356) -/

/-- Issue a BARRIER of a kind (1 boundary, 2 release, 3 mirrored) on queue 255, and send its status block (R300). -/
def State.enterBarrier (s : State) (p kind : Nat) (nf : Bool) : State :=
  let x := s.getColq p 255
  let sq := (s.rf (COL_Q_SEQ.TAIL p 255) + 1) % seqMod
  let s := (s.setColq p 255 { x with ops := x.ops ++ [{ seq := sq, words := barrierWords nf, started := true }] }).wf
    (COL_Q_SEQ.TAIL p 255) sq
  (s.sendStatus p 255 sq (colCmd (barrierWords nf))).setStrata p { s.getStrata p with barrier := kind }

/-- The number of extents of the state blocks (R348). -/
def Strata.extents (x : Strata) : Nat := ceilDiv ((x.ranges.map (·.2)).sum) 4096

/-- Whether the partition holds a mirror for another (R353). -/
def State.holdsMirror (s : State) (p : Nat) : Bool := s.rf (STR_MHELD.BASE p) != 0

/-- Set the step and the state of the held mirror's header, which must verify (R12, R354, R356). -/
def State.heldHeader (s : State) (p step st : Nat) : State :=
  let (s, ok) := s.putHeld p (fun b => leBytes 8 step ++ [BitVec.ofNat 8 st] ++ b.drop 9)
  if ok then s.wf (STR_STATUS.HELD p) st else s

/-- The step in the held mirror's header. -/
def State.heldStep (s : State) (p : Nat) : Nat := leNat (s.bytes (memKey p (s.rf (STR_MHELD.BASE p))) 8)

/-- Release of the step of the last boundary (R356, R376): the held mirror's header becomes COPYING and every dirty extent is to
be copied. -/
def State.release (s : State) (p : Nat) : State :=
  if s.rf (STR_CFG.MIRROR_EN p) = 0 then s.setStrata p { s.getStrata p with phase := 5, barrier := 0 }
  else
    let s := if s.holdsMirror p then s.heldHeader p (s.rf (STR_STEP.STEP p)) 1 else s
    let x := s.getStrata p
    let dirty := (List.range x.extents).filter (fun e => !x.clean.contains e)
    let s := (s.setStrata p { x with phase := 5, barrier := 0, copying := dirty, mirrorLost := false }).wf (STR_STATUS.OWN p) 1
    if dirty = [] then s.sendMirrorHeader p else s

/-! ## The vote (R322–R328) -/

/-- The bytes of a vote block (R322). -/
def voteBytes (b : VoteBlock) : List Byte :=
  leBytes 8 b.step ++ leBytes 1 b.attempt ++ leBytes 1 (bit b.ndet) ++ leBytes 2 0 ++ leBytes 4 (b.rank % 2 ^ 22) ++
  leBytes 16 0 ++ leBytes 32 b.tag ++ List.replicate 192 0#8

/-- The job rank of replica `k`. -/
def State.repRank (s : State) (p k : Nat) : Nat := s.rf (ASY_VPEER.RANK p k)

/-- The vote block of replica `k` for the step voted on: for a second attempt the new one of a replica that replays, the retained
one of the others (R326). -/
def State.repTag (s : State) (p k : Nat) : Option VoteTag :=
  let x := s.getAssay p
  let att := if x.attempt = 2 ∧ !bitOf x.redo k then 1 else x.attempt
  x.tags.find? (fun t => t.step == x.step && t.attempt == att && t.rank == s.repRank p k)

/-- The tags of all replicas, if they are there. -/
def State.allTags (s : State) (p : Nat) : Option (List VoteTag) := (List.range (s.rf (ASY_VCFG.REPL p))).mapM (s.repTag p)

/-- How many tags of a list equal `t`. -/
def agreeing (l : List VoteTag) (t : Nat) : Nat := (l.filter (fun v => v.tag == t)).length

/-- The tag held by a majority (R325). -/
def majority (l : List VoteTag) : Option Nat := (l.find? (fun v => decide (l.length < 2 * agreeing l v.tag))).map VoteTag.tag

/-- The outcome of a full vote: code and DEVMASK (R325). -/
def outcomeOf (l : List VoteTag) : Nat × Nat :=
  if l.length ≤ 1 ∨ l.any VoteTag.ndet then (2, 0)
  else if l.all (fun v => v.tag == (l.headD ⟨0, 0, 0, false, 0⟩).tag) then (1, 0)
  else match majority l with
    | some t => if 3 ≤ l.length
      then (3, ((List.range l.length).map (fun k => bit ((l.getD k ⟨0, 0, 0, false, 0⟩).tag != t) * 2 ^ k)).sum) else (4, 0)
    | none => (4, 0)

/-- The record of a vote (R338). -/
def State.voteRec (s : State) (p oc dev : Nat) (cls : Cls) : Report :=
  let x := s.getAssay p
  { unit := asyUnit p, cls := cls, code := 0x81, part := some p, synd := [(x.step, 8), (x.attempt, 1), (oc, 1), (dev, 1)] }

/-- Write an outcome to ASY_VOTE and count it. -/
def State.putVote (s : State) (p oc dev : Nat) : State :=
  let x := s.getAssay p
  let s := (((s.wf (ASY_VOTE.OUTCOME p) oc).wf (ASY_VOTE.ATTEMPT p) x.attempt).wf (ASY_VOTE.DEVMASK p) dev).wf (ASY_VOTE.STEP p) x.step
  let s := s.setAssay p { x with decided := true }
  match oc with
  | 1 => s.inc (ASY_VCOUNT.CHECKED p)
  | 3 => s.inc (ASY_VCOUNT.DEVIANT p)
  | 4 => s.inc (ASY_VCOUNT.SPLIT p)
  | 5 => s.inc (ASY_VCOUNT.MISSING p)
  | _ => s

/-- Whether this partition's tag is outvoted or in no majority (R355). -/
def State.outvoted (s : State) (p : Nat) : Bool :=
  let oc := s.rf (ASY_VOTE.OUTCOME p)
  oc == 4 || (oc == 3 && bitOf (s.rf (ASY_VOTE.DEVMASK p)) (s.rf (ASY_VCFG.OWN p)))

/-- With the vote decided and no snapshot running, Strata enters the release BARRIER (R355, R369). -/
def State.tryRelease (s : State) (p : Nat) : State :=
  let x := s.getStrata p
  if x.phase = 3 ∧ (s.getAssay p).decided ∧ !x.snapRun ∧ s.rf (ASY_VOTE.OUTCOME p) ≠ 5 then
    (s.setStrata p { x with phase := 4 }).enterBarrier p 2 (s.outvoted p)
  else s

/-- What follows an outcome beside the release (R325, R326). -/
def State.voteRecords (s : State) (p oc dev : Nat) : State :=
  let second := (s.getAssay p).attempt = 2
  let mine := bitOf dev (s.rf (ASY_VCFG.OWN p))
  if oc = 3 ∧ mine then
    if second then (s.raise (s.voteRec p oc dev .perm)).askFieldTest p else s.raise (s.voteRec p oc dev .trans)
  else if oc = 4 then
    if second then (s.fatal p (s.voteRec p oc dev .fatal)).askFieldTest p else s.raise (s.voteRec p oc dev .trans)
  else s

/-- Decide the vote once the own tag is there and the tags of all replicas are held (R323, R325). -/
def State.decideVote (s : State) (p : Nat) : State :=
  let x := s.getAssay p
  if x.decided ∨ !x.ownDone then s
  else match s.allTags p with
  | none => s
  | some l =>
    let (oc, dev) := outcomeOf l
    ((s.putVote p oc dev).voteRecords p oc dev).tryRelease p

/-- UPDATE_TAG_COMPLETE (R320, R323): the tag is kept, a vote block goes to every peer replica, and the vote may be decided. Which of
the four blocks of the peer's window it takes is open (log entry 23). -/
def execUpdateTagComplete (p : Nat) (s : State) : Answer :=
  onPart p (
    match (s.getAssay p).tagU with
    | none => s
    | some t =>
      let tag := s.tagOf p 1 t
      let x := s.getAssay p
      let own := s.rf (ASY_VCFG.OWN p)
      let v : VoteTag := ⟨x.step, x.attempt, s.repRank p own, x.ndet, tag⟩
      let s := (s.setAssay p { x with tagU := none, ownDone := true, tags := x.tags ++ [v] }).wf (ASY_STATUS.UBUSY p) 0
      let s := s.putTag (ASY_UTAG.TAG p) tag
      let b := voteBytes ⟨v.step, v.attempt, v.ndet, v.rank, tag⟩
      let s := ((List.range (s.rf (ASY_VCFG.REPL p))).filter (· != own)).foldl (fun s k =>
        let (s, f) := s.free
        s.queueTx (x.ctxs.getD k 0)
          [{ mtype := 0, offset := f.toNat % 4 * 256, blocks := [b], checks := [checkWord b], owner := none }]) s
      s.decideVote p)

/-- VOTE_BLOCK_RECEIVE (R326, R327): kept, or discarded and counted. -/
def execVoteBlockReceive (p : Nat) (b : VoteBlock) (s : State) : Answer :=
  onPart p (
    let x := s.getAssay p
    let named := (List.range (s.rf (ASY_VCFG.REPL p))).any (fun k => s.repRank p k == b.rank)
    if (b.step ≠ x.step ∧ b.step + 1 ≠ x.step) ∨ b.attempt ≠ x.attempt ∨ !named then s.inc (ASY_VSTALE.COUNT p)
    else (s.setAssay p { x with tags := x.tags.filter (fun t => !(t.step == b.step && t.attempt == b.attempt && t.rank == b.rank)) ++
      [⟨b.step, b.attempt, b.rank, b.ndet, b.tag⟩] }).decideVote p)

/-- VOTE_TIMEOUT (R325): a peer's tag is missing: outcome MISSING, FATAL with the handle of the first missing replica's vote stream,
whose PEER_ID is its rank, and the abort wave. -/
def execVoteTimeout (p : Nat) (s : State) : Answer :=
  onPart p (
    let x := s.getAssay p
    if x.decided ∨ !x.ownDone then s
    else match (List.range (s.rf (ASY_VCFG.REPL p))).find? (fun k => (s.repTag p k).isNone) with
    | none => s
    | some k =>
      let c := x.ctxs.getD k 0
      (s.putVote p 5 0).fatal p { s.voteRec p 5 0 .fatal with handle := s.handleOf c, epoch := (s.getCtx c).epoch })

/-! ## The boundary (R345, R346) -/

/-- Write a Flint register; x0 stays 0 (R138). -/
def State.flintReg (s : State) (p c rd : Nat) (v : Word64) : State :=
  if rd = 0 then s else
  let f := s.getFlint p c
  s.setFlint p c { f with x := f.x.set 0#64 rd v }

/-- A stalled extension instruction returns a value: Flint runs on after it. -/
def State.flintReturn (s : State) (p c rd : Nat) (v : Word64) : State :=
  let s := s.flintReg p c rd v
  let f := s.getFlint p c
  (s.setFlint p c { f with stall := .none, pc := f.pc + 4 }).wf (FLT_STATUS.STATE p c) 1

/-- STEPB returns OK on core `c` (R161, R346); its stall since the report counts in FLT_CYC_WAIT, 12 Flint cycles a tick (R163). -/
def State.stepbReturn (s : State) (p c : Nat) : State :=
  match (s.getFlint p c).stall with
  | .stepb step rd _ since =>
    ((s.addf (FLT_CYC_WAIT.CYCLES p c) (12 * (s.now - since))).flintReturn p c rd 0#64).wf (FLT_STEP.STEP p c) step.toNat
  | _ => s

/-- Whether a stream context is the mirror, a checkpoint or a vote stream (R345). -/
def State.strataStream (s : State) (p idx : Nat) : Bool :=
  let x := s.getCtx idx
  decide (x.kind = 4) || decide (idx = s.rf (STR_BUDDY.HANDLE p) % 2 ^ 18) || s.isHeldMirror idx || (s.getAssay p).ctxs.contains idx

/-- Whether every job stream context of the partition is quiet (R345). -/
def State.streamsQuiet (s : State) (p : Nat) : Bool :=
  (s.ctxsOf p).all (fun i => s.strataStream p i || (decide ((s.getCtx i).inflight = 0) && (s.getAux i).posted.isNone))

/-- The conditions of R345 beside the vote and the mirror of the step before; parked messages must have been delivered (R287). -/
def State.stepDone (s : State) (p : Nat) : Bool :=
  (List.range (s.lcores p)).all (fun c => (s.getStrata p).reports.contains c) &&
  s.rf (DSP_STATUS.SEND_OPEN p) == 0 && s.rf (DSP_STATUS.RECV_OPEN p) == 0 && s.rf (DSP_STATUS.RET_OPEN p) == 0 &&
  (s.getPark p).isEmpty && !s.parkedOut p && s.streamsQuiet p

/-- The loss scale after a skipped step (R352). -/
def halveScale (v : Nat) : Nat :=
  let x : Word32 := BitVec.ofNat 32 v
  if (f32 x).lt (f32 0x3F800000#32) || (f32 x).eq (f32 0x3F800000#32) then v else (mulF32 x 0x3F000000#32).toNat

/-- The boundary of the step after STR_STEP, in the order of R346; `att` is the attempt of its vote. Armed tables swap at a job-wide
boundary alone, not at the one a local replay passes by itself (R211, R286). -/
def State.jobBoundary (s : State) (p att : Nat) : State :=
  let st := s.rf (STR_STEP.STEP p) + 1
  let s := if att = 2 then s else (s.swapTables p).swapRoutes p
  let s := s.wf (STR_STEP.STEP p) st
  let k := (st + 1) % 2
  let x := s.getStrata p
  let s := ((s.setStrata p (if k = 0 then { x with slot0 := [] } else { x with slot1 := [] })).wf (ringUsed p k) 0).wf (ringOvf p k) 0
  let skip := (s.getStrata p).decided && s.rf (STR_STATUS.SKIP p) == 1
  let s := if skip then (s.inc (STR_SKIPS.COUNT p)).wf (STR_LSCALE.SCALE p) (halveScale (s.rf (STR_LSCALE.SCALE p))) else s
  let s := (s.wf (STR_NF.FLAG p) 0).wf (STR_STATUS.SKIP p) 0
  let nd := s.rf (ASY_NDET.COUNT p)
  let a := s.getAssay p
  let s := s.setAssay p { a with
    step := st, attempt := att, redo := (if att = 2 then a.redo else 0), ndet := nd != s.rf (ASY_NDET_STEP.COUNT p)
    ownDone := false, decided := false, tags := a.tags.filter (fun t => t.step == st || t.step + 1 == st) }
  let s := (s.wf (ASY_NDET_STEP.COUNT p) nd).startUpdateTag p st
  let x := s.getStrata p
  let v := (st, nd, s.rf (STR_LSCALE.SCALE p), s.rf (STR_SKIPS.COUNT p))
  let s := s.setStrata p { x with
    phase := 3, barrier := 0, reports := [], deciding := none, decided := false, replay := none, taken := [], rewind := none, restart := false
    values := (v :: x.values.filter (fun e => e.1 != st)).take 2 }
  let s := s.wf (STR_STATUS.PHASE p) 1
  (List.range (s.lcores p)).foldl (fun s c => s.stepbReturn p c) s

/-- BOUNDARY_BARRIER_ENTER (R345): the conditions of R345 are met. In a local replay the step's boundary is the partition's own,
since the Strata group passed it before (R362): the replayed step is voted on again (R326). -/
def execBoundaryBarrierEnter (p : Nat) (s : State) : Answer :=
  onPart p (
    let x := s.getStrata p
    if !s.runs p ∨ !s.stepDone p ∨ x.suspRun then s
    else if x.replay.isSome then s.jobBoundary p 2
    else if x.phase = 7 ∧ (s.getAssay p).decided then (s.setStrata p { x with phase := 2 }).enterBarrier p 1 false
    else s)

/-! ## The update phase (R349, R350) -/

/-- A Flint's store to STR_UPD (R349); answers whether it draws a bus error: a second BEGIN in one step does, and so does one that names
queue 255. -/
def State.updateBegin (s : State) (p c : Nat) (v : Word64) : State × Bool :=
  let f := s.getFlint p c
  if s.rf (PRT_CLK_EN.STR p) = 0 then (s, true)
  else if fieldOf v 0 0 = 0 then (s, false)
  else if fieldOf v 8 1 = 255 ∨ f.upd then (s, true)
  else
    let x := s.getStrata p
    let s := s.setFlint p c { f with upd := true }
    (if x.deciding.isSome then s else s.setStrata p { x with deciding := some (fieldOf v 8 1, fieldOf v 39 16) }, false)

/-- UPDATE_BEGIN (R349). -/
def execUpdateBegin (p c : Nat) (v : Word64) (s : State) : Answer :=
  onCore s p c (
    let (t, e) := s.updateBegin p c v
    t.busErrIf e p (regBase + 0x0A000040))

/-- UPDATE_DECISION (R350): the deciding collective is complete and the previous step mirrored. -/
def execUpdateDecision (p : Nat) (s : State) : Answer :=
  onPart p (
    let x := s.getStrata p
    match x.deciding with
    | none => s
    | some (q, sq) =>
      if x.decided ∨ x.phase ≠ 7 ∨ !seqCovers (s.rf (COL_Q_SEQ.DONE p q)) sq then s
      else
        let s := (s.setStrata p { x with decided := true }).wf (STR_STATUS.SKIP p) (s.rf (STR_NF.FLAG p))
        (s.wf (STR_STATUS.PHASE p) 2).settleAll p (s.lcores p))

/-! ## Mirror copies (R356–R358) -/

/-- EXTENT_COPY_DONE (R356, R358): a released extent is copied; one of its blocks that fails verification is recorded (R12). It waits for
blocks that are being written (R195). -/
def execExtentCopyDone (p ext : Nat) (s : State) : Answer :=
  onPart p (
    let x := s.getStrata p
    if !x.copying.contains ext ∨ (rangeBlocks x.ranges (ext * 4096) 4096).any (s.interlocked p) then s
    else match (rangeBlocks x.ranges (ext * 4096) 4096).find? (fun a => !s.blockOk p a) with
    | some a => s.checkFailRec p (strUnit p) a
    | none => s.copyExtent p ext)

/-- Whether the own copy is acknowledged and the held mirror is COMPLETE for the step (R356, R376). -/
def State.copiesDone (s : State) (p : Nat) : Bool :=
  let i := s.rf (STR_BUDDY.HANDLE p) % 2 ^ 18
  let x := s.getStrata p
  s.rf (STR_CFG.MIRROR_EN p) == 0 ||
    (x.copying.isEmpty && !x.mirrorLost && (s.getAux i).txq.isEmpty && (s.getAux i).unacked.isEmpty &&
      (!s.holdsMirror p || (s.rf (STR_STATUS.HELD p) == 2 && s.heldStep p == s.rf (STR_STEP.STEP p))))

/-- MIRRORED_BARRIER_ENTER (R356). -/
def execMirroredBarrierEnter (p : Nat) (s : State) : Answer :=
  onPart p (
    let x := s.getStrata p
    if x.phase = 5 ∧ s.copiesDone p ∧ !x.suspRun then (s.setStrata p { x with phase := 6 }).enterBarrier p 3 false else s)

/-! ## Completion of collective operations (R300, R301, R304) -/

/-- The release BARRIER completes with flag 1 (R363): the job rewinds. The replicas that replay are the outvoted ones, or all of a
shard whose vote was SPLIT. -/
def State.rewindJob (s : State) (p : Nat) : State :=
  let a := s.getAssay p
  let oc := s.rf (ASY_VOTE.OUTCOME p)
  let redo := if oc = 3 then s.rf (ASY_VOTE.DEVMASK p) else if oc = 4 then 2 ^ s.rf (ASY_VCFG.REPL p) - 1 else 0
  let s := s.setAssay p { a with redo := redo }
  let s := s.setStrata p { s.getStrata p with rewind := some (s.rf (STR_STEP.STEP p)) }
  s.startWave p waveREWIND 0

/-- Step `s` is mirrored (R356). -/
def State.mirrored (s : State) (p : Nat) : State :=
  let x := s.getStrata p
  let s := s.setStrata p { x with phase := 7, barrier := 0, snapReq := false, snapDue := x.snapReq }
  if s.rf (STR_CFG.MIRROR_EN p) = 0 then s else (s.wf (STR_STATUS.OWN p) 2).wf (STR_MSTEP.STEP p) (s.rf (STR_STEP.STEP p))

/-- What Strata does when its BARRIER completes OK. No step is voted on more than twice (R326): a flag after the second vote leads to
failure handling, whose abort wave starts, and to no further replay. -/
def State.barrierDone (s : State) (p : Nat) (flag : Bool) : State :=
  match (s.getStrata p).barrier with
  | 1 => s.jobBoundary p 1
  | 2 => if !flag then s.release p else if (s.getAssay p).attempt = 2 then s.startWave p waveFAULT (asyUnit p) else s.rewindJob p
  | 3 => s.mirrored p
  | _ => s

/-- COLLECTIVE_COMPLETE (R299–R301, R304): the oldest started operation ends OK, with the combined flag, once this member has done all of
it. `status` holds status blocks that came in from members it exchanges with: one for this operation that disagrees or reports a failure
ends it CHECKFAIL. -/
def execCollectiveComplete (p q : Nat) (status : List StatusBlock) (s : State) : Answer :=
  onQueue p q (
    match (if (s.getColq p q).opened then (s.getColq p q).ops.find? (fun o => o.started && o.status.isNone) else none) with
    | none => s
    | some o =>
      let m := colCmd o.words
      if !(status.filter (fun b => b.seq == o.seq)).all (statusAgrees (statusOf o.seq m m.nf)) then s.colFail p q o stCHECKFAIL
      else if !s.opDone p q o then s
      else
        let s := s.colEnd p q o.seq stOK o.flag
        if q = 255 then s.barrierDone p o.flag else s)

end Sys2Proof.Machine
end

