-- ==== Sys2Proof/Machine/Replay.lean ====
section
/-!
DEFINITION. Strata's checkpoints and replays (R360–R374): step snapshots written from the held mirror, suspend images, restores,
local replay from the ring, and the pull of a mirror.
-/
namespace Sys2Proof.Machine

/-! ## The header block (R372) -/

/-- The fields of the header that are not the partition's own registers. -/
structure Ckpt where
  kind : Nat
  flags : Nat
  step : Nat
  rank : Nat
  writer : Nat
  utag : List Byte
  ndet : Nat
  lscale : Nat
  skips : Nat
  nblk : Nat
deriving DecidableEq, Repr

/-- SHA3-256 of words D0–D31 of the listed descriptors (LDIG). -/
def State.ldigest (s : State) (p : Nat) : List Byte :=
  sha3_256 ((s.getStrata p).tsl.flatMap (fun e => (e.2.take 32).flatMap (fun w => leBytes 8 w.toNat)))

/-- The module count of a partition's job. -/
def State.jobModules (s : State) (p : Nat) : Nat :=
  match (s.getTen p).prov with
  | some v => v.modules
  | none => 0

/-- The 256 bytes of a header block (R372). -/
def State.ckptHeader (s : State) (p : Nat) (c : Ckpt) : List Byte :=
  List.flatten
    [leBytes 4 0x31505453, leBytes 1 c.kind, leBytes 1 c.flags, leBytes 2 0, leBytes 8 c.step, leBytes 4 (s.jobModules p),
     leBytes 1 s.fuse.variant.code, leBytes 1 (s.rf (PRT_ID.GCLASS p)), leBytes 2 0, leBytes 4 c.rank,
     leBytes 1 (s.rf (ASY_VCFG.REPL p)), leBytes 1 c.writer, leBytes 2 0, s.pdigest p, leBytes 32 (s.getMember p).rmap,
     s.ldigest p, c.utag, leBytes 8 c.ndet, leBytes 4 c.lscale, leBytes 4 0, leBytes 8 c.skips, leBytes 8 c.nblk,
     List.replicate 64 0#8]

/-- A number in a header block. -/
def hdrField (h : List Byte) (off n : Nat) : Nat := leNat ((h.drop off).take n)

/-! ## Narrowing (R370) -/

/-- A value times 2^x. -/
def Val.timesPow (v : Val) (x : Int) : Val :=
  match v with
  | .fin n m e => .fin n m (e + x)
  | w => w

/-- One group: its scale byte and 32 FP8 E5M2 elements; a short one is padded with 0. -/
def narrowGroup (vs : List Val) : List Byte :=
  let x : Int := if vs.any Val.isInf then 127 else match maxLog2 vs with
    | none => -127
    | some k => max (-127) (min 127 (k - 15))
  BitVec.ofNat 8 (x + 127).toNat ::
    ((vs ++ List.replicate (32 - vs.length) (Val.fin false 0 0)).map (fun (v : Val) => BitVec.ofNat 8 (narrow 4 0 1 0 (v.timesPow (-x)))))

/-- The FP32 words of one group of 33 bytes. -/
def widenGroup (bs : List Byte) : List Word32 :=
  let x : Int := ((bs.headD 0#8).toNat : Int) - 127
  bs.tail.map (fun b => toF32 ((decodeFmt 4 b.toNat).timesPow x))

/-- Cut a list into pieces of `n`. -/
def piecesOf {α : Type} (n : Nat) (l : List α) : List (List α) :=
  (List.range (ceilDiv l.length n)).map (fun i => (l.drop (n * i)).take n)

/-- The operand of a listed training-state tensor. -/
def State.tslOpnd (s : State) (p : Nat) (ws : List Word64) : Opnd := s.opndOf p 0 (ws.take 32) (wordAt ws 32)

/-- The byte addresses of the elements of a stored FP32 piece, row by row. -/
def Opnd.wordRows (o : Opnd) : List (List Nat) :=
  let ve := o.d.valExts o.rank
  (List.range (prodInit ve)).map (fun i => (List.range (ve.getLastD 1)).map (fun j => o.d.base + i * o.d.pitch o.rank + 4 * j))

/-- The groups of a moment tensor: the addresses of each, in stored order. -/
def Opnd.groups (o : Opnd) : List (List Nat) := o.wordRows.flatMap (piecesOf 32)

/-- Pack bytes into whole blocks with new check words. -/
def packBlocks (bs : List Byte) : List (List Byte × Word32) :=
  (piecesOf 256 bs).map (fun b => let x := b ++ List.replicate (256 - b.length) 0#8; (x, checkWord x))

/-- Where the held mirror keeps the byte at address `a` of a tensor whose first state block has number `off`. -/
def heldAddr (base off : Nat) (bs : List Nat) (a : Nat) : Nat := base + 256 * (1 + off + bs.idxOf (a / 256 * 256)) + a % 256

/-- The blocks of a snapshot of the held mirror after its header, tensor by tensor (R369, R370). -/
def State.snapFrom (s : State) (p : Nat) (nr : Bool) : Nat → List (Nat × List Word64) → List (List Byte × Word32)
  | _, [] => []
  | off, (cls, ws) :: r =>
    let base := s.rf (STR_MHELD.BASE p)
    let o := s.tslOpnd p ws
    let bs := o.tagBlocks
    (if nr && cls == 1
      then packBlocks (o.groups.flatMap (fun g => narrowGroup (g.map (fun a =>
        f32 (BitVec.ofNat 32 (leNat (s.bytes (memKey p (heldAddr base off bs a)) 4)))))))
      else (blocksFrom (base + 256 * (1 + off)) bs.length).map (fun a => (s.block p a, s.checkOf p a))) ++
    s.snapFrom p nr (off + bs.length) r

/-- Messages that carry blocks in order from the start of a stream's window (R275). -/
def streamMsgs (l : List (List Byte × Word32)) : List TxReq :=
  (List.range (ceilDiv l.length 16)).map (fun i =>
    let bs := (l.drop (16 * i)).take 16
    { mtype := 0, offset := 16 * i * 256, blocks := bs.map (·.1), checks := bs.map (·.2), owner := none })

/-! ## Step snapshots (R369–R372) -/

/-- A register access to Strata's window from an agent that may make it: a Flint of the partition or Bedrock. -/
def State.strAccess (s : State) (a : Agent) (p off : Nat) (t : State) : State :=
  if a = .pf16 then s
  else if s.rf (PRT_CLK_EN.STR p) = 0 then s.busErr p (regBase + 0x0A000000 + off)
  else t

/-- SNAP (R369): the next step that becomes mirrored is to be written. -/
def execSnap (a : Agent) (p : Nat) (s : State) : Answer :=
  onPart p (s.strAccess a p 0x78 (s.setStrata p { s.getStrata p with snapReq := true }))

/-- A snapshot ends with a status; the release of the following step may proceed (R369). -/
def State.snapEnd (s : State) (p st : Nat) : State :=
  let s := s.setStrata p { s.getStrata p with snapRun := false }
  ((s.wf (STR_CKPT_STATUS.BUSY p) 0).wf (STR_CKPT_STATUS.STAT p) st).tryRelease p

/-- Whether a snapshot of `n` blocks after the header is once-only (R371). -/
def State.onceOnly (s : State) (p n : Nat) : Bool :=
  let r := s.rf (STR_CKPT_CFG.RATE p)
  decide (s.rf (STR_CKPT_CFG.BUDGET_MS p) * r * 1000 < 256 * (n + 1)) && r != 0 && s.rf (STR_CFG.ONCE_EN p) == 1 &&
    s.rf (ASY_VOTE.OUTCOME p) == 1

/-- SNAPSHOT_START (R369–R372): the step for which a snapshot was requested is mirrored; this partition writes that of the mirror it
holds, once no block of it is being written (R195). What the holder of a mirror knows of its source is log entry 25. -/
def execSnapshotStart (p : Nat) (s : State) : Answer :=
  onPart p (
    let x := s.getStrata p
    if x.phase ≠ 7 ∨ !x.snapDue ∨ (blocksFrom (s.rf (STR_MHELD.BASE p)) (1 + s.rf (STR_MHELD_LEN.BLOCKS p))).any (s.interlocked p) then s
    else
      let step := s.rf (STR_STEP.STEP p)
      let nr := s.rf (STR_CFG.NARROW p) == 1
      let body := s.snapFrom p nr 0 x.tsl
      let once := s.onceOnly p body.length
      let own := s.rf (ASY_VCFG.OWN p)
      let w := step % s.rf (ASY_VCFG.REPL p)
      let full := !once || w == own
      let s := s.setStrata p { x with snapDue := false, snapRun := true, ckptStat := stOK }
      let s := ((s.wf (STR_CKPT_STATUS.BUSY p) 1).wf (STR_CKPT_STATUS.ONCE p) (bit once)).wf (STR_CKPT_STATUS.WROTE p) (bit full)
      let s := s.wf (STR_CKPT_STATUS.STEP p) step
      let h := s.rf (STR_CKPT_EP.HELD p)
      let base := s.rf (STR_MHELD.BASE p)
      let blocks := blocksFrom base (1 + s.rf (STR_MHELD_LEN.BLOCKS p))
      if !s.holdsMirror p ∨ s.rf (STR_STATUS.HELD p) ≠ 2 then s.snapEnd p stCHECKFAIL
      else if !s.handleOk p h then s.snapEnd p stSTALE
      else match (if full then blocks else [base]).find? (fun a => !s.goodBlock p a) with
      | some a => (s.checkFailRec p (strUnit p) a).snapEnd p stCHECKFAIL
      | none =>
        let hb := s.bytes (memKey p base) 96
        let (s, v) := s.free
        let hdr := s.ckptHeader p
          { kind := 0, flags := bit nr + 2 * bit (!full), step := step, rank := v.toNat % 2 ^ 22, writer := if once then w else own,
            utag := hb.drop 64, ndet := hdrField hb 16 8, lscale := hdrField hb 24 4, skips := hdrField hb 32 8,
            nblk := if full then body.length else 0 }
        s.queueTx (h % 2 ^ 18) (streamMsgs ((hdr, checkWord hdr) :: (if full then body else []))))

/-- SNAPSHOT_DONE (R369): every message of the snapshot is acknowledged, or its stream has failed (R277, R279, R288). -/
def execSnapshotDone (p : Nat) (s : State) : Answer :=
  onPart p (
    let i := s.rf (STR_CKPT_EP.HELD p) % 2 ^ 18
    let x := s.getStrata p
    if x.snapRun ∧ (x.ckptStat ≠ stOK ∨ ((s.getAux i).txq = [] ∧ (s.getAux i).unacked = [])) then s.snapEnd p x.ckptStat else s)

/-! ## Suspend images (R373) -/

/-- SUSPEND (R373): an image is requested, with or without STOP. -/
def execSuspend (a : Agent) (p : Nat) (stop : Bool) (s : State) : Answer :=
  onPart p (s.strAccess a p 0x78 (s.setStrata p { s.getStrata p with suspReq := true, suspStop := stop }))

/-- A Flint stops at an instruction boundary: an extension instruction in its stall is taken back and will be executed again. -/
def State.holdFlint (s : State) (p c : Nat) : State :=
  let f := s.getFlint p c
  match f.stall with
  | .none => s
  | .stepb _ _ true _ =>
    let x := s.getStrata p
    ((s.setFlint p c { f with stall := .none, lastStep := none }).setStrata p { x with reports := x.reports.filter (· != c) }).wf
      (FLT_STATUS.STATE p c) 1
  | _ => (s.setFlint p c { f with stall := .none }).wf (FLT_STATUS.STATE p c) 1

/-- SUSPEND_IMAGE_START (R373): outside every release-to-mirrored window and every vote, that is with the last step mirrored and no
boundary BARRIER under way: engines start nothing more, Flints stop, and no new data message is sent. -/
def execSuspendImageStart (p : Nat) (s : State) : Answer :=
  onPart p (
    let x := s.getStrata p
    if !x.suspReq ∨ x.phase ≠ 7 ∨ !s.runs p ∨ x.snapRun then s
    else
      let s := s.setStrata p { x with suspReq := false, suspRun := true, ckptStat := stOK }
      let s := (s.wf (STR_CKPT_STATUS.BUSY p) 1).wf (STR_STATUS.PHASE p) 4
      (List.range (s.lcores p)).foldl (fun s c => s.holdFlint p c) s)

/-- Whether every engine of the partition has finished what it ran, every Flint access is done and nothing of the job is in
flight. -/
def State.imageReady (s : State) (p : Nat) : Bool :=
  let m := s.getMover p
  (List.range (s.lcores p)).all (fun c =>
    (s.getQueue p c 0).entries.all (fun e => !e.started) && (s.getQueue p c 1).entries.all (fun e => !e.started) &&
    (s.getFlint p c).access.isEmpty && (s.getFlint p c).stall == .none) &&
  m.waiting.isEmpty && m.chans.isEmpty && (s.ctxsOf p).all (fun i => s.strataStream p i || (s.getCtx i).inflight == 0)

/-- Register fields an image holds: those of every block but the PRT_ and MEM_ windows, and but what an admission opens anew. -/
def imageField (p cell : Nat) : Bool :=
  match cellOff p cell with
  | some off => decide (0x01000000 ≤ off) && decide (off / 0x1000000 ≠ 6) &&
      !([0x0A000028, 0x0A000030, 0x0A000038, 0x0A000078, 0x0A000088, 0x0A000090].contains off)
  | none => false

/-- The entries of a table whose keys satisfy `f`. -/
def Tbl.keep {α : Type} (f : Nat → Bool) (t : Tbl α) : Tbl α := t.filter (fun e => f e.1)

/-- The image of a partition (R373). -/
def State.takeImage (s : State) (p : Nat) (header : List Byte) : PartImage where
  header := header
  flds := s.flds.keep (imageField p)
  mem := Tbl.keep (fun k => k / 2 ^ 48 == p) s.mem
  tileChk := s.tileChk.keep (fun k => k / 2 ^ 40 == p)
  acc := s.acc.keep (fun k => k / 2 ^ 20 == p)
  treg := s.treg.keep (fun k => k / 2 ^ 19 == p)
  loaded := s.loaded.keep (fun k => k / 32 == p)
  flint := s.flint.keep (fun k => k / 8 == p)
  queue := s.queue.keep (fun k => k / 24 == p)
  mover := s.getMover p
  disp := s.getDisp p
  ctx := (s.ctx.filter (fun e => e.2.part == p && e.2.state != 0))
  aux := s.aux.keep (fun k => (s.getCtx k).part == p && (s.getCtx k).state != 0)
  colq := s.colq.keep (fun k => k / 256 == p)
  assay := s.getAssay p
  strata := s.getStrata p

/-- The header of a suspend image: the partition's own values. -/
def State.imageHeader (s : State) (p : Nat) : List Byte :=
  s.ckptHeader p
    { kind := 1, flags := 0, step := s.rf (STR_STEP.STEP p), rank := s.rankOf p, writer := s.rf (ASY_VCFG.OWN p)
      utag := (List.range 4).flatMap (fun i => leBytes 8 (s.rf (ASY_UTAG.TAG p i))), ndet := s.rf (ASY_NDET.COUNT p)
      lscale := s.rf (STR_LSCALE.SCALE p), skips := s.rf (STR_SKIPS.COUNT p), nblk := 0 }

/-- SUSPEND_IMAGE_DONE (R373): the image is written; the job goes on, or the partition leaves it. The layout of the image beyond its
header is not given, so NBLK too is open (log entry 24). -/
def execSuspendImageDone (p : Nat) (s : State) : Answer :=
  onPart p (
    let x := s.getStrata p
    if !x.suspRun ∨ !s.imageReady p then s
    else
      let s := s.setStrata p { x with suspRun := false, suspStop := false, ckptStat := stOK }
      let s := s.wf (STR_STATUS.PHASE p) (if x.replay.isSome then 3 else if x.decided then 2 else 1)
      let (s, v) := s.free
      let h := (s.imageHeader p).take 184 ++ leBytes 8 v.toNat ++ List.replicate 64 0#8
      let s := { s with images := s.images.set none p (some (s.takeImage p h)) }.emit (.image p (s.rf (STR_STEP.STEP p)) h)
      let s := (s.wf (STR_CKPT_STATUS.BUSY p) 0).wf (STR_CKPT_STATUS.STAT p) x.ckptStat
      if x.suspStop then ((s.stopPartition p).wf (PRT_STATE.STATE p) psREADY).wf (MOV_RANK.VALID p) 0 else s)

/-! ## Restores (R330, R364, R374, R427) -/

/-- The fields a restore compares, as (offset, bytes) in header order (R374). -/
def shapeFields (image : Bool) : List (Nat × Nat) :=
  [(0, 4), (4, 1), (16, 4), (20, 1), (21, 1)] ++ (if image then [(32, 32)] else []) ++ [(64, 32)] ++ (if image then [] else [(96, 32)])

/-- The offset of the first field in which two headers differ. -/
def mismatchAt (a b : List Byte) (image : Bool) : Option Nat :=
  ((shapeFields image).find? (fun f => hdrField a f.1 f.2 != hdrField b f.1 f.2)).map (·.1)

/-- The first mismatching field of a restore: the shape of the header, of the writer's header for a TAGONLY partition, and then that
writer's UTAG. -/
def State.restoreMismatch (s : State) (p : Nat) (image : Bool) (h w : List Byte) : Option Nat :=
  let own := s.ckptHeader p ⟨bit image, 0, 0, 0, 0, List.replicate 32 0#8, 0, 0, 0, 0⟩
  let tagOnly := bitOf (hdrField h 5 1) 1 && !image
  (mismatchAt own h image).or
    (if tagOnly then (mismatchAt own w image).or (if hdrField h 128 32 = hdrField w 128 32 then none else some 128) else none)

/-- The status of the last restore. -/
def State.restoreEnd (s : State) (p st : Nat) : State :=
  (s.wf (STR_CKPT_STATUS.BUSY p) 0).wf (STR_CKPT_STATUS.STAT p) st

/-- Write a tensor back from snapshot blocks. A block that widened elements cover only in part is merged, and so it must verify (R12, R170).
Answers what is left of the blocks, and whether every write was performed. -/
def State.putTensor (s : State) (p : Nat) (nr : Bool) (cls : Nat) (ws : List Word64) (l : List (List Byte × Word32)) :
    State × List (List Byte × Word32) × Bool :=
  let o := s.tslOpnd p ws
  if nr && cls == 1 then
    let n := ceilDiv (33 * o.groups.length) 256
    let gs := piecesOf 33 ((l.take n).flatMap (·.1))
    let t := (o.groups.zip gs).foldl (fun t e => (e.1.zip (widenGroup e.2)).foldl (fun (t : WriteSet) f => WriteSet.put t (8 * f.1) 32 f.2.toNat) t)
      ([] : WriteSet)
    let (s, st) := s.verify p (strUnit p) ((t.filter (fun b => b.2.1 != 2 ^ 2048 - 1)).map (fun b => b.1 * 256))
    if st ≠ stOK then (s, l.drop n, false) else ((s.writeSet p t).1, l.drop n, (s.writeSet p t).2)
  else
    let bs := o.tagBlocks
    let (s, ok) := s.placeBlocks p (bs.zip (l.take bs.length))
    (s, l.drop bs.length, ok)

/-- Write every listed tensor back; answers whether every write was performed. -/
def State.putTensors (s : State) (p : Nat) (nr : Bool) : List (Nat × List Word64) → List (List Byte × Word32) → State × Bool
  | [], _ => (s, true)
  | (cls, ws) :: r, l =>
    let (s, l, ok) := s.putTensor p nr cls ws l
    let (s, ok2) := s.putTensors p nr r l
    (s, ok && ok2)

/-- Set the counters a restore sets (R330, R364). -/
def State.putCounters (s : State) (p step ndet lscale skips : Nat) : State :=
  (((s.wf (STR_STEP.STEP p) step).wf (ASY_NDET.COUNT p) ndet).wf (STR_LSCALE.SCALE p) lscale).wf (STR_SKIPS.COUNT p) skips

/-- A step snapshot's blocks are verified: the state is restored and released as the step it holds (R357). -/
def State.putSnapshot (s : State) (p : Nat) (h w : List Byte) (l : List (List Byte × Word32)) : State :=
  let src := if bitOf (hdrField h 5 1) 1 then w else h
  let nr := bitOf (hdrField src 5 1) 0
  let (s, ok) := s.putTensors p nr (s.getStrata p).tsl l
  if !ok then s.restoreEnd p stCHECKFAIL else
  let s := s.putCounters p (hdrField h 8 8) (hdrField h 160 8) (hdrField h 168 4) (hdrField h 176 8)
  let s := (s.setStrata p { s.getStrata p with clean := [] }).release p
  if nr then (s.setTen p { s.getTen p with lossy := true }).restoreEnd p stLOSSY else s.restoreEnd p stOK

/-- A context as a restore from an image opens it again: SEQ from 0 (R424). -/
def Ctx.reopened (x : Ctx) : Ctx := { x with txSeq := 0, txAcked := 0, inflight := 0, rxSeq := 0, rxMap := 0 }

/-- Put the entries of a table into another. -/
def Tbl.setAll {α : Type} [DecidableEq α] (d : α) (t l : Tbl α) : Tbl α := l.foldl (fun t e => t.set d e.1 e.2) t

/-- Put register cells into a register file; a cell listed is kept whatever its field's reset value. -/
def Tbl.putAll (t l : Tbl Nat) : Tbl Nat := l.foldl (fun t e => t.set (e.2 + 1) e.1 e.2) t

/-- A partition takes the state of an image (R373). Its contexts come back under their handles where their indices are free or its
own (log entry 24), with keys derived afresh (R424). -/
def State.putImage (s : State) (p : Nat) (m : PartImage) : State :=
  let mine (e : Nat × Ctx) : Bool := (s.getCtx e.1).state == 0 || (s.getCtx e.1).part == p
  let cs := m.ctx.filter mine
  let s := { s with
    flds := (s.flds.drop (imageField p)).putAll m.flds
    mem := Tbl.setAll 0#8 (Tbl.drop (fun k => k / 2 ^ 48 == p) s.mem) m.mem
    tileChk := (s.tileChk.drop (fun k => k / 2 ^ 40 == p)).setAll 0#32 m.tileChk
    acc := (s.acc.drop (fun k => k / 2 ^ 20 == p)).setAll none m.acc
    treg := (s.treg.drop (fun k => k / 2 ^ 19 == p)).setAll 0#32 m.treg
    loaded := (s.loaded.drop (fun k => k / 32 == p)).setAll none m.loaded
    flint := (s.flint.drop (fun k => k / 8 == p)).setAll {} m.flint
    queue := (s.queue.drop (fun k => k / 24 == p)).setAll {} m.queue
    mover := s.mover.set {} p m.mover
    disp := s.disp.set {} p m.disp
    ctx := s.ctx.setAll {} (cs.map (fun (e : Nat × Ctx) => (e.1, e.2.reopened)))
    aux := s.aux.setAll {} ((m.aux.filter (fun (e : Nat × CtxAux) => cs.any (fun (c : Nat × Ctx) => c.1 == e.1))).map
      (fun (e : Nat × CtxAux) => (e.1, { e.2 with salt := s.keySalt p })))
    colq := (s.colq.drop (fun k => k / 256 == p)).setAll {} m.colq
    assay := s.assay.set {} p m.assay
    strata := s.strata.set {} p m.strata }
  s.wf (PRT_CTX.INUSE p) (s.ctxsOf p).length

/-- RESTORE (R374, R427): the tags of the messages, then the shape of the header, then every block; then the state of a snapshot or
an image. -/
def execRestore (p : Nat) (image : Bool) (h w : List Byte) (blocks : List (List Byte)) (checks : List Word32) (tagOk : Bool) (s : State) :
    Answer :=
  onPart p (
    if !s.runs p then s
    else if !tagOk then
      let i := s.rf (STR_CKPT_EP.OWN p)
      (s.raise { unit := s.transportUnit, cls := .perm, code := 0x68, part := some p, handle := i
                 epoch := (s.getCtx (i % 2 ^ 18)).epoch, synd := [(0, 2), (0, 1), (0, 1)] }).restoreEnd p stCHECKFAIL
    else match s.restoreMismatch p image h w with
    | some o => (s.raise { unit := strUnit p, cls := .perm, code := 0x76, part := some p, synd := [(o, 1)] }).restoreEnd p stCHECKFAIL
    | none =>
      let l := blocks.zip checks
      match l.findIdx? (fun (e : List Byte × Word32) => checkWord e.1 != e.2) with
      | some i =>
        let e := l.getD i ([], 0#32)
        ((s.restoreEnd p stCHECKFAIL).fatal p
          { unit := strUnit p, cls := .fatal, code := 0x73, part := some p
            synd := [(i, 6), ((checkWord e.1).toNat, 4), (e.2.toNat, 4)] }).resetRequest p 1
      | none =>
        if image then match s.images.get none p with
          | some m => if m.header = h then (s.putImage p m).restoreEnd p stOK else s
          | none => s
        else s.putSnapshot p h w l)

/-! ## Local replay (R362) -/

/-- A receive of a replay that the slot does not hold as expected: FATAL, and the job aborts. -/
def State.replayMismatch (s : State) (p idx want found : Nat) : State :=
  s.fatal p { unit := strUnit p, cls := .fatal, code := 0x74, part := some p, synd := [(idx, 3), (want, 6), (found, 6)] }

/-- A recorded message of a stream of the dispatch unit comes to the unit again (R362); one of no blocks is a marker (log entry 81). -/
def State.replayItem (s : State) (p idx : Nat) (m : RingMsg) : State :=
  let r : TxReq := { mtype := if m.blocks = [] then 3 else 0, offset := m.addr, blocks := m.blocks, checks := m.checks, owner := none }
  let a := s.getAux idx
  let s := s.setAux idx { a with inbox := a.inbox ++ [{ s.msgOf idx r 0 0 0 with seq := m.seq }] }
  (s.setCtx idx { s.getCtx idx with rxSeq := (m.seq + 1) % 2 ^ 48 }).drainBox p idx (a.inbox.length + 1)

/-- LOCAL_REPLAY (R362): the next receive on context `idx`, which expects SEQ `seq`, is satisfied from the slot of the step. -/
def execLocalReplay (p idx seq : Nat) (s : State) : Answer :=
  onPart p (
    let x := s.getStrata p
    match x.replay with
    | none => s
    | some st =>
      let k := x.taken.get 0 idx
      match ((x.slot (st % 2)).filter (fun m => m.idx == idx))[k]? with
      | none => s.replayMismatch p idx seq 0
      | some m =>
        if m.seq ≠ seq then s.replayMismatch p idx seq m.seq
        else
          let s := s.setStrata p { x with taken := x.taken.set 0 idx (k + 1) }
          let n := m.blocks.length
          match (s.getAux idx).posted with
          | none =>
            if (s.getCtx idx).kind = 2 then s.replayItem p idx m
            else
              let s := if (s.getCtx idx).kind = 1
                then s.setAux idx { s.getAux idx with fresh := (s.getAux idx).fresh ++ blocksFrom m.addr n } else s
              (s.placeBlocks p ((blocksFrom m.addr n).zip (m.blocks.zip m.checks))).1
          | some w =>
            let o := w.blocks.idxOf (m.addr / 256)
            let as := ((w.blocks.drop o).take n).map (· * 256)
            let (s, ok) := s.placeBlocks p (as.zip (m.blocks.zip m.checks))
            let left := w.left.filter (fun i => decide (i < o ∨ o + n ≤ i))
            if !ok then (s.closePosted idx).endCopies p stCHECKFAIL [(w.core, w.seq)]
            else if left = [] then (s.endCopies p stOK [(w.core, w.seq)]).closePosted idx
            else s.setAux idx { s.getAux idx with posted := some { w with left := left } })

/-! ## Mirror pulls (R365, R366) -/

/-- The addresses of all state blocks of a partition (R348). -/
def State.stateBlocks (s : State) (p : Nat) : List Nat :=
  let rs := (s.getStrata p).ranges
  rangeBlocks rs 0 ((rs.map (·.2)).sum)

/-- Set every Flint of a partition running (R142). -/
def State.runFlints (s : State) (p : Nat) : State :=
  (List.range (s.lcores p)).foldl (fun s c => (s.wf (FLT_CTRL.RUN p c) 1).wf (FLT_STATUS.STATE p c) 1) s

/-- MIRROR_PULL_DONE (R359, R362, R365, R366): a partition has its own mirror back from its buddy, header block and state blocks with
their check words, after its admission and before any boundary. A mirror that is not COMPLETE, or not of this partition's size, is torn or inconsistent: FATAL 0x71. Otherwise
the partition has the state of the mirror's step; it then replays the step after it if its tag of that step was outvoted, and runs
on from the step after it if not, the restart being a job-wide boundary for its tables. -/
def execMirrorPullDone (p : Nat) (header : List Byte) (blocks : List (List Byte)) (checks : List Word32) (s : State) : Answer :=
  onPart p (
    let as := s.stateBlocks p
    let step := hdrField header 0 8
    if !s.runs p ∨ !(s.getStrata p).restart ∨ s.roundsOpen p then s
    else if hdrField header 8 1 ≠ 2 ∨ hdrField header 12 4 ≠ as.length ∨ blocks.length ≠ as.length then
      s.fatal p { unit := strUnit p, cls := .fatal, code := 0x71, part := some p, synd := [(step, 8), (2 ^ p, 2)] }
    else
      let s := (s.placeBlocks p (as.zip (blocks.zip checks))).1
      let s := s.putCounters p step (hdrField header 16 8) (hdrField header 24 4) (hdrField header 32 8)
      let s := s.setStrata p { s.getStrata p with clean := [], reports := [], restart := false }
      if bitOf (s.getAssay p).redo (s.rf (ASY_VCFG.OWN p)) then
        ((s.setStrata p { s.getStrata p with replay := some (step + 1), taken := [] }).wf (STR_STATUS.PHASE p) 3).runFlints p
      else (((s.swapTables p).swapRoutes p).release p).wf (STR_STATUS.PHASE p) 1)

end Sys2Proof.Machine
end

