-- ==== Sys2Proof/Machine/Watch.lean ====
section
/-!
DEFINITION. Hang detection and membership (chapter 13): the engine, Flint and step watchdogs (R377–R380), liveness messages (R381),
abort blocks that arrive (R384, R385), the watchdog of the management domain (R395), and quorum certificates (R398–R403).
-/
namespace Sys2Proof.Machine

/-! ## Watchdogs (R377–R380) -/

/-- A watchdog of a partition expires: FATAL 0x91 by Bedrock with the hung unit, and the abort wave with cause WATCHDOG. -/
def State.watchdog (s : State) (p kind unit queue sq : Nat) : State :=
  ((s.wdtStat p kind unit).raise
    { unit := s.bedrockUnit, cls := .fatal, code := 0x91, part := none,
      synd := [(kind, 1), (unit, 2), (queue, 2), (sq, 3)] }).startWave p waveWATCHDOG unit

/-- ENGINE_WATCHDOG (R377): `unit` holds work it could continue and has made no progress for ENG_MS. A value of 0 disables it. -/
def execEngineWatchdog (p unit queue sq : Nat) (s : State) : Answer :=
  onPart p (if s.runs p ∧ s.rf (PRT_WDT_CFG.ENG_MS p) ≠ 0 then s.watchdog p 1 unit queue sq else s)

/-- The unit ID of a core's Flint. -/
def State.flintUnit (s : State) (p c : Nat) : Nat := unitId p 2 (s.physCore p c)

/-- FLINT_WATCHDOG (R378). -/
def execFlintWatchdog (p c : Nat) (s : State) : Answer :=
  onCore s p c (
    if s.runs p ∧ s.rf (PRT_WDT_CFG.FLT_MS p) ≠ 0 ∧ s.rf (FLT_STATUS.STATE p c) = 1
    then s.watchdog p 2 (s.flintUnit p c) 0xFFFF 0 else s)

/-- STEP_WATCHDOG (R379): the unit whose boundary does not come is the partition's Strata. -/
def execStepWatchdog (p : Nat) (s : State) : Answer :=
  onPart p (if s.runs p ∧ s.rf (PRT_WDT_CFG.STEP_S p) ≠ 0 then s.watchdog p 3 (strUnit p) 0xFFFF 0 else s)

/-! ## The abort wave from other modules (R384, R385, R425) -/

/-- ABORT_BLOCK_RECEIVE (R385, R425): a block not sealed under the job control key is no block of the job; one with a WAVE not above
AWAVE or with another JOB or MEPOCH is discarded; a new one is recorded, delivered and forwarded. -/
def execAbortBlockReceive (b : AbortBlock) (fromCellPeer sealed : Bool) (s : State) : Answer :=
  .next (
    if sealed && (s.jobParts b.job).any (fun p => s.rf (PRT_JOB2.MEPOCH p) == b.mepoch && decide (s.rf (PRT_JOB2.AWAVE p) < b.wave))
    then s.takeWave b fromCellPeer else s)

/-! ## Liveness (R381) -/

/-- The module's liveness streams: Bedrock's contexts that lead to a named module. -/
def State.liveness (s : State) : List (Nat × (Nat × Nat)) :=
  s.ctx.filterMap (fun e => if e.2.part = 16 ∧ e.2.state = 1 then (s.getAux e.1).dest.map (fun d => (e.1, d)) else none)

/-- LIVENESS_SEND (R381): one data message with NBLK 0 on each liveness stream. -/
def execLivenessSend (s : State) : Answer :=
  .next (s.liveness.foldl (fun s e =>
    let r : TxReq := { mtype := 0, offset := 0, blocks := [], checks := [], owner := none }
    s.sendMsg e.1 r (s.msgOf e.1 r e.2.1 e.2.2 0)) s)

/-! ## The management watchdog (R395) -/

/-- Stop a partition as the abort wave does (R152). -/
def State.haltPartition (s : State) (p : Nat) : State :=
  if s.runs p then (s.stopPartition p).wf (PRT_STATE.STATE p) psFAULT else s

/-- MGMT_WATCHDOG_EXPIRE (R395): every partition halts, every port is held DOWN, and a power cycle is requested. -/
def execMgmtWatchdogExpire (s : State) : Answer :=
  .next (
    let s := (List.range 16).foldl (fun s p => s.haltPartition p) s
    let s := (List.range s.fuse.variant.ports).foldl (fun s i => (s.wf (ZLK_CTRL.DISABLE i) 1).portDown i) s
    s.askPowerCycle)

/-! ## Quorum certificates (R398–R403) -/

/-- MAGIC of a certificate (R399). -/
def certMagic : Nat := 0x31435145

/-- R401's conditions on the layout: reason 1. -/
def State.certForm (s : State) (c : Cert) : Bool :=
  c.magic == certMagic && c.version == 1 && decide (1 ≤ c.nexp ∧ c.nexp ≤ 8) &&
  decide (s.cfg.quorumK ≤ c.nsig ∧ c.nsig ≤ s.cfg.quorumN) && c.othersZero && c.entries.length == c.nexp &&
  c.signers.length == c.nsig && c.sigOk.length == c.nsig

/-- R401's conditions on the signatures: reason 3. -/
def State.certSigned (s : State) (c : Cert) : Bool :=
  ascends c.signers && c.signers.all (fun i => decide (i < s.cfg.quorumN)) && c.sigOk.all id

/-- R401's conditions on the entries: reason 4. -/
def certMembers (ms : List (Nat × Nat × Nat)) (c : Cert) : Bool :=
  c.entries.all (fun e => ms.contains (e.serial, e.cell, e.pos)) &&
  distinct (c.entries.map (fun e => e.cell * 32 + e.pos)) &&
  c.entries.all (fun e => !e.spare || !ms.any (fun m => m.2.1 == e.cell && m.2.2 == e.sparePos))

/-- Why a certificate is rejected against a membership (R401); 0 when it is not. -/
def State.certReason (s : State) (job mepoch rmap : Nat) (ms : List (Nat × Nat × Nat)) (c : Cert) : Nat :=
  if !s.certForm c then 1
  else if c.job ≠ job ∨ c.mepoch ≠ mepoch ∨ c.rmap ≠ rmap then 2
  else if !s.certSigned c then 3
  else if !certMembers ms c then 4
  else 0

/-- Whether two certificates have the same signed bytes (bytes 0–319). -/
def sameBody (a b : Cert) : Bool :=
  { a with signers := [], sigOk := [], othersZero := true } == { b with signers := [], sigOk := [], othersZero := true }

/-- The record of a certificate that is rejected (R401, R406), counted in PRT_QC of the job's partitions. -/
def State.certReject (s : State) (ps : List Nat) (c : Cert) (reason : Nat) : State :=
  let s := ps.foldl (fun s p => (s.inc (PRT_QC.REJECTED p)).wf (PRT_QC.REASON p) reason) s
  s.raise { unit := s.bedrockUnit, cls := .perm, code := 0x97, part := none, synd := [(reason, 1), (c.mepoch, 4)] }

/-- The record of an accepted certificate (R402, R406). -/
def State.certRecord (s : State) (c : Cert) : State :=
  s.raise
    { unit := s.bedrockUnit, cls := .perm, code := 0x96, part := none,
      synd := [(c.mepoch, 4), (c.nexp, 1), ((c.entries.headD ⟨0, 0, 0, false, 0, 0⟩).serial, 8)] }

/-- The membership after a certificate: the expelled leave, spares take their places. -/
def Membership.after (m : Membership) (c : Cert) : Membership :=
  { m with
    before := m.modules, forwarded := [], accepted := some c
    modules := m.modules.filter (fun x => !c.entries.any (fun e => x == (e.serial, e.cell, e.pos))) ++
      (c.entries.filter CertEntry.spare).map (fun e => (e.spareSerial, e.cell, e.sparePos)) }

/-- The open streams of the job, and of Bedrock, that lead to an expelled module (R402). -/
def State.toExpelled (s : State) (ps : List Nat) (c : Cert) : List Nat :=
  s.ctx.filterMap (fun e =>
    if e.2.state = 1 ∧ (e.2.part = 16 ∨ ps.contains e.2.part) then match s.routeOf e.1 with
      | .to x q _ => if c.entries.any (fun e => e.cell == x && e.pos == q) then some e.1 else none
      | _ => none
    else none)

/-- Acceptance (R402): MEPOCH advances; the abort wave starts unless every job partition is in FAULT; the streams to the expelled
close; an expelled module RETENANT-resets its job partitions. -/
def State.certAccept (s : State) (ps : List Nat) (c : Cert) : State :=
  let is := s.toExpelled ps c
  let s := ps.foldl (fun s p =>
    ((s.inc (PRT_JOB2.MEPOCH p)).inc (PRT_QC.ACCEPTED p)).setMember p ((s.getMember p).after c)) s
  let s := s.certRecord c
  let s := match ps.find? (fun p => s.runs p) with
    | some p => s.startWave p waveEXPEL 0
    | none => s
  let s := is.foldl (fun s i => if (s.getCtx i).state = 1 then s.closeCtx i stABORTED else s) s
  if c.entries.any (fun e => e.serial == s.fuse.serial) then ps.foldl (fun s p => s.resetRequest p 2) s else s

/-- Forward a certificate whose MAGIC, JOB and MEPOCH match, at most 4 distinct ones per epoch (R400). -/
def State.certForward (s : State) (ps : List Nat) (c : Cert) (fromCellPeer : Bool) : State :=
  match ps with
  | [] => s
  | p :: _ =>
    let m := s.getMember p
    if c.magic ≠ certMagic ∨ c.mepoch ≠ s.rf (PRT_JOB2.MEPOCH p) ∨ m.forwarded.contains c ∨ 4 ≤ m.forwarded.length then s
    else
      let s := ps.foldl (fun s q => s.setMember q { s.getMember q with forwarded := (s.getMember q).forwarded ++ [c] }) s
      (forwardTo m.modules s.ownCell s.ownPos fromCellPeer).foldl (fun s t => s.emit (.cert t.1 t.2 c)) s

/-- A certificate for a spare that is in no job of this name (R402): it verifies the form and the signatures against its own keys; its
admission at the expelled ranks goes on as any other, by CLAIM, PROVISION and ADMIT. Answers the reason of a rejection, 0 for none. -/
def State.certSpare (s : State) (c : Cert) : State × Nat :=
  let r := if !s.certForm c then 1
    else if !c.entries.any (fun e => e.spare && e.spareSerial == s.fuse.serial && e.cell == s.ownCell && e.sparePos == s.ownPos) then 2
    else if !s.certSigned c then 3 else 0
  if r = 0 then (s.certRecord c, 0) else (s.certReject [] c r, r)

/-- The partitions of this module that belong to the membership of job `j`; a reset does not take one out of it (R398). -/
def State.memberParts (s : State) (j : Nat) : List Nat :=
  (List.range 16).filter (fun p => s.rf (PRT_JOB.JOB p) == j && !(s.getMember p).modules.isEmpty)

/-- What Bedrock does with a certificate (R400–R403). Answers the reason of a rejection, 0 for none. -/
def State.takeCert (s : State) (c : Cert) (fromCellPeer : Bool) : State × Nat :=
  match s.memberParts c.job with
  | [] => s.certSpare c
  | p :: ps =>
    let m := s.getMember p
    let was : Option Cert := m.accepted.bind (fun a => if a.mepoch = c.mepoch then some a else none)
    match was with
    | some a =>
      if sameBody a c then (s, 0)
      else
        let r := s.certReason c.job c.mepoch m.rmap m.before c
        if r = 0 then
          let s := (p :: ps).foldl (fun s q => s.wf (PRT_QC.CONFLICT q) 1) s
          let s := s.raise { unit := s.bedrockUnit, cls := .fatal, code := 0x98, part := none, synd := [(c.mepoch, 4)] }
          ((p :: ps).foldl (fun s q => s.startWave q waveFAULT s.bedrockUnit) s, 0)
        else (s.certReject (p :: ps) c r, r)
    | none =>
      let s := s.certForward (p :: ps) c fromCellPeer
      let r := s.certReason c.job (s.rf (PRT_JOB2.MEPOCH p)) m.rmap m.modules c
      if r = 0 then (s.certAccept (p :: ps) c, 0) else (s.certReject (p :: ps) c r, r)

/-- CERTIFICATE_RECEIVE (R400–R403, R425): by PF16, or sealed under the job control key. -/
def execCertificateReceive (viaPf16 fromCellPeer sealed : Bool) (c : Cert) (s : State) : Answer :=
  .next (if viaPf16 || sealed then (s.takeCert c fromCellPeer).1 else s)

end Sys2Proof.Machine
end

