-- ==== Sys2Proof/Machine/Security.lean ====
section
/-!
DEFINITION. Attestation and tenancy (chapter 14): the SPDM responders and their sessions (R414, R415), claims and provisioning
(R416–R420), the requests of R467 that write the flash, the entropy source and the DRBG (R412), and Link IDE (R429). The codes of SPDM
responses and errors are those of DMTF DSP0274 (log entry 10).
-/
namespace Sys2Proof.Machine

/-! ## Responders and sessions -/

/-- The key of session `i` of PF`n` (R414): one on each of PF0–PF15, two on PF16. -/
def sessKey (n i : Nat) : Nat := 2 * n + i % 2

/-- Answer an SPDM message with a response code and its data. -/
def State.spdmRsp (s : State) (n code : Nat) (data : List Nat) : State := s.emit (.spdm n code data)

/-- Answer ERROR with an error code: 1 InvalidRequest, 4 UnexpectedRequest, 5 Unspecified, 6 DecryptError, 7 UnsupportedRequest,
10 SessionLimitExceeded. -/
def State.spdmErr (s : State) (n e : Nat) : State := s.spdmRsp n 0x7F [e]

/-- A message to the responder of PF`n`: none runs before Bedrock does, and in maintenance mode the mailboxes of PF0–PF15 answer
ERROR (R470). -/
def spdm (n : Nat) (s t : State) : Answer :=
  if 17 ≤ n then .fault .noSuchUnit
  else .next (
    if s.boot = .maint then (if n = 16 then t else s.spdmErr n 5)
    else if s.boot = .running then t
    else s)

/-- A request that needs the connection phase `ph`. -/
def State.spdmAt (s : State) (n ph : Nat) (t : State) : State :=
  if (s.getSess (sessKey n 0)).phase < ph then s.spdmErr n 4 else t

/-- Set the connection phase of a function. -/
def State.setPhase (s : State) (n ph : Nat) : State :=
  s.setSess (sessKey n 0) { s.getSess (sessKey n 0) with phase := ph }

/-- GET_VERSION (R414): SPDM 1.3; the connection begins anew. -/
def execGetVersion (n : Nat) (s : State) : Answer := spdm n s ((s.setPhase n 1).spdmRsp n 0x04 [0x13])

/-- GET_CAPABILITIES (R414). -/
def execGetCapabilities (n : Nat) (s : State) : Answer := spdm n s (s.spdmAt n 1 ((s.setPhase n 2).spdmRsp n 0x61 []))

/-- NEGOTIATE_ALGORITHMS (R414): only the algorithms of R414 are supported. -/
def execNegotiateAlgorithms (n : Nat) (supported : Bool) (s : State) : Answer :=
  spdm n s (s.spdmAt n 2 (if supported then (s.setPhase n 3).spdmRsp n 0x63 [] else s.spdmErr n 1))

/-- GET_DIGESTS (R414): slot 0 only. -/
def execGetDigests (n : Nat) (s : State) : Answer := spdm n s (s.spdmAt n 3 (s.spdmRsp n 0x01 [1]))

/-- GET_CERTIFICATE (R414): slot 0 only. -/
def execGetCertificate (n slot off len : Nat) (s : State) : Answer :=
  spdm n s (s.spdmAt n 3 (if slot = 0 then s.spdmRsp n 0x02 [slot, off, len] else s.spdmErr n 1))

/-- A draw from the DRBG (R412). -/
def State.draw (s : State) : State := { s with drbgReqs := s.drbgReqs + 1, freeCtr := s.freeCtr + 1 }

/-- CHALLENGE (R414): signed with the alias key over the requester's nonce; the responder's nonce is a draw. -/
def execChallenge (n slot nonce : Nat) (s : State) : Answer :=
  spdm n s (s.spdmAt n 3 (if slot = 0 then s.draw.spdmRsp n 0x03 [slot, nonce, Config.randomDraw s.freeCtr] else s.spdmErr n 1))

/-! ## Measurements (R415) -/

/-- The image of the running slot. -/
def State.runImage (s : State) : Option FwImage := if s.flash.running = 0 then s.flash.slotA else s.flash.slotB

/-- Whether a measurement index exists on PF`n`. -/
def measExists (n i : Nat) : Bool := decide (1 ≤ i ∧ i ≤ 8) && (decide (n < 16) || (i != 6 && i != 7))

/-- The content of a measurement block, as its numbers (R415): digests as 32-byte numbers, raw blocks as their fields. -/
def State.measurement (s : State) (n i : Nat) : List Nat :=
  match i with
  | 1 => [Config.romDigest]
  | 2 => [(s.runImage.map FwImage.bedrock).getD 0]
  | 3 => [(s.runImage.map FwImage.engines).getD 0]
  | 4 => [s.fuse.variant.code, bit s.fuse.gradeE, s.rf (PRT_ID.STEPPING n), s.fuse.svn, bit s.fuse.dbgLock]
  | 5 => [Config.cfgDigest s.cfg]
  | 6 => [n, s.pstate n, s.rf (PRT_ID.GCLASS n), s.lcores n, s.rf (PRT_CORES.MAP n), s.goodMask n, s.rf (PRT_CORES.RETIRED n),
      s.rf (BDR_PSEC.CLAIMED n), s.rf (BDR_PSEC.KEYGEN n)]
  | 7 => [if s.runs n then leNat (s.pdigest n) else 0]
  | _ => [s.fuse.serial, s.ownCell, s.ownPos]

/-- GET_MEASUREMENTS (R415): index 0 asks for the number of blocks, 0xFF for all of them. -/
def execGetMeasurements (n index : Nat) (s : State) : Answer :=
  spdm n s (s.spdmAt n 3 (
    let all := (List.range 9).filter (measExists n)
    if index = 0 then (s.inc BDR_ATT.MEAS).spdmRsp n 0x60 [all.length]
    else if index = 0xFF then (s.inc BDR_ATT.MEAS).spdmRsp n 0x60 (all.flatMap (s.measurement n))
    else if measExists n index then (s.inc BDR_ATT.MEAS).spdmRsp n 0x60 (s.measurement n index)
    else s.spdmErr n 1))

/-! ## Sessions (R414) -/

/-- The sessions a function may hold. -/
def sessLimit (n : Nat) : Nat := if n = 16 then 2 else 1

/-- The first free session of a function. -/
def State.freeSess (s : State) (n : Nat) : Option Nat :=
  (List.range (sessLimit n)).find? (fun i => (s.getSess (sessKey n i)).stage == 0)

/-- KEY_EXCHANGE (R412, R414): slot 0; refused after a health failure of the entropy source. -/
def execKeyExchange (n slot : Nat) (s : State) : Answer :=
  spdm n s (s.spdmAt n 3 (
    if slot ≠ 0 then s.spdmErr n 1
    else if s.rf BDR_SEC.DRBG_OK = 0 then s.spdmErr n 5
    else match s.freeSess n with
    | none => s.spdmErr n 10
    | some i =>
      let k := sessKey n i
      (s.draw.setSess k { s.getSess k with stage := 1, proven := false, fails := 0, missed := 0, updates := 0, secret := s.freeCtr })
        |>.spdmRsp n 0x64 [i]))

/-- Running transfers of a function stop at a unit boundary (R450). -/
def State.stopHandles (s : State) (n : Nat) : State :=
  { s with handles := s.handles.map (fun e => (e.1, e.2.map (fun h =>
      if h.fn = n ∧ h.op ≤ 3 then match h.st with
        | .accepted | .running => { h with st := .stopped }
        | _ => h
      else h))) }

/-- Session `i` of PF`n` ends: its keys are erased and the host transfers under it stop (R411, R450). -/
def State.endSession (s : State) (n i : Nat) : State :=
  let k := sessKey n i
  let x := s.getSess k
  let s := s.setSess k { phase := x.phase }
  if x.stage ≠ 2 then s
  else if n = 16 then s.wf BDR_SEC.PF16_SESS (s.rf BDR_SEC.PF16_SESS - 1)
  else (s.wf (BDR_PSEC.SESSION n) 0).stopHandles n

/-- The rings of a function go out of use (R440): EN and both ring positions are cleared, and the completions not delivered
are held back; what the ring held unconsumed is produced again by a REBIND (R450). -/
def State.endRings (s : State) (n : Nat) : State :=
  let h := s.getHost n
  let s := s.setHost n { wait := h.wait, produced := h.produced }
  ((s.wf (HST_QCFG.EN n) 0).wf (HST_QSTAT.SQ_HEAD n) 0).wf (HST_QSTAT.CQ_TAIL n) 0

/-- A failed tag of a secured message or a queue entry (R433, R442): PERM 0x9A, and the session ends as under R440. -/
def State.secureFail (s : State) (n i sq : Nat) : State :=
  let s := s.raise { unit := s.bedrockUnit, cls := .perm, code := 0x9A, part := none, synd := [(n, 1), (i, 1), (sq, 8)] }
  let s := (s.inc BDR_ATT.SESS_FAIL).endSession n i
  if n = 16 then s else s.endRings n

/-- FINISH (R414): the session is open. On PF0–PF15 its queue keys are new, and each direction counts entries from 0 (R441). -/
def execFinish (n i : Nat) (macOk : Bool) (s : State) : Answer :=
  spdm n s (
    let k := sessKey n i
    let x := s.getSess k
    if x.stage ≠ 1 ∨ sessLimit n ≤ i then s.spdmErr n 4
    else if !macOk then ((s.secureFail n i 0)).spdmErr n 6
    else
      let s := s.setSess k { x with stage := 2, proven := n = 16 || s.rf (BDR_PSEC.CLAIMED n) == 0 }
      let s := if n = 16 then s.inc BDR_SEC.PF16_SESS
        else (s.wf (BDR_PSEC.SESSION n) 1).setHost n { s.getHost n with sqSeq := 0, cqSeq := 0 }
      s.spdmRsp n 0x65 [])

/-- A message inside session `i` of PF`n`. -/
def inSess (n i : Nat) (s t : State) : Answer :=
  spdm n s (if (s.getSess (sessKey n i)).stage = 2 ∧ i < sessLimit n then t else s.spdmErr n 4)

/-- HEARTBEAT (R414). -/
def execHeartbeat (n i : Nat) (s : State) : Answer :=
  inSess n i s ((s.setSess (sessKey n i) { s.getSess (sessKey n i) with missed := 0 }).spdmRsp n 0x68 [])

/-- KEY_UPDATE (R414). -/
def execKeyUpdate (n i : Nat) (s : State) : Answer :=
  let x := s.getSess (sessKey n i)
  inSess n i s ((s.setSess (sessKey n i) { x with updates := x.updates + 1 }).spdmRsp n 0x69 [])

/-- END_SESSION (R414). -/
def execEndSession (n i : Nat) (s : State) : Answer := inSess n i s ((s.endSession n i).spdmRsp n 0x6C [])

/-- Any other request (R414). -/
def execSpdmUnsupported (n code : Nat) (s : State) : Answer := spdm n s (s.spdmRsp n 0x7F [7, code])

/-- HEARTBEAT_TIMEOUT (R414): one more 60 s heartbeat is missed; with the third the session ends. -/
def execHeartbeatTimeout (n i : Nat) (s : State) : Answer :=
  if 17 ≤ n then .fault .noSuchUnit
  else .next (
    let x := s.getSess (sessKey n i)
    if x.stage ≠ 2 ∨ sessLimit n ≤ i then s
    else if 2 ≤ x.missed then s.endSession n i
    else s.setSess (sessKey n i) { x with missed := x.missed + 1 })

/-! ## Claims (R416–R418) -/

/-- A vendor-defined request inside the session of a partition's PF (R417): on a claimed partition a session that has not proven the
claim may only prove it. -/
def vendor (n : Nat) (prove : Bool) (s t : State) : Answer :=
  if n = 16 then spdm n s (s.spdmErr n 7)
  else inSess n 0 s (if (s.getSess (sessKey n 0)).proven = prove then s.spdmErr n 4 else t)

/-- CLAIM (R412, R416). -/
def execClaim (n key : Nat) (s : State) : Answer :=
  vendor n false s (
    let t := s.getTen n
    if s.rf BDR_SEC.DRBG_OK = 0 ∨ s.pstate n ≠ psREADY ∨ s.rf (BDR_PSEC.CLAIMED n) = 1 ∨ t.claimedSinceReset ∨ !t.lastRetenant then
      s.spdmErr n 5
    else ((s.setTen n { t with claimKey := some key, claimedSinceReset := true }).wf (BDR_PSEC.CLAIMED n) 1).spdmRsp n 0x7E [])

/-- CLAIM_PROVE (R417): each failure is recorded, and the fourth ends the session. -/
def execClaimProve (n : Nat) (sigOk : Bool) (s : State) : Answer :=
  vendor n true s (
    let k := sessKey n 0
    let x := s.getSess k
    if sigOk then (s.setSess k { x with proven := true }).spdmRsp n 0x7E []
    else
      let s := (s.setSess k { x with fails := x.fails + 1 }).inc (BDR_PSEC.PROOF_FAIL n)
      let s := s.raise
        { unit := s.bedrockUnit, cls := .perm, code := 0x9D, part := none, synd := [(n, 1), (x.fails + 1, 1)] }
      if 4 ≤ x.fails + 1 then (s.endSession n 0).spdmErr n 5 else s.spdmErr n 5)

/-- PROVISION or an admission is refused (R433) with its reason. -/
def State.refuse (s : State) (reason : Nat) : State :=
  (s.raise { unit := s.bedrockUnit, cls := .perm, code := 0x9B, part := none, synd := [(reason, 1)] }).inc BDR_ATT.REFUSED

/-- What a partition kept of its last job goes when it is provisioned for another. -/
def State.newJob (s : State) (p job : Nat) : State :=
  if s.rf (PRT_JOB.JOB p) = job then s
  else (s.setStrata p { s.getStrata p with values := [], rewind := none, slot0 := [], slot1 := [] }).setAssay p
    { s.getAssay p with redo := 0, tags := [] }

/-- PROVISION (R412, R419, R420). -/
def execProvision (n : Nat) (v : Provision) (s : State) : Answer :=
  vendor n false s (
    if s.rf BDR_SEC.DRBG_OK = 0 then (s.spdmErr n 5).inc BDR_ATT.REFUSED
    else if s.pstate n ≠ psREADY ∨ s.rf (BDR_PSEC.CLAIMED n) = 0 ∨ !v.othersZero then (s.refuse 3).spdmErr n 5
    else if s.anonces.contains (v.job, v.anonce) then (s.refuse 1).spdmErr n 5
    else
      let s := (s.newJob n v.job).setTen n { s.getTen n with prov := some v }
      let s := { s with anonces := (v.job, v.anonce) :: s.anonces }
      let s := (s.wf (PRT_JOB2.MEPOCH n) v.mepoch).wf (PRT_JOB2.AWAVE n) v.awave
      let s := s.setMember n { s.getMember n with rmap := v.rmap }
      (s.wf (BDR_PSEC.PROVISIONED n) 1).spdmRsp n 0x7E [])

/-- RELEASE (R418): a RETENANT reset ends the claim. -/
def execRelease (n : Nat) (s : State) : Answer :=
  vendor n false s (
    if s.rf (BDR_PSEC.CLAIMED n) = 0 then s.spdmErr n 5 else (s.spdmRsp n 0x7E []).resetRequest n 2)

/-! ## Flash requests (R467, R468, R471) -/

/-- Give the flash an operation. -/
def State.flashDo (s : State) (o : FlashOp) : State := { s with flash := s.flash.submit o }

/-- FW_BEGIN (R467): erases the slot that is not running. -/
def execFwBegin (i : Nat) (s : State) : Answer :=
  inSess 16 i s ((s.flashDo (.eraseSlot (1 - s.flash.running))).spdmRsp 16 0x7E [])

/-- The content of a slot, as the boot ROM judges it. -/
def Flash.setSlot (f : Flash) (slot : Nat) (i : Option FwImage) : Flash := if slot = 0 then { f with slotA := i } else { f with slotB := i }

/-- FW_DATA (R467): up to 4 KiB at an offset of that slot, which then holds no image until FW_COMMIT says which. -/
def execFwData (i off : Nat) (data : List Byte) (s : State) : Answer :=
  inSess 16 i s (
    if 4096 < data.length ∨ 0x3000000 < off + data.length then s.spdmErr 16 1
    else
      let slot := 1 - s.flash.running
      ({ s with flash := s.flash.setSlot slot none }.flashDo (.programSlot slot off data)).spdmRsp 16 0x7E [])

/-- Whether a slot's image is bootable (R468). -/
def State.bootable (s : State) (i : FwImage) : Bool := i.sigOk && decide (s.fuse.svn ≤ i.svn) && decide (i.schemaLo ≤ i.schemaHi)

/-- FW_COMMIT (R467, R468): `image` is what the slot's bytes are found to be. -/
def execFwCommit (i : Nat) (image : FwImage) (s : State) : Answer :=
  inSess 16 i s (
    let slot := 1 - s.flash.running
    let s := { s with flash := s.flash.setSlot slot (some image) }
    if s.bootable image then (s.flashEntry .boot (.boothdr slot)).spdmRsp 16 0x7E [] else s.spdmErr 16 5)

/-- CFG_COMMIT (R467, R471): answers whether each slot reads the schema. -/
def execCfgCommit (i len : Nat) (r : CfgRecord) (s : State) : Answer :=
  inSess 16 i s (
    let p := Payload.config r len
    if 65216 < len ∨ !s.flash.hasRoom .config p.pages then s.spdmErr 16 5
    else
      let reads (o : Option FwImage) : Nat := match o with
        | some m => bit (fwReads m r.schema)
        | none => 0
      (s.flashEntry .config p).spdmRsp 16 0x7E [reads s.flash.slotA, reads s.flash.slotB])

/-- Byte `i` of the payload of an entry with sequence number `seq`; the formats of CONFIG, STATE and BOOTHDR payloads are not given. -/
def Payload.byteAt (p : Payload) (seq i : Nat) : Byte :=
  match p with
  | .sector n => (leBytes 4 n).getD i 0#8
  | .errlog rs => BitVec.ofNat 8 (((rs.getD (i / 64) []).getD (i % 64 / 8) 0#64).toNat / 2 ^ (8 * (i % 8)))
  | _ => Config.flashByte p.kind seq i

/-- Bytes 0–27 of an entry's header, with COMMIT as given (R459). -/
def FlashEntry.head (e : FlashEntry) (commit : Nat) : List Byte :=
  leBytes 4 0x31474C43 ++ leBytes 1 e.payload.kind ++ leBytes 1 commit ++ leBytes 2 e.payload.schema ++ leBytes 8 e.seq ++
  leBytes 4 e.payload.bytes ++ leBytes 4 (crc32c ((List.range e.payload.bytes).map (e.payload.byteAt e.seq))).toNat ++ leBytes 4 0

/-- Byte `i` of an entry: header, payload, and 0xFF up to a whole page (R458, R459). What stands in a header or payload that does not
check is open (log entry 28). -/
def FlashEntry.byteAt (e : FlashEntry) (i : Nat) : Byte :=
  if !e.hcrcOk then Config.flashByte 5 e.seq i
  else if i < 64 then (e.head e.commit ++ leBytes 4 (crc32c (e.head 0xFF)).toNat).getD i 0#8
  else if 64 + e.payload.bytes ≤ i then 0xFF#8
  else if e.pcrcOk then e.payload.byteAt e.seq (i - 64)
  else Config.flashByte 6 e.seq i

/-- Byte `off` of a log region: of the entry that lies there, of the one being written, or erased. A sector that lists no SECTOR entry has
the one written at manufacture in its first page. -/
def Flash.regionByte (f : Flash) (region off : Nat) : Byte :=
  let covers (e : FlashEntry) : Bool := regionCode e.region == region && e.sector == off / 65536 &&
    decide (256 * e.page ≤ off % 65536 ∧ off % 65536 < 256 * (e.page + e.payload.pages))
  let written := match f.op with
    | some (.entry e _ _) => covers e
    | _ => false
  match f.entries.find? covers with
  | some e => e.byteAt (off % 65536 - 256 * e.page)
  | none => if decide (off % 65536 < 256) || written then Config.flashByte 7 region off else 0xFF#8

/-- Byte `off` of a firmware slot: what was programmed since its erase, or a factory image. -/
def slotByte (region : Nat) (i : Option FwImage) (bs : Tbl Byte) (off : Nat) : Byte :=
  if bs.isEmpty && i.isSome then Config.flashByte 8 region off else bs.get 0xFF#8 off

/-- The bytes that LOG_READ reads. -/
def State.logBytes (s : State) (region off len : Nat) : List Nat :=
  (List.range len).map (fun k => (match region with
    | 1 => slotByte 1 s.flash.slotA s.flash.bytesA (off + k)
    | 2 => slotByte 2 s.flash.slotB s.flash.bytesB (off + k)
    | _ => s.flash.regionByte region (off + k)).toNat)

/-- Bytes of a flash region by its code (R458, R488). -/
def regionBytes : Nat → Nat
  | 0 => 0x100000
  | 1 => 0x3000000
  | 2 => 0x3000000
  | 3 => 0x1000000
  | 4 => 0xF00000
  | _ => 0

/-- LOG_READ (R467): up to 4 KiB of any region. -/
def execLogRead (i region off len : Nat) (s : State) : Answer :=
  inSess 16 i s (
    if 4096 < len ∨ regionBytes region < off + len then s.spdmErr 16 1
    else s.spdmRsp 16 0x7E (s.logBytes region off len))

/-! ## Entropy and IDE -/

/-- ENTROPY_HEALTH_FAIL (R412). -/
def execEntropyHealthFail (test : Nat) (s : State) : Answer :=
  .next (((s.wf BDR_SEC.DRBG_OK 0).inc BDR_DRBG.HEALTH_FAIL).raise
    { unit := s.bedrockUnit, cls := .perm, code := 0x9C, part := none, synd := [(test, 1)] })

/-- DRBG_RESEED (R412). -/
def execDrbgReseed (s : State) : Answer := .next ({ s with drbgReqs := 0 }.inc BDR_DRBG.RESEEDS)

/-- IDE_KM_REQUEST (R429): programs, then activates, the keys of the Link IDE stream. -/
def execIdeKmRequest (i : Nat) (activate : Bool) (s : State) : Answer :=
  inSess 16 i s (
    if !activate then (s.wf BDR_SEC.IDE 1).spdmRsp 16 0x7E []
    else if s.rf BDR_SEC.IDE = 0 then s.spdmErr 16 4
    else (s.wf BDR_SEC.IDE 2).spdmRsp 16 0x7E [])

end Sys2Proof.Machine
end

