-- ==== Sys2Proof/Machine/Host.lean ====
section
/-!
DEFINITION. The host interface (chapter 15) beside the admission: function-level and link resets (R440), the submission and completion
rings (R441–R448), the host commands but ADMIT (R444, R445, R450), the module requests of HST_MREQ (R452), the management channel
(R454, R455) and the partition summaries (R439).
-/
namespace Sys2Proof.Machine

/-- Guard of a command about physical function `n`. -/
def onFn (n : Nat) (s : State) : Answer := if n < 17 then .next s else .fault .noSuchUnit

/-- Guard of a command about stream context `idx`. -/
def onCtx (idx : Nat) (s : State) : Answer := if idx < 2 ^ 18 then .next s else .fault .noSuchUnit

/-! ## Resets of functions and of the link (R440, R456) -/

/-- The register fields of PF`n`'s queue window that an FLR resets beside EN and the ring positions. -/
def State.resetPf (s : State) (n : Nat) : State :=
  let s := ((s.wf (HST_SQ_BASE.SIZE n) 0).wf (HST_SQ_BASE.ADDR n) 0).wf (HST_CQ_BASE.SIZE n) 0
  (s.wf (HST_CQ_BASE.ADDR n) 0).wf (HST_QCFG.REBIND_S n) 60

/-- An FLR of PF`n` (R440). -/
def State.flrOf (s : State) (n : Nat) : State :=
  let s := s.inc HST_LINKERR.FLR
  if n = 16 then (s.endSession 16 0).endSession 16 1 else ((s.endSession n 0).endRings n).resetPf n

/-- FLR (R440). -/
def execFlr (n : Nat) (s : State) : Answer := onFn n (s.flrOf n)

/-- LINK_RESET (R440): an FLR of every function, and the link trains again. -/
def execLinkReset (s : State) : Answer :=
  .next (((List.range 17).foldl State.flrOf s).inc HST_LINK.RETRAINS)

/-- PERST_DEASSERT (R435, R500): the link trains to a speed code and a width. Until Bedrock runs, configuration requests are answered
with Request Retry Status; with the rails off only the pin changes. -/
def execPerstDeassert (speed width : Nat) (s : State) : Answer :=
  .next (
    let s := { s with power := { s.power with perst := false } }
    if !s.power.otherRails then s
    else (((s.wf HST_LINK.SPEED speed).wf HST_LINK.WIDTH width).wf HST_LINK.FLIT (bit (speed == 6))).wf HST_LINK.UP 1)

/-! ## Submissions (R441–R446) -/

/-- Entries of the submission and completion rings. -/
def State.sqSize (s : State) (n : Nat) : Nat := 64 * 2 ^ s.rf (HST_SQ_BASE.SIZE n)
def State.cqSize (s : State) (n : Nat) : Nat := 64 * 2 ^ s.rf (HST_CQ_BASE.SIZE n)

/-- Whether PF`n`'s rings are in use with a session open. -/
def State.ringsUp (s : State) (n : Nat) : Bool := s.rf (HST_QCFG.EN n) == 1 && s.rf (BDR_PSEC.SESSION n) == 1

/-- A write of HST_SQ_DB: a position beyond the ring is ignored. -/
def State.sqDoorbell (s : State) (n pos : Nat) : State :=
  if s.rf (HST_QCFG.EN n) = 1 ∧ pos < s.sqSize n then s.setHost n { s.getHost n with sqTail := pos } else s

/-- SUBMISSION_DOORBELL. -/
def execSubmissionDoorbell (n pos : Nat) (s : State) : Answer :=
  if n < 16 then .next (s.sqDoorbell n pos) else .fault .noSuchUnit

/-- Whether a submission is a listed command whose fields have the form R443 gives. -/
def subOk (sub : Submission) : Bool :=
  decide (1 ≤ sub.op ∧ sub.op ≤ 6) && sub.reservedZero && sub.haddr % 4096 == 0 &&
  (sub.op == 4 || (sub.paddr % 256 == 0 && sub.handle == 0))

/-- Whether a context for a command of PF`n` is free (R41, R446). -/
def State.hostRoom (s : State) (n : Nat) : Bool := s.quotaFor n 1 && decide (s.rf (HST_QSTAT.OPEN n) < 1024)

/-- Open a command's context (R446) and write its ACCEPT; a REBIND's follows when it is carried out (R450). -/
def State.acceptSub (s : State) (n : Nat) (sub : Submission) : State :=
  let (s, i) := s.takePartCtx n { kind := 0 }
  let s := s.setHandle i (some
    { fn := n, op := sub.op, tag := sub.tag, haddr := sub.haddr, paddr := sub.paddr, units := sub.units, target := sub.handle })
  let s := s.inc (HST_QSTAT.OPEN n)
  if sub.op = 4 ∧ subOk sub then s
  else
    let s := s.produce n ⟨s.handleOf i, 0, stOK, false, sub.tag, 0⟩
    if subOk sub then s else s.hostDone i stCHECKFAIL

/-- A submission that was fetched is accepted or waits, which is counted (R41, R446). -/
def State.takeSub (s : State) (n : Nat) (sub : Submission) : State :=
  if s.hostRoom n then s.acceptSub n sub
  else (s.setHost n { s.getHost n with wait := some ⟨sub, true⟩ }).inc (PRT_CTX_WAIT.WAITS n)

/-- SUBMISSION_FETCH (R442, R446): none is fetched in a session that has yet to prove the claim (R417; log entry 54). -/
def execSubmissionFetch (n : Nat) (sub : Submission) (s : State) : Answer :=
  if n < 16 then .next (
    let h := s.getHost n
    if !s.ringsUp n ∨ !(s.getSess (sessKey n 0)).proven ∨ h.wait.isSome ∨ s.rf (HST_QSTAT.SQ_HEAD n) = h.sqTail then s
    else if sub.seq ≠ h.sqSeq ∨ !sub.tagOk then s.secureFail n 0 sub.seq
    else
      let s := s.wf (HST_QSTAT.SQ_HEAD n) ((s.rf (HST_QSTAT.SQ_HEAD n) + 1) % s.sqSize n)
      (s.setHost n { h with sqSeq := h.sqSeq + 1 }).takeSub n sub)
  else .fault .noSuchUnit

/-- CONTEXT_WAIT_RESUME (R41): a context is free for the command of PF`n` that waits, or else for an opening queue of the
partition. -/
def execContextWaitResume (n : Nat) (s : State) : Answer :=
  if n < 16 then .next (
    let h := s.getHost n
    match h.wait with
    | some w => if s.hostRoom n then (s.setHost n { h with wait := none }).acceptSub n w.sub else s
    | none =>
      match (s.colQueues n).find? (fun q => (s.getColq n q).waiting) with
      | some q => s.openStreams n q
      | none => s)
  else .fault .noSuchUnit

/-! ## Transfers (R444, R445) -/

/-- The handle at context `idx` if it is PF`n`'s and its command has code `op`. -/
def State.handleAs (s : State) (n idx op : Nat) : Option HostHandle :=
  match s.getHandle idx with
  | some h => if h.fn = n ∧ h.op = op then some h else none
  | none => none

/-- Set how far a command has come. -/
def State.setHandleSt (s : State) (i : Nat) (st : HandleSt) : State :=
  match s.getHandle i with
  | some h => s.setHandle i (some { h with st := st })
  | none => s

/-- A WRITE or READ begins once its region is found to lie in the data region; one of no units is complete. -/
def State.beginTransfer (s : State) (i : Nat) : State :=
  match s.getHandle i with
  | none => s
  | some h =>
    if (h.op ≠ 2 ∧ h.op ≠ 3) ∨ h.st ≠ .accepted then s
    else if s.fuse.variant.dataBytes < h.paddr + 4096 * h.units then s.hostDone i stCHECKFAIL
    else if h.units ≤ h.doneUnits then s.hostDone i stOK
    else s.setHandleSt i .running

/-- WRITE (R444). -/
def execWrite (n idx : Nat) (s : State) : Answer :=
  onFn n (if (s.handleAs n idx 2).isSome then s.beginTransfer idx else s)

/-- READ (R444). -/
def execRead (n idx : Nat) (s : State) : Answer :=
  onFn n (if (s.handleAs n idx 3).isSome then s.beginTransfer idx else s)

/-- A block that came in a unit fails verification (R12, R171): counted and recorded with its computed and carried check words. -/
def State.unitCheckFail (s : State) (i addr : Nat) (b : List Byte) (w : Word32) : State :=
  let x := s.getCtx i
  (s.countCheckFail x.part addr).raise
    { unit := s.colUnit x.part, cls := .perm, code := 0x32, part := some x.part, handle := s.handleOf i, epoch := x.epoch
      synd := [((checkWord b).toNat, 4), (w.toNat, 4)], addr := addr }

/-- Write the blocks of a unit in order, each verified before it is written (R445). Answers the status. -/
def State.writeUnit (s : State) (i p : Nat) : List (Nat × List Byte × Word32) → State × Nat
  | [] => (s, stOK)
  | (a, b, w) :: l =>
    if s.lost p a then (s, stABORTED)
    else if s.rtProtected p a then (s.busErr p a, stCHECKFAIL)
    else if checkWord b ≠ w then (s.unitCheckFail i a b w, stCHECKFAIL)
    else
      let (s, ok) := s.writeBlock p a b w
      if !ok then (s, stCHECKFAIL)
      else ((s.inc (MOV_BLK_CARRY.COUNT p)).addf (MOV_BYTES.COUNT p) 256).writeUnit i p l

/-- The blocks of a unit's data with their addresses from `a`. -/
def unitBlocks (a : Nat) (data : List Byte) (checks : List Word32) : List (Nat × List Byte × Word32) :=
  (List.range 16).map (fun k => (a + 256 * k, (data.drop (256 * k)).take 256, checks.getD k 0#32))

/-- A unit is done: the command ends OK with its last one. -/
def State.unitDone (s : State) (i : Nat) : State :=
  match s.getHandle i with
  | none => s
  | some h =>
    let s := s.setHandle i (some { h with doneUnits := h.doneUnits + 1 })
    if h.doneUnits + 1 = h.units ∧ h.op ≠ 1 then s.hostDone i stOK else s

/-- One unit of a WRITE. -/
def State.writeOne (s : State) (i : Nat) (h : HostHandle) (data : List Byte) (checks : List Word32) : State :=
  let (s, st) := s.writeUnit i h.fn (unitBlocks (h.paddr + 4096 * h.doneUnits) data checks)
  if st = stOK then s.unitDone i else s.hostDone i st

/-- The queue key of a direction of PF`n`'s session: 0 from the host, 1 to it (R411; log entry 9). -/
def State.queueKey (s : State) (n dir : Nat) : List Byte :=
  hkdf (leBytes 48 (Config.randomDraw (s.getSess (sessKey n 0)).secret)) []
    (ascii "CZ40 QUEUE" ++ [BitVec.ofNat 8 n, BitVec.ofNat 8 dir]) 32

/-- A unit of a READ as it leaves (R445): 4,096 bytes of data and 16 check words, sealed into 4,176 bytes. -/
def State.sealUnit (s : State) (i unit : Nat) (h : HostHandle) (as : List Nat) : List Byte :=
  let iv := leBytes 4 (s.handleOf i) ++ leBytes 2 (s.getCtx i).epoch ++ leBytes 6 unit
  let e := gcmSeal (s.queueKey h.fn 1) iv [] (as.flatMap (s.block h.fn) ++ as.flatMap (fun a => leBytes 4 (s.checkOf h.fn a).toNat))
  e.1 ++ e.2

/-- The blocks of the next unit of a transfer. -/
def HostHandle.nextBlocks (h : HostHandle) : List Nat := blocksFrom (h.paddr + 4096 * h.doneUnits) 16

/-- One unit of a READ: every block is verified and goes out with its stored check word, sealed (R445). -/
def State.readOne (s : State) (i : Nat) (h : HostHandle) : State :=
  let p := h.fn
  let (s, st) := s.verify p (s.colUnit p) h.nextBlocks [] (s.handleOf i)
  if st ≠ stOK then s.hostDone i st
  else
    let s := (s.emit (.hostUnit i h.doneUnits (s.getCtx i).epoch (s.sealUnit i h.doneUnits h h.nextBlocks))).addf
      (MOV_BYTES.COUNT p) 4096
    s.unitDone i

/-- One unit of a program image (R421, R445). -/
def State.imageOne (s : State) (i : Nat) (h : HostHandle) (data : List Byte) (checks : List Word32) : State :=
  match (unitBlocks 0 data checks).find? (fun e => checkWord e.2.1 != e.2.2) with
  | some _ => s.hostDone i stCHECKFAIL
  | none => (s.setHandle i (some { h with image := h.image ++ data })).unitDone i

/-- A unit of a WRITE or of an image comes: one that does not open completes the command CHECKFAIL, and `t` is what an opened one of
16 blocks does. -/
def State.openUnit (s : State) (i : Nat) (data : List Byte) (checks : List Word32) (sealOk : Bool) (t : State) : State :=
  if !sealOk then s.hostDone i stCHECKFAIL
  else if data.length ≠ 4096 ∨ checks.length ≠ 16 then s
  else t

/-- UNIT_TRANSFER (R445): the next unit of an ADMIT, WRITE or READ; a READ waits for blocks that are being written (R195). -/
def execUnitTransfer (idx : Nat) (data : List Byte) (checks : List Word32) (sealOk : Bool) (s : State) : Answer :=
  onCtx idx (
    let s := s.beginTransfer idx
    match s.getHandle idx with
    | none => s
    | some h =>
      if h.units ≤ h.doneUnits then s
      else match h.op, h.st with
      | 3, .running => if h.nextBlocks.any (s.interlocked h.fn) then s else s.readOne idx h
      | 2, .running => s.openUnit idx data checks sealOk (s.writeOne idx h data checks)
      | 1, .accepted => s.openUnit idx data checks sealOk (s.imageOne idx h data checks)
      | _, _ => s)

/-! ## REBIND, ABORT and FIELD_TEST (R444, R450) -/

/-- REBIND (R39, R450, R451): the command with context `idx` is carried out, or it waits for the spacing of migrations. -/
def execRebind (n idx : Nat) (s : State) : Answer :=
  onFn n (
    match s.handleAs n idx 4 with
    | none => s
    | some h =>
      let j := h.target % 2 ^ 18
      if h.st ≠ .accepted then s
      else if !s.handleOk n h.target ∨ (s.mayMigrate j ∧ (s.getAux j).migrWait = 0) then s.rebindNow idx
      else if (s.getAux j).migrWait = 0 then s.setAux j { s.getAux j with migrWait := idx + 1 }
      else s)

/-- MIGRATION_DEFERRED (R39): the migration that waited on context `idx` is carried out, 2 µs after the last one. -/
def execMigrationDeferred (idx : Nat) (s : State) : Answer :=
  onCtx idx (if (s.getAux idx).migrWait ≠ 0 ∧ s.mayMigrate idx then s.rebindNow ((s.getAux idx).migrWait - 1) else s)

/-- REBIND_TIMEOUT (R449): the handle was not rebound within REBIND_S seconds after its session ended. -/
def execRebindTimeout (idx : Nat) (s : State) : Answer :=
  onCtx idx (match s.getHandle idx with
    | some h => if h.st = .stopped then s.hostDone idx stABORTED else s
    | none => s)

/-- ABORT (R444, R382): the abort wave of the partition's job starts with cause TENANT; the command itself ends OK. -/
def execAbort (n idx : Nat) (s : State) : Answer :=
  onFn n (
    match s.handleAs n idx 5 with
    | none => s
    | some h =>
      if h.st ≠ .accepted then s
      else if s.runs n then (s.hostDone idx stOK).startWave n waveTENANT 0
      else s.hostDone idx stCHECKFAIL)

/-- FIELD_TEST (R332, R444): the command runs until the test is done; a partition that may not be tested accepts no request. -/
def execFieldTest (n idx : Nat) (s : State) : Answer :=
  onFn n (
    match s.handleAs n idx 6 with
    | none => s
    | some h =>
      if h.st ≠ .accepted then s
      else if s.pstate n = psREADY ∨ s.pstate n = psFAULT ∨ s.pstate n = psRUNNING then
        (s.askFieldTest n).setHandleSt idx .running
      else s.hostDone idx stCHECKFAIL)

/-! ## Completions (R447) -/

/-- A completion entry (R441, R442, R448): SEQ, the sealed body and its tag. -/
def State.completionBytes (s : State) (n sq : Nat) (c : Completion) : List Byte :=
  let head := leBytes 8 sq ++ leBytes 8 0
  let body := leBytes 8 (c.handle % 2 ^ 32 + c.epoch % 2 ^ 16 * 2 ^ 32 + c.status % 8 * 2 ^ 48 + bit c.isDone * 2 ^ 51) ++
    leBytes 8 (c.tag % 2 ^ 32) ++ leBytes 8 (c.units % 2 ^ 48) ++ leBytes 8 0
  let e := gcmSeal (s.queueKey n 1) (leBytes 4 0 ++ leBytes 8 sq) head body
  head ++ e.1 ++ e.2

/-- COMPLETION_POST (R447): the oldest completion not yet in the ring is sealed and written to the next slot, if one is free. -/
def execCompletionPost (n : Nat) (s : State) : Answer :=
  if n < 16 then .next (
    let h := s.getHost n
    match h.produced with
    | [] => s
    | c :: cs =>
      let tl := (s.rf (HST_QSTAT.CQ_TAIL n) + 1) % s.cqSize n
      if !s.ringsUp n ∨ tl = h.cqHead then s
      else ((s.setHost n { h with produced := cs, ring := h.ring ++ [c], cqSeq := h.cqSeq + 1 }).wf (HST_QSTAT.CQ_TAIL n) tl).emit
        (.completion n h.cqSeq c (s.completionBytes n h.cqSeq c)))
  else .fault .noSuchUnit

/-- The host has consumed a completion: a DONE under the current epoch frees its context (R447). -/
def State.consumed (s : State) (n : Nat) (c : Completion) : State :=
  let i := c.handle % 2 ^ 18
  if c.isDone && s.handleOk n c.handle && (s.getCtx i).epoch == c.epoch && (s.getHandle i).isSome then
    ((s.setHandle i none).freeCtx i).wf (HST_QSTAT.OPEN n) (s.rf (HST_QSTAT.OPEN n) - 1)
  else s

/-- A write of HST_CQ_DB: a position beyond the ring, or one that moves HEAD past TAIL, is ignored. -/
def State.cqDoorbell (s : State) (n pos : Nat) : State :=
  let h := s.getHost n
  let sz := s.cqSize n
  let k := (pos + sz - h.cqHead) % sz
  if s.rf (HST_QCFG.EN n) = 1 ∧ pos < sz ∧ k ≤ (s.rf (HST_QSTAT.CQ_TAIL n) + sz - h.cqHead) % sz then
    (h.ring.take k).foldl (fun s c => s.consumed n c) (s.setHost n { h with cqHead := pos, ring := h.ring.drop k })
  else s

/-- COMPLETION_DOORBELL (R447). -/
def execCompletionDoorbell (n pos : Nat) (s : State) : Answer :=
  if n < 16 then .next (s.cqDoorbell n pos) else .fault .noSuchUnit

/-! ## Module requests (R452) -/

/-- The result of a request of HST_MREQ. -/
def State.mreqResult (s : State) (r : Nat) : State := (s.wf HST_MREQ_STAT.BUSY 0).wf HST_MREQ_STAT.RESULT r

/-- A request of HST_MREQ: counted and otherwise ignored while one is in progress; no request is read before Bedrock runs. -/
def State.mreqAt (s : State) (t : State) : State :=
  if s.boot ≠ .running ∧ s.boot ≠ .maint then s
  else if s.rf HST_MREQ_STAT.BUSY = 1 then s.inc HST_MREQ_STAT.REFUSED
  else t

/-- Begin a request that takes time. -/
def State.mreqBegin (s : State) (k : Nat) : State := { s with mreq := some k }.wf HST_MREQ_STAT.BUSY 1

/-- A reset request: rejected in OFF, merged into a reset in progress (R48). -/
def State.mreqReset (s : State) (p kind : Nat) : State :=
  if s.pstate p = psOFF then s.mreqResult 2
  else if (s.getReset p).isSome then (s.resetRequest p kind).mreqResult 3
  else (s.mreqBegin p).resetRequest p kind

/-- A field-test request: merged into a running one (R332), rejected where none can start. -/
def State.mreqTest (s : State) (p : Nat) : State :=
  if (s.getFt p).running then s.mreqResult 3
  else if s.pstate p = psREADY ∨ s.pstate p = psFAULT ∨ s.pstate p = psRUNNING then (s.mreqBegin (p + 16)).askFieldTest p
  else s.mreqResult 2

/-- A quorum certificate (R400, R401). -/
def State.mreqCert (s : State) (c : Cert) : State :=
  let (s, r) := s.takeCert c false
  (s.wf HST_MREQ_STAT.REASON r).mreqResult (if r = 0 then 1 else 2)

/-- MGMT_WARM_RESET. -/
def execMgmtWarmReset (p : Nat) (s : State) : Answer := onPart p (s.mreqAt (s.mreqReset p 1))

/-- MGMT_RETENANT_RESET. -/
def execMgmtRetenantReset (p : Nat) (s : State) : Answer := onPart p (s.mreqAt (s.mreqReset p 2))

/-- MGMT_FIELD_TEST. -/
def execMgmtFieldTest (p : Nat) (s : State) : Answer := onPart p (s.mreqAt (s.mreqTest p))

/-- MGMT_CERTIFICATE (R400): read from the host address, whose low 12 bits the register does not hold. -/
def execMgmtCertificate (haddr : Nat) (c : Cert) (s : State) : Answer :=
  .next (if haddr % 4096 = 0 then s.mreqAt (s.mreqCert c) else s)

/-! ## Management channel (R454, R455) -/

/-- I3C_ENTDAA: the controller assigns the dynamic address. -/
def execI3cEntdaa (addr : Nat) (s : State) : Answer := .next { s with i3cAddr := some addr }

/-- MCTP_EID_ASSIGN: needs an address on the bus. -/
def execMctpEidAssign (eid : Nat) (s : State) : Answer :=
  .next (if s.i3cAddr.isSome then { s with mctpEid := some eid } else s)

/-- A PLDM message is answered once the endpoint has its EID. -/
def State.pldmAt (s : State) (t : State) : State := if s.mctpEid.isSome then t else s

/-- PLDM_BASE_DISCOVERY (PLDM type 0). -/
def execPldmBaseDiscovery (cmd : Nat) (s : State) : Answer := .next (s.pldmAt (s.emit (.pldm 0 cmd 0)))

/-- PLDM_SENSOR_READ (PLDM type 2): `value` is what the sensor shows. -/
def execPldmSensorRead (sensor value : Nat) (s : State) : Answer := .next (s.pldmAt (s.emit (.pldm 2 sensor value)))

/-- PLATFORM_EVENT_READ (R455): MGT_ALERT_N is released when the controller has read every event. -/
def execPlatformEventRead (s : State) : Answer :=
  .next { s with events := s.events.tail, power := { s.power with alert := !s.events.tail.isEmpty } }

/-- POWER_CYCLE_REPEAT (R455). -/
def execPowerCycleRepeat (s : State) : Answer := .next (if s.pwrCycle then s.platform .powerCycle else s)

/-! ## Partition summaries (R439) -/

/-- The values of the ten registers a summary copies, in its order. -/
def State.summary (s : State) (p : Nat) : List Nat :=
  [0x00, 0x18, 0x08, 0x60, 0x58, 0x68, 0x70, 0x78, 0x80, 0x0B000008].map (fun off =>
    match s.regAt p off with
    | some h => s.readHit p h
    | none => 0)

/-- Refresh the summary of a partition. -/
def State.refresh (s : State) (p : Nat) : State :=
  { s with summ := ((s.summary p).zipIdx).foldl (fun (t : Tbl Nat) e => t.set 0 (p * 16 + e.2) e.1) s.summ }

/-- SUMMARY_COPY_REFRESH (R331, R439). -/
def execSummaryCopyRefresh (s : State) : Answer := .next ((List.range 16).foldl State.refresh s)

end Sys2Proof.Machine
end

