-- ==== Sys2Proof/Machine/Admit.lean ====
section
/-!
DEFINITION. Admission of a job (R421, R422, R142): the program image, its header, the training-state list (R347), the stream contexts
Bedrock opens (R344, R353, R381, R423 and chapter 11), and how a re-admission goes on with the state that a WARM reset kept (R363, R364).
-/
namespace Sys2Proof.Machine

/-! ## The image (R421, R422) -/

/-- The fields of an image header. -/
structure ImageHeader where
  version : Nat
  imem : Nat
  dmem : Nat
  dtab : Nat
  rtBase : Nat
  recRing : Nat
  tsl : Nat
  ringBase : Nat
  ringLen : Nat
  reserved : Nat
deriving DecidableEq, Repr

/-- Read an image header. -/
def imageHeaderOf (im : List Byte) : ImageHeader :=
  ⟨hdrField im 0 4, hdrField im 4 4, hdrField im 8 4, hdrField im 12 4, hdrField im 16 8, hdrField im 24 8, hdrField im 32 8,
   hdrField im 40 8, hdrField im 48 8, hdrField im 56 8⟩

/-- L of R421. -/
def ImageHeader.length (h : ImageHeader) : Nat := 64 + h.imem + h.dmem + 256 * h.dtab

/-- Whether `n` bytes from an address of alignment `al` lie wholly inside the data region. -/
def State.inData (s : State) (a al n : Nat) : Bool := a % al == 0 && decide (a + n ≤ s.fuse.variant.dataBytes)

/-- NT of the training-state list at an address. -/
def State.ntAt (s : State) (p a : Nat) : Nat := bits (leNat (s.bytes (memKey p a) 8)) 0 8

/-- Whether a header keeps R422, the image having so many bytes. -/
def State.headerOk (s : State) (p bytes : Nat) (h : ImageHeader) : Bool :=
  decide (64 ≤ bytes) && h.version == 1 && decide (h.imem ≤ 65536 ∧ h.dmem ≤ 65536 ∧ h.dtab ≤ 4096 ∧ h.length ≤ bytes) &&
  h.reserved == 0 && s.inData h.rtBase 4096 0x04000000 && (h.recRing == 0 || s.inData h.recRing 65536 0x10000) &&
  (h.ringLen % 0x20000 == 0 && h.ringBase % 65536 == 0 && (h.ringLen == 0 || s.inData h.ringBase 65536 h.ringLen)) &&
  s.inData h.tsl 8 8 && decide (1 ≤ s.ntAt p h.tsl ∧ s.ntAt p h.tsl ≤ 64) && s.inData h.tsl 8 (8 + 4 * s.ntAt p h.tsl)

/-- A byte memory that holds a list from offset `i` on. -/
def bytesTbl (i : Nat) : List Byte → Tbl Byte
  | [] => []
  | b :: bs => if b = 0#8 then bytesTbl (i + 1) bs else (i, b) :: bytesTbl (i + 1) bs

/-- Load the initial descriptor table (R177). -/
def State.loadTable (s : State) (p n : Nat) (bs : List Byte) : State :=
  (List.range (32 * n)).foldl (fun s k => s.wf (MOV_DESC.D p (k / 32) (k % 32)) (leNat ((bs.drop (8 * k)).take 8))) s

/-- Load an image (R142): every Flint gets it in its IMEM and DMEM. -/
def State.loadImage (s : State) (p : Nat) (im : List Byte) (h : ImageHeader) : State :=
  let i := bytesTbl 0 ((im.drop 64).take h.imem)
  let d := bytesTbl 0 ((im.drop (64 + h.imem)).take h.dmem)
  let s := (List.range (s.lcores p)).foldl (fun s c => s.setFlint p c { imem := i, dmem := d }) s
  s.loadTable p h.dtab (im.drop (64 + h.imem + h.dmem))

/-- Write the admission registers of R422, the program digest and the job's registers. -/
def State.admitRegs (s : State) (p : Nat) (h : ImageHeader) (digest : List Byte) (v : Provision) : State :=
  let s := (List.range 4).foldl (fun s k => s.wf (ASY_PDIG.DIGEST p k) (leNat ((digest.drop (8 * k)).take 8))) s
  let s := (((s.wf (ZTP_RT_BASE.BASE p) h.rtBase).wf (ASY_RING_BASE.BASE p) h.recRing).wf (STR_TSL.ADDR p) h.tsl).wf
    (STR_TSL.NT p) (s.ntAt p h.tsl)
  let s := (s.wf (STR_RING_BASE.BASE p) h.ringBase).wf (STR_RING_LEN.LEN p) h.ringLen
  ((s.wf (PRT_JOB.JOB p) v.job).wf (MOV_RANK.RANK p) v.rank).wf (MOV_RANK.VALID p) 1

/-! ## The training-state list (R347, R348) -/

/-- The entries of the list as 32-bit numbers. -/
def State.tslEntries (s : State) (p a n : Nat) : List Nat :=
  (List.range n).map (fun i => leNat (s.bytes (memKey p (a + 8 + 4 * i)) 4))

/-- Whether an entry is permitted (R347). -/
def State.tslEntryOk (s : State) (p e : Nat) : Bool :=
  let i := bits e 0 16
  let d := (s.opnd p 0 i).d
  e / 2 ^ 18 == 0 && bits e 16 2 != 3 && s.listedOk p i && (bits e 16 2 != 1 || (d.fmt == 0 && !d.index))

/-- Whether the whole list is permitted: the reserved bits of its header word are 0 and every entry is. -/
def State.tslOk (s : State) (p a n : Nat) : Bool :=
  leNat (s.bytes (memKey p a) 8) / 256 == 0 && (s.tslEntries p a n).all (s.tslEntryOk p)

/-- The copy of the list that Strata keeps, and the ranges of state blocks. -/
def State.takeTsl (s : State) (p a n : Nat) : State :=
  let l := (s.tslEntries p a n).map (fun e =>
    (bits e 16 2, s.descWords p (bits e 0 16) ++ [BitVec.ofNat 64 (s.rf (DSP_OCC.BIND p (bits e 0 16)))]))
  let blocks := (s.tslEntries p a n).flatMap (fun e => (s.opnd p 0 (bits e 0 16)).tagBlocks)
  s.setStrata p { s.getStrata p with tsl := l, ranges := blocks.map (fun b => (b, 1)) }

/-! ## Streams (R344, R353, R381, R423) -/

/-- A context Bedrock opens for partition `p` with a job peer: what handle the peer's has is the peer's to say (log entry 23). -/
def State.openJobCtx (s : State) (p : Nat) (x : Ctx) : State × Nat :=
  let (s, v) := s.free
  s.takePartCtx p { x with peerHandle := v.toNat % 2 ^ 32 }

/-- Contexts with every job stream the job map names beside Strata's own. -/
def State.openStreamsOf (s : State) (p : Nat) : List JobStream → State
  | [] => s
  | j :: l => ((s.openJobCtx p { kind := j.kind, peerKind := j.peerKind, peerId := j.peerId, standing := decide (j.winLen ≠ 0)
                                 winBase := j.winBase, winLen := j.winLen, credit := j.credit }).1).openStreamsOf p l

/-- The vote streams to the replicas from number `k` on (chapter 11); the own one's place holds a number that is never used. -/
def State.openVotes (s : State) (p own : Nat) : Nat → List Nat → State × List Nat
  | _, [] => (s, [])
  | k, r :: rs =>
    let (s, c) := if k = own then (s, 2 ^ 18)
      else s.openJobCtx p { kind := 3, standing := true, peerKind := 1, peerId := r, credit := 4, winLen := 4 }
    let (s, cs) := s.openVotes p own (k + 1) rs
    (s, c :: cs)

/-- The number of the job's module whose turn is next (`back` false) or previous in ascending order round the own cell (R353, R381). -/
def State.neighbour (s : State) (ms : List (Nat × Nat × Nat)) (back : Bool) : Nat :=
  let ps := (posOf ms s.ownCell).filter (· != s.ownPos)
  if back then (match (ps.filter (fun x => decide (x < s.ownPos))).getLast? with
    | some x => x
    | none => ps.getLastD s.ownPos)
  else (match ps.find? (fun x => decide (s.ownPos < x)) with
    | some x => x
    | none => ps.headD s.ownPos)

/-- Open the liveness stream to a position of the own cell, unless there is one (R381): from the module's reserved contexts. -/
def State.openLiveness (s : State) (pos : Nat) : State :=
  if pos = s.ownPos ∨ s.liveness.any (fun e => e.2 == (s.ownCell, pos)) then s
  else
    let (s, v) := s.free
    let (s, i) := s.takeCtx { kind := 3, part := 16, standing := true, peerKind := 1, peerHandle := v.toNat % 2 ^ 32 }
    s.setAux i { s.getAux i with dest := some (s.ownCell, pos) }

/-- The mirror stream, the held mirror and its stream (R353, R354): a mirror held before the reset of a re-admission stays as it is. -/
def State.openMirrors (s : State) (p : Nat) (job : JobMap) (again : Bool) : State :=
  if s.rf (STR_CFG.MIRROR_EN p) = 0 then s
  else
    let n := ((s.getStrata p).ranges.map (·.2)).sum
    let (s, b) := s.openJobCtx p { kind := 3, stripe := true, peerKind := 1, peerId := job.buddyRank, credit := Nat.min (n + 1) 65535 }
    let s := ((s.wf (STR_BUDDY.CELL p) s.ownCell).wf (STR_BUDDY.POS p) (s.neighbour job.modules false)).wf
      (STR_BUDDY.HANDLE p) (s.handleOf b)
    let keep := again && s.rf (STR_MHELD.BASE p) == job.heldBase
    let s := (s.openJobCtx p { kind := 3, standing := true, stripe := true, peerKind := 1, peerId := job.sourceRank
                               winBase := job.heldBase, winLen := job.heldBlocks + 1 }).1
    let s := (s.wf (STR_MHELD.BASE p) job.heldBase).wf (STR_MHELD_LEN.BLOCKS p) job.heldBlocks
    if keep then s
    else
      let h := List.replicate 12 0#8 ++ leBytes 4 job.heldBlocks ++ List.replicate 240 0#8
      (((s.writeBlock p job.heldBase h (checkWord h)).1).wf (STR_STATUS.HELD p) 0).wf (STR_STATUS.OWN p) 0

/-- The checkpoint streams (R369, R373): for the partition's own images and for snapshots of the held mirror. -/
def State.openCkpt (s : State) (p : Nat) : State :=
  let x : Ctx := { kind := 4, peerKind := 2 }
  let (s, a) := s.openJobCtx p x
  let (s, b) := s.openJobCtx p x
  (s.wf (STR_CKPT_EP.OWN p) (s.handleOf a)).wf (STR_CKPT_EP.HELD p) (s.handleOf b)

/-- Open the Strata group on queue 255 (R344). -/
def State.openGroup (s : State) (p : Nat) (job : JobMap) (rank : Nat) : State :=
  let s := ((s.wf (COL_Q_RANK.N p 255) job.parts).wf (COL_Q_RANK.RANK p 255) rank).wf (COL_Q_CFG.RADIX p 255) s.cfg.strataRadix
  s.colOpen p 255

/-- The contexts an admission takes within the quota (R41). -/
def State.ctxNeed (s : State) (p : Nat) (job : JobMap) (rank : Nat) : Nat :=
  (treePeers job.parts s.cfg.strataRadix rank).length + 1 + (if s.rf (STR_CFG.MIRROR_EN p) = 1 then 2 else 0) +
  (job.replicas.length - 1) + 2 + job.streams.length

/-! ## Admission -/

/-- What a job map must be for an admission with it: 1 to 8 replicas with the own one among them, ranks within the job, this
module among its modules, and room for the held mirror in the data region. -/
def State.mapOk (s : State) (job : JobMap) (rank : Nat) : Bool :=
  decide (1 ≤ job.replicas.length ∧ job.replicas.length ≤ 8 ∧ job.own < job.replicas.length ∧ rank < job.parts ∧ job.parts ≤ 4194304) &&
  job.modules.any (fun m => m.1 == s.fuse.serial && m.2.1 == s.ownCell && m.2.2 == s.ownPos) &&
  s.inData job.heldBase 256 (256 * (job.heldBlocks + 1)) && decide (2 ≤ s.cfg.strataRadix)

/-- The vote registers and streams (chapter 11). -/
def State.admitVotes (s : State) (p : Nat) (job : JobMap) : State :=
  let s := ((s.wf (ASY_VCFG.REPL p) job.replicas.length).wf (ASY_VCFG.OWN p) job.own).wf (ASY_VCFG.TIMEOUT p) s.cfg.voteMs
  let s := (job.replicas.zipIdx).foldl (fun s e => s.wf (ASY_VPEER.RANK p e.2) e.1) s
  let (s, cs) := s.openVotes p job.own 0 job.replicas
  s.setAssay p { s.getAssay p with ctxs := cs }

/-- How the admitted partition goes on (R357, R363, R364): a new job's state is released at once; a re-admitted partition has the
counters of its last boundary, and its restart is a job-wide boundary for its tables (R366). After a rewind a partition whose tag was outvoted replays the step once it has its mirror back, and
the others await the second vote on the step. -/
def State.admitGoOn (s : State) (p : Nat) : State :=
  let x := s.getStrata p
  let a := s.getAssay p
  let s := s.setStrata p { x with restart := true }
  let x := s.getStrata p
  match x.rewind, x.values with
  | some st, vs =>
    let v := (vs.find? (fun e => e.1 == st)).getD (st, 0, s.rf (STR_LSCALE.SCALE p), 0)
    let s := s.putCounters p st v.2.1 v.2.2.1 v.2.2.2
    if bitOf a.redo (s.rf (ASY_VCFG.OWN p)) then
      let s := s.setAssay p { a with step := st, attempt := 2, ownDone := false, decided := false }
      ((s.wf (STR_STEP.STEP p) (st - 1)).setStrata p { x with replay := some st, taken := [] }).wf (STR_STATUS.PHASE p) 3
    else
      let s := s.setAssay p { a with step := st, attempt := 2, ownDone := true, decided := a.redo == 0 }
      let s := (s.setStrata p { x with phase := 3 }).wf (STR_STATUS.PHASE p) 1
      ((s.wf (ASY_NDET_STEP.COUNT p) v.2.1).tryRelease p).runFlints p
  | none, v :: _ =>
    let s := ((s.swapTables p).swapRoutes p).putCounters p v.1 v.2.1 v.2.2.1 v.2.2.2
    (((s.wf (ASY_NDET_STEP.COUNT p) v.2.1).release p).wf (STR_STATUS.PHASE p) 1).runFlints p
  | none, [] => ((s.release p).wf (STR_STATUS.PHASE p) 1).runFlints p

/-- Everything an admission sets up once its image is accepted; `s` holds the image and the admission registers. -/
def State.admitJob (s : State) (p : Nat) (h : ImageHeader) (v : Provision) (job : JobMap) : State :=
  let again := !(s.getStrata p).values.isEmpty
  let s := s.takeTsl p h.tsl (s.ntAt p h.tsl)
  let s := s.setMember p { s.getMember p with modules := job.modules }
  let s := s.setTen p { s.getTen p with lossy := false }
  let s := ((s.admitVotes p job).openMirrors p job again).openCkpt p
  let s := (s.openStreamsOf p job.streams).openGroup p job v.rank
  let s := (s.openLiveness (s.neighbour job.modules false)).openLiveness (s.neighbour job.modules true)
  let s := (s.wf (PRT_STATE.STATE p) psRUNNING).inc (BDR_PSEC.ADMITS p)
  s.admitGoOn p

/-- An admission fails with a reason of record 0x9B (R421, R433). -/
def State.admitFail (s : State) (i reason : Nat) : State := (s.refuse reason).hostDone i stCHECKFAIL

/-- The image has been read: it is judged and the job admitted. -/
def State.admitImage (s : State) (p i : Nat) (im : List Byte) (v : Provision) (job : JobMap) : State :=
  let h := imageHeaderOf im
  if !s.headerOk p im.length h then s.admitFail i 4
  else
    let digest := sha3_256 (im.take h.length)
    if leNat digest ≠ v.pdig then s.admitFail i 2
    else
      let (s, st) := s.verify p (strUnit p) ((spanBlocks h.tsl (8 + 4 * s.ntAt p h.tsl)))
      if st ≠ stOK then (s.inc BDR_ATT.REFUSED).hostDone i st
      else
        let t := (s.admitRegs p h digest v).loadImage p im h
        if !t.tslOk p h.tsl (s.ntAt p h.tsl) then (s.inc BDR_ATT.REFUSED).hostDone i stCHECKFAIL
        else (t.admitJob p h v job).hostDone i stOK

/-- An admission that finds its quota exhausted waits, which is counted once (R41). -/
def State.admitWait (s : State) (p i : Nat) (h : HostHandle) : State :=
  if h.waited then s else (s.setHandle i (some { h with waited := true })).inc (PRT_CTX_WAIT.WAITS p)

/-- ADMIT (R41, R142, R333, R421, R422, R444): once every unit of the image is read. Admission waits for a field test and for contexts,
and every admission waits while the module coasts. -/
def execAdmitJob (n idx : Nat) (job : JobMap) (s : State) : Answer :=
  if 16 ≤ n then .fault .noSuchUnit
  else .next (
    match s.handleAs n idx 1 with
    | none => s
    | some h =>
      if h.st ≠ .accepted ∨ h.doneUnits < h.units ∨ s.rf QTZ_STATUS.COAST = 1 ∨ (s.getFt n).running then s
      else match (s.getTen n).prov with
      | none => s.admitFail idx 3
      | some v =>
        if s.pstate n ≠ psREADY then s.admitFail idx 3
        else if !s.mapOk job v.rank then s
        else if !s.quotaFor n (s.ctxNeed n job v.rank) then s.admitWait n idx h
        else s.admitImage n idx h.image v job)

end Sys2Proof.Machine
end

