-- ==== Sys2Proof/Machine/Memory.lean ====
section
/-!
DEFINITION. Stacked memory (R229–R253, R510): arbitration of a pseudo-channel controller, regulators and charges, the symbol
code's findings, patrol scrub, channel training, parity errors, retraining and failure. The contents themselves are read and
written by the units that use them (Ops.lean); a request here is the traffic they cause, which reaches a controller in its own
time (log entry 21).
-/
namespace Sys2Proof.Machine

/-! ## Places -/

/-- The unit ID of owned pseudo-channel `i` (R24). -/
def State.memUnit (s : State) (p i : Nat) : Nat :=
  let (st, ch, h) := s.chanOf p i
  unitId (16 + st) 5 (ch + 32 * h)

/-- Owner and owned number of pseudo-channel `q` of a stack (R28). -/
def State.ownerOf (s : State) (st q : Nat) : Nat × Nat :=
  let n := s.fuse.variant.chans
  ((st * 64 + q) / n, (st * 64 + q) % n)

/-- The partition address of offset `o` of owned pseudo-channel `i`: the inverse of R233. -/
def State.addrAt (s : State) (i o : Nat) : Nat :=
  let n := s.fuse.variant.chans
  let k := o / 256
  (k * n + (i + n - k % n) % n) * 256 + o % 256

/-- The bank of an offset (R234), as a number, and its row. -/
def bankOf (o : Nat) : Nat := Nat.xor (bits o 10 2) (bits o 16 2) + 4 * bits o 12 2 + 16 * bits o 14 2
def rowAt (o : Nat) : Nat := bits o 16 14

/-- Guard of a command about owned pseudo-channel `i`. -/
def onPc (s0 : State) (p i : Nat) (s : State) : Answer :=
  if p < 16 ∧ i < s0.fuse.variant.chans then .next s else .fault .noSuchUnit

/-- Guard of a command about a stack channel. -/
def onChan (s0 : State) (st ch : Nat) (s : State) : Answer :=
  if st < s0.fuse.variant.stacks ∧ ch < 32 then .next s else .fault .noSuchUnit

/-! ## What is stored (R196, R243, R248) -/

/-- The memory key of a partition, 64 bytes: the draw that stands for it (R411, R413). -/
def State.memoryKey (s : State) (p : Nat) : List Byte := leBytes 64 (Config.randomDraw (s.mkey.get 0 p))

/-- The ciphertext of the block at a partition address, data and check words alike (R196): AES-256-XTS with a 256-byte data unit and
the tweak the partition address divided by 256. `State.mem` holds what it decrypts to. -/
def State.cipherBlock (s : State) (p addr : Nat) : List Byte :=
  xtsEncrypt (s.memoryKey p) (addr / 256) (s.block p addr)

/-- The 64 stored bytes of the pair at offset `o` of owned pseudo-channel `i` (R230, R248). -/
def State.storedPair (s : State) (p i o : Nat) : List Byte :=
  ((s.cipherBlock p (s.addrAt i o)).drop (o % 256 / 64 * 64)).take 64

/-- The primitive polynomials of degree 8, without x^8. -/
def primitivePolys : List Byte :=
  [0x1D#8, 0x2B#8, 0x2D#8, 0x4D#8, 0x5F#8, 0x63#8, 0x65#8, 0x69#8, 0x71#8, 0x87#8, 0x8D#8, 0xA9#8, 0xC3#8, 0xCF#8, 0xE7#8, 0xF5#8]

/-- The field of the symbol code (log entry 80). -/
def symbolField : Byte := primitivePolys.getD (Config.rsPoly % 16) 0x1D#8

/-- The three check symbols of a pair (R243): a Reed–Solomon code over GF(2^8) computed over the pair's stored bytes and its
pseudo-channel offset. -/
def State.pairChecks (s : State) (p i o : Nat) : List Byte :=
  let w := (leBytes 4 (o / 64) ++ s.storedPair p i (o / 64 * 64)).reverse
  let (a, b, c) := rsRemainder symbolField (rsGenerator symbolField 2#8 Config.rsFirst) w (0#8, 0#8, 0#8)
  [a, b, c]

/-- The place in the code word of a symbol of a pair: the check symbols come first, the four bytes of the offset after them. -/
def codePlace (k : Nat) : Nat := if k < 64 then k + 7 else k - 64

/-! ## What the symbol code finds (R244–R247) -/

/-- What the symbol code finds in a pair. -/
inductive Finding where
  | clean
  | corrected (pos : Nat)
  | uncorrectable
deriving DecidableEq, Repr

/-- What the code finds where a pair's symbols differ by `es` from what was written (R243–R245): three syndromes of 0 leave the pair as
it is read; one symbol that explains them all is corrected; anything else is uncorrectable. -/
def symbolFinding (es : PairErrors) : Finding :=
  let es := es.filter (fun e => decide (e.1 < 67))
  let syn (j : Nat) (l : PairErrors) : Byte := rsSyndrome symbolField 2#8 Config.rsFirst j (l.map (fun e => (codePlace e.1, e.2)))
  let s3 (l : PairErrors) : List Byte := [syn 0 l, syn 1 l, syn 2 l]
  if s3 es = [0#8, 0#8, 0#8] then .clean
  else match (List.range 67).find? (fun k => (List.range 256).any (fun v => s3 [(k, BitVec.ofNat 8 v)] == s3 es)) with
  | some k => .corrected k
  | none => .uncorrectable

/-- Record the address of an uncorrectable pair: the first is kept (MEM_ECC_ADDR). -/
def State.eccAddr (s : State) (p i o : Nat) (scrub : Bool) : State :=
  let s := s.inc (MEM_ECC.UNC p i)
  if s.rf (MEM_ECC_ADDR.VALID p i) = 1 then s
  else ((s.wf (MEM_ECC_ADDR.ADDR p i) (s.addrAt i (o / 64 * 64))).wf (MEM_ECC_ADDR.SCRUB p i) (bit scrub)).wf
    (MEM_ECC_ADDR.VALID p i) 1

/-- The report of a pair (R338, code 0x51). -/
def State.pairReport (s : State) (p i o pos : Nat) (cls : Cls) (scrub : Bool) : Report :=
  { unit := s.memUnit p i, cls := cls, code := 0x51, part := some p, synd := [(pos, 1), (bit scrub, 1)]
    addr := s.addrAt i (o / 64 * 64) }

/-- A correctable pair: counted and reported, a third time with PERM (R244, R247). -/
def State.pairCorrected (s : State) (p i o pos : Nat) (scrub : Bool) : State :=
  let x := s.getPc p i
  let n := x.corrected.get 0 (o / 64) + 1
  let s := s.setPc p i { x with corrected := x.corrected.set 0 (o / 64) n }
  let s := (s.inc (MEM_ECC.CORR p i)).raise (s.pairReport p i o pos .corr scrub)
  if n = 3 then s.raise (s.pairReport p i o pos .perm scrub) else s

/-- The pair is uncorrectable from now on (R245, R510). -/
def State.pairLost (s : State) (p i o : Nat) : State :=
  let x := s.getPc p i
  s.setPc p i { x with bad := o / 64 :: x.bad.filter (· != o / 64) }

/-- An uncorrectable pair met by a request: recorded, FATAL, and the abort wave (R245). -/
def State.pairUncorrectable (s : State) (p i o : Nat) : State :=
  ((s.pairLost p i o).eccAddr p i o false).fatal p (s.pairReport p i o 0xFF .fatal false)

/-- An uncorrectable pair found by the scrub: PERM, no wave (R246). -/
def State.pairScrubbed (s : State) (p i o : Nat) : State :=
  ((s.pairLost p i o).eccAddr p i o true).raise (s.pairReport p i o 0xFF .perm true)

/-! ## Arbitration and regulators (R237–R241) -/

/-- The request port of a requester (R236), and its number on that port. -/
def reqPort : Requester → Nat
  | .channel k => k / 8 % 4
  | _ => 4
def reqPlace : Requester → Nat
  | .channel k => k % 8
  | .flint c => c % 8
  | .strata => 8
  | .assay => 9

/-- The request port of a request. -/
def memPort (r : MemReq) : Nat := reqPort r.who

/-- The pairs a request touches, and those it covers only in part. -/
def memPairs (r : MemReq) : Nat := (r.off % 64 / 32 + r.sectors + 1) / 2
def partPairs (r : MemReq) : Nat := r.off / 32 % 2 + (r.off / 32 + r.sectors) % 2

/-- Whether a request is a read-modify-write (R230): a write of part of a pair. -/
def isRmw (r : MemReq) : Bool := r.write && decide (0 < partPairs r)

/-- The pairs that a request reads, by number: those of a read, and those that a write covers in part (R230). -/
def readPairs (r : MemReq) : List Nat :=
  ((List.range (memPairs r)).map (fun k => r.off / 64 + k)).filter (fun q =>
    !r.write || decide (64 * q < r.off / 32 * 32) || decide (r.off / 32 * 32 + 32 * r.sectors < 64 * (q + 1)))

/-- The charge of a request (R240): sectors requested and moved along, the pairs that a read-modify-write reads, an activation, the
turnarounds. -/
def PseudoChan.charge (x : PseudoChan) (r : MemReq) : Nat :=
  Nat.max r.sectors (2 * memPairs r) + (if isRmw r then 2 * partPairs r + 4 else 0) +
  (if x.rows.get 0 (bankOf r.off) = rowAt r.off + 1 then 0 else 1) +
  (if x.writing = (r.write && !isRmw r) then 0 else 4)

/-- The token count of a port after `n` controller cycles (R239). -/
def State.tokensAfter (s : State) (p i k n : Nat) : Nat :=
  Nat.min (s.rf (MEM_REG.TOKENS p i k) + s.rf (MEM_REG.RATE p i k) * n) (s.rf (MEM_REG.BURST p i k) * 256)

/-- Every regulator adds its rate for `n` cycles. -/
def State.refill (s : State) (p i n : Nat) : State :=
  (List.range 5).foldl (fun s k => s.wf (MEM_REG.TOKENS p i k) (s.tokensAfter p i k n)) s

/-- The elements after `last` in ascending order, then those up to it: the order of a round. -/
def roundFrom (last n : Nat) : List Nat := (List.range n).map (fun j => (last + 1 + j) % n)

/-- The request a port puts forward (R237): round-robin among its requesters, the oldest of the one chosen. -/
def PseudoChan.portReq (x : PseudoChan) (k : Nat) : Option MemReq :=
  let mine := x.reqs.filter (fun r => memPort r == k)
  ((roundFrom (x.lastReq.get 0 k) 64).find? (fun w => mine.any (fun r => reqPlace r.who == w))).bind
    (fun w => mine.find? (fun r => reqPlace r.who == w))

/-- Whether a request is in guarantee (R239). -/
def State.guaranteed (s : State) (p i : Nat) (x : PseudoChan) (r : MemReq) : Bool :=
  decide (256 * x.charge r ≤ s.rf (MEM_REG.TOKENS p i (memPort r)))

/-- The request the controller chooses (R237, R241): round-robin among in-guarantee ports, else among the others that LIMIT does
not hold; and whether it is in guarantee. -/
def State.chooseReq (s : State) (p i : Nat) (x : PseudoChan) : Option (MemReq × Bool) :=
  let rs := (roundFrom x.lastPort 5).filterMap x.portReq
  match rs.find? (s.guaranteed p i x) with
  | some r => some (r, true)
  | none => (rs.find? (fun r => s.rf (MEM_REG.LIMIT p i (memPort r)) == 0)).map (fun r => (r, false))

/-- Whether the other pseudo-channel of the channel takes the command slot (R237): an in-guarantee command goes before one that
is not, and otherwise they alternate. -/
def State.slotToOther (s : State) (p i : Nat) (mine : Bool) : Bool :=
  let (st, ch, h) := s.chanOf p i
  let (p', i') := s.ownerOf st (ch + 32 * (1 - h))
  match s.chooseReq p' i' (s.getPc p' i') with
  | none => false
  | some (_, other) => if mine == other then (s.getChan st ch).lastHalf == h else other

/-- Grant a request: its port and requester were served last, its row is open, and its charge is accounted. -/
def State.grantReq (s : State) (p i : Nat) (r : MemReq) (inG : Bool) : State :=
  let x := s.getPc p i
  let (st, ch, h) := s.chanOf p i
  let c := x.charge r
  let s := if inG then s.wf (MEM_REG.TOKENS p i (memPort r)) (s.rf (MEM_REG.TOKENS p i (memPort r)) - 256 * c) else s
  let s := (s.addf (MEM_SVC.CHARGED p i (memPort r)) c).addf (MEM_BYTES.BYTES p i) (32 * r.sectors)
  let s := s.setPc p i { x with
    reqs := x.reqs.erase r, lastPort := memPort r, lastReq := x.lastReq.set 0 (memPort r) (reqPlace r.who)
    rows := x.rows.set 0 (bankOf r.off) (rowAt r.off + 1), writing := r.write }
  s.setChan st ch { s.getChan st ch with lastHalf := h }

/-- A request reads a pair (R244, R245): one that is uncorrectable stays so, and any other is what the symbol code finds in it. -/
def State.pairRead (s : State) (p i : Nat) (errs : List (Nat × PairErrors)) (q : Nat) : State :=
  if (s.getPc p i).bad.contains q then s.pairUncorrectable p i (64 * q)
  else match symbolFinding ((errs.filter (fun e => e.1 == q)).flatMap (·.2)) with
  | .clean => s
  | .corrected pos => s.pairCorrected p i (64 * q) pos false
  | .uncorrectable => s.pairUncorrectable p i (64 * q)

/-- The pairs a granted request reads. -/
def State.pairsRead (s : State) (p i : Nat) (errs : List (Nat × PairErrors)) (qs : List Nat) : State :=
  qs.foldl (fun s q => s.pairRead p i errs q) s

/-- MEM_REQUEST_GRANT (R237–R247, R510): `arrived` are the requests that have reached the controller since the grant before, `cycles`
the controller cycles since then; `errs` are the errors of the stored pairs by pair number. Requests at a channel that retrains are held
(R251); at a failed channel they complete ABORTED (R252). -/
def execMemRequestGrant (p i : Nat) (arrived : List MemReq) (cycles : Nat) (errs : List (Nat × PairErrors)) (s : State) : Answer :=
  onPc s p i (
    let (st, ch, _) := s.chanOf p i
    let x := s.getPc p i
    let s := (s.setPc p i { x with reqs := x.reqs ++ arrived }).refill p i cycles
    match (s.getChan st ch).st with
    | 3 => s.setPc p i { s.getPc p i with reqs := [] }
    | 1 =>
      (match s.chooseReq p i (s.getPc p i) with
       | none => s
       | some (r, inG) =>
         if s.slotToOther p i inG then s.inc (MEM_SLOTWAIT.CYCLES p i)
         else (s.grantReq p i r inG).pairsRead p i errs (readPairs r))
    | _ => s)

/-- PATROL_SCRUB (R246) of the pair at offset `o`, whose stored symbols have the errors `errs`; `od` on-die corrections are reported by
the stack with it (R229, MEM_ODECC). -/
def execPatrolScrub (p i o od : Nat) (errs : PairErrors) (s : State) : Answer :=
  onPc s p i (
    let (st, ch, _) := s.chanOf p i
    if s.rf (MEM_CFG.SCRUB_EN p i) = 0 ∨ (s.getChan st ch).st ≠ 1 then s
    else
      let s := s.addf (MEM_ODECC.ODCORR p i) od
      if (s.getPc p i).bad.contains (o / 64) then s.pairScrubbed p i o
      else match symbolFinding errs with
      | .clean => s
      | .corrected pos => s.pairCorrected p i o pos true
      | .uncorrectable => s.pairScrubbed p i o)

/-! ## Channels (R249–R252) -/

/-- A channel fails (R252): FATAL 0x54 for each of its pseudo-channels, their requests complete ABORTED, their partitions' jobs
abort, and the log records the channel. `stage` 0 training, 1 retraining. -/
def State.failChannel (s : State) (st ch stage : Nat) : State :=
  let s := s.setChan st ch { s.getChan st ch with st := 3 }
  let s := [0, 1].foldl (fun s h =>
    let (p, i) := s.ownerOf st (ch + 32 * h)
    (s.setPc p i { s.getPc p i with reqs := [] }).fatal p
      { unit := s.memUnit p i, cls := .fatal, code := 0x54, part := some p, synd := [(ch, 1), (stage, 1)] }) s
  let k := st * 32 + ch
  s.logState { s.log with failedChans := k :: s.log.failedChans.filter (· != k) }

/-- CHANNEL_TRAINING_DONE (R249): `rep0` and `rep1` lanes were repaired. -/
def execChannelTrainingDone (st ch rep0 rep1 : Nat) (s : State) : Answer :=
  onChan s st ch (
    if (s.getChan st ch).st ≠ 0 then s
    else
      let s := s.setChan st ch { s.getChan st ch with st := 1, repaired0 := rep0, repaired1 := rep1 }
      let (p0, i0) := s.ownerOf st ch
      let (p1, i1) := s.ownerOf st (ch + 32)
      ((s.wf (MEM_LINK.REPAIRED p0 i0) rep0).wf (MEM_LINK.REPAIRED p1 i1) rep1).leaveOffs)

/-- CHANNEL_TRAINING_TIMEOUT (R249, R252). -/
def execChannelTrainingTimeout (st ch : Nat) (s : State) : Answer :=
  onChan s st ch (if (s.getChan st ch).st ≠ 0 then s else (s.failChannel st ch 0).leaveOffs)

/-- INTERVAL_CALIBRATION (R250): it takes command slots and leaves the state as it is. -/
def execIntervalCalibration (st ch : Nat) (s : State) : Answer := onChan s st ch s

/-- PARITY_ERROR (R251): the outcome of one reissue of command `cmd` of a half; after its third failed one the channel retrains. -/
def execParityError (st ch half cmd : Nat) (ok : Bool) (s : State) : Answer :=
  onChan s st ch (
    let x := s.getChan st ch
    let (p, i) := s.ownerOf st (ch + 32 * (half % 2))
    let k := 2 * cmd + half % 2
    let n := x.reissues.get 0 k + 1
    if x.st ≠ 1 then s
    else if ok then
      ((s.setChan st ch { x with reissues := x.reissues.set 0 k 0 }).inc (MEM_LINK.RETRIES p i)).raise
        { unit := s.memUnit p i, cls := .trans, code := 0x52, part := some p, retry := n, synd := [(ch, 1), (n, 1)] }
    else if n < 3 then s.setChan st ch { x with reissues := x.reissues.set 0 k n }
    else s.setChan st ch { x with reissues := [], st := 2 })

/-- CHANNEL_RETRAIN_DONE (R251, R252). -/
def execChannelRetrainDone (st ch : Nat) (ok : Bool) (s : State) : Answer :=
  onChan s st ch (
    let x := s.getChan st ch
    let (p0, i0) := s.ownerOf st ch
    let (p1, i1) := s.ownerOf st (ch + 32)
    if x.st ≠ 2 then s
    else if ok then
      (((s.setChan st ch { x with st := 1, fails := 0 }).inc (MEM_LINK.RETRAINS p0 i0)).inc (MEM_LINK.RETRAINS p1 i1)).raise
        { unit := s.memUnit p0 i0, cls := .trans, code := 0x53, part := some p0, retry := x.fails + 1, synd := [(ch, 1), (x.fails + 1, 1)] }
    else if x.fails + 1 < 2 then s.setChan st ch { x with fails := x.fails + 1 }
    else (s.setChan st ch { x with fails := x.fails + 1 }).failChannel st ch 1)

/-! ## Refresh (R229) -/

/-- A stack reports a temperature in steps of 0.125 °C: above 85 °C refresh runs at double rate (R229). -/
def State.stackTemp (s : State) (st temp : Nat) : State :=
  (List.range 64).foldl (fun s q =>
    let (p, i) := s.ownerOf st q
    (s.wf (MEM_TEMP.TEMP p i) temp).wf (MEM_TEMP.REF2X p i) (bit (decide (85 * 8 < temp)))) s

/-- DOUBLED_REFRESH_CHANGE (R229). -/
def execDoubledRefreshChange (st temp : Nat) (s : State) : Answer :=
  if s.fuse.variant.stacks ≤ st then .fault .noSuchUnit else .next (s.stackTemp st temp)

end Sys2Proof.Machine
end

