-- ==== Sys2Proof/Machine/Boot.lean ====
section
/-!
DEFINITION. Boot, clocks and power (chapters 16 and 17): the start sequence and the boot choice, the operations of the configuration
flash, Quartz's clock monitor and switches, the power governor, and the pins and trips that start and stop the module. The idle tick
of the time base stands at the end.
-/
namespace Sys2Proof.Machine

/-! ## Units and module-wide errors (R24, R488, R517) -/

/-- The unit IDs of Quartz on a die's site, of its root PLL, and of the power governor. -/
def quartzUnit (site : Nat) : Nat := unitId site 10 0
def State.rootUnit (s : State) : Nat := unitId s.primarySite 10 1
def State.powerUnit (s : State) : Nat := unitId s.primarySite 11 0

/-- A FATAL record of a module-wide unit; the abort wave therefore reaches every job with a partition on the module (R481). -/
def State.moduleFatal (s : State) (unit code : Nat) (synd : List (Nat × Nat)) : State :=
  (s.raise { unit := unit, cls := .fatal, code := code, part := none, synd := synd }).abortJobs unit

/-! ## Losing power and starting (R472, R473, R497–R502) -/

/-- What outlives a loss of power: fuses and flash, what endpoints outside the module hold, the supplies, pins and latches; and the
model's own records. -/
def State.powerLoss (s : State) : State :=
  let w := s.power
  { pending := s.pending, fuse := s.fuse, flash := s.flash.loss (Config.freeValue s.freeCtr).toNat, images := s.images
    freeCtr := s.freeCtr + 1, out := s.out
    power := { pwrEn := w.pwrEn, resetHeld := w.resetHeld, perst := w.perst, thermLatch := w.thermLatch, cutLatch := w.cutLatch,
               standby := w.standby, hot := w.hot } }

/-- Management registers that a running management domain keeps when the rails go: those of the HST_, BDR_, QTZ_ and PWR_ windows. -/
def railKept (cell : Nat) : Bool := decide (mgmtKey 0 ≤ cell / 64 ∧ cell / 64 < mgmtKey 0x00400000)

/-- The carrier disables the core, stack and I/O-die rails: all volatile state is lost but that of the management domain, which goes on
with the error log, its events and its bus addresses (R497, R498, R501). Every partition is OFF. -/
def State.railsOff (s : State) : State :=
  let w := s.power
  let t : State :=
    { pending := s.pending, fuse := s.fuse, cfg := s.cfg, log := s.log, flash := s.flash, images := s.images, freeCtr := s.freeCtr
      out := s.out, flds := s.flds.drop (fun k => !railKept k), recSeq := s.recSeq, recPend := s.recPend, recFlush := s.recFlush
      suppressed := s.suppressed, corrSeen := s.corrSeen, elog := s.elog, events := s.events, i3cAddr := s.i3cAddr, mctpEid := s.mctpEid
      power := { w with coreRail := false, otherRails := false, pwrGd := false } }
  let t := (((t.wf HST_LINK.SPEED 0).wf HST_LINK.WIDTH 0).wf HST_LINK.FLIT 0).wf HST_LINK.UP 0
  let t := ((t.wf HST_MREQ_STAT.BUSY 0).wf BDR_SEC.PF16_SESS 0).wf BDR_SEC.IDE 0
  (List.range 16).foldl (fun t p =>
    (((t.wf (PRT_STATE.STATE p) psOFF).wf (BDR_PSEC.CLAIMED p) 0).wf (BDR_PSEC.SESSION p) 0).wf (BDR_PSEC.PROVISIONED p) 0) t

/-- The SEQ that follows the newest record in the error log ring (R339). -/
def Flash.seqAfter (f : Flash) : Nat :=
  match f.newest 3 with
  | some e => (match e.payload with
    | .errlog rs => (match rs.getLast? with
      | some w => ((w.getD 3 0#64).toNat / 2 ^ 32 + 1) % 2 ^ 32
      | none => 0)
    | _ => 0)
  | none => 0

/-- Time 0 of a module start (R473): the management domain comes out of reset on the trimmed oscillator and the boot ROM runs. -/
def State.startAt0 (s : State) (vin : Nat) : State :=
  let t := s.powerLoss
  { t with boot := .started, recSeq := t.flash.seqAfter, power := { t.power with otherRails := true, mgmt := true } }.wf PWR_STATUS.VIN vin

/-- Whether the pins and latches let the rails start (R497, R498, R502). -/
def Power.mayStart (w : Power) : Bool := w.pwrEn && !w.resetHeld && !w.thermLatch && !w.hot && !w.cutLatch

/-- Start the module if it is off and may start. -/
def State.tryStart (s : State) (vin : Nat) : State :=
  if s.boot = .off ∧ s.power.mayStart then s.startAt0 vin else s

/-- 42 V and 38 V in the steps of PWR_STATUS.VIN. -/
def vin42 : Nat := 1680
def vin38 : Nat := 1520

/-- POWER_UP (R500): MGT_PWR_EN is asserted with standby power and at least 42 V at the input, which ends an input cut-off (R498). -/
def execPowerUp (vin : Nat) (s : State) : Answer :=
  .next (if vin < vin42 then s
    else { s with power := { s.power with pwrEn := true, standby := true, cutLatch := false } }.tryStart vin)

/-- POWER_DOWN (R501): MGT_PWR_EN is deasserted; every job aborts, pending records are flushed and the rails go off. A flash entry in
progress completes. -/
def execPowerDown (s : State) : Answer :=
  let s := { s with power := { s.power with pwrEn := false } }
  .next (if s.boot = .off then s else (s.abortJobs s.bedrockUnit).flushRecords.railsOff)

/-- MODULE_RESET (R502): the whole module is reset, management domain included. -/
def execModuleReset (s : State) : Answer := .next ({ s with power := { s.power with resetHeld := true } }.powerLoss)

/-- MGT_RESET_RELEASE (R502). -/
def execMgtResetRelease (s : State) : Answer :=
  .next ({ s with power := { s.power with resetHeld := false } }.tryStart (s.rf PWR_STATUS.VIN))

/-- UNDERVOLTAGE_TRIP (R464): the input fell below 38 V. -/
def execUndervoltageTrip (vin : Nat) (s : State) : Answer :=
  .next (if vin38 ≤ vin then s
    else
      let s := s.wf PWR_STATUS.VIN vin
      if s.flash.tripped then s else { s with flash := s.flash.trip })

/-- INPUT_CUTOFF (R498): the input stayed below 38 V for 10 µs; no new flash operation starts, FATAL 0xB2, and the rails go off. -/
def execInputCutoff (vin : Nat) (s : State) : Answer :=
  .next (if vin38 ≤ vin then s
    else
      let s := { s with power := { s.power with cutLatch := true } }
      if s.boot = .off then s
      else
        let s := { s with flash := if s.flash.tripped then s.flash else s.flash.trip }.wf PWR_STATUS.VIN vin
        (s.moduleFatal s.powerUnit 0xB2 [(vin, 2)]).railsOff)

/-- INPUT_VOLTAGE_RETURN (R498): at 42 V the power-up sequence may start the module again. -/
def execInputVoltageReturn (vin : Nat) (s : State) : Answer :=
  .next (if vin < vin42 then s else { s with power := { s.power with cutLatch := false } }.wf PWR_STATUS.VIN vin)

/-- HOLDUP_EXPIRE (R499): both supplies have been absent for longer than the hold-up; the module is in power loss. -/
def execHoldupExpire (s : State) : Answer := .next ({ s with power := { s.power with standby := false } }.powerLoss)

/-! ## Thermal comparators (R496, R497) -/

/-- Whether a site is a stack base die, and whether the module has the site (R17, R22). -/
def State.stackSite (s : State) (site : Nat) : Bool := decide (16 ≤ site ∧ site < s.primarySite)
def State.siteExists (s : State) (site : Nat) : Bool := decide (site < s.primarySite + s.fuse.variant.ioDies)

/-- What a comparator reads is recorded where a register shows it: the stack sensor in MEM_TEMP. -/
def State.sensed (s : State) (sn : Sensor) : State := if s.stackSite sn.site then s.stackTemp (sn.site - 16) sn.temp else s

/-- Guard of a thermal event: the sensor exists, and the level is reached (die level and stack level in steps of 0.125 °C) on a
powered die. -/
def onSensor (s : State) (sn : Sensor) (die stack : Nat) (t : State) : Answer :=
  if !s.siteExists sn.site || s.stackSite sn.site != sn.stack then .fault .noSuchUnit
  else if s.boot = .off ∨ sn.temp < (if sn.stack then stack else die) then .next s
  else .next t

/-- THERMAL_WARNING (R455, R496). -/
def execThermalWarning (sn : Sensor) (s : State) : Answer :=
  onSensor s sn 800 760 (
    ((s.sensed sn).raise { unit := s.powerUnit, cls := .corr, code := 0xB3, part := none, synd := [(sn.site, 1), (sn.temp, 2)] }).platform
      (.thermal sn.site))

/-- THERMAL_TRIP (R496, R497): FATAL 0xB1, the pending records are flushed, and the rails go off with the trip latched. -/
def execThermalTrip (sn : Sensor) (s : State) : Answer :=
  onSensor s sn 880 840 (
    let t := (((s.sensed sn).moduleFatal s.powerUnit 0xB1 [(sn.site, 1), (sn.temp, 2)]).flushRecords).railsOff
    { t with power := { t.power with thermLatch := true, hot := true } })

/-- THERMAL_TRIP_UNLATCH (R497): MGT_PWR_EN has been deasserted for 10 ms. -/
def execThermalTripUnlatch (s : State) : Answer :=
  .next (if s.power.pwrEn then s else { s with power := { s.power with thermLatch := false } })

/-- SENSORS_BELOW_85C (R497): the rails start if MGT_PWR_EN is asserted. -/
def execSensorsBelow85c (s : State) : Answer :=
  .next ({ s with power := { s.power with hot := false } }.tryStart (s.rf PWR_STATUS.VIN))

/-! ## Clocks (R473–R482) -/

/-- The value of QTZ_MON, of which bits [39:0] are in use. -/
def State.monValue (s : State) : Nat :=
  s.rf QTZ_MON.XTAL + s.rf QTZ_MON.ROOT * 2 + s.rf QTZ_MON.REFCLK * 4 + s.rf QTZ_MON.FLASH * 8 + s.rf QTZ_MON.IOPLL * 2 ^ 8 +
  s.rf QTZ_MON.STKPLL * 2 ^ 20

/-- Whether the module has a source, the unit that monitors it, and whether it is marked dead. -/
def State.hasSource (s : State) : ClockSource → Bool
  | .ioPll k => decide (k < s.fuse.variant.ioDies)
  | .stackPll k => decide (k < s.fuse.variant.stacks)
  | _ => true
def State.sourceUnit (s : State) : ClockSource → Nat
  | .crystal | .root => s.rootUnit
  | .refclk | .flash => quartzUnit s.primarySite
  | .ioPll k => quartzUnit (s.primarySite + k)
  | .stackPll k => quartzUnit (16 + k)
def State.isDead (s : State) : ClockSource → Bool
  | .crystal => s.rf QTZ_MON.XTAL == 1
  | .root => s.rf QTZ_MON.ROOT == 1
  | .refclk => s.rf QTZ_MON.REFCLK == 1
  | .flash => s.rf QTZ_MON.FLASH == 1
  | .ioPll k => bitOf (s.rf QTZ_MON.IOPLL) k
  | .stackPll k => bitOf (s.rf QTZ_MON.STKPLL) k

/-- Set the mark of a source. -/
def State.setDead (s : State) : ClockSource → State
  | .crystal => (s.wf QTZ_MON.XTAL 1).wf QTZ_STATUS.XTAL_OK 0
  | .root => s.wf QTZ_MON.ROOT 1
  | .refclk => s.wf QTZ_MON.REFCLK 1
  | .flash => s.wf QTZ_MON.FLASH 1
  | .ioPll k => s.wf QTZ_MON.IOPLL (Nat.lor (s.rf QTZ_MON.IOPLL) (2 ^ k))
  | .stackPll k => s.wf QTZ_MON.STKPLL (Nat.lor (s.rf QTZ_MON.STKPLL) (2 ^ k))

/-- Mark a source dead, with FATAL 0xA1, once until the next module start (R476). -/
def State.markDead (s : State) (c : ClockSource) : State :=
  if s.isDead c then s
  else
    let s := s.setDead c
    s.moduleFatal (s.sourceUnit c) 0xA1 [(s.monValue, 5)]

/-- The root PLL coasts when the crystal is dead after SW0 has selected it, with FATAL 0xA2 (R481). -/
def State.coastIf (s : State) (edges : Nat) : State :=
  if s.rf QTZ_MON.XTAL = 1 ∧ s.rf QTZ_SW0.CUR = 1 ∧ s.rf QTZ_STATUS.COAST = 0 then
    ((s.wf QTZ_STATUS.COAST 1).wf QTZ_STATUS.LOCK 0).moduleFatal s.rootUnit 0xA2 [(edges, 4)]
  else s

/-- CLOCK_MONITOR_WINDOW (R476, R481): the sources with too few edges in this window, and the crystal's edge count. -/
def execClockMonitorWindow (dead : List ClockSource) (edges : Nat) (s : State) : Answer :=
  if !dead.all s.hasSource then .fault .noSuchUnit
  else .next (if s.boot = .off then s else (dead.foldl State.markDead s).coastIf edges)

/-- Request a switch of SW0 to `sel` (R478). -/
def State.requestSw0 (s : State) (sel : Nat) : State :=
  ((s.wf QTZ_SW0.SEL sel).wf QTZ_SW0.BUSY (bit (sel % 2 != s.rf QTZ_SW0.CUR))).wf QTZ_SW0.STUCK 0

/-- Quartz requests SW1 to root ÷ 9 once the root PLL has locked with SW0 on the crystal (R480). -/
def State.requestSw1 (s : State) : State :=
  if s.rf QTZ_STATUS.LOCK = 1 ∧ s.rf QTZ_SW0.CUR = 1 ∧ s.rf QTZ_SW1.SEL = 0 ∧ s.rf QTZ_STATUS.MGMT_FB = 0 then
    (s.wf QTZ_SW1.SEL 1).wf QTZ_SW1.BUSY 1
  else s

/-- SW0 changes over. -/
def State.sw0Done (s : State) : State :=
  let v := s.rf QTZ_SW0.SEL
  ((((s.wf QTZ_SW0.CUR v).wf QTZ_SW0.BUSY 0).wf QTZ_SW0.STUCK 0).wf QTZ_STATUS.REF v).requestSw1

/-- CRYSTAL_STABLE (R473): SW0 selects the crystal and the root PLL is enabled. -/
def execCrystalStable (s : State) : Answer :=
  .next (if s.boot ≠ .started ∨ s.rf QTZ_MON.XTAL = 1 then s
    else { (s.wf QTZ_STATUS.XTAL_OK 1).requestSw0 1 with boot := .crystal })

/-- CRYSTAL_TIMEOUT (R477): the crystal is marked dead. -/
def execCrystalTimeout (s : State) : Answer := .next (if s.boot ≠ .started then s else s.markDead .crystal)

/-- ROOT_PLL_LOCK (R473, R480). -/
def execRootPllLock (s : State) : Answer :=
  .next (if s.boot ≠ .crystal ∨ s.rf QTZ_STATUS.COAST = 1 then s
    else { (s.wf QTZ_STATUS.LOCK 1).requestSw1 with boot := .rootLocked })

/-- CLOCK_SWITCH_REQUEST (R478): a write of QTZ_SW0.SEL, which no Flint reaches. -/
def execClockSwitchRequest (a : Agent) (sel : Nat) (s : State) : Answer :=
  .next (if isFlint a ∨ s.boot = .off then s else s.requestSw0 sel)

/-- CLOCK_SWITCH_DONE (R478): the handshake completes, unless the old clock has stopped. -/
def execClockSwitchDone (sw : Nat) (s : State) : Answer :=
  if 2 ≤ sw then .fault .noSuchUnit
  else .next (
    if sw = 0 then
      (if s.rf QTZ_SW0.BUSY = 0 ∨ (s.rf QTZ_SW0.CUR = 1 ∧ s.rf QTZ_MON.XTAL = 1) then s else s.sw0Done)
    else if s.rf QTZ_SW1.BUSY = 0 then s
    else (((s.wf QTZ_SW1.CUR 1).wf QTZ_SW1.BUSY 0).wf QTZ_SW1.STUCK 0).wf QTZ_STATUS.MGMT 1)

/-- CLOCK_SWITCH_STUCK (R478, R480): STUCK is set and the switch waits on; SW1 is forced to the oscillator, and Bedrock restarts from
the boot ROM. -/
def execClockSwitchStuck (sw : Nat) (s : State) : Answer :=
  if 2 ≤ sw then .fault .noSuchUnit
  else .next (
    if sw = 0 then (if s.rf QTZ_SW0.BUSY = 0 then s else s.wf QTZ_SW0.STUCK 1)
    else if s.rf QTZ_SW1.BUSY = 0 then s
    else
      let s := (((s.wf QTZ_SW1.STUCK 1).wf QTZ_SW1.SEL 0).wf QTZ_SW1.CUR 0).wf QTZ_SW1.BUSY 0
      { (s.wf QTZ_STATUS.MGMT 0).wf QTZ_STATUS.MGMT_FB 1 with boot := .rootLocked })

/-- Whether a start has not yet enabled the core rail (R479). -/
def State.beforeCoreRail (s : State) : Bool :=
  !s.power.coreRail && (s.boot == .started || s.boot == .crystal || s.boot == .rootLocked)

/-- SW0_FORCE (R479): at any other time the write is answered with a bus error. -/
def execSw0Force (a : Agent) (s : State) : Answer :=
  .next (if isFlint a ∨ s.boot = .off then s
    else if !s.beforeCoreRail then s.emit (.mgt "BUS_ERROR" 0x00200010)
    else if s.rf QTZ_SW0.BUSY = 1 then s.sw0Done else s)

/-- TIMEBASE_DISCIPLINE (R482): the last measured offset in ns, whether it lies within the bounds, and a rate correction. -/
def execTimebaseDiscipline (offset ppm : Int) (synced : Bool) (s : State) : Answer :=
  .next (if s.boot ≠ .running then s
    else
      let s := (s.wf QTZ_TBSYNC.ERR (offset % 2 ^ 16).toNat).wf QTZ_TBSYNC.SYNCED (bit synced)
      if ppm = 0 then s else s.inc QTZ_TBSYNC.ADJUSTS)

/-! ## The power governor (R483–R487) -/

/-- The bit of a limit in LIMITING. -/
def limitBit : LimitKind → Nat
  | .power => 0
  | .current => 1
  | .temperature => 2

/-- Show the limits in force. -/
def State.showLimits (s : State) (d : Nat) : State :=
  (s.wf (PWR_SKIP.CAUSE d) (s.gov.limits.get 0 d)).wf PWR_STATUS.LIMITING (s.gov.limits.foldl (fun m e => Nat.lor m e.2) 0)

/-- LIMIT_EXCEEDED (R483, R485): K rises at once, to at most 16. -/
def execLimitExceeded (d : Nat) (k : LimitKind) (s : State) : Answer :=
  onPart d (if s.boot ≠ .running then s
    else
      let m := Nat.lor (s.gov.limits.get 0 d) (2 ^ limitBit k)
      let s := { s with gov := { s.gov with limits := s.gov.limits.set 0 d m } }
      (s.wf (PWR_SKIP.K d) (Nat.min 16 (s.rf (PWR_SKIP.K d) + 1))).showLimits d)

/-- The lowerings of K on a die that wait for the governor. -/
def State.lowering (s : State) (d : Nat) : Nat := (s.gov.waiting.filter (fun e => e.1 == .lowerK d)).length

/-- `n` requests to the governor. -/
def State.govRequests (s : State) (r : GovReq) : Nat → State
  | 0 => s
  | n + 1 => (s.govRequest r).govRequests r n

/-- LIMIT_CLEARED (R483): with no limit left in force on the die, its K is to be lowered to 0. -/
def execLimitCleared (d : Nat) (k : LimitKind) (s : State) : Answer :=
  onPart d (
    let m := s.gov.limits.get 0 d
    if !bitOf m (limitBit k) then s
    else
      let m := m - 2 ^ limitBit k
      let s := { s with gov := { s.gov with limits := s.gov.limits.set 0 d m } }.showLimits d
      if m = 0 then s.govRequests (.lowerK d) (s.rf (PWR_SKIP.K d) - s.lowering d) else s)

/-- The charge of a request in A (R485). -/
def GovReq.charge : GovReq → Nat
  | .arrays _ _ _ => 16
  | .mica _ _ _ => 2
  | .lowerK _ => 2

/-- A granted request takes effect: a wake begins (R98), or K falls by 1. -/
def State.governed (s : State) : GovReq → State
  | .arrays p c true => s.setGarnet p c { s.getGarnet p c with waking := true }
  | .mica p c true => s.wf (MCA_STATUS.GATED p c) 0
  | .lowerK d => s.wf (PWR_SKIP.K d) (s.rf (PWR_SKIP.K d) - 1)
  | _ => s

/-- Record a wait in slots (R487). -/
def State.noteWait (s : State) (n : Nat) : State := s.wf PWR_DELAY.MAXWAIT (Nat.min 65535 (Nat.max (s.rf PWR_DELAY.MAXWAIT) n))

/-- Grant waiting requests in arrival order while their charges fit into the slot (R485, R487). -/
def State.grantWaiting (s : State) : List (GovReq × Nat) → State
  | [] => { s with gov := { s.gov with waiting := [] } }
  | (r, t) :: rest =>
    if s.gov.used + r.charge ≤ 18 then
      (({ s with gov := { s.gov with used := s.gov.used + r.charge } }.noteWait (s.gov.slots - t)).governed r).grantWaiting rest
    else { s with gov := { s.gov with waiting := (r, t) :: rest } }

/-- Dies in soft-start: those woken within the last 50 µs, of which each reserves 1 A of a slot (R485). -/
def State.softStarts (s : State) : Nat := (s.gov.wakes.filter (fun t => decide (s.now < t + 5000))).length

/-- A new slot begins: the requests that arrived in the old one and were not granted are delayed (R487). -/
def State.newSlot (s : State) : State :=
  let n := (s.gov.waiting.filter (fun e => e.2 == s.gov.slots)).length
  { s with gov := { s.gov with slots := s.gov.slots + 1, used := s.softStarts } }.addf PWR_DELAY.GROUP n

/-- GOVERNOR_GRANT (R485, R487): in the running slot, or at the beginning of the next. -/
def execGovernorGrant (newSlot : Bool) (s : State) : Answer :=
  .next (if s.boot ≠ .running then s
    else
      let s := if newSlot then s.newSlot else s
      s.grantWaiting s.gov.waiting)

/-- DIE_WAKE_GRANT (R486): at most two dies in any 100 µs, in the order they asked; a woken die lets its partition start. -/
def execDieWakeGrant (d : Nat) (s : State) : Answer :=
  onPart d (match s.gov.dieWaiting with
    | [] => s
    | (e, t) :: rest =>
      if e ≠ d ∨ s.boot ≠ .running ∨ 2 ≤ s.recentWakes.length then s
      else
        let s := s.noteWait (s.gov.slots - t)
        { s with gov := { s.gov with dieWaiting := rest, wakes := s.now :: s.recentWakes, awake := d :: s.gov.awake } }.leaveOff d)

/-! ## Flash operations (R460, R462, R465, R467) -/

/-- An ERRLOG entry of `n` records has ended: once its flush is over, the second buffer of records may be flushed (R342). -/
def State.flushed (s : State) (n : Nat) : State :=
  let s := { s with recFlush := s.recFlush.drop n }
  if s.recFlush = [] ∧ s.recPend.length = 16 then s.flushRecords else s

/-- The records of an entry. -/
def Payload.recs : Payload → Nat
  | .errlog rs => rs.length
  | _ => 0

/-- An entry is committed (R460). -/
def State.entryDone (s : State) (e : FlashEntry) : State :=
  let f := s.flash
  let s := { s with flash := { f with entries := f.entries ++ [{ e with commit := 0x5A }] }.next }.inc QTZ_FLASH.WRITES
  if e.payload.kind = 3 then s.flushed e.payload.recs else s

/-- A check of step `st` fails (R460): the entry is abandoned and written once more at the next free page; a second failure leaves it
unwritten. Either raises PERM 0x95 with region, flash address and step. -/
def State.entryFails (s : State) (e : FlashEntry) (st : Nat) (second : Bool) : State :=
  let f := { s.flash with entries := s.flash.entries ++ [{ e with commit := 0xFF, pcrcOk := decide (st = 4) }] }
  let r : Report := { unit := s.bedrockUnit, cls := .perm, code := 0x95, part := none
                      synd := [(regionCode e.region, 1), (e.addr, 4), (st, 1)] }
  if second then
    let s := { s with flash := f.next }.raise r
    if e.payload.kind = 3 then s.flushed e.payload.recs else s
  else
    let again := FlashOp.entry { e with page := if e.payload.kind = 0 then 1 else 0 } 1 true
    { s with flash := if f.tripped then f.next else { f with op := none }.begin again }.raise r

/-- A sector erase completes: its SECTOR entry is written directly after it (R462), unless the undervoltage detector has tripped. -/
def Flash.erased (f : Flash) (r : Region) (k : Nat) : Flash :=
  let n := f.erases r k
  let f := { f with entries := f.entries.filter (fun e => !(decide (e.region = r) && e.sector == k)), op := none }
  if f.tripped then { f with entries := f.entries ++ [noSector r k n] }.next
  else { f with nextSeq := f.nextSeq + 1 }.begin (.entry ⟨r, k, 0, 0xFF, f.nextSeq, true, true, .sector (n + 1)⟩ 1 false)

/-- Program bytes of a slot: programming only clears bits. -/
def programBytes (t : Tbl Byte) (off : Nat) : List Byte → Tbl Byte
  | [] => t
  | b :: bs => programBytes (t.set 0xFF#8 off (t.get 0xFF#8 off &&& b)) (off + 1) bs

/-- FLASH_OPERATION_DONE (R460): a step of an entry, an erase or a slot's programming completes; `ok` is the outcome of the checks of
steps 3 and 4. -/
def execFlashOperationDone (ok : Bool) (s : State) : Answer :=
  .next (match s.flash.op with
    | none => s
    | some (.entry e st second) =>
      if st < 3 then { s with flash := { s.flash with op := some (.entry e (st + 1) second) } }
      else if !ok then s.entryFails e st second
      else if st = 3 then { s with flash := { s.flash with op := some (.entry e 4 second) } }
      else s.entryDone e
    | some (.eraseSector r k) => { s with flash := s.flash.erased r k }
    | some (.eraseSlot k) =>
      let f := s.flash
      { s with flash := (if k = 0 then { f with slotA := none, bytesA := [] } else { f with slotB := none, bytesB := [] }).next }
    | some (.programSlot k off bs) =>
      let f := s.flash
      { s with flash := (if k = 0 then { f with bytesA := programBytes f.bytesA off bs }
          else { f with bytesB := programBytes f.bytesB off bs }).next })

/-! ## The boot choice (R461, R462, R466, R469, R470, R473) -/

/-- What the boot ROM chose: the slot, whether it is the other one, whether the preferred one is bootable and cannot read S, and the
maintenance cause (0 for none). -/
structure Choice where
  slot : Nat
  fallback : Bool
  unread : Bool
  mcause : Nat
deriving DecidableEq, Repr

/-- The image of a slot. -/
def Flash.image (f : Flash) (k : Nat) : Option FwImage := if k = 0 then f.slotA else f.slotB

/-- The preferred slot: the one that the newest BOOTHDR entry that counts names, or A. -/
def Flash.preferred (f : Flash) : Nat :=
  match f.newest 4 with
  | some e => (match e.payload with
    | .boothdr k => k % 2
    | _ => 0)
  | none => 0

/-- Whether a slot is bootable, and reads a schema (R468). -/
def State.slotBoots (s : State) (k : Nat) : Bool := ((s.flash.image k).map s.bootable).getD false
def State.slotReads (s : State) (k v : Nat) : Bool := s.slotBoots k && ((s.flash.image k).map (fun i => fwReads i v)).getD false

/-- The table of R469, row by row. -/
def State.bootTable (s : State) : Choice :=
  let p := s.flash.preferred
  let run := if s.slotBoots p then p else 1 - p
  match s.flash.newest 1 with
  | none => ⟨run, false, false, 3⟩
  | some e =>
    let v := e.payload.schema
    if s.slotReads p v then ⟨p, false, false, 0⟩
    else if s.slotReads (1 - p) v then ⟨1 - p, true, s.slotBoots p, 0⟩
    else if s.slotBoots p || s.slotBoots (1 - p) then ⟨run, false, false, 1⟩
    else ⟨0, false, false, 2⟩

/-- Sectors whose SECTOR entry does not count (R462). -/
def Flash.badSectors (f : Flash) : List (Region × Nat) :=
  ((f.entries.filter (fun e => e.payload.kind == 0 && e.page == 0 && !e.counts)).map (fun e => (e.region, e.sector))).eraseDups

/-- The scan of the log regions: entries that fail only COMMIT or PCRC are counted, and sectors without a counting SECTOR entry are
erased again (R461, R462). -/
def State.scanFlash (s : State) : State :=
  let f := s.flash
  let bad := f.badSectors
  let s := s.addf QTZ_FLASH.IGNORED (f.entries.filter (fun e => e.hcrcOk && !e.counts)).length
  let s := s.addf QTZ_FLASH.REERASED bad.length
  { s with flash := bad.foldl (fun f b => f.submit (.eraseSector b.1 b.2)) f }

/-- The newest committed record and STATE entry are applied (R466). -/
def State.applyLog (s : State) : State :=
  let s := match (s.flash.newest 1).map FlashEntry.payload with
    | some (.config r _) => { s with cfg := r }
    | _ => s
  match (s.flash.newest 2).map FlashEntry.payload with
  | some (.state l) => { s with log := l }
  | _ => s

/-- QTZ_BOOT shows the choice, the schema of the record and the range that the running slot reads. -/
def State.showBoot (s : State) (c : Choice) (mcause : Nat) : State :=
  let (lo, hi) := match s.flash.image c.slot with
    | some i => if s.slotBoots c.slot then (i.schemaLo, i.schemaHi) else (0, 0)
    | none => (0, 0)
  let s := ((s.wf QTZ_BOOT.SLOT c.slot).wf QTZ_BOOT.FALLBACK (bit c.fallback)).wf QTZ_BOOT.SCHEMA_UNREAD (bit c.unread)
  let s := ((s.wf QTZ_BOOT.MAINT (bit (mcause != 0))).wf QTZ_BOOT.MCAUSE mcause).wf QTZ_BOOT.SCHEMA
    (((s.flash.newest 1).map (fun e => e.payload.schema)).getD 0)
  (s.wf QTZ_BOOT.SCHEMA_LO lo).wf QTZ_BOOT.SCHEMA_HI hi

/-- The records of a choice (R469, R488). -/
def State.bootRecords (s : State) (c : Choice) (mcause : Nat) : State :=
  let b : Report := { unit := s.bedrockUnit, cls := .perm, code := 0x92, part := none }
  let s := if c.fallback then s.raise { b with synd := [(s.flash.preferred, 1), (s.rf QTZ_BOOT.SCHEMA, 2),
      (s.rf QTZ_BOOT.SCHEMA_LO, 2), (s.rf QTZ_BOOT.SCHEMA_HI, 2)] } else s
  if mcause ≠ 0 then s.raise { b with code := 0x99, synd := [(mcause, 1)] } else s

/-- Ports take role, target and retired lanes from the record and the log (R256, R270, R466). -/
def State.bootPort (s : State) (i : Nat) : State :=
  let (role, target) := s.mapRole i
  let lanes := s.log.retiredLanes.get 0 i
  let s := ((s.wf (ZLK_STATE.ROLE i) role).wf (ZLK_STATE.TARGET i) target).wf (ZLK_STATE.LANES_RET i) lanes
  if lanes = 0 then s
  else if wholeRetired role lanes then s.wf (ZLK_STATE.STATE i) zRETIRED else s.wf (ZLK_STATE.NARROW i) 1

/-- A bundle whose ports are all RETIRED has no UP port from the start (R272). -/
def State.bootBundle (s : State) (i : Nat) : State :=
  if (s.bundle (s.zrole i) (s.ztarget i)).all (fun k => s.zstate k == zRETIRED) then s.emptyBundle i else s

/-- What Bedrock writes once at start beside the ports: transport settings, isolation, failed channels (R252, R289, R431). -/
def State.bootModule (s : State) : State :=
  let r := s.cfg
  let s := ((s.wf ZTP_MCFG.RTO r.rto).wf ZTP_MCFG.UDP_PORT r.udpPort).wf ZTP_MCFG.DSCP r.dscp
  let s := ((s.wf ZTP_MCFG.VLAN_EN (bit r.vlanEn)).wf ZTP_MCFG.VID r.vid).wf ZTP_MCFG.PCP r.pcp
  let s := s.wf BDR_SEC.ISOLATE (bit r.memIsolation)
  s.log.failedChans.foldl (fun s k => s.setChan (k / 32) (k % 32) { s.getChan (k / 32) (k % 32) with st := 3 }) s

/-- A partition at start: held in OFF with its cause, or asking for the wake of its die (R44, R249, R394, R486). -/
def State.bootPart (s : State) (p : Nat) : State :=
  let s := (s.wf (PRT_STATE.STATE p) psOFF).wf (PRT_RST_LOG.SUSPECT p) (bit (s.log.suspect.get 0 p != 0))
  match s.heldOff p with
  | some c => s.wf (PRT_STATE.CAUSE p) c
  | none => s.askDie p

/-- The boot choice is made and the module runs, or enters maintenance mode. -/
def State.bootNow (s : State) : State :=
  let s := s.scanFlash
  let c := s.bootTable
  let mcause := if s.rf QTZ_MON.XTAL = 1 then 4 else c.mcause
  let s := { s with flash := { s.flash with running := c.slot } }.applyLog
  let s := (s.showBoot c mcause).bootRecords c mcause
  let s := if mcause ≠ 0 then { s with boot := .maint, power := { s.power with pwrGd := true } }
    else { (List.range s.fuse.variant.ports).foldl State.bootBundle
             ((List.range s.fuse.variant.ports).foldl State.bootPort s.bootModule) with
           boot := .running, power := { s.power with coreRail := true, pwrGd := true } }
  (List.range 16).foldl State.bootPart s

/-- BOOT_CHOICE (R469): with Bedrock on root ÷ 9, or on the oscillator after the fall-back of R480 or a dead crystal (R477). -/
def execBootChoice (s : State) : Answer :=
  .next (if (s.boot = .rootLocked ∧ (s.rf QTZ_STATUS.MGMT = 1 ∨ s.rf QTZ_STATUS.MGMT_FB = 1)) ∨
      (s.boot = .started ∧ s.rf QTZ_MON.XTAL = 1) then s.bootNow else s)

/-! ## The idle tick (log entry 8) -/

/-- Count a millisecond with K above 0 on every die that skips cycles (PWR_SKIP). -/
def State.countSkips (s : State) : State :=
  (List.range 16).foldl (fun s d => if s.rf (PWR_SKIP.K d) = 0 then s else s.inc (PWR_SKIP.SKIP_MS d)) s

/-- One tick of the time base while the management domain runs: it counts 1, or 3 while coasting (R474); the current and power sensors
read what they read (log entry 30). -/
def State.tick (s : State) : State :=
  if !s.power.mgmt then s
  else
    let n := if s.rf QTZ_STATUS.COAST = 1 then 3 else 1
    let t := s.now
    let (s, i) := s.free
    let (s, w) := s.free
    let s := ((s.wf PWR_STATUS.IRAIL i.toNat).wf PWR_STATUS.PKGW w.toNat).addf QTZ_TB.TICKS n
    if t / 100000 = (t + n) / 100000 then s else s.countSkips

end Sys2Proof.Machine
end

