-- ==== Sys2Proof/Machine/RegWrite.lean ====
section
/-!
DEFINITION. Register writes (R30, R33, R34, R513, R514): the registers whose write is an operation of its own, and all the others. A
Flint store to partition space and the row REGISTER_WRITE both come here.
-/
namespace Sys2Proof.Machine

/-! ## Registers of a partition -/

/-- A write of `k` to PRT_RESET.KIND; RETENANT from a Flint is answered with a bus error, 0 and 3 do nothing. -/
def State.resetWrite (s : State) (a : Agent) (p k : Nat) : State × Bool :=
  if k = 1 then (s.resetRequest p 1, false)
  else if k = 2 then (if isFlint a then (s, true) else (s.resetRequest p 2, false))
  else (s, false)

/-- A write to FLT_Q*x* of core `c`, of which only ERR takes writes (R150). -/
def State.queueWrite (s : State) (p c e v : Nat) : State × Bool :=
  if s.rf (PRT_CLK_EN.FLT p) = 0 then (s, true)
  else (if bitOf v 55 then (s.clearErr p c e).settle p c else s, false)

/-- A write to DSP_GO (R213, R223, R224): any write is refused with a bus error while a round is open or ERR is set, and so is RETURN in a
write that has opened a round. -/
def State.goWrite (s : State) (p v : Nat) : State × Bool :=
  if s.rf (PRT_CLK_EN.DSP p) = 0 ∨ s.goRefused p then (s, true)
  else
    let s := if bitOf v 0 then s.openRound p else s
    if !bitOf v 1 then (s, false) else if s.goRefused p then (s, true) else (s.openReturn p, false)

/-- ERRSTAT of the dispatch unit and of communication queue `q` is held until ERR is cleared (R224, R304). -/
def State.errHeld (s : State) (p r q : Nat) : State :=
  if r = 0x09000028 ∧ s.rf (DSP_STATUS.ERR p) = 0 then s.wf (DSP_STATUS.ERRSTAT p) 0
  else if 0x08010000 ≤ r ∧ r < 0x08014000 ∧ r % 0x40 = 8 ∧ s.rf (COL_Q_RANK.ERR p q) = 0 then s.wf (COL_Q_RANK.ERRSTAT p q) 0
  else s

/-- A write to COL_Q`q`_CTRL (R308, R310). -/
def State.ctrlWrite (s : State) (a : Agent) (p q v : Nat) : State × Bool :=
  let (s, e) := if bitOf v 0 then s.openWrite a p q else (s, false)
  if !bitOf v 1 then (s, e)
  else
    let (s, f) := s.closeWrite a p q
    (s, e || f)

/-- A write to COL_Q`q`_SEQ (R303), of which only TAIL takes writes. -/
def State.seqWrite (s : State) (a : Agent) (p q v mask : Nat) : State × Bool :=
  let m := bits mask 0 24
  let tail := mixed (s.rf (COL_Q_SEQ.TAIL p q)) (bits v 0 24) m
  if m = 0 then (s, false) else if s.tailErr a p q tail then (s, true) else (s.tailWrite p q tail, false)

/-- A write to ASY_TAG_CTRL (R321). -/
def State.tagWrite (s : State) (p v : Nat) : State × Bool :=
  if s.rf (PRT_CLK_EN.ASY p) = 0 then (s, true)
  else if !bitOf v 0 then (s, false)
  else if s.rf (ASY_TAG_STATUS.BUSY p) = 1 then (s, true)
  else (s.startTag p, false)

/-- A write to STR_CKPT_CTRL (R369, R373). -/
def State.ckptWrite (s : State) (p v : Nat) : State × Bool :=
  if s.rf (PRT_CLK_EN.STR p) = 0 then (s, true)
  else
    let s := if bitOf v 0 then s.setStrata p { s.getStrata p with snapReq := true } else s
    (if bitOf v 1 then s.setStrata p { s.getStrata p with suspReq := true, suspStop := bitOf v 2 } else s, false)

/-- The engine of an offset of a FLT_Q*x* register in its window. -/
def queueReg (r : Nat) : Option Nat :=
  if r = 0x10 then some 0 else if r = 0x18 then some 1 else if r = 0x20 then some 2 else none

/-- A write of `size` bytes at offset `off` of partition `p`'s register region. Answers whether it draws a bus error. -/
def State.partWrite (s : State) (a : Agent) (p off size : Nat) (v : Word64) : State × Bool :=
  let r := off - off % 8
  let val := placed (off % 8) size v
  let mask := coverMask (off % 8) size
  let flt := r / 0x1000000 == 3 && decide (r % 0x1000000 / 0x10000 < s.lcores p)
  let col := decide (0x08010000 ≤ r ∧ r < 0x08014000)
  let q := (r - 0x08010000) / 0x40
  if r = 0x28 then s.writeEnables p val mask
  else if r = 0x30 then s.resetWrite a p (val % 4)
  else if r = 0x09000020 then s.goWrite p val
  else if r = 0x0B000060 then s.tagWrite p val
  else if r = 0x0A000078 then s.ckptWrite p val
  else if r = 0x0A000040 then (match a with
    | .flint c => s.updateBegin p c (BitVec.ofNat 64 val)
    | _ => (s, s.rf (PRT_CLK_EN.STR p) == 0))
  else if col && r % 0x40 == 0x28 then s.ctrlWrite a p q val
  else if col && r % 0x40 == 0x30 then s.seqWrite a p q val mask
  else match (if flt then queueReg (r % 0x10000) else none) with
  | some e => s.queueWrite p (r % 0x1000000 / 0x10000) e val
  | none =>
    let (s, e) := s.regWrite a p off size v
    (s.errHeld p r q, e)

/-- Whether an access of a size and offset is one that a register takes (R514). -/
def sizeOk (off size : Nat) : Bool := [1, 2, 4, 8].contains size && off % size == 0

/-! ## Registers of the management space and of the queue windows (R438, R439) -/

/-- A write to ZLK_CTRL of port `i`: DISABLE, RETRAIN, UNRETIRE. -/
def State.portWrite (s : State) (a : Agent) (i v mask : Nat) : State :=
  let s := if bitOf mask 1 ∧ bit (bitOf v 1) ≠ s.rf (ZLK_CTRL.DISABLE i) then (execZlkCtrlDisable a i (bitOf v 1) s).stateOr s else s
  let s := if bitOf v 0 then (execZlkCtrlRetrain a i s).stateOr s else s
  if bitOf v 2 then (execZlkCtrlUnretire a i s).stateOr s else s

/-- A write to QTZ_SW0: SEL, then FORCE. -/
def State.sw0Write (s : State) (a : Agent) (v mask : Nat) : State :=
  let s := if bitOf mask 0 then (execClockSwitchRequest a (v % 2) s).stateOr s else s
  if bitOf v 4 then (execSw0Force a s).stateOr s else s

/-- A write of `size` bytes to the management space. The requests of HST_MREQ come as rows of their own. -/
def State.spaceWrite (s : State) (a : Agent) (off size : Nat) (v : Word64) : State :=
  let r := off - off % 8
  let val := placed (off % 8) size v
  let mask := coverMask (off % 8) size
  if r = 0x10 then s
  else if r = 0x00200010 then s.sw0Write a val mask
  else if r / 0x100000 = 4 ∧ r % 0x100 = 0x20 ∧ r % 0x100000 / 0x100 < s.fuse.variant.ports then s.portWrite a (r % 0x100000 / 0x100) val mask
  else s.mgmtWrite a off size v

/-- A write of `size` bytes to the queue window of PF`n`; the doorbells act when the write covers them whole. -/
def State.windowWrite (s : State) (n off size : Nat) (v : Word64) : State :=
  let r := off - off % 8
  let pos := placed (off % 8) size v % 4096
  if r = 0x18 then s.sqDoorbell n pos
  else if r = 0x20 then s.cqDoorbell n pos
  else s.pfWrite n off size v

/-! ## Meanings -/

/-- Whether the agent of a write exists. -/
def State.agentOk (s : State) (p : Nat) : Agent → Bool
  | .flint c => decide (c < s.lcores p)
  | _ => true

/-- REGISTER_WRITE (R19, R33, R34, R438, R439, R513, R514): no PCIe function reaches a partition's registers, and no Flint reaches the
others. A size or offset that no register takes draws a bus error. -/
def execRegisterWrite (a : Agent) (sp : RegSpace) (off size : Nat) (v : Word64) (s : State) : Answer :=
  match sp with
  | .part p =>
    if 16 ≤ p ∨ !s.agentOk p a then .fault .noSuchUnit
    else if a = .pf16 then .next s
    else if !sizeOk off size then .next (s.busErr p (regBase + off))
    else
      let (t, e) := s.partWrite a p off size v
      .next (t.busErrIf e p (regBase + off))
  | .mgmt => .next (if isFlint a ∨ !sizeOk off size then s else s.spaceWrite a off size v)
  | .pfWin n => if 16 ≤ n then .fault .noSuchUnit else .next (if isFlint a ∨ !sizeOk off size then s else s.windowWrite n off size v)

/-- QUEUE_ERR_CLEAR (R150): a write of 1 to FLT_Q*x*.ERR. -/
def execQueueErrClear (a : Agent) (p c eng : Nat) (s : State) : Answer :=
  if 3 ≤ eng then .fault .noSuchUnit
  else onCore s p c (if a = .pf16 then s
    else
      let (t, e) := s.queueWrite p c eng (2 ^ 55)
      t.busErrIf e p (regBase + 0x03000010 + 0x10000 * c + 8 * eng))

end Sys2Proof.Machine
end

