-- ==== Sys2Proof/Machine/Flint.lean ====
section
/-!
DEFINITION. The Flint control core (chapter 5): decoding of RV64I, M, C and the command extension (R138, R145), base instructions,
accesses to partition space (R139–R141, R514), halts (R143), and the extension instructions with their waits (R146–R148, R160, R161).
The instruction set that R138 refers to is that of the RISC-V unprivileged specification (log entry 32).
-/
namespace Sys2Proof.Machine

/-! ## Instructions -/

/-- Integer operations of RV64I and M. -/
inductive Alu where
  | add | sub | sll | slt | sltu | xor | srl | sra | or | and
  | mul | mulh | mulhsu | mulhu | div | divu | rem | remu
deriving DecidableEq, Repr

/-- Branch conditions. -/
inductive Cond where
  | eq | ne | lt | ge | ltu | geu
deriving DecidableEq, Repr

/-- Instructions of the command extension (R145). -/
inductive Ext where
  | tque (eng : Nat)
  | twait (eng : Nat)
  | sumrd (slot : Nat)
  | mode (m : Nat)
  | seedld
  | stepb
deriving DecidableEq, Repr

/-- A decoded instruction: `w` marks the 32-bit forms; an operand `imm` is sign-extended; a load of 2^`sz` bytes is signed or not. -/
inductive RInstr where
  | alu (op : Alu) (w : Bool) (rd rs1 rs2 : Nat)
  | aluI (op : Alu) (w : Bool) (rd rs1 : Nat) (imm : Word64)
  | lui (rd : Nat) (imm : Word64)
  | auipc (rd : Nat) (imm : Word64)
  | jal (rd : Nat) (off : Word64)
  | jalr (rd rs1 : Nat) (off : Word64)
  | branch (c : Cond) (rs1 rs2 : Nat) (off : Word64)
  | load (sz : Nat) (signed : Bool) (rd rs1 : Nat) (off : Word64)
  | store (sz rs1 rs2 : Nat) (off : Word64)
  | fence
  | ecall
  | ebreak
  | ext (e : Ext) (rd rs1 : Nat)
deriving DecidableEq, Repr

/-- Sign-extend the low `n` bits of `v`. -/
def sext (n v : Nat) : Word64 := (BitVec.ofNat n v).signExtend 64

/-! ## Decoding of 32-bit encodings -/

/-- Immediates of the formats I, S, B, U and J. -/
def immI (w : Nat) : Word64 := sext 12 (bits w 20 12)
def immS (w : Nat) : Word64 := sext 12 (bits w 7 5 + bits w 25 7 * 2 ^ 5)
def immB (w : Nat) : Word64 := sext 13 (bits w 8 4 * 2 + bits w 25 6 * 2 ^ 5 + bits w 7 1 * 2 ^ 11 + bits w 31 1 * 2 ^ 12)
def immU (w : Nat) : Word64 := sext 32 (bits w 12 20 * 2 ^ 12)
def immJ (w : Nat) : Word64 := sext 21 (bits w 21 10 * 2 + bits w 20 1 * 2 ^ 11 + bits w 12 8 * 2 ^ 12 + bits w 31 1 * 2 ^ 20)

/-- The operation of OP and OP-32 by funct7 and funct3. -/
def aluOp (w : Bool) (f7 f3 : Nat) : Option Alu :=
  match f7, f3 with
  | 0x00, 0 => some .add
  | 0x20, 0 => some .sub
  | 0x00, 1 => some .sll
  | 0x00, 5 => some .srl
  | 0x20, 5 => some .sra
  | 0x01, 0 => some .mul
  | 0x01, 4 => some .div
  | 0x01, 5 => some .divu
  | 0x01, 6 => some .rem
  | 0x01, 7 => some .remu
  | 0x00, 2 => if w then none else some .slt
  | 0x00, 3 => if w then none else some .sltu
  | 0x00, 4 => if w then none else some .xor
  | 0x00, 6 => if w then none else some .or
  | 0x00, 7 => if w then none else some .and
  | 0x01, 1 => if w then none else some .mulh
  | 0x01, 2 => if w then none else some .mulhsu
  | 0x01, 3 => if w then none else some .mulhu
  | _, _ => none

/-- OP-IMM and OP-IMM-32. Shift amounts have 6 bits, in the 32-bit forms 5. -/
def decOpImm (word : Bool) (w rd rs1 f3 : Nat) : Option RInstr :=
  let sh : Word64 := BitVec.ofNat 64 (bits w 20 6)
  let top := bits w 26 6
  let shOk := !word || bits w 25 1 == 0
  match f3 with
  | 0 => some (.aluI .add word rd rs1 (immI w))
  | 1 => if top = 0 ∧ shOk then some (.aluI .sll word rd rs1 sh) else none
  | 5 => if !shOk then none
    else if top = 0 then some (.aluI .srl word rd rs1 sh)
    else if top = 0x10 then some (.aluI .sra word rd rs1 sh) else none
  | 2 => if word then none else some (.aluI .slt false rd rs1 (immI w))
  | 3 => if word then none else some (.aluI .sltu false rd rs1 (immI w))
  | 4 => if word then none else some (.aluI .xor false rd rs1 (immI w))
  | 6 => if word then none else some (.aluI .or false rd rs1 (immI w))
  | 7 => if word then none else some (.aluI .and false rd rs1 (immI w))
  | _ => none

/-- The command extension (R145): rs2 is 0 and unused bits of funct7 are 0. -/
def decExt (f7 rs2 f3 rd rs1 : Nat) : Option RInstr :=
  let e : Option Ext := match f3 with
    | 0 => if f7 < 3 then some (.tque f7) else none
    | 1 => if f7 < 3 then some (.twait f7) else none
    | 2 => if f7 < 8 then some (.sumrd f7) else none
    | 3 => if f7 < 2 then some (.mode f7) else none
    | 4 => if f7 = 0 then some .seedld else none
    | 5 => if f7 = 0 then some .stepb else none
    | _ => none
  if rs2 ≠ 0 then none else e.map (fun x => .ext x rd rs1)

/-- The funct3 and funct7 of an extension instruction (R145). -/
def Ext.funct3 : Ext → Nat
  | .tque _ => 0
  | .twait _ => 1
  | .sumrd _ => 2
  | .mode _ => 3
  | .seedld => 4
  | .stepb => 5
def Ext.funct7 : Ext → Nat
  | .tque e => e
  | .twait e => e
  | .sumrd n => n
  | .mode m => m
  | .seedld => 0
  | .stepb => 0

/-- The values R145 gives the named field: engines 0 to 2, slots 0 to 7, modes 0 and 1. -/
def Ext.ok : Ext → Bool
  | .tque e => decide (e < 3)
  | .twait e => decide (e < 3)
  | .sumrd n => decide (n < 8)
  | .mode m => decide (m < 2)
  | .seedld => true
  | .stepb => true

/-- The word of an extension instruction (R145): R-type with opcode custom-0 and rs2 = 0. -/
def encodeExt (e : Ext) (rd rs1 : Nat) : Nat := 0x0B + rd * 2 ^ 7 + e.funct3 * 2 ^ 12 + rs1 * 2 ^ 15 + e.funct7 * 2 ^ 25

/-- The branch condition of a funct3. -/
def condOf : Nat → Option Cond
  | 0 => some .eq
  | 1 => some .ne
  | 4 => some .lt
  | 5 => some .ge
  | 6 => some .ltu
  | 7 => some .geu
  | _ => none

/-- A 32-bit encoding. -/
def decode32 (w : Nat) : Option RInstr :=
  let rd := bits w 7 5
  let rs1 := bits w 15 5
  let rs2 := bits w 20 5
  let f3 := bits w 12 3
  let f7 := bits w 25 7
  match bits w 0 7 with
  | 0x37 => some (.lui rd (immU w))
  | 0x17 => some (.auipc rd (immU w))
  | 0x6F => some (.jal rd (immJ w))
  | 0x67 => if f3 = 0 then some (.jalr rd rs1 (immI w)) else none
  | 0x63 => (condOf f3).map (fun c => .branch c rs1 rs2 (immB w))
  | 0x03 => if f3 < 7 then some (.load (f3 % 4) (decide (f3 < 4)) rd rs1 (immI w)) else none
  | 0x23 => if f3 < 4 then some (.store f3 rs1 rs2 (immS w)) else none
  | 0x13 => decOpImm false w rd rs1 f3
  | 0x1B => decOpImm true w rd rs1 f3
  | 0x33 => (aluOp false f7 f3).map (fun o => .alu o false rd rs1 rs2)
  | 0x3B => (aluOp true f7 f3).map (fun o => .alu o true rd rs1 rs2)
  | 0x0F => if f3 = 0 then some .fence else none
  | 0x73 => if w = 0x00000073 then some .ecall else if w = 0x00100073 then some .ebreak else none
  | 0x0B => decExt f7 rs2 f3 rd rs1
  | _ => none

/-! ## Decoding of 16-bit encodings -/

/-- A register of the short fields: x8 to x15. -/
def creg (w lo : Nat) : Nat := 8 + bits w lo 3

/-- The 6-bit immediate in bits 12 and [6:2]. -/
def cimm6 (w : Nat) : Nat := bits w 2 5 + bits w 12 1 * 2 ^ 5

/-- Quadrant 0. -/
def decC0 (w f3 : Nat) : Option RInstr :=
  let uw := bits w 6 1 * 4 + bits w 10 3 * 8 + bits w 5 1 * 64
  let ud := bits w 10 3 * 8 + bits w 5 2 * 64
  match f3 with
  | 0 =>
    let n := bits w 6 1 * 4 + bits w 5 1 * 8 + bits w 11 2 * 16 + bits w 7 4 * 64
    if n = 0 then none else some (.aluI .add false (creg w 2) 2 (BitVec.ofNat 64 n))
  | 2 => some (.load 2 true (creg w 2) (creg w 7) (BitVec.ofNat 64 uw))
  | 3 => some (.load 3 true (creg w 2) (creg w 7) (BitVec.ofNat 64 ud))
  | 6 => some (.store 2 (creg w 7) (creg w 2) (BitVec.ofNat 64 uw))
  | 7 => some (.store 3 (creg w 7) (creg w 2) (BitVec.ofNat 64 ud))
  | _ => none

/-- The arithmetic of quadrant 1 (funct3 100). -/
def decCArith (w : Nat) : Option RInstr :=
  let r := creg w 7
  let q := creg w 2
  match bits w 10 2 with
  | 0 => some (.aluI .srl false r r (BitVec.ofNat 64 (cimm6 w)))
  | 1 => some (.aluI .sra false r r (BitVec.ofNat 64 (cimm6 w)))
  | 2 => some (.aluI .and false r r (sext 6 (cimm6 w)))
  | _ => match bits w 12 1, bits w 5 2 with
    | 0, 0 => some (.alu .sub false r r q)
    | 0, 1 => some (.alu .xor false r r q)
    | 0, 2 => some (.alu .or false r r q)
    | 0, _ => some (.alu .and false r r q)
    | _, 0 => some (.alu .sub true r r q)
    | _, 1 => some (.alu .add true r r q)
    | _, _ => none

/-- Quadrant 1. -/
def decC1 (w f3 : Nat) : Option RInstr :=
  let rd := bits w 7 5
  let j := sext 12 (bits w 3 3 * 2 + bits w 11 1 * 16 + bits w 2 1 * 32 + bits w 7 1 * 64 + bits w 6 1 * 128 + bits w 9 2 * 256 +
    bits w 8 1 * 1024 + bits w 12 1 * 2048)
  let b := sext 9 (bits w 3 2 * 2 + bits w 10 2 * 8 + bits w 2 1 * 32 + bits w 5 2 * 64 + bits w 12 1 * 256)
  match f3 with
  | 0 => some (.aluI .add false rd rd (sext 6 (cimm6 w)))
  | 1 => if rd = 0 then none else some (.aluI .add true rd rd (sext 6 (cimm6 w)))
  | 2 => some (.aluI .add false rd 0 (sext 6 (cimm6 w)))
  | 3 =>
    if cimm6 w = 0 then none
    else if rd = 2 then
      some (.aluI .add false 2 2 (sext 10 (bits w 6 1 * 16 + bits w 2 1 * 32 + bits w 5 1 * 64 + bits w 3 2 * 128 + bits w 12 1 * 512)))
    else some (.lui rd (sext 18 (cimm6 w * 2 ^ 12)))
  | 4 => decCArith w
  | 5 => some (.jal 0 j)
  | 6 => some (.branch .eq (creg w 7) 0 b)
  | _ => some (.branch .ne (creg w 7) 0 b)

/-- Quadrant 2. -/
def decC2 (w f3 : Nat) : Option RInstr :=
  let rd := bits w 7 5
  let rs2 := bits w 2 5
  match f3 with
  | 0 => some (.aluI .sll false rd rd (BitVec.ofNat 64 (cimm6 w)))
  | 2 => if rd = 0 then none
    else some (.load 2 true rd 2 (BitVec.ofNat 64 (bits w 4 3 * 4 + bits w 12 1 * 32 + bits w 2 2 * 64)))
  | 3 => if rd = 0 then none
    else some (.load 3 true rd 2 (BitVec.ofNat 64 (bits w 5 2 * 8 + bits w 12 1 * 32 + bits w 2 3 * 64)))
  | 4 =>
    if bits w 12 1 = 0 then
      (if rs2 ≠ 0 then some (.alu .add false rd 0 rs2) else if rd = 0 then none else some (.jalr 0 rd 0#64))
    else if rs2 ≠ 0 then some (.alu .add false rd rd rs2)
    else if rd = 0 then some .ebreak else some (.jalr 1 rd 0#64)
  | 6 => some (.store 2 2 rs2 (BitVec.ofNat 64 (bits w 9 4 * 4 + bits w 7 2 * 64)))
  | 7 => some (.store 3 2 rs2 (BitVec.ofNat 64 (bits w 10 3 * 8 + bits w 7 3 * 64)))
  | _ => none

/-- A 16-bit encoding. -/
def decode16 (w : Nat) : Option RInstr :=
  match bits w 0 2 with
  | 0 => decC0 w (bits w 13 3)
  | 1 => decC1 w (bits w 13 3)
  | 2 => decC2 w (bits w 13 3)
  | _ => none

/-! ## Arithmetic -/

/-- Signed division and remainder of RISC-V: by zero −1 and the dividend; the overflow gives the dividend and 0. -/
def sdivR {n : Nat} (a b : BitVec n) : BitVec n := if b = 0#n then BitVec.allOnes n else a.sdiv b
def sremR {n : Nat} (a b : BitVec n) : BitVec n := if b = 0#n then a else a.srem b
def udivR {n : Nat} (a b : BitVec n) : BitVec n := if b = 0#n then BitVec.allOnes n else a / b
def uremR {n : Nat} (a b : BitVec n) : BitVec n := if b = 0#n then a else a % b

/-- The high half of a product. -/
def mulHigh (a b : Int) : Word64 := BitVec.ofInt 64 ((a * b) / 2 ^ 64)

/-- A 64-bit operation. -/
def alu64 (o : Alu) (a b : Word64) : Word64 :=
  let sh := b.toNat % 64
  match o with
  | .add => a + b
  | .sub => a - b
  | .sll => a <<< sh
  | .slt => BitVec.ofNat 64 (bit (a.slt b))
  | .sltu => BitVec.ofNat 64 (bit (a.ult b))
  | .xor => a ^^^ b
  | .srl => a >>> sh
  | .sra => a.sshiftRight sh
  | .or => a ||| b
  | .and => a &&& b
  | .mul => a * b
  | .mulh => mulHigh a.toInt b.toInt
  | .mulhsu => mulHigh a.toInt b.toNat
  | .mulhu => mulHigh a.toNat b.toNat
  | .div => sdivR a b
  | .divu => udivR a b
  | .rem => sremR a b
  | .remu => uremR a b

/-- A 32-bit operation on the low halves, sign-extended. -/
def alu32 (o : Alu) (x y : Word64) : Word64 :=
  let a : Word32 := x.setWidth 32
  let b : Word32 := y.setWidth 32
  let sh := b.toNat % 32
  let r : Word32 := match o with
    | .add => a + b
    | .sub => a - b
    | .sll => a <<< sh
    | .srl => a >>> sh
    | .sra => a.sshiftRight sh
    | .mul => a * b
    | .div => sdivR a b
    | .divu => udivR a b
    | .rem => sremR a b
    | .remu => uremR a b
    | _ => a
  r.signExtend 64

/-- An operation in either width. -/
def aluRun (o : Alu) (w : Bool) (a b : Word64) : Word64 := if w then alu32 o a b else alu64 o a b

/-- Whether a branch is taken. -/
def condHolds (c : Cond) (a b : Word64) : Bool :=
  match c with
  | .eq => a == b
  | .ne => a != b
  | .lt => a.slt b
  | .ge => !a.slt b
  | .ltu => a.ult b
  | .geu => !a.ult b

/-! ## Fetch (R139) -/

/-- The base addresses of IMEM and DMEM. -/
def imemBase : Nat := 0x8000000000000000
def dmemBase : Nat := 0x8000000000010000

/-- Two bytes of IMEM at an offset. -/
def imem16 (f : Flint) (o : Nat) : Nat := (f.imem.get 0#8 o).toNat + 256 * (f.imem.get 0#8 (o + 1)).toNat

/-- What stands at the pc: an instruction and its length, nothing that can be fetched, or no instruction. -/
inductive Fetched where
  | instr (i : RInstr) (len : Nat)
  | fault
  | illegal
deriving DecidableEq, Repr

/-- Fetch and decode at the pc (R138, R139). -/
def fetchAt (f : Flint) : Fetched :=
  let a := f.pc.toNat
  if a < imemBase ∨ imemBase + 0xFFFE < a then .fault
  else
    let o := a - imemBase
    let h := imem16 f o
    if h % 4 ≠ 3 then (match decode16 h with
      | some i => .instr i 2
      | none => .illegal)
    else if 0xFFFE ≤ o then .fault
    else match decode32 (h + 65536 * imem16 f (o + 2)) with
      | some i => .instr i 4
      | none => .illegal

/-- The value of a register. -/
def xreg (f : Flint) (r : Nat) : Word64 := f.x.get 0#64 r

/-- Whether a Flint issues: it runs, no extension instruction stalls it, no load is in flight, and no suspend image holds the
partition (R141, R142, R373). -/
def State.issues (s : State) (p c : Nat) : Bool :=
  let f := s.getFlint p c
  s.rf (FLT_STATUS.STATE p c) == 1 && f.stall == .none && f.access.all (fun a => !a.load) && !(s.getStrata p).suspRun

/-- Halt with one of the causes 3 to 6 (R143): FATAL 0x21 and the abort wave of the job. -/
def State.flintFault (s : State) (p c cause : Nat) : State :=
  let pc := (s.getFlint p c).pc.toNat % 65536
  (s.haltFlint p c cause).fatal p
    { unit := s.flintUnit p c, cls := .fatal, code := 0x21, part := some p, synd := [(cause, 1), (pc, 2)] }

/-- The causes of R143. -/
def hDONE : Nat := 1
def hBREAK : Nat := 2
def hILLEGAL : Nat := 3
def hMISALIGNED : Nat := 4
def hACCESS : Nat := 5
def hCHECK : Nat := 6

/-- Set the pc. -/
def State.setPcF (s : State) (p c : Nat) (pc : Word64) : State := s.setFlint p c { s.getFlint p c with pc := pc }

/-- Little-endian bytes of IMEM or DMEM as a number. -/
def tblBytes (t : Tbl Byte) (o : Nat) : Nat → Nat
  | 0 => 0
  | n + 1 => (t.get 0#8 o).toNat + 256 * tblBytes t (o + 1) n

/-- Write little-endian bytes. -/
def putBytes (t : Tbl Byte) (o : Nat) : List Byte → Tbl Byte
  | [] => t
  | b :: bs => putBytes (t.set 0#8 o b) (o + 1) bs

/-- Extend a loaded value of 2^`sz` bytes. -/
def extLoad (sz : Nat) (signed : Bool) (v : Nat) : Word64 :=
  if signed then sext (8 * 2 ^ sz) v else BitVec.ofNat 64 (v % 2 ^ (8 * 2 ^ sz))

/-- Where a data address leads (R139). -/
inductive Target where
  | part
  | imem (o : Nat)
  | dmem (o : Nat)
  | none
deriving DecidableEq, Repr

/-- The target of a data address. -/
def target (a : Nat) : Target :=
  if a < 2 ^ 48 then .part
  else if imemBase ≤ a ∧ a < dmemBase then .imem (a - imemBase)
  else if dmemBase ≤ a ∧ a < dmemBase + 0x10000 then .dmem (a - dmemBase)
  else .none

/-! ## FLINT_BASE_INSTRUCTION (R138, R144) -/

/-- Write a register and go on `len` bytes further. -/
def State.wrNext (s : State) (p c rd : Nat) (v : Word64) (len : Nat) : State :=
  let s := s.flintReg p c rd v
  s.setPcF p c ((s.getFlint p c).pc + BitVec.ofNat 64 len)

/-- Execute a base instruction of `len` bytes; a misaligned access or one to no target halts Flint. Instructions with a row of their own
leave the state as it is. -/
def State.baseInstr (s : State) (p c : Nat) (i : RInstr) (len : Nat) : State :=
  let f := s.getFlint p c
  let nxt := f.pc + BitVec.ofNat 64 len
  match i with
  | .alu o w rd a b => s.wrNext p c rd (aluRun o w (xreg f a) (xreg f b)) len
  | .aluI o w rd a v => s.wrNext p c rd (aluRun o w (xreg f a) v) len
  | .lui rd v => s.wrNext p c rd v len
  | .auipc rd v => s.wrNext p c rd (f.pc + v) len
  | .jal rd o => (s.flintReg p c rd nxt).setPcF p c (f.pc + o)
  | .jalr rd a o => (s.flintReg p c rd nxt).setPcF p c ((xreg f a + o) &&& ~~~1#64)
  | .branch k a b o => s.setPcF p c (if condHolds k (xreg f a) (xreg f b) then f.pc + o else nxt)
  | .fence => s.setPcF p c nxt
  | .load sz sg rd a o =>
    let ad := (xreg f a + o).toNat
    match target ad with
    | .part => s
    | .imem k => if ad % 2 ^ sz ≠ 0 then s.flintFault p c hMISALIGNED else s.wrNext p c rd (extLoad sz sg (tblBytes f.imem k (2 ^ sz))) len
    | .dmem k => if ad % 2 ^ sz ≠ 0 then s.flintFault p c hMISALIGNED else s.wrNext p c rd (extLoad sz sg (tblBytes f.dmem k (2 ^ sz))) len
    | .none => s.flintFault p c (if ad % 2 ^ sz ≠ 0 then hMISALIGNED else hACCESS)
  | .store sz a b o =>
    let ad := (xreg f a + o).toNat
    match target ad with
    | .part => s
    | .dmem k => if ad % 2 ^ sz ≠ 0 then s.flintFault p c hMISALIGNED
      else s.setFlint p c { f with dmem := putBytes f.dmem k (leBytes (2 ^ sz) (xreg f b).toNat), pc := nxt }
    | _ => s.flintFault p c (if ad % 2 ^ sz ≠ 0 then hMISALIGNED else hACCESS)
  | .ecall | .ebreak | .ext _ _ _ => s

/-- Whether an instruction is a base instruction: no extension, no ECALL or EBREAK, no access to partition space. -/
def isBase (f : Flint) : RInstr → Bool
  | .load _ _ _ a o => target (xreg f a + o).toNat != .part
  | .store _ a _ o => target (xreg f a + o).toNat != .part
  | .ecall | .ebreak | .ext _ _ _ => false
  | _ => true

/-- FLINT_BASE_INSTRUCTION (R138, R139, R143): `cycles` is what R144 and the fetch make of it. -/
def execFlintBaseInstruction (p c cycles : Nat) (s : State) : Answer :=
  onCore s p c (
    if !s.issues p c then s
    else
      let t := s.addf (FLT_CYC_RUN.CYCLES p c) cycles
      match fetchAt (s.getFlint p c) with
      | .fault => t.flintFault p c hACCESS
      | .illegal => t.flintFault p c hILLEGAL
      | .instr i len => if isBase (s.getFlint p c) i then t.baseInstr p c i len else s)

/-- The instruction at the pc of a Flint that issues, if it is of a row's own kind. -/
def State.nextInstr (s : State) (p c : Nat) : Option (RInstr × Nat) :=
  if !s.issues p c then none
  else match fetchAt (s.getFlint p c) with
  | .instr i len => some (i, len)
  | _ => none

/-- ECALL (R143): halt with cause DONE. -/
def execEcall (p c : Nat) (s : State) : Answer :=
  onCore s p c (match s.nextInstr p c with
  | some (.ecall, _) => s.haltFlint p c hDONE
  | _ => s)

/-- EBREAK (R143): halt with cause BREAK; FLT_STATUS.PC holds its address. -/
def execEbreak (p c : Nat) (s : State) : Answer :=
  onCore s p c (match s.nextInstr p c with
  | some (.ebreak, _) => s.haltFlint p c hBREAK
  | _ => s)

/-! ## Partition space (R30–R33, R139–R141, R514) -/

/-- Put an access in flight. -/
def State.inFlight (s : State) (p c : Nat) (a : Access) : State :=
  let f := s.getFlint p c
  s.setFlint p c { f with access := f.access ++ [a] }

/-- What is read of a register by `n` bytes at `off`: nothing where it is a bus error (R20, R33, R197). -/
def State.readReg (s : State) (p off n : Nat) : Option Nat :=
  match s.regAt p (off - off % 8) with
  | none => none
  | some h =>
    if !s.clocked h || (h.d.name == "MOV_DESC" && n != 8) then none
    else some (s.readHit p h / 2 ^ (8 * (off % 8)) % 2 ^ (8 * n))

/-- The unit of the memory at an address: the tile memory of its core. -/
def State.placeUnit (s : State) (p ad : Nat) : Nat :=
  match s.place p ad with
  | .tile k _ => s.tileUnit p k
  | _ => unitId p 3 0

/-- A load in flight that will deliver `v`, or halt Flint with `fault`. -/
def State.loadDue (s : State) (p c rd ad : Nat) (v : Word64) (fault : Nat) : State := s.inFlight p c ⟨true, rd, v, false, fault, ad⟩

/-- A load from an address that nothing serves: a bus error (R20, R30–R33), delivered as an access fault in its turn (R139, R141). -/
def State.loadBus (s : State) (p c rd ad : Nat) : State := (s.busErr p ad).loadDue p c rd ad 0#64 hACCESS

/-- Read memory for a load: the whole block is read and verified (R140); memory that is not clocked answers with a bus error (R20), a
failed channel is an access fault, an uncorrectable word of tile memory fails the check and starts the abort wave (R167). -/
def State.loadMem (s : State) (p c sz : Nat) (sg : Bool) (rd ad : Nat) (es : List EccWord) : State :=
  if !s.reach p ad then s.loadBus p c rd ad
  else if s.lost p ad then s.loadDue p c rd ad 0#64 hACCESS
  else
    let (s, fatal) := s.eccBlock p ad es
    if fatal then (s.loadDue p c rd ad 0#64 hCHECK).startWave p waveFAULT (s.placeUnit p ad)
    else if s.blockOk p ad then s.loadDue p c rd ad (extLoad sz sg (leNat (s.bytes (memKey p ad) (2 ^ sz)))) 0
  else (s.checkFailRec p (s.flintUnit p c) ad).loadDue p c rd ad 0#64 hCHECK

/-- FLINT_LOAD (R139, R140, R514): the access is in flight until FLINT_ACCESS_COMPLETE. It waits while the mover writes its block
(R195). `es` are the words in error of tile memory (R167). -/
def execFlintLoad (p c cycles : Nat) (es : List EccWord) (s : State) : Answer :=
  onCore s p c (match s.nextInstr p c with
  | some (.load sz sg rd a o, _) =>
    let ad := (xreg (s.getFlint p c) a + o).toNat
    if target ad ≠ .part ∨ (ad % 2 ^ sz = 0 ∧ s.interlocked p ad = true) then s
    else
      let s := s.addf (FLT_CYC_RUN.CYCLES p c) cycles
      if ad % 2 ^ sz ≠ 0 then s.flintFault p c hMISALIGNED
      else match s.place p ad with
      | .checks | .nowhere => s.loadBus p c rd ad
      | .data | .tile _ _ => s.loadMem p c sz sg rd ad es
      | .regs off => match s.readReg p off (2 ^ sz) with
        | some v => s.loadDue p c rd ad (extLoad sz sg v) 0
        | none => s.loadBus p c rd ad
  | _ => s)

/-- Whether a store goes to the descriptor table, an occupancy binding or STR_UPD: a TQUE waits for it (R175, R201, R349). -/
def barrierOff (off : Nat) : Bool :=
  decide (0x05100000 ≤ off ∧ off < 0x05200000) || decide (0x09010000 ≤ off ∧ off < 0x09018000) || off / 8 == 0x0A000040 / 8

/-- A posted store goes on: the pc advances and the access is in flight. -/
def State.storeDue (s : State) (p c ad len : Nat) (barrier : Bool) (fault : Nat) : State :=
  (s.inFlight p c ⟨false, 0, 0#64, barrier, fault, ad⟩).setPcF p c ((s.getFlint p c).pc + BitVec.ofNat 64 len)

/-- A store that a bus error answers, delivered as an access fault in its turn (R139, R141). -/
def State.storeBus (s : State) (p c ad len : Nat) (barrier : Bool) : State := (s.busErr p ad).storeDue p c ad len barrier hACCESS

/-- Store to memory: the block is read and verified, merged and written back with a new check word (R140). -/
def State.storeMem (s : State) (p c ad : Nat) (bs : List Byte) (len : Nat) (es : List EccWord) : State :=
  if !s.reach p ad ∨ s.rtProtected p ad then s.storeBus p c ad len false
  else if s.lost p ad then s.storeDue p c ad len false hACCESS
  else
    let (s, fatal) := s.eccBlock p ad es
    if fatal then (s.storeDue p c ad len false hCHECK).startWave p waveFAULT (s.placeUnit p ad) else
    let (t, ok) := s.mergeWrite p ad bs (.flint c)
    if ok then t.storeDue p c ad len false 0
    else (s.checkFailRec p (s.flintUnit p c) ad).storeDue p c ad len false hCHECK

/-- The newest access in flight will halt Flint with `fault`. -/
def State.faultLast (s : State) (p c fault : Nat) : State :=
  let f := s.getFlint p c
  s.setFlint p c { f with access := f.access.modify (f.access.length - 1) (fun a => { a with fault := fault }) }

/-- FLINT_STORE (R139, R140, R513, R514): it waits while the mover writes its block (R195). A register's other fields act on a store that
a bus error answers for a locked field. -/
def execFlintStore (p c cycles : Nat) (es : List EccWord) (s : State) : Answer :=
  onCore s p c (match s.nextInstr p c with
  | some (.store sz a b o, len) =>
    let f := s.getFlint p c
    let ad := (xreg f a + o).toNat
    if target ad ≠ .part ∨ (ad % 2 ^ sz = 0 ∧ s.interlocked p ad = true) then s
    else
      let s := s.addf (FLT_CYC_RUN.CYCLES p c) cycles
      let bs := leBytes (2 ^ sz) (xreg f b).toNat
      if ad % 2 ^ sz ≠ 0 then s.flintFault p c hMISALIGNED
      else match s.place p ad with
      | .checks | .nowhere => s.storeBus p c ad len false
      | .data | .tile _ _ => s.storeMem p c ad bs len es
      | .regs off =>
        let t := s.storeDue p c ad len (barrierOff off) 0
        let (u, e) := t.partWrite (.flint c) p off (2 ^ sz) (xreg f b)
        if e then (u.busErr p ad).faultLast p c hACCESS else u
  | _ => s)

/-- FLINT_ACCESS_COMPLETE (R141): the oldest access in flight completes; a load delivers its value, and a fault halts Flint. -/
def execFlintAccessComplete (p c cycles : Nat) (s : State) : Answer :=
  onCore s p c (
    let f := s.getFlint p c
    match f.access with
    | [] => s
    | a :: rest =>
      let s := (s.setFlint p c { f with access := rest }).addf (FLT_CYC_RUN.CYCLES p c) cycles
      if a.fault ≠ 0 then s.flintFault p c a.fault
      else if a.load then (match fetchAt f with
        | .instr _ len => s.wrNext p c a.rd a.value len
        | _ => s)
      else s)

/-! ## The command extension (R145–R148, R160, R161) -/

/-- The extension instruction at the pc of a Flint that issues: with its destination and the value of rs1. -/
def State.nextExt (s : State) (p c : Nat) : Option (Ext × Nat × Word64) :=
  match s.nextInstr p c with
  | some (.ext e rd a, _) => some (e, rd, xreg (s.getFlint p c) a)
  | _ => none

/-- Flint stalls in an extension instruction. -/
def State.stallIn (s : State) (p c : Nat) (st : Stall) : State :=
  (s.setFlint p c { s.getFlint p c with stall := st }).wf (FLT_STATUS.STATE p c) 2

/-- Why an operand of `n` bytes at `ad` is no DMEM operand with the given alignment (R143). -/
def dmemFault (ad align n : Nat) : Option Nat :=
  if ad % align ≠ 0 then some hMISALIGNED
  else if dmemBase ≤ ad ∧ ad + n ≤ dmemBase + 0x10000 then none
  else some hACCESS

/-- The eight words of a command in DMEM. -/
def cmdWords (f : Flint) (ad : Nat) : List Word64 := (List.range 8).map (fun i => BitVec.ofNat 64 (tblBytes f.dmem (ad - dmemBase + 8 * i) 8))

/-- The queue entry of an enqueuing instruction: kind 0 TQUE, 1 MODE, 2 SEEDLD. -/
def entryKind (kind : Nat) (ws : List Word64) : QKind :=
  if kind = 0 then .cmd ws else if kind = 1 then .mode (wordAt ws 0).toNat else .seed (wordAt ws 0)

/-- Enqueue and return the sequence number (R146, R147); a seed also holds for the stores enqueued after it, whatever becomes of its
entry (R133; log entry 77). -/
def State.enqueueNow (s : State) (p c eng kind : Nat) (ws : List Word64) (rd : Nat) : State :=
  let (s, sq) := s.enqueue p c eng (entryKind kind ws)
  let s := if kind = 2 then s.setFlint p c { s.getFlint p c with storeSeed := wordAt ws 0 } else s
  ((s.flintReturn p c rd (BitVec.ofNat 64 sq)).addf (FLT_CYC_RUN.CYCLES p c) (if kind = 0 then 2 else 1)).settle p c

/-- Whether an entry may be enqueued: the queue has room, and for a TQUE no store that it waits for is in flight (R146, R175, R201,
R349). -/
def State.mayEnqueue (s : State) (p c eng kind : Nat) : Bool :=
  s.hasRoom p c eng && (kind != 0 || (s.getFlint p c).access.all (fun a => !a.barrierReg))

/-- Enqueue, or stall. -/
def State.enqueueOr (s : State) (p c eng kind : Nat) (ws : List Word64) (rd : Nat) : State :=
  if s.mayEnqueue p c eng kind then s.enqueueNow p c eng kind ws rd else s.stallIn p c (.enqueue eng kind ws rd)

/-- TQUE (R145, R146). -/
def execTque (p c : Nat) (s : State) : Answer :=
  onCore s p c (match s.nextExt p c with
  | some (.tque eng, rd, v) => (match dmemFault v.toNat 64 64 with
    | some k => s.flintFault p c k
    | none => s.enqueueOr p c eng 0 (cmdWords (s.getFlint p c) v.toNat) rd)
  | _ => s)

/-- MODE (R145): an entry of the Garnet queue. -/
def execMode (p c : Nat) (s : State) : Answer :=
  onCore s p c (match s.nextExt p c with
  | some (.mode m, rd, _) => s.enqueueOr p c 0 1 [BitVec.ofNat 64 m] rd
  | _ => s)

/-- SEEDLD (R133, R145): an entry of the Mica queue. -/
def execSeedld (p c : Nat) (s : State) : Answer :=
  onCore s p c (match s.nextExt p c with
  | some (.seedld, rd, v) => s.enqueueOr p c 1 2 [v] rd
  | _ => s)

/-- TQUE_RESUME (R146): room has appeared, or the stores have completed; `stalled` are the cycles on a full queue. -/
def execTqueResume (p c stalled : Nat) (s : State) : Answer :=
  onCore s p c (match (s.getFlint p c).stall with
  | .enqueue eng kind ws rd =>
    if s.mayEnqueue p c eng kind then (s.addf (FLT_CYC_QFULL.CYCLES p c) stalled).enqueueNow p c eng kind ws rd else s
  | _ => s)

/-- The status TWAIT returns (R148). -/
def State.queueStatus (s : State) (p c eng : Nat) : Word64 := BitVec.ofNat 64 (s.getQueue p c eng).firstErr

/-- TWAIT (R148). -/
def execTwait (p c : Nat) (s : State) : Answer :=
  onCore s p c (match s.nextExt p c with
  | some (.twait eng, rd, v) =>
    if s.seqDone p c eng v.toNat then (s.flintReturn p c rd (s.queueStatus p c eng)).inc (FLT_CYC_RUN.CYCLES p c)
    else s.stallIn p c (.twait eng (v.toNat % seqMod) rd)
  | _ => s)

/-- TWAIT_RESUME (R148). -/
def execTwaitResume (p c stalled : Nat) (s : State) : Answer :=
  onCore s p c (match (s.getFlint p c).stall with
  | .twait eng sq rd =>
    if s.seqDone p c eng sq then (s.addf (FLT_CYC_WAIT.CYCLES p c) stalled).flintReturn p c rd (s.queueStatus p c eng) else s
  | _ => s)

/-- SUMRD (R127, R160): begins to wait for the Mica commands enqueued so far that name the slot. -/
def execSumrd (p c : Nat) (s : State) : Answer :=
  onCore s p c (match s.nextExt p c with
  | some (.sumrd slot, rd, v) => (match dmemFault v.toNat 8 24 with
    | some k => s.flintFault p c k
    | none => s.stallIn p c (.sumrd slot v.toNat rd (s.rf (qIssued p c 1))))
  | _ => s)

/-- Whether a queue entry is a Mica command that names a summary slot. -/
def namesSlot (slot : Nat) (k : QKind) : Bool :=
  match k with
  | .cmd ws => fieldOf (wordAt ws 1) 59 58 != 0 && fieldOf (wordAt ws 1) 62 60 == slot
  | _ => false

/-- Words A, B and C of a summary slot, as its registers read (R126, R137). -/
def State.slotWords (s : State) (p c n : Nat) : List Nat :=
  [s.rf (MCA_SUM_A.MAX p c n) + s.rf (MCA_SUM_A.SUM p c n) * 2 ^ 32,
   s.rf (MCA_SUM_B.NNZ p c n) + s.rf (MCA_SUM_B.NONFIN p c n) * 2 ^ 32 + s.rf (MCA_SUM_B.VALID p c n) * 2 ^ 33,
   s.rf (MCA_SUM_C.ARGCOL p c n) + s.rf (MCA_SUM_C.ARGROW p c n) * 2 ^ 30]

/-- SUMRD_RESUME (R127, R160): the three words go to DMEM, and word B is returned. -/
def execSumrdResume (p c stalled : Nat) (s : State) : Answer :=
  onCore s p c (match (s.getFlint p c).stall with
  | .sumrd slot ad rd upto =>
    if (s.getQueue p c 1).entries.any (fun x => namesSlot slot x.kind && seqCovers upto x.seq) then s
    else
      let ws := s.slotWords p c slot
      let f := s.getFlint p c
      let s := s.setFlint p c { f with dmem := putBytes f.dmem (ad - dmemBase) (ws.flatMap (leBytes 8)) }
      (s.addf (FLT_CYC_WAIT.CYCLES p c) stalled).flintReturn p c rd (BitVec.ofNat 64 (ws.getD 1 0))
  | _ => s)

/-- STEPB (R161): begins to wait for every command of its Flint. -/
def execStepb (p c : Nat) (s : State) : Answer :=
  onCore s p c (match s.nextExt p c with
  | some (.stepb, rd, v) => s.stallIn p c (.stepb v rd false 0)
  | _ => s)

/-- The engine of the first queue whose ERR is set. -/
def State.errQueue (s : State) (p c : Nat) : Option Nat := [0, 1, 2].find? (fun e => s.rf (qErr p c e) == 1)

/-- Whether a step number is the one STEPB may report (R161, R345). -/
def State.stepOk (s : State) (p c : Nat) (step : Word64) : Bool :=
  (match (s.getFlint p c).lastStep with
    | some l => step == l + 1#64
    | none => true) && step.toNat == s.rf (STR_STEP.STEP p) + 1

/-- STEPB reports its step to Strata and stalls on until the boundary; the update phase of its Flint ends (R161, R349). -/
def State.reportStep (s : State) (p c : Nat) (step : Word64) (rd : Nat) : State :=
  let s := s.setFlint p c { s.getFlint p c with stall := .stepb step rd true s.now, lastStep := some step, upd := false }
  let x := s.getStrata p
  s.setStrata p { x with reports := c :: x.reports.filter (· != c) }

/-- STEPB_REPORT (R161, R345). With a queue's ERR set it returns that queue's first error status, also where its step number is wrong
(log entry 78). -/
def execStepbReport (p c stalled : Nat) (s : State) : Answer :=
  onCore s p c (match (s.getFlint p c).stall with
  | .stepb step rd false _ =>
    if !s.queuesEmpty p c then s
    else
      let s := s.addf (FLT_CYC_WAIT.CYCLES p c) stalled
      match s.errQueue p c with
      | some e => s.flintReturn p c rd (BitVec.ofNat 64 (s.rf (qErrStat p c e)))
      | none =>
        if s.stepOk p c step then s.reportStep p c step rd
        else (s.flintReturn p c rd (BitVec.ofNat 64 stCHECKFAIL)).startWave p waveFAULT (s.flintUnit p c)
  | _ => s)

end Sys2Proof.Machine
end

