-- ==== Sys2Proof/Machine/Garnet.lean ====
section
/-!
DEFINITION. Garnet passes (chapter 3): geometry (R82–R84), masks (R95, R96), operands (R90–R92, R97–R102, R202–R204), check
groups with commit and recompute (R110–R114), the MODE switch (R85, R86) and gating (R98).
-/
namespace Sys2Proof.Machine

/-! ## Geometry (R82–R84, R104) -/

/-- The K-tile size T. -/
def kTile (fused : Bool) : Nat := if fused then 128 else 64

/-- The accumulator width W of R87 and R104, which is also the logical column count of a pass. -/
def accWidth (fused sparse : Bool) : Nat := (if fused then 128 else 64) * (if sparse then 2 else 1)

/-- The accumulator rows of R84. -/
def accRows (sparse : Bool) : Nat := if sparse then 256 else 512

/-- The key of an accumulator word of an array; in fused mode array 0 has 65,536 words. -/
def accKey (p c a word : Nat) : Nat := 32768 * arrKey p c a + word

/-- An accumulator word: an invalid one reads as +0 (R87). -/
def State.accWord (s : State) (k : Nat) : Word32 := (s.acc.get none k).getD 0#32

/-- Array-cycles: a fused-mode cycle counts 4. -/
def arrayCycles (fused : Bool) (n : Nat) : Nat := if fused then 4 * n else n

/-- The unit ID of an array (R24). -/
def State.garnetUnit (s : State) (p c a : Nat) : Nat := unitId p 0 (s.physCore p c * 4 + a)

/-- Row-wire cycles of `n` vectors (R89, R93, R115). -/
def vectorCycles (sfmt vfmt n : Nat) : Nat :=
  if (sfmt = 7 ∧ vfmt = 7) ∨ (sfmt = 9 ∧ vfmt = 9) then ceilDiv n 2
  else if sfmt = 1 ∨ sfmt = 2 then 4 * n
  else if sfmt = 0 then 16 * n
  else n

/-- The bits below `n` at which a predicate holds, as a mask. -/
def maskOf (n : Nat) (f : Nat → Bool) : Nat := (List.range n).foldl (fun m i => if f i then m + 2 ^ i else m) 0

/-- The set bits of a mask below `n`. -/
def bitsSet (n m : Nat) : List Nat := (List.range n).filter (bitOf m)

/-! ## The pass command (R154) -/

/-- A pass command, field by field. -/
structure PCmd where
  sdesc : Nat
  vdesc : Nat
  arr : Nat
  accum : Bool
  reuse : Bool
  sparse : Bool
  base : Nat
  nvec : Nat
  m0 : Nat
  kt : Nat
  nt : Nat
  rmask : Nat
  cmask : Nat
  rsv : Bool
deriving DecidableEq, Repr

/-- The fields of the eight words. -/
def passCmd (ws : List Word64) : PCmd :=
  let w1 := wordAt ws 1
  let w3 := wordAt ws 3
  { sdesc := fieldOf w1 15 0, vdesc := fieldOf w1 31 16, arr := fieldOf w1 33 32, accum := fieldOf w1 34 34 == 1
    reuse := fieldOf w1 35 35 == 1, sparse := fieldOf w1 36 36 == 1, base := fieldOf w1 45 37, nvec := fieldOf w1 55 46
    m0 := fieldOf (wordAt ws 2) 39 0, kt := fieldOf w3 31 0, nt := fieldOf w3 63 32
    rmask := (wordAt ws 4).toNat + (wordAt ws 5).toNat * 2 ^ 64, cmask := (wordAt ws 6).toNat + (wordAt ws 7).toNat * 2 ^ 64
    rsv := fieldOf w1 63 56 == 0 && fieldOf (wordAt ws 2) 63 40 == 0 }

/-- Whether a queue entry is a pass or store command, by its OP. -/
def garnetOp (ws : List Word64) : Nat := fieldOf (wordAt ws 0) 7 0

/-- Whether an earlier entry holds a later command of arrays `as` back: a MODE that names another mode than the one in force when it
is reached, or a command of one of the arrays not yet started; a store also waits for every earlier store to start (R86, R105). -/
def State.heldBy (s : State) (p c : Nat) (as : List Nat) (store : Bool) (x : QEntry) : Bool :=
  match x.kind with
  | .mode m => m != s.rf (GRN_MODE.MODE p c)
  | .seed _ => false
  | .cmd ws => !x.started && ((s.arraysOf p c ws).any as.contains || (store && garnetOp ws == 0x02))

/-- The entries of the Garnet queue before sequence `sq`. -/
def State.before (s : State) (p c sq : Nat) : List QEntry := (s.getQueue p c 0).entries.takeWhile (fun x => x.seq != sq)

/-- Garnet entry `sq` with operation `op`, if it may start: its waits, the order of R105, the mode switch and the gating of
its arrays allow. -/
def State.garnetEntry (s : State) (p c sq op : Nat) : Option (QEntry × List Word64) :=
  match s.entry p c 0 sq with
  | none => none
  | some x => match x.kind with
    | .cmd ws =>
      let as := s.arraysOf p c ws
      if w0Ok 0 ws && garnetOp ws == op && s.canStart p c x && !(s.before p c sq).any (s.heldBy p c as (op == 0x02)) &&
          (s.clockedArrays p c x).all (fun a => !bitOf (s.rf (GRN_STATUS.GATED p c)) a)
      then some (x, ws) else none
    | _ => none

/-- The BUSY bits follow the started passes and stores. -/
def State.garnetBusy (s : State) (p c : Nat) : State :=
  let g := s.getGarnet p c
  s.wf (GRN_STATUS.BUSY p c) (maskOf 4 (fun a => g.passes.any (fun x => x.arr == a) || g.stores.any (fun x => x.arrs.contains a)))

/-- Put a core's Garnet in place with its BUSY bits. -/
def State.putGarnet (s : State) (p c : Nat) (g : Garnet) : State := (s.setGarnet p c g).garnetBusy p c

/-! ## Masks (R95, R155) -/

/-- The effective row mask of R95. -/
def rowMask (fused : Bool) (m : PCmd) (d : Desc) : Nat :=
  maskOf (kTile fused) (fun i => bitOf m.rmask i && decide (m.kt * kTile fused + i < (d.dim d.orient).ext))

/-- The effective column mask of R95; in fused 2:4 passes bit j governs columns j and j + 128. -/
def colMask (fused : Bool) (m : PCmd) (d : Desc) : Nat :=
  maskOf (accWidth fused m.sparse) (fun j => bitOf m.cmask (j % 128) &&
    decide (m.nt * accWidth fused m.sparse + j < (d.dim (1 - d.orient)).ext))

/-- The vectors that are driven (R96). -/
def drivenVecs (m : PCmd) (d : Desc) : Nat := Nat.min m.nvec (d.rows - m.m0)

/-! ## The stationary load (R88, R97, R101, R202) -/

/-- The coordinates of a stationary cell. -/
def cellCoords (fused : Bool) (m : PCmd) (d : Desc) (i j : Nat) : List Nat :=
  let k := m.kt * kTile fused + i
  let n := m.nt * accWidth fused m.sparse + j
  if d.orient = 0 then [k, n] else [n, k]

/-- The residue modulo 7 of an element's integer significand, the implicit bit included (R109). -/
def residueOf (fmt code : Nat) : Nat :=
  match floatFmt fmt with
  | some f => (bits code 0 f.mb + (if bits code f.mb f.eb = 0 then 0 else 2 ^ f.mb)) % 7
  | none => (toInt (fmtBits fmt) code % 7).toNat

/-- An element with its residue, computed from the bits read (R109). -/
def Desc.held (d : Desc) (e : Elem) : Held := ⟨e, residueOf d.fmt e.code⟩

/-- What loading answers: a failure with its status, or the cells by row * 256 + column (none marks an absent cell). -/
inductive LoadAns where
  | fail (s : State) (st : Nat)
  | ok (s : State) (cells : Tbl (Option Held))

/-- The unmasked cells of a stationary operand: row * 256 + column and local indices; none where one is non-local (R184). -/
def Opnd.cellLocals (o : Opnd) (fused : Bool) (m : PCmd) (rm cm : Nat) : Option (List (Nat × List Nat)) :=
  ((bitsSet 128 rm).flatMap (fun i => (bitsSet 256 cm).map (fun j => (i, j)))).mapM (fun ij =>
    (o.locals (cellCoords fused m o.d ij.1 ij.2)).map (fun l => (ij.1 * 256 + ij.2, l)))

/-- Read the cells of the stationary operand: metadata obeying R102, every block verified. -/
def State.loadCells (s : State) (p c : Nat) (o : Opnd) (ls : List (Nat × List Nat)) (es : List EccWord) : LoadAns :=
  let (s1, st) := s.verify p (s.tileUnit p c) (blocksOfAddrs (ls.flatMap (fun e => s.touched o e.2))) es
  if st ≠ 0 then .fail s1 st
  else if o.d.sparse && ls.any (fun e => !s.absent o e.2 && (let (a, g) := o.metaAt e.2
      let (i0, i1) := metaIdx (s.readBits p (a * 8) 64) g
      !decide (i0 < i1))) then .fail s stCHECKFAIL
  else .ok s1 (ls.map (fun e => (e.1, if s.absent o e.2 then none else some (o.d.held (s.getAt o e.2)))))

/-! ## Streaming (R96, R97, R204) -/

/-- What streaming a group answers. -/
inductive GroupAns where
  | fail (s : State) (st : Nat)
  | ok (s : State) (g : Group)

/-- The streamed elements of vectors `first` to `first + n - 1` for the rows of a mask: vector * 128 + row and local indices; none where
one is non-local (R184). An element outside the extent is not read (R97). -/
def Opnd.groupLocals (o : Opnd) (t m0 kt rm first n : Nat) : Option (List (Nat × List Nat)) :=
  ((List.range n).flatMap (fun v => ((bitsSet t rm).filter (fun i => decide (kt * t + i < o.d.cols))).map (fun i => (v, i)))).mapM
    (fun vi => (o.locals (o.d.coords (m0 + first + vi.1) (kt * t + vi.2))).map (fun l => (vi.1 * 128 + vi.2, l)))

/-- Read the streamed elements of a group: one in an absent tile is not used (R202). A group all of whose elements are absent is not
driven (R204). -/
def State.streamGroup (s : State) (p c t m0 kt rm first n : Nat) (o : Opnd) (es : List EccWord) : GroupAns :=
  match o.groupLocals t m0 kt rm first n with
  | none => .fail s stCHECKFAIL
  | some ls =>
    let (s1, st) := s.verify p (s.tileUnit p c) (blocksOfAddrs (ls.flatMap (fun e => s.touched o e.2))) es
    if st ≠ 0 then .fail s1 st
    else
      let t1 : Tbl (Option Held) := ls.map (fun e => (e.1, if s.absent o e.2 then none else some (o.d.held (s.getAt o e.2))))
      .ok s1 ⟨first, (List.range n).map (fun v => (List.range t).map (fun i => Tbl.get none t1 (v * 128 + i))),
        !(o.bound && !ls.isEmpty && ls.all (fun e => s.absent o e.2))⟩

/-- Read the groups of a pass from vector `first`: `left` vectors remain. -/
def State.streamAll (s : State) (p c t m0 kt rm : Nat) (o : Opnd) (es : List EccWord) : Nat → Nat → Nat → State × Nat × List Group
  | 0, _, _ => (s, stOK, [])
  | f + 1, first, left =>
    if left = 0 then (s, stOK, [])
    else match s.streamGroup p c t m0 kt rm first (Nat.min 64 left) o es with
    | .fail s st => (s, st, [])
    | .ok s g =>
      let (s, st, gs) := s.streamAll p c t m0 kt rm o es f (first + 64) (left - 64)
      (s, st, g :: gs)

/-! ## Starting a pass -/

/-- The conditions on a pass command that need no operand data (R83, R92, R99, R154, R155, R176). -/
def State.passOk (s : State) (p c : Nat) (m : PCmd) : Bool :=
  let so := s.opnd p c m.sdesc
  let vo := s.opnd p c m.vdesc
  let fused := s.fused p c
  m.rsv && decide (1 ≤ m.nvec) && decide (m.base + m.nvec ≤ accRows m.sparse) && (!fused || decide (m.arr = 0)) &&
  s.idxOk p c m.sdesc && s.idxOk p c m.vdesc && decide (so.d.ndim = 2) && so.d.tile && vo.d.tile &&
  !so.d.index && !vo.d.index && so.d.sparse == m.sparse && !vo.d.sparse && !(m.sparse && decide (so.d.fmt = 0)) &&
  pairOk so.d.fmt vo.d.fmt && (!so.d.mx || decide (so.d.orient = 1))

/-- Whether the words of an ACCUM pass are valid, or will be by passes already started on the array (R87). -/
def State.accumOk (s : State) (p c a width base n cm : Nat) : Bool :=
  let g := s.getGarnet p c
  (List.range n).all (fun v => (bitsSet 256 cm).all (fun j =>
    let w := (base + v) * width + j
    (s.acc.get none (accKey p c a w)).isSome ||
    g.passes.any (fun q => q.arr == a && !q.accum && decide (q.base ≤ w / q.width ∧ w / q.width < q.base + q.n) &&
      bitOf q.cmask (w % q.width))))

/-- The groups of a skipped pass: none is driven (R203). -/
def skippedGroups : Nat → Nat → Nat → List Group
  | 0, _, _ => []
  | f + 1, first, left =>
    if left = 0 then [] else ⟨first, List.replicate (Nat.min 64 left) [], false⟩ :: skippedGroups f (first + 64) (left - 64)

/-- Enter a pass whose operands are read: it occupies its array until its last group has committed. -/
def State.enterPass (s : State) (p c : Nat) (q : Pass) (loadCycles : Nat) : State :=
  let s := s.addf (GRN_CYC_LOAD.CYCLES p c) (arrayCycles (s.fused p c) loadCycles)
  if q.groups = [] then s.finish p c 0 q.seq stOK
  else s.putGarnet p c { s.getGarnet p c with passes := (s.getGarnet p c).passes ++ [q] }

/-- What a pass is about to do (R82–R97, R203): its operands, the effective masks, the driven vectors, the local indices of its
stationary cells (none loaded under reuse) and of its streamed elements, whether it is skipped, and the operand left before. -/
structure Plan where
  so : Opnd
  vo : Opnd
  rm : Nat
  cm : Nat
  n : Nat
  cells : Option (List (Nat × List Nat))
  vecs : Option (List (Nat × List Nat))
  skipped : Bool
  old : Option Loaded

/-- The plan of a pass, by the maps as they stand. -/
def State.planOf (s : State) (p c : Nat) (m : PCmd) : Plan :=
  let fused := s.fused p c
  let so := s.opnd p c m.sdesc
  let vo := s.opnd p c m.vdesc
  let old := s.getLoaded p c m.arr
  let rm := Nat.land (rowMask fused m so.d) (if m.reuse then (old.getD {}).rmask else 2 ^ 128 - 1)
  let cm := Nat.land (colMask fused m so.d) (if m.reuse then (old.getD {}).cmask else 2 ^ 256 - 1)
  let n := drivenVecs m vo.d
  let cells := if m.reuse then some [] else so.cellLocals fused m rm cm
  let skipped :=
    if m.reuse then (old.getD {}).skipped || (so.bound && ((bitsSet 128 rm).flatMap (fun i =>
      (bitsSet 256 cm).map (fun j => i * 256 + j))).all (fun k => (Tbl.get none (old.getD {}).cells k).isNone))
    else so.bound && (cells.getD []).all (fun e => s.absent so e.2)
  ⟨so, vo, rm, cm, n, cells, vo.groupLocals (kTile fused) m.m0 m.kt rm 0 n, skipped, old⟩

/-- The map bytes a pass copies when it starts (R201), of its stationary and of its streamed operand. -/
def Plan.smaps (x : Plan) : List Nat := x.so.mapAddrs ((x.cells.getD []).map (·.2))
def Plan.vmaps (x : Plan) : List Nat := if x.skipped then [] else x.vo.mapAddrs ((x.vecs.getD []).map (·.2))

/-- Whether the operand loaded before serves a reuse: of the same format and sparsity (R90). -/
def Plan.reuseOk (x : Plan) (sparse : Bool) : Bool :=
  match x.old with
  | some l => l.fmt == x.so.d.fmt && l.sparse == sparse
  | none => false

/-- Whether every byte that a pass reads of the key/value area lies in the slot of its descriptor (R227). -/
def State.passKv (s : State) (x : Plan) : Bool :=
  s.kvOk x.so ((x.cells.getD []).flatMap (fun e => s.touched x.so e.2)) &&
  (x.skipped || s.kvOk x.vo ((x.vecs.getD []).flatMap (fun e => s.touched x.vo e.2)))

/-- Start a pass whose command is well-formed: test reuse, ACCUM and locality before any access, load the stationary operand, stream
(R87–R97, R184, R203). A pass that fails leaves the operand loaded before in place for a later reuse (log entry 69). -/
def State.passGo (s : State) (p c sq : Nat) (m : PCmd) (es : List EccWord) : State :=
  let fused := s.fused p c
  let t := kTile fused
  let width := accWidth fused m.sparse
  let x := s.planOf p c m
  let fail (s : State) (st : Nat) := s.finish p c 0 sq st
  if m.reuse && !x.reuseOk m.sparse then fail s stCHECKFAIL
  else if m.accum && !s.accumOk p c m.arr width m.base x.n x.cm then fail s stCHECKFAIL
  else match x.cells with
  | none => fail s stCHECKFAIL
  | some ls =>
    if (!x.skipped && x.vecs.isNone) || !s.passKv x then fail s stCHECKFAIL
    else
      match (if m.reuse then .ok s (x.old.getD {}).cells else s.loadCells p c x.so ls es : LoadAns) with
      | .fail s st => fail s st
      | .ok s cells =>
        let kept := cells.filter (fun e => e.2.isSome)
        let put (s : State) : State := if m.reuse then s
          else s.setLoaded p c m.arr (some ⟨x.so.d.fmt, m.sparse, x.skipped, x.rm, x.cm, kept⟩)
        let q : Pass := ⟨sq, m.arr, m.accum, m.base, x.n, width, x.vo.d.fmt, x.so.d.fmt, m.m0, m.kt,
          s.descWords p m.vdesc ++ [x.vo.bind], x.rm, x.cm, kept, s.mapCopy p x.vmaps, [], false, 0, 0⟩
        if x.skipped then
          ((put s).inc (DSP_OCC_SKIP.PASSES p)).enterPass p c { q with groups := skippedGroups 16 0 x.n } 0
        else
          let (s, st, gs) := s.streamAll p c t m.m0 m.kt x.rm x.vo es 16 0 x.n
          if st ≠ 0 then fail s st
          else
            let s := (put s).addf (DSP_OCC_SKIP.GROUPS p) (gs.filter (fun g => !g.driven)).length
            s.enterPass p c { q with groups := gs } (if m.reuse then 0 else t)

/-- GARNET_PASS (R89): `stalled` is the array-cycles the command waited (R116), `es` the words in which SEC-DED finds errors among
those it reads (R167). It waits while the mover writes a map block it reads (R195). -/
def execGarnetPass (p c sq stalled : Nat) (es : List EccWord) (s : State) : Answer :=
  onCore s p c (match s.garnetEntry p c sq 0x01 with
  | none => s
  | some (_, ws) =>
    let m := passCmd ws
    if s.passOk p c m && ((s.planOf p c m).smaps ++ (s.planOf p c m).vmaps).any (s.interlocked p) then s
    else
      let s := (s.start p c 0 sq).addf (GRN_CYC_STALL.CYCLES p c) stalled
      if !s.passOk p c m then s.finish p c 0 sq stCHECKFAIL
      else s.passGo p c sq m es)

/-! ## Check groups (R110–R114) -/

/-- The column sum of a vector in column `j` (R68–R72, R100). -/
def Pass.colSum (q : Pass) (t j : Nat) (vec : List (Option Held)) : Val :=
  columnSum q.sfmt t ((List.range t).map (fun i =>
    match Tbl.get none q.cells (i * 256 + j), vec.getD i none with
    | some w, some a => some ((decodeFmt q.sfmt w.elem.code).scaled q.sfmt w.elem.scale,
        (decodeFmt q.vfmt a.elem.code).scaled q.vfmt a.elem.scale)
    | _, _ => none))

/-- The residue of one product from the residues held beside its operands (R109), with its sign, and its exponent. -/
def Pass.productResidue (q : Pass) (w a : Held) : Nat × Int :=
  let x := (decodeFmt q.sfmt w.elem.code).scaled q.sfmt w.elem.scale
  let y := (decodeFmt q.vfmt a.elem.code).scaled q.vfmt a.elem.scale
  let r := w.res * a.res % 7
  (if xor x.sign y.sign && !isIntFmt q.sfmt then (7 - r) % 7 else r, x.exp + y.exp)

/-- The residue of an exact column sum from the residues of its operands: an alignment shift by s bits multiplies a residue by
2^(s mod 3); the sum stands at the smallest exponent of its products (log entry 70). -/
def Pass.colResidue (q : Pass) (t j : Nat) (vec : List (Option Held)) : Nat :=
  let ps := (List.range t).filterMap (fun i =>
    match Tbl.get none q.cells (i * 256 + j), vec.getD i none with
    | some w, some a => some (q.productResidue w a)
    | _, _ => none)
  let lo := ps.foldl (fun m e => min m e.2) ((ps.headD (0, 0)).2)
  (ps.map (fun e => e.1 * 2 ^ ((e.2 - lo).toNat % 3))).sum % 7

/-- The residue that a check group's operands give at a place, 256 × vector + column (R110). -/
def Pass.expectedAt (q : Pass) (t place : Nat) (g : Group) : Nat :=
  if g.driven then q.colResidue t (place % 256) (g.vecs.getD (place / 256) []) else 0

/-- Commit a group: every unmasked column of its rows takes RNE(acc + sum), from +0 under INIT (R68, R73, R103, R203, R204). -/
def State.commitGroup (s : State) (p c t : Nat) (q : Pass) (g : Group) : State :=
  let ws := (g.vecs.zipIdx).flatMap (fun vi => (bitsSet 256 q.cmask).map (fun j =>
    let k := accKey p c q.arr ((q.base + g.first + vi.2) * q.width + j)
    let old : Val := if q.accum then f32 (s.accWord k) else .fin false 0 0
    let sum : Val := if g.driven then q.colSum t j vi.1 else .fin false 0 0
    (k, toF32 (old.add sum))))
  let macs := if g.driven then g.vecs.length * (bitsSet 128 q.rmask).length * (bitsSet 256 q.cmask).length else 0
  ({ s with acc := ws.foldl (fun (a : Tbl (Option Word32)) (e : Nat × Word32) => a.set none e.1 (some e.2)) s.acc }).addf
    (GRN_MACS.MACS p c) macs

/-- Whether a group is the one at `first`. -/
def isGroup (first : Nat) (g : Group) : Bool := g.first == first

/-- Take a group out of its pass; the pass completes OK with its last group (R111). -/
def State.dropGroup (s : State) (p c sq first : Nat) (recomp : Bool) : State :=
  let g := s.getGarnet p c
  let ps := g.passes.map (fun q => if q.seq = sq
    then { q with groups := q.groups.filter (fun x => !isGroup first x), recomp := recomp } else q)
  let done := ps.any (fun q => q.seq == sq && q.groups.isEmpty)
  let s := s.putGarnet p c { g with passes := ps.filter (fun q => !(q.seq == sq && q.groups.isEmpty)) }
  if done then s.finish p c 0 sq stOK else s

/-- Fail a running pass: it leaves its array and completes with a status; nothing of the group is committed. -/
def State.failPassWith (s : State) (p c sq st : Nat) : State :=
  let g := s.getGarnet p c
  let again := maskOf 4 (fun a => g.passes.any (fun q => q.arr == a && q.seq != sq && q.recomp))
  let s := s.wf (GRN_STATUS.RECOMP p c) again
  (s.putGarnet p c { g with passes := g.passes.filter (fun q => q.seq != sq) }).finish p c 0 sq st

/-- Fail a running pass with CHECKFAIL (R108, R112). -/
def State.failPass (s : State) (p c sq : Nat) : State := s.failPassWith p c sq stCHECKFAIL

/-- One accumulator word in error (R108): array `a`, word number `w` under row width `width`. -/
def State.accEcc1 (s : State) (p c a width w synd : Nat) (fixed : Bool) : State :=
  let r (cls : Cls) : Report :=
    { unit := s.garnetUnit p c a, cls := cls, code := 0x02, part := some p,
      synd := [(a, 1), (w / width, 2), (w % width, 1), (synd, 1)] }
  if fixed then (s.inc (GRN_ACC_ECC.CORR p c)).raise (r .corr) else (s.wf (GRN_ACC_ECC.UNCORR p c) 1).fatal p (r .fatal)

/-- The array a place of an accumulator error names, and its word number: in fused mode array 0 has all words. -/
def accPlace (fused : Bool) (pos : Nat) : Nat × Nat := if fused then (0, pos) else (pos / 32768, pos % 32768)

/-- The errors among the accumulator words a command reads. -/
def accRead (fused : Bool) (reads : Nat → Nat → Bool) (es : List EccWord) : List EccWord :=
  es.filter (fun e => reads (accPlace fused e.pos).1 (accPlace fused e.pos).2)

/-- Accumulator ECC of the words a command reads (R108), each under the array that holds it. -/
def State.accEcc (s : State) (p c width : Nat) (reads : Nat → Nat → Bool) (es : List EccWord) : State :=
  let fused := s.fused p c
  (accRead fused reads es).foldl (fun s e =>
    s.accEcc1 p c (accPlace fused e.pos).1 width (accPlace fused e.pos).2 e.synd e.fixed) s

/-- Whether a group's commit reads an accumulator word: under ACCUM, those of its rows in unmasked columns (R103). -/
def Pass.reads (q : Pass) (g : Group) (a w : Nat) : Bool :=
  q.accum && a == q.arr && decide ((q.base + g.first) * q.width ≤ w ∧ w < (q.base + g.first + g.vecs.length) * q.width) &&
    bitOf q.cmask (w % q.width)

/-- The first started pass of an array. -/
def State.headPass (s : State) (p c a : Nat) : Option Pass := (s.getGarnet p c).passes.find? (fun q => q.arr == a)

/-- Row-wire cycles of a group, 0 when it is not driven. -/
def Pass.groupCycles (q : Pass) (g : Group) : Nat := if g.driven then vectorCycles q.sfmt q.vfmt g.vecs.length else 0

/-- CHECK_GROUP_COMMIT (R110, R111, R114): the next group of the array's oldest pass; while its head group recomputes, the
group after it, whose own mismatch has to wait. `acc` are the accumulator words in error (R108). -/
def execCheckGroupCommit (p c a : Nat) (res : Residue) (acc : List EccWord) (s : State) : Answer :=
  onCore s p c (match s.headPass p c a with
  | none => s
  | some q =>
    match (if q.recomp then q.groups.drop 1 else q.groups) with
    | [] => s
    | g :: _ =>
      let fused := s.fused p c
      let t := kTile fused
      let s1 := s.addf (GRN_CYC_STREAM.CYCLES p c) (arrayCycles fused (q.groupCycles g))
      if (accRead fused (q.reads g) acc).any (fun e => !e.fixed) then (s1.failPass p c q.seq).accEcc p c q.width (q.reads g) acc
      else match res with
      | .agree => ((s1.accEcc p c q.width (q.reads g) acc).commitGroup p c t q g).dropGroup p c q.seq g.first q.recomp
      | .mismatch f place =>
        if q.recomp then s
        else
          let s1 := s1.accEcc p c q.width (q.reads g) acc
          let s1 := (s1.wf (GRN_RES.LAST_ARRAY p c) a).wf (GRN_RES.LAST_ROW p c) (q.base + g.first)
          let s1 := s1.wf (GRN_STATUS.RECOMP p c) (Nat.lor (s1.rf (GRN_STATUS.RECOMP p c)) (2 ^ a))
          let gt := s1.getGarnet p c
          s1.setGarnet p c { gt with passes := gt.passes.map (fun x => if x.seq = q.seq
            then { x with recomp := true, expected := q.expectedAt t place g, found := f } else x) })

/-- The record of a Garnet mismatch (R338). -/
def State.garnetReport (s : State) (p c : Nat) (q : Pass) (g : Group) (e f : Nat) (cls : Cls) : Report :=
  { unit := s.garnetUnit p c q.arr, cls := cls, code := 0x01, part := some p, retry := 1,
    synd := [(q.arr, 1), (q.base + g.first, 2), (e, 1), (f, 1)] }

/-- CHECK_GROUP_RECOMPUTE (R111, R112): the group's vectors are read again from tile memory, through the map bytes the pass copied
(R201), and compared. `acc` and `es` are the words in error of the accumulator and of tile memory (R108, R167). -/
def execCheckGroupRecompute (p c a : Nat) (res : Residue) (acc es : List EccWord) (s : State) : Answer :=
  onCore s p c (match s.headPass p c a with
  | none => s
  | some q =>
    match q.recomp, q.groups with
    | true, g :: _ =>
      let fused := s.fused p c
      let t := kTile fused
      let cyc := arrayCycles fused (q.groupCycles g)
      let s := (s.addf (GRN_CYC_STREAM.CYCLES p c) cyc).addf (GRN_CYC_STALL.CYCLES p c)
        (cyc + arrayCycles fused (if fused then 13 else 12))
      let s := s.wf (GRN_STATUS.RECOMP p c) (s.rf (GRN_STATUS.RECOMP p c) - bits (s.rf (GRN_STATUS.RECOMP p c)) a 1 * 2 ^ a)
      let o := { s.opndOf p c q.vdesc (wordAt q.vdesc 32) with snap := q.vmap }
      match (if g.driven then s.streamGroup p c t q.m0 q.kt q.rmask g.first g.vecs.length o es else .ok s g : GroupAns) with
      | .fail s st => s.failPassWith p c q.seq st
      | .ok s g2 =>
        if (accRead fused (q.reads g) acc).any (fun e => !e.fixed) then (s.failPass p c q.seq).accEcc p c q.width (q.reads g) acc
        else
        let s := s.accEcc p c q.width (q.reads g) acc
        match res with
        | .agree =>
          let s := (s.inc (GRN_RES.TRANS p c)).transRec p (s.garnetReport p c q g q.expected q.found .trans)
          (s.commitGroup p c t q g2).dropGroup p c q.seq g.first false
        | .mismatch f place =>
          let s := ((s.wf (GRN_RES.PERM p c) 1).wf (GRN_RES.LAST_ARRAY p c) a).wf (GRN_RES.LAST_ROW p c) (q.base + g.first)
          let s := (s.failPass p c q.seq).raise (s.garnetReport p c q g (q.expectedAt t place g2) f .perm)
          (s.retireCore p (s.physCore p c)).startWave p waveFAULT (s.garnetUnit p c a)
    | _, _ => s)

/-! ## The mode switch (R85, R86) -/

/-- Every accumulator element of a core becomes invalid and no stationary operand is loaded (R86, R90). -/
def State.clearArrays (s : State) (p c : Nat) : State :=
  { s with acc := s.acc.drop (fun k => k / 131072 == coreKey p c), loaded := s.loaded.drop (fun k => k / 4 == coreKey p c) }

/-- MODE_SWITCH (R86): a MODE at the head of the Garnet queue, every earlier command complete. -/
def execModeSwitch (p c stalled : Nat) (s : State) : Answer :=
  onCore s p c (match (s.getQueue p c 0).entries with
  | [] => s
  | x :: _ => match x.kind with
    | .mode m =>
      if m = s.rf (GRN_MODE.MODE p c) then s.finish p c 0 x.seq stOK
      else
        let s := (s.clearArrays p c).addf (GRN_CYC_STALL.CYCLES p c) stalled
        let s := ((s.wf (GRN_MODE.MODE p c) m).inc (GRN_MODE.SWITCHES p c)).wf (GRN_MODE.SWITCHING p c) 0
        s.finish p c 0 x.seq stOK
    | _ => s)

/-! ## Gating (R98, R485) -/

/-- Whether array `a` has work: a started pass or store, or a queued command of it; in fused mode the four arrays work as one. -/
def State.arrayBusy (s : State) (p c a : Nat) : Bool :=
  (if s.fused p c then s.rf (GRN_STATUS.BUSY p c) != 0 else bitOf (s.rf (GRN_STATUS.BUSY p c)) a) ||
  (s.getQueue p c 0).entries.any (fun x => (s.clockedArrays p c x).contains a)

/-- ARRAY_IDLE_GATE (R98): an idle array is clock-gated; when the last of the four is, the change of current is a request to
the governor (R485). -/
def execArrayIdleGate (p c a : Nat) (s : State) : Answer :=
  onCore s p c (
    let g := s.rf (GRN_STATUS.GATED p c)
    if 4 ≤ a ∨ s.rf (GRN_CFG.IDLE_OFF p c) = 0 ∨ bitOf g a ∨ s.arrayBusy p c a then s
    else
      let s := s.wf (GRN_STATUS.GATED p c) (g + 2 ^ a)
      if g + 2 ^ a = 15 then s.govRequest (.arrays p c false) else s)

/-- ARRAY_WAKE_DONE (R98): the granted ramp of a core's arrays ends; the wait is counted. -/
def execArrayWakeDone (p c waited : Nat) (s : State) : Answer :=
  onCore s p c (
    let g := s.getGarnet p c
    if !g.waking then s
    else ((s.setGarnet p c { g with waking := false }).wf (GRN_STATUS.GATED p c) 0).addf (GRN_CYC_STALL.CYCLES p c) waited)

end Sys2Proof.Machine
end

