-- ==== Sys2Proof/Machine/Transcend.lean ====
section
/-!
DEFINITION. The transcendental functions of Mica (R122, R132): each function's exact value, computed in fixed point with 256
fraction bits, and the result the hardware gives: the open bits of `Config` where they keep the error bound of the table of R122
(2 ulp of FP32; 2^-18 for RNDN), and the exact value rounded once where they do not. So every result is within its bound,
overflows give infinities (R73) and no result is a NaN but those R124 names. Log entry 6.
-/
namespace Sys2Proof.Machine

/-! ## Fixed point: integers that stand for multiples of 2^-256 -/

/-- 1 in fixed point. -/
def fxOne : Int := ((2 ^ 256 : Nat) : Int)

/-- A finite value in fixed point. -/
def Val.toFx (v : Val) : Int :=
  match v with
  | .fin n m e =>
    let a : Int := if 0 ≤ e + 256 then ((m * 2 ^ (e + 256).toNat : Nat) : Int) else ((m / 2 ^ (-(e + 256)).toNat : Nat) : Int)
    if n then -a else a
  | _ => 0

/-- A fixed-point number times `2^k`, as a value. -/
def fxVal (i k : Int) : Val := .fin (decide (i < 0)) i.natAbs (k - 256)

/-- Product and quotient in fixed point. -/
def fxMul (a b : Int) : Int := a * b / fxOne
def fxDiv (a b : Int) : Int := a * fxOne / b

/-- Σ t_n from term `n`, where each term is the last one times `r n`, over `f` terms. -/
def fxSum (r : Nat → Int → Int) : Nat → Nat → Int → Int
  | 0, _, _ => 0
  | f + 1, n, t => t + fxSum r f (n + 1) (r n t)

/-- e^x for |x| < 1. -/
def fxExpSmall (x : Int) : Int := fxSum (fun n t => fxMul t x / ((n : Int) + 1)) 80 0 fxOne

/-- Σ z^(2n+1) / (2n+1) with sign `s` between the terms: artanh for 1, arctan for −1. -/
def fxOddSeries (s z : Int) : Nat → Nat → Int → Int
  | 0, _, _ => 0
  | f + 1, n, t => t / (2 * (n : Int) + 1) + fxOddSeries s z f (n + 1) (s * fxMul t (fxMul z z))

/-- ln y for y from 1 to 2, as 2 artanh((y − 1)/(y + 1)). -/
def fxLnNear (y : Int) : Int :=
  let z := fxDiv (y - fxOne) (y + fxOne)
  2 * fxOddSeries 1 z 90 0 z

/-- ln 2. -/
def fxLn2 : Int := fxLnNear (2 * fxOne)

/-- π by Machin's formula. -/
def fxPi : Int :=
  16 * fxOddSeries (-1) (fxOne / 5) 120 0 (fxOne / 5) - 4 * fxOddSeries (-1) (fxOne / 239) 40 0 (fxOne / 239)

/-- The square root of a fixed-point number. -/
def fxSqrt (x : Int) : Int := (isqrtFrom (x.toNat * 2 ^ 256) 300 0 : Nat)

/-! ## The functions -/

/-- e^x of a fixed-point number: a mantissa and a power of two. -/
def fxExp (x : Int) : Int × Int :=
  let k := (x + fxLn2 / 2) / fxLn2
  (fxExpSmall (x - k * fxLn2), k)

/-- e^−x in fixed point for x ≥ 0; 0 where it is below 2^-250. -/
def fxExpNeg (x : Int) : Int :=
  if 180 * fxOne ≤ x then 0
  else
    let (m, k) := fxExp (-x)
    if 0 ≤ k then m * 2 ^ k.toNat else m / 2 ^ (-k).toNat

/-- e^v. A magnitude of 256 or more is far outside FP32 either way. -/
def exactExp (v : Val) : Val :=
  let x := v.toFx
  if 256 * fxOne ≤ x then .fin false 1 400
  else if x ≤ -256 * fxOne then .fin false 1 (-400)
  else
    let (m, k) := fxExp x
    fxVal m k

/-- ln of a positive value. -/
def exactLn (v : Val) : Val :=
  match v with
  | .fin _ m e =>
    let lg := Nat.log2 m
    fxVal ((e + (lg : Nat)) * fxLn2 + fxLnNear (Val.toFx (.fin false m (-(lg : Nat))))) 0
  | w => w

/-- 1 / √v of a positive value. -/
def exactRsqrt (v : Val) : Val :=
  match v with
  | .fin _ m e =>
    let h : Int := if e % 2 = 0 then e / 2 else (e - 1) / 2
    let m2 := if e % 2 = 0 then m else 2 * m
    .fin false (isqrtFrom (2 ^ 400 / m2) 201 0) (-200 - h)
  | w => w

/-- A fixed-point magnitude with the sign of `v`. -/
def signedFx (v : Val) (i : Int) : Val := fxVal (if v.sign then -i else i) 0

/-- tanh v, by e^−2|v|. -/
def exactTanh (v : Val) : Val :=
  let t := max 1 (fxExpNeg (2 * v.abs.toFx))
  signedFx v (fxDiv (fxOne - t) (fxOne + t))

/-- 1 / (1 + e^−v). -/
def exactSigmoid (v : Val) : Val :=
  let t := max 1 (fxExpNeg v.abs.toFx)
  fxVal (fxDiv (if v.sign then t else fxOne) (fxOne + t)) 0

/-- Σ (−1)^n x^(2n+1) / (n! (2n+1)). -/
def fxErfSum (x2 : Int) : Nat → Nat → Int → Int
  | 0, _, _ => 0
  | f + 1, n, t => t / (2 * (n : Int) + 1) + fxErfSum x2 f (n + 1) (-(fxMul t x2 / ((n : Int) + 1)))

/-- erf v; above 6 it is within 2^-55 of ±1. -/
def exactErf (v : Val) : Val :=
  let x := v.abs.toFx
  signedFx v (if 6 * fxOne ≤ x then fxOne - 1 else
    fxDiv (2 * fxErfSum (fxMul x x) 240 0 x) (fxSqrt fxPi))

/-- Φ of a fixed-point number of magnitude at most 6: 1/2 + Σ (−1)^n y^(2n+1) / (2^n n! (2n+1)) / √(2π). -/
def fxPhi (y : Int) : Int := fxOne / 2 + fxDiv (fxErfSum (fxMul y y / 2) 160 0 y) (fxSqrt (2 * fxPi))

/-- Φ^-1(u) by bisection, from a lower end and a width. -/
def fxPhiInv (u : Int) : Nat → Int → Int → Int
  | 0, lo, w => lo + w / 2
  | f + 1, lo, w => if fxPhi (lo + w / 2) ≤ u then fxPhiInv u f (lo + w / 2) (w / 2) else fxPhiInv u f lo (w / 2)

/-! ## Error bounds -/

/-- Whether an FP32 word lies within `n` units in the last place of an exact value, measured in FP32 at that value. -/
def withinUlps (n : Nat) (x : Val) (c : Word32) : Bool :=
  match x, f32 c with
  | .fin _ m e, .fin _ _ ec =>
    let q : Int := if m = 0 then -149 else max ((Nat.log2 m : Nat) + e - 23) (-149)
    let lo := min (min e ec) q
    decide (((f32 c).atExp lo - x.atExp lo).natAbs ≤ n * 2 ^ (q - lo).toNat)
  | _, _ => false

/-- An FP32 result within 2 ulp of an exact value: the open bits where they keep the bound; an overflow is an infinity (R73). -/
def bounded (x : Val) (c : Word32) : Word32 := if (rnd32 x).finite && withinUlps 2 x c then c else toF32 x

/-- A function of an FP32 word with its exact value and its open bits, within 2 ulp. -/
def boundedBy (exact : Val → Val) (open_ : Word32 → Word32) (x : Word32) : Word32 := bounded (exact (f32 x)) (open_ x)

/-- The u of R132. -/
def uOf (n : Nat) : Val := .fin false (2 * n + 1) (-25)

/-- 5.42, the largest magnitude of RNDN. -/
def phiLimit : Int := 542 * fxOne / 100

/-- RNDN of n = floor(x / 256): Φ^-1(u) within 2^-18 and of magnitude at most 5.42. -/
def rndnOf (n : Nat) : Word32 :=
  let c := Config.rndnBits n
  let y := (f32 c).toFx
  let u := (uOf n).toFx
  let d := fxOne / 2 ^ 18
  if (f32 c).finite && decide (-phiLimit ≤ y ∧ y ≤ phiLimit) && decide (fxPhi (y - d) ≤ u ∧ u ≤ fxPhi (y + d)) then c
  else toF32 (fxVal (fxPhiInv u 64 (-phiLimit) (2 * phiLimit)) 0)

/-- ln u of GUMBEL with all 25 bits of u, within 2 ulp. -/
def lnUOf (n : Nat) : Word32 := bounded (exactLn (uOf n)) (Config.lnU n)

end Sys2Proof.Machine
end

