-- ==== Sys2Proof/Machine/Random.lean ====
section
/-!
DEFINITION. The random-number generator of Mica (R129) and its distributions (R132).
-/
namespace Sys2Proof.Machine

/-- The mixing function `f` of R129. -/
def mixF (x k : Word32) : Word32 :=
  let x := (x ^^^ k) * 0x5A3C96E1#32
  let x := x ^^^ (x >>> 15)
  let x := x * 0x2F1BD7A5#32
  x ^^^ (x >>> 13)

/-- The low and high halves of a 64-bit word. -/
def lo32 (x : Word64) : Word32 := x.setWidth 32
def hi32 (x : Word64) : Word32 := (x >>> 32).setWidth 32

/-- `index_mix` of R129. -/
def indexMix (seed : Word64) (tid : Word32) (row tc : Nat) : Word64 :=
  let lo := lo32 seed
  let hi := hi32 seed
  let c : Word64 := BitVec.ofNat 64 (Nat.lor (row * 2 ^ 24) (tc % 2 ^ 32))
  let step (lr : Word32 × Word32) (k : Word32) : Word32 × Word32 := (lr.2, lr.1 ^^^ mixF lr.2 k)
  let (l, r) := [lo ^^^ tid, hi, lo + rotl32 tid 16, hi ^^^ ~~~tid].foldl step (hi32 c, lo32 c)
  l ++ r

/-- Word `i` of a list of 32-bit words. -/
def word32At (w : List Word32) (i : Nat) : Word32 := w.getD i 0#32

/-- One step of `base_state`: word `j` of round `i`. -/
def baseStep (w : List Word32) (ij : Nat × Nat) : List Word32 :=
  w.set ij.2 (word32At w ij.2 ^^^ mixF (word32At w ((ij.2 + 1) % 4)) (BitVec.ofNat 32 (0x3C6EF372 + 4 * ij.1 + ij.2)))

/-- `base_state` of R129. -/
def baseState (seed : Word64) (tid : Word32) : BitVec 128 :=
  let w := ((List.range 4).flatMap (fun i => (List.range 4).map (fun j => (i, j)))).foldl baseStep
    [lo32 seed, hi32 seed, tid, ~~~tid]
  let b : BitVec 128 := word32At w 3 ++ word32At w 2 ++ word32At w 1 ++ word32At w 0
  if b = 0#128 then 1#128 else b

/-- The bits at places `ps`, added modulo 2. -/
def parityAt (x : BitVec 128) (ps : List Nat) : Bool := ps.foldl (fun b i => xor b (x.getLsbD i)) false

/-- A shift to the right whose new top bit is the parity of the taps, and its mirror. -/
def tapRight (ps : List Nat) (x : BitVec 128) : BitVec 128 := (x >>> 1) ||| (if parityAt x ps then 1#128 <<< 127 else 0#128)
def tapLeft (ps : List Nat) (x : BitVec 128) : BitVec 128 := (x <<< 1) ||| (if parityAt x ps then 1#128 else 0#128)

/-- The word with ones at places `ps`. -/
def onesAt (ps : List Nat) : BitVec 128 := ps.foldl (fun x i => x ||| (1#128 <<< i)) 0#128

/-- A shift whose outgoing bit is added back at places `ps`, to the left and to the right. -/
def backLeft (ps : List Nat) (x : BitVec 128) : BitVec 128 := (x <<< 1) ^^^ (if x.getLsbD 127 then onesAt ps else 0#128)
def backRight (ps : List Nat) (x : BitVec 128) : BitVec 128 := (x >>> 1) ^^^ (if x.getLsbD 0 then onesAt ps else 0#128)

/-- One shift of the register with feedback polynomial x^128 + x^126 + x^101 + x^99 + 1, in one of its eight forms: taps into one bit
or one bit into taps, shifting right or left, for the polynomial read in either direction. Each is linear, and its characteristic
polynomial is that one or its reciprocal, so its period is 2^128 − 1 (log entry 7). -/
def lfsrShiftIn (form : Nat) : BitVec 128 → BitVec 128 :=
  match form % 8 with
  | 0 => tapRight [0, 99, 101, 126]
  | 1 => tapRight [0, 2, 27, 29]
  | 2 => tapLeft [127, 28, 26, 1]
  | 3 => tapLeft [127, 125, 100, 98]
  | 4 => backLeft [0, 99, 101, 126]
  | 5 => backLeft [0, 2, 27, 29]
  | 6 => backRight [127, 28, 26, 1]
  | _ => backRight [127, 125, 100, 98]

/-- One shift of the generator's register. -/
def lfsrShift : BitVec 128 → BitVec 128 := lfsrShiftIn Config.lfsrForm

/-- `n` shifts of the register. -/
def lfsrShifts : Nat → BitVec 128 → BitVec 128
  | 0, x => x
  | n + 1, x => lfsrShift (lfsrShifts n x)

/-- `out` of R129. -/
def rngOut (s : BitVec 128) : Word32 :=
  let a : Word32 := s.setWidth 32
  let b : Word32 := (s >>> 32).setWidth 32
  let c : Word32 := (s >>> 64).setWidth 32
  let d : Word32 := (s >>> 96).setWidth 32
  let x := (b ^^^ rotl32 d 7) * (a ||| 1#32)
  x ^^^ (c >>> 11) ^^^ rotl32 a 19

/-- The random bits of the element at logical row `r` and column `c` (R129): the base state advanced by 2^64 · h steps, then
by c mod 64 steps, of 128 shifts each. -/
def randomBits (seed : Word64) (tid : Word32) (r c : Nat) : Word32 :=
  let h := indexMix seed tid r (c / 64)
  rngOut (lfsrShifts (128 * (2 ^ 64 * h.toNat + c % 64)) (baseState seed tid))

/-- The 16 bits of stochastic rounding (R63, R132). -/
def roundBits (seed : Word64) (tid : Word32) (r c : Nat) : Nat := (randomBits seed tid r c).toNat % 65536

/-- RNDU: floor(x / 256) · 2^-24. -/
def rnduOf (x : Word32) : Word32 := toF32 (.fin false (x.toNat / 256) (-24))

end Sys2Proof.Machine
end

