-- ==== Sys2Proof/Machine/GarnetStore.lean ====
section
/-!
DEFINITION. The Garnet store path and the store-transform unit: K-split combine (R106, R107, R157), bias, transpose,
dimension reorder, tile permutation, conversion and scatter (R185–R191), and the write with new check words (R170).
-/
namespace Sys2Proof.Machine

/-- A store command, field by field (R156). -/
structure SCmd where
  ddesc : Nat
  bdesc : Nat
  arr : Nat
  rowBase : Nat
  nrows : Nat
  ksplit : Nat
  fast : Bool
  sparse : Bool
  m0 : Nat
  n0 : Nat
  fmt : Nat
  rnd : Nat
  sat : Nat
  xpose : Bool
  tperm : Nat
  dreord : Nat
  idesc : Nat
  tid : Word32
  plist : Nat
  rsv : Bool
deriving DecidableEq, Repr

/-- The fields of the eight words. -/
def storeCmd (ws : List Word64) : SCmd :=
  let w1 := wordAt ws 1
  let w4 := wordAt ws 4
  { ddesc := fieldOf w1 15 0, bdesc := fieldOf w1 31 16, arr := fieldOf w1 33 32, rowBase := fieldOf w1 42 34
    nrows := fieldOf w1 52 43, ksplit := fieldOf w1 56 53, fast := fieldOf w1 57 57 == 1, sparse := fieldOf w1 58 58 == 1
    m0 := fieldOf (wordAt ws 2) 39 0, n0 := fieldOf (wordAt ws 3) 39 0
    fmt := fieldOf w4 3 0, rnd := fieldOf w4 4 4, sat := fieldOf w4 5 5, xpose := fieldOf w4 8 8 == 1
    tperm := fieldOf w4 11 9, dreord := fieldOf w4 15 12, idesc := fieldOf w4 31 16, tid := BitVec.ofNat 32 (fieldOf w4 63 32)
    plist := fieldOf (wordAt ws 5) 24 0
    rsv := fieldOf w1 63 59 == 0 && fieldOf (wordAt ws 2) 63 40 == 0 && fieldOf (wordAt ws 3) 63 40 == 0 &&
      fieldOf w4 7 6 == 0 && fieldOf (wordAt ws 5) 63 25 == 0 && wordAt ws 6 == 0#64 && wordAt ws 7 == 0#64 }

/-! ## The region of the destination (R187–R189, R191) -/

/-- Columns of the region before the scatter: W without the transpose, NROWS with it. -/
def SCmd.regionCols (m : SCmd) (w : Nat) : Nat := if m.xpose then m.nrows else w

/-- Rows of the region. -/
def SCmd.regionRows (m : SCmd) (w : Nat) : Nat := if m.xpose then w else m.nrows

/-- First column and first row of the region. -/
def SCmd.col0 (m : SCmd) : Nat := if m.xpose then m.m0 else m.n0
def SCmd.row0 (m : SCmd) : Nat := if m.xpose then m.n0 else m.m0

/-- The dimension reorder of a destination column (R188). -/
def reorder (code x : Nat) : Nat :=
  if code = 0 then x
  else
    let q := 2 ^ code
    x / 64 * 64 + x % 64 % q * (64 / q) + x % 64 / q

/-- The divisor of a tile permutation code. -/
def permDivisor (code : Nat) : Nat :=
  match code with
  | 1 | 2 => 2
  | 3 | 4 => 4
  | _ => 1

/-- The place of tile `t` of `n` (R189). -/
def permTile (code n t : Nat) : Nat :=
  match code with
  | 1 => t % 2 * (n / 2) + t / 2
  | 2 => t % (n / 2) * 2 + t / (n / 2)
  | 3 => t % 4 * (n / 4) + t / 4
  | 4 => t % (n / 4) * 4 + t / (n / 4)
  | 5 => n - 1 - t
  | _ => t

/-- The destination column of region column `x` (counted from 0). -/
def SCmd.destCol (m : SCmd) (w x : Nat) : Nat :=
  let y := reorder m.dreord (m.col0 + x)
  let n := m.regionCols w / 64
  if m.col0 ≤ y ∧ y < m.col0 + n * 64 then m.col0 + permTile m.tperm n ((y - m.col0) / 64) * 64 + (y - m.col0) % 64 else y

/-! ## Conditions before a row is read (R104, R156, R157, R176, R184, R189, R190) -/

/-- A partial of a K-split store (R106). -/
inductive Partial where
  | acc (arr row : Nat)
  | tile (off : Nat)
deriving DecidableEq, Repr

/-- The partials of a store. -/
def State.partialsOf (s : State) (p c : Nat) (m : SCmd) (ws : List Word64) : List Partial :=
  if m.ksplit = 0 then [.acc m.arr m.rowBase]
  else (s.partialList p c ws).map (fun e => if e % 2 = 0 then .acc (bits e 1 2) (bits e 3 9) else .tile (bits e 12 25))

/-- The conditions of R157 on a partial list entry. -/
def entryOk (fused : Bool) (m : SCmd) (w e : Nat) : Bool :=
  decide (e / 2 ^ 37 = 0) &&
  (if e % 2 = 0 then decide (bits e 3 9 + m.nrows ≤ accRows m.sparse) && (!fused || decide (bits e 1 2 = 0))
   else decide (bits e 12 25 % 64 = 0) && decide (bits e 12 25 + m.nrows * w * 4 ≤ 0x1800000))

/-- The partial list lies in tile memory and its entries are permitted. -/
def State.listOk (s : State) (p c : Nat) (fused : Bool) (m : SCmd) (w : Nat) (ws : List Word64) : Bool :=
  decide (m.plist % 8 = 0) && decide (m.plist + 8 * (m.ksplit + 1) ≤ 0x1800000) &&
  (s.partialList p c ws).all (entryOk fused m w)

/-- An optional tile-memory descriptor of a store: 0xFFFF or a valid one, indices or elements as wanted (R176). -/
def State.optDescOk (s : State) (p c i : Nat) (index : Bool) : Bool :=
  i == 0xFFFF || (s.idxOk p c i && (s.opnd p c i).d.tile && (s.opnd p c i).d.index == index)

/-- Every MX block the region's columns touch is covered wholly within the extent (R190). -/
def mxCovered (cols : List Nat) (ext : Nat) : Bool :=
  cols.all (fun x => decide (ext ≤ x) ||
    (List.range 32).all (fun i => decide (ext ≤ x / 32 * 32 + i) || cols.contains (x / 32 * 32 + i)))

/-- Whether every element the store would write, and every bias and index element it would read, is local (R184); with a
scatter only the columns count (R191). -/
def State.storeLocal (m : SCmd) (w : Nat) (d b i : Opnd) : Bool :=
  let cols := (List.range (m.regionCols w)).map (m.destCol w)
  (if m.idesc = 0xFFFF then
    (List.range (m.regionRows w)).all (fun r => cols.all (fun k => d.d.oob (m.row0 + r) k ||
      (d.locals (d.d.coords (m.row0 + r) k)).isSome))
   else cols.all (fun k => decide (d.d.cols ≤ k) || ((d.d.dims.getLastD ⟨1, 0, 1, 1, 0, 1, false, 1, 1⟩).local d.rank k).isSome)) &&
  (m.bdesc == 0xFFFF || (List.range w).all (fun j => (b.readLocals (0, m.n0 + j)).isSome)) &&
  (m.idesc == 0xFFFF || (List.range (m.regionRows w)).all (fun k => (i.readLocals (0, k)).isSome))

/-- The conditions on a store command before it reads a row. -/
def State.storeOk (s : State) (p c : Nat) (m : SCmd) (ws : List Word64) : Bool :=
  let fused := s.fused p c
  let w := accWidth fused m.sparse
  let d := s.opnd p c m.ddesc
  m.rsv && decide (1 ≤ m.nrows) && decide (m.nrows ≤ accRows m.sparse) && (!fused || decide (m.arr = 0)) &&
  (if m.ksplit = 0 then decide (m.rowBase + m.nrows ≤ accRows m.sparse) else s.listOk p c fused m w ws) &&
  decide (m.tperm ≤ 5) && decide (m.dreord ≤ 5) && decide (m.regionCols w % 64 = 0) &&
  decide (m.regionCols w / 64 % permDivisor m.tperm = 0) &&
  s.idxOk p c m.ddesc && d.d.tile && !d.d.index && decide (m.fmt = d.d.fmt) &&
  s.optDescOk p c m.bdesc false && s.optDescOk p c m.idesc true &&
  (!d.d.mx || mxCovered ((List.range (m.regionCols w)).map (m.destCol w)) d.d.cols) &&
  State.storeLocal m w d (s.opnd p c m.bdesc) (s.opnd p c m.idesc)

/-! ## Reading and combining the rows (R87, R104, R106, R107) -/

/-- The tile-memory blocks a store's partial list and tile partials lie in. -/
def SCmd.blocks (m : SCmd) (c w : Nat) (ps : List Partial) : List Nat :=
  let span (a n : Nat) : List Nat := blocksFrom (a / 256 * 256) ((a % 256 + n + 255) / 256)
  (if m.ksplit = 0 then [] else span (tileBase c + m.plist) (8 * (m.ksplit + 1))) ++
  ps.flatMap (fun x => match x with
    | .acc _ _ => []
    | .tile off => span (tileBase c + off) (m.nrows * w * 4))

/-- Element (row, column) of a partial. -/
def State.partialWord (s : State) (p c w : Nat) (x : Partial) (r j : Nat) : Word32 :=
  match x with
  | .acc a row => s.accWord (accKey p c a ((row + r) * w + j))
  | .tile off => BitVec.ofNat 32 (leNat (s.bytes (memKey p (tileBase c + off + (r * w + j) * 4)) 4))

/-- Combine partials: by the tree of R75, or one after another in completion order. -/
def combinePartials (fast : Bool) (l : List Word32) : Word32 :=
  if fast then (match l with
    | [] => 0#32
    | x :: xs => xs.foldl addF32 x)
  else tree addF32 0#32 l

/-- The partials in the order named, those not named after them. -/
def inOrder {α : Type} (l : List α) (order : List Nat) : List α :=
  let o := (order.filter (· < l.length)).eraseDups
  o.filterMap (fun i => l[i]?) ++ ((List.range l.length).filter (fun i => !o.contains i)).filterMap (fun i => l[i]?)

/-- The word ranges of the accumulator that a partial reads: array, first word, words. -/
def Partial.span (w n : Nat) : Partial → Option (Nat × Nat × Nat)
  | .acc a row => some (a, row * w, n * w)
  | .tile _ => none

/-- Whether an uncommitted pass overlaps the rows a store reads (R105). -/
def State.rowsPending (s : State) (p c w n : Nat) (ps : List Partial) : Bool :=
  (s.getGarnet p c).passes.any (fun q => ps.any (fun x => match x.span w n with
    | some (a, lo, k) => q.arr == a && decide (q.base * q.width < lo + k ∧ lo < (q.base + q.n) * q.width)
    | none => false))

/-- Whether a store reads accumulator word `x` of array `a`. -/
def storeReads (w n : Nat) (ps : List Partial) (a x : Nat) : Bool :=
  ps.any (fun q => match q.span w n with
    | some (b, lo, k) => a == b && decide (lo ≤ x ∧ x < lo + k)
    | none => false)

/-- The map bytes that the bias and index reads of a store need; it copies them when it starts (R201). -/
def State.storeMaps (s : State) (p c : Nat) (m : SCmd) (w : Nat) : List Nat :=
  let of (i n k0 : Nat) : List Nat :=
    if i = 0xFFFF then []
    else (s.opnd p c i).mapAddrs ((List.range n).filterMap (fun j => ((s.opnd p c i).readLocals (0, k0 + j)).map (·.1)))
  of m.bdesc w m.n0 ++ of m.idesc (m.regionRows w) 0

/-- GARNET_STORE (R104–R107): `stalled` is the array-cycles it waited, `order` the order in which partials became ready, `acc` and `es`
the words in error among the accumulator and tile-memory words it reads (R108, R167). It waits while the mover writes a map block it
reads (R195). -/
def execGarnetStore (p c sq stalled : Nat) (order : List Nat) (acc es : List EccWord) (s : State) : Answer :=
  onCore s p c (match s.garnetEntry p c sq 0x02 with
  | none => s
  | some (x, ws) =>
    let m := storeCmd ws
    let w := accWidth (s.fused p c) m.sparse
    let ps := s.partialsOf p c m ws
    let maps := s.storeMaps p c m w
    if s.rowsPending p c w m.nrows ps || (s.storeOk p c m ws && maps.any (s.interlocked p)) then s
    else
      let s := (s.start p c 0 sq).addf (GRN_CYC_STALL.CYCLES p c) stalled
      if !s.storeOk p c m ws then s.finish p c 0 sq stCHECKFAIL
      else
        let (s1, st) := s.verify p (s.tileUnit p c) (m.blocks c w ps ++ blocksOfAddrs maps) es
        let fused := s.fused p c
        let reads := storeReads w m.nrows ps
        if st ≠ 0 then s1.finish p c 0 sq st
        else if (accRead fused reads acc).any (fun e => !e.fixed) then (s1.finish p c 0 sq stCHECKFAIL).accEcc p c w reads acc
        else
          let s1 := s1.accEcc p c w reads acc
          let fast := m.fast && s1.rf (GRN_CFG.FAST_EN p c) == 1
          let qs := if fast then inOrder ps order else ps
          let rows := (List.range m.nrows).map (fun r => (List.range w).map (fun j =>
            combinePartials fast (qs.map (fun q => s1.partialWord p c w q r j))))
          let s1 := if fast ∧ 1 < ps.length then s1.ndet p .ksplit (ps.length - 1) else s1
          let dw (i : Nat) : List Word64 :=
            if i = 0xFFFF then [] else s1.descWords p i ++ [BitVec.ofNat 64 (s1.rf (DSP_OCC.BIND p i))]
          let g := s1.getGarnet p c
          s1.putGarnet p c { g with stores := g.stores ++
            [⟨sq, ws, s.arraysOf p c ws, dw m.ddesc, dw m.bdesc, dw m.idesc, s1.mapCopy p maps, rows, x.seed⟩] })

/-! ## The store-transform stages (R185–R191) -/

/-- The operand of copied descriptor words. -/
def State.copied (s : State) (p c : Nat) (ws : List Word64) : Opnd := s.opndOf p c ws (wordAt ws 32)

/-- The FP32 value of region position (row, column): accumulator element and bias (R186, R187). -/
def storedVal (m : SCmd) (rows : List (List Word32)) (bias : List Word32) (r k : Nat) : Word32 :=
  let (i, j) := if m.xpose then (k, r) else (r, k)
  let v := (rows.getD i []).getD j 0#32
  match bias[j]? with
  | some b => addF32 v b
  | none => v

/-- The rounding bits of an element at its final coordinates (R190). -/
def SCmd.bitsAt (m : SCmd) (seed : Word64) (r k : Nat) : Nat := if m.rnd = 1 then roundBits seed m.tid r k else 0

/-- The element codes of one region row in destination columns `cols`, at destination row `row`: MX scales are formed over
each block's kept elements (R65, R190, R512). -/
def State.convertRow (s : State) (d : Opnd) (m : SCmd) (seed : Word64) (row : Nat) (cols : List Nat) (vals : List Word32) :
    List Put :=
  let cells := cols.zip vals
  cells.map (fun e =>
    let v := f32 e.2
    if d.d.mx then
      let blk := (List.range 32).filterMap (fun i => (cells.find? (fun x => x.1 == e.1 / 32 * 32 + i)).map (fun x =>
        (x.1, if d.d.oob row x.1 || decide (s.destOf d row x.1 = .pruned) then Val.fin false 0 0 else f32 x.2)))
      let (sc, codes) := mxBlock m.fmt m.rnd (blk.map (·.2)) (blk.map (fun x => m.bitsAt seed row x.1))
      ⟨row, e.1, ⟨codes.getD (blk.findIdx (fun x => x.1 == e.1)) 0, sc⟩, nonzeroF v⟩
    else ⟨row, e.1, ⟨narrow m.fmt m.rnd m.sat (m.bitsAt seed row e.1) v, 0⟩, nonzeroF v⟩)
where
  /-- Not ±0. -/
  nonzeroF (v : Val) : Bool := !v.isZero

/-- Where region row `k` goes: its own row, or the row the index vector gives (R191). -/
inductive RowTo where
  | row (r : Nat)
  | oob
  | nonlocal
deriving DecidableEq, Repr

/-- The destination of a scattered row. -/
def Opnd.scatterTo (o : Opnd) (r : Nat) : RowTo :=
  if o.d.rows ≤ r then .oob
  else if ((o.d.dims.dropLast.zip (o.d.coords r 0)).all (fun e => (e.1.local o.rank e.2).isSome)) then .row r else .nonlocal

/-- Read FP32 values of an operand's elements at positions, as the bias and index reads do. -/
def State.readOr (s : State) (p c : Nat) (ws : List Word64) (maps : List (Nat × Nat)) (rcs : List (Nat × Nat)) (es : List EccWord) :
    ReadAns :=
  if ws = [] then .ok s [] else s.readList (s.tileUnit p c) { s.copied p c ws with snap := maps } rcs es

/-- End a store: it leaves the array and completes. -/
def State.storeEnd (s : State) (p c sq st : Nat) : State :=
  let g := s.getGarnet p c
  (s.putGarnet p c { g with stores := g.stores.filter (fun x => x.seq != sq) }).finish p c 0 sq st

/-- The stages from the bias to the write. The conversion comes before the scatter (R185), so a NaN or an infinity that meets it in a
suppressed row counts in GRN_NONFIN too (R66). -/
def State.storeGo (s : State) (p c : Nat) (x : Store) (es : List EccWord) : State :=
  let m := storeCmd x.words
  let w := accWidth (s.fused p c) m.sparse
  let d := s.copied p c x.ddesc
  match s.readOr p c x.bdesc x.maps ((List.range w).map (fun j => (0, m.n0 + j))) es with
  | .fail s st => s.storeEnd p c x.seq st
  | .ok s bias =>
    match s.readOr p c x.idesc x.maps ((List.range (m.regionRows w)).map (fun k => (0, k))) es with
    | .fail s st => s.storeEnd p c x.seq st
    | .ok s idx =>
      let bd := (s.copied p c x.bdesc).d
      let bv := bias.map (fun g => toF32 (bd.value g.elem))
      let cols := (List.range (m.regionCols w)).map (m.destCol w)
      let rows := (List.range (m.regionRows w)).map (fun k =>
        (k, match idx[k]? with
          | some g => d.scatterTo g.elem.code
          | none => .row (m.row0 + k)))
      let s := s.addf (TLM_SCAT_SUP.OOB p c) (rows.filter (fun e => e.2 == .oob)).length
      let s := s.addf (TLM_SCAT_SUP.NONLOCAL p c) (rows.filter (fun e => e.2 == .nonlocal)).length
      let puts := rows.flatMap (fun e => match e.2 with
        | .row r => s.convertRow d m x.seed r cols ((List.range (m.regionCols w)).map (storedVal m x.rows bv e.1))
        | _ => [])
      let nonfin := isIntFmt m.fmt && rows.any (fun e =>
        (List.range (m.regionCols w)).any (fun k => !(f32 (storedVal m x.rows bv e.1 k)).finite))
      let s := if nonfin then s.inc (GRN_NONFIN.COUNT p c) else s
      match s.build (s.tileUnit p c) d puts es with
      | .fail s st => s.storeEnd p c x.seq st
      | .ok s b =>
        let (s, ok) := s.writeSet p b.t
        s.storeEnd p c x.seq (if ok then stOK else stCHECKFAIL)

/-- GARNET_STORE_COMPLETE (R185): `busy` is the core cycles the store-transform unit held the store, `es` the tile-memory words in
error among those it reads (R167). -/
def execGarnetStoreComplete (p c sq busy : Nat) (es : List EccWord) (s : State) : Answer :=
  onCore s p c (match (s.getGarnet p c).stores.find? (fun x => x.seq == sq) with
  | none => s
  | some x => (s.addf (TLM_STX_BUSY.CYCLES p c) busy).storeGo p c x es)

end Sys2Proof.Machine
end

