-- ==== Sys2Proof/Machine/Mica.lean ====
section
/-!
DEFINITION. Mica (chapter 4): tile registers and operand forms (R117, R158, R516), the operations of R122, reductions (R125),
summaries (R126), TLD and TST (R120, R516), staging with commit and retry (R135, R136), idle gating (R485).
-/
namespace Sys2Proof.Machine

/-! ## The command (R158) -/

/-- A Mica command, field by field. -/
structure MCmd where
  mop : Nat
  subop : Nat
  view : Nat
  dst : Nat
  srca : Nat
  srcb : Nat
  srcc : Nat
  kb : Nat
  kc : Nat
  ka : Nat
  ia : Nat
  ib : Nat
  ic : Nat
  ridx : Nat
  smode : Nat
  slot : Nat
  vrows : Nat
  vcols : Nat
  tdesc : Nat
  tid : Word32
  row0 : Nat
  col0 : Nat
  scal : Word32
  thresh : Nat
  fmt : Nat
  rnd : Nat
  sat : Nat
  rsv : Bool
deriving DecidableEq, Repr

/-- The fields of the eight words. -/
def micaCmd (ws : List Word64) : MCmd :=
  let w1 := wordAt ws 1
  let w2 := wordAt ws 2
  let w5 := wordAt ws 5
  let w6 := wordAt ws 6
  { mop := fieldOf w1 7 0, subop := fieldOf w1 10 8, view := fieldOf w1 11 11, dst := fieldOf w1 15 12
    srca := fieldOf w1 19 16, srcb := fieldOf w1 23 20, srcc := fieldOf w1 27 24
    kb := fieldOf w1 29 28, kc := fieldOf w1 31 30, ka := fieldOf w1 33 32
    ia := fieldOf w1 39 34, ib := fieldOf w1 45 40, ic := fieldOf w1 51 46, ridx := fieldOf w1 57 52
    smode := fieldOf w1 59 58, slot := fieldOf w1 62 60
    vrows := fieldOf w2 6 0, vcols := fieldOf w2 14 7, tdesc := fieldOf w2 31 16, tid := BitVec.ofNat 32 (fieldOf w2 63 32)
    row0 := fieldOf (wordAt ws 3) 39 0, col0 := fieldOf (wordAt ws 4) 39 0
    scal := BitVec.ofNat 32 (fieldOf w5 31 0), thresh := fieldOf w5 63 32
    fmt := fieldOf w6 3 0, rnd := fieldOf w6 4 4, sat := fieldOf w6 5 5
    rsv := fieldOf w1 63 63 == 0 && fieldOf w2 15 15 == 0 && fieldOf (wordAt ws 3) 63 40 == 0 &&
      fieldOf (wordAt ws 4) 63 40 == 0 && fieldOf w6 63 6 == 0 && wordAt ws 7 == 0#64 }

/-- The columns of a tile in the command's view. -/
def MCmd.width (m : MCmd) : Nat := if m.view = 0 then 64 else 128

/-- The conditions of R153 and R158 on every Mica command; `bf` says whether the operation has the BF16 mark of R122. -/
def MCmd.ok (m : MCmd) (bf : Bool) : Bool :=
  m.rsv && decide (1 ≤ m.vrows) && decide (m.vrows ≤ 64) && decide (1 ≤ m.vcols) && decide (m.vcols ≤ m.width) &&
  decide (m.smode ≠ 3) && (decide (m.view = 0) || bf)

/-! ## Tile registers (R117) -/

/-- The key of word (row, word column) of a tile register. -/
def tregKey (p c reg r j : Nat) : Nat := 65536 * coreKey p c + 4096 * reg + 64 * r + j

/-- A word of a tile register. -/
def State.tword (s : State) (p c reg r j : Nat) : Word32 := s.treg.get 0#32 (tregKey p c reg r j)

/-- The raw element (row, column) of a register in a view. -/
def State.telem (s : State) (p c view reg r k : Nat) : Nat :=
  if view = 0 then (s.tword p c reg r k).toNat
  else bits (s.tword p c reg r (k / 2)).toNat (16 * (k % 2)) 16

/-- The value of a raw element in a view: FP32 or BF16. -/
def viewVal (view raw : Nat) : Val := decodeFmt view raw

/-- Round a value into the element of a view (R73). -/
def viewNarrow (view : Nat) (v : Val) : Nat := narrow view 0 0 0 v

/-- An operand element: its raw bits in the view, its value, and whether any bit of it is set. -/
structure MOpnd where
  raw : Nat
  val : Val
deriving DecidableEq, Repr

/-- The operand form of R158: register, row broadcast, column broadcast or scalar. In the BF16 view the FP32 scalar's raw bits, as SEL,
CVT and WIDEN use them, are those of the scalar rounded to BF16 (log entry 71). -/
def State.mopnd (s : State) (p c : Nat) (m : MCmd) (kind src idx r k : Nat) : MOpnd :=
  match kind with
  | 0 => let x := s.telem p c m.view src r k
    ⟨x, viewVal m.view x⟩
  | 1 => let x := s.telem p c m.view src r idx
    ⟨x, viewVal m.view x⟩
  | 2 => let x := s.telem p c m.view src idx k
    ⟨x, viewVal m.view x⟩
  | _ => ⟨if m.view = 0 then m.scal.toNat else viewNarrow 1 (f32 m.scal), f32 m.scal⟩

def State.opA (s : State) (p c : Nat) (m : MCmd) (r k : Nat) : MOpnd := s.mopnd p c m m.ka m.srca m.ia r k
def State.opB (s : State) (p c : Nat) (m : MCmd) (r k : Nat) : MOpnd := s.mopnd p c m m.kb m.srcb m.ib r k
def State.opC (s : State) (p c : Nat) (m : MCmd) (r k : Nat) : MOpnd := s.mopnd p c m m.kc m.srcc m.ic r k

/-! ## What a command would write -/

/-- The element a command writes at a tile position, where it writes one. -/
abbrev Writes := Nat → Nat → Option Nat

/-- The word (row, word column) of a register after the writes of a command. -/
def State.wordAfter (s : State) (p c : Nat) (m : MCmd) (w : Writes) (r j : Nat) : Word32 :=
  let old := (s.tword p c m.dst r j).toNat
  if m.view = 0 then BitVec.ofNat 32 ((w r j).getD old)
  else BitVec.ofNat 32 ((w r (2 * j)).getD (old % 65536) + (w r (2 * j + 1)).getD (old / 65536) * 65536)

/-- The register words of the rows and word columns that a command may write. -/
def State.regWords (s : State) (p c : Nat) (m : MCmd) (w : Writes) : List (Nat × Word32) :=
  (List.range 64).flatMap (fun r => (List.range 64).filterMap (fun j =>
    if (if m.view = 0 then (w r j).isSome else (w r (2 * j)).isSome || (w r (2 * j + 1)).isSome)
    then some (tregKey p c m.dst r j, s.wordAfter p c m w r j) else none))

/-- The writes of an element-wise function over the valid extent (R118). -/
def overValid (m : MCmd) (f : Nat → Nat → Nat) : Writes :=
  fun r k => if r < m.vrows ∧ k < m.vcols then some (f r k) else none

/-! ## Summaries (R126) -/

/-- Greater as a maximum of R77; a NaN is greater than every number. -/
def greater77 (a b : Val) : Bool := (a.isNan && !b.isNan) || (!a.isNan && b.lt77 a)

/-- A number that is not ±0; a NaN counts as non-zero. -/
def nonzeroVal (v : Val) : Bool := !v.isZero

/-- −0 of FP32, the identity of a sum (R125). -/
def negZero : Val := .fin true 0 0

/-- One node of a sum tree. -/
def sumNode (a b : Val) : Val := rnd32 (a.add b)

/-- The written values of a row by the columns of the view; `val` says what value a written element stands for. -/
def rowVals (m : MCmd) (w : Writes) (val : Nat → Val) (r : Nat) : List (Option Val) :=
  (List.range m.width).map (fun k => (w r k).map val)

/-- The summary of the values a command writes: `val` is the value of a written element, `conv` is R66's mark. -/
def summaryOf (m : MCmd) (w : Writes) (val : Nat → Val) (conv : Bool) : Summary :=
  let rows := (List.range 64).map (rowVals m w val)
  let all := rows.flatMap (fun l => l.filterMap id)
  let cells := (List.range 64).flatMap (fun r => (List.range m.width).filterMap (fun k =>
    (w r k).map (fun x => (r, k, val x))))
  let best := cells.foldl (fun (b : Option (Nat × Nat × Val)) e => match b with
    | none => some e
    | some x => if greater77 e.2.2 x.2.2 then some e else b) none
  let rowSums := rows.map (fun l => tree sumNode negZero (l.map (fun o => o.getD negZero)))
  { max := match all with
      | [] => toF32 (.inf true)
      | v :: vs => toF32 (vs.foldl Val.max77 v)
    sum := toF32 (tree sumNode negZero rowSums)
    nnz := (all.filter nonzeroVal).length
    nonfin := all.any (fun v => !v.finite) || conv
    argrow := match best with
      | some (r, _, _) => m.row0 + r
      | none => 0
    argcol := match best with
      | some (_, k, _) => m.col0 + k
      | none => 0
    any := !all.isEmpty }

/-- Write a summary into slot `n` of a core, replacing or folding (R126). -/
def State.putSummary (s : State) (p c n : Nat) (fold : Bool) (x : Summary) : State :=
  let f := fold && s.rf (MCA_SUM_B.VALID p c n) == 1
  let om : Word32 := BitVec.ofNat 32 (s.rf (MCA_SUM_A.MAX p c n))
  let os : Word32 := BitVec.ofNat 32 (s.rf (MCA_SUM_A.SUM p c n))
  let orow := s.rf (MCA_SUM_C.ARGROW p c n)
  let ocol := s.rf (MCA_SUM_C.ARGCOL p c n)
  let newer := greater77 (f32 x.max) (f32 om) ||
    (!greater77 (f32 om) (f32 x.max) &&
      (decide (x.argrow % 2 ^ 34 < orow) || (decide (x.argrow % 2 ^ 34 = orow) && decide (x.argcol % 2 ^ 30 < ocol))))
  let (mx, sm, nz, nf, ar, ac) :=
    if f then (toF32 ((f32 om).max77 (f32 x.max)), addF32 os x.sum, Nat.min (s.rf (MCA_SUM_B.NNZ p c n) + x.nnz) (2 ^ 32 - 1),
      Nat.max (s.rf (MCA_SUM_B.NONFIN p c n)) (bit x.nonfin),
      if newer then x.argrow else orow, if newer then x.argcol else ocol)
    else (x.max, x.sum, x.nnz, bit x.nonfin, x.argrow, x.argcol)
  let s := ((s.wf (MCA_SUM_A.MAX p c n) mx.toNat).wf (MCA_SUM_A.SUM p c n) sm.toNat).wf (MCA_SUM_B.NNZ p c n) nz
  let s := (s.wf (MCA_SUM_B.NONFIN p c n) nf).wf (MCA_SUM_B.VALID p c n) 1
  (s.wf (MCA_SUM_C.ARGROW p c n) ar).wf (MCA_SUM_C.ARGCOL p c n) ac

/-! ## Starting a command -/

/-- What starting a command answers: a failure with its status, or what it would write. -/
inductive MAns where
  | fail (s : State) (st : Nat)
  | staged (s : State) (regs : List (Nat × Word32)) (mem : WriteSet) (w : Writes) (val : Nat → Val) (conv : Bool)

/-- The entry at the head of the Mica queue, if Mica is idle and awake and the entry may start (R119, R151). -/
def State.micaHead (s : State) (p c : Nat) : Option (QEntry × List Word64) :=
  if (s.getStage p c).isSome || s.rf (MCA_STATUS.GATED p c) == 1 then none
  else match s.nextEntry p c 1 with
  | none => none
  | some x => match x.kind with
    | .cmd ws => if s.canStart p c x then some (x, ws) else none
    | _ => none

/-- Start the command at the head of the Mica queue if it is operation (`mop`, `sub`): check its fields, let `body` compute
what it would write, and stage that (R135). `cost` is its time in core cycles. -/
def State.micaStart (s : State) (p c mop sub : Nat) (bf : Bool) (cost : MCmd → Nat) (body : State → MCmd → MAns) : State :=
  match s.micaHead p c with
  | none => s
  | some (x, ws) =>
    let m := micaCmd ws
    if m.mop ≠ mop ∨ m.subop ≠ sub then s
    else
      let s := s.start p c 1 x.seq
      if !m.ok bf then s.finish p c 1 x.seq stCHECKFAIL
      else match body s m with
      | .fail s st => s.finish p c 1 x.seq st
      | .staged s regs mem w val conv =>
        let sm := summaryOf m w val conv
        (s.setStage p c (some ⟨x.seq, m.mop, cost m, regs, mem, some sm, m.smode, m.slot, sm.nonfin, false, 0, 0⟩)).wf
          (MCA_STATUS.BUSY p c) 1

/-- The cost of an element-wise operation of factor `f` (R121). -/
def costOf (f : Nat) (m : MCmd) : Nat := f * Nat.max 1 (ceilDiv (m.vrows * m.vcols) (if m.view = 0 then 256 else 512))

/-- An element-wise operation: the element it writes as a function of the operands at its position. -/
def State.elementwise (p c : Nat) (f : State → MCmd → Nat → Nat → Nat) (s : State) (m : MCmd) : MAns :=
  let w := overValid m (f s m)
  .staged s (s.regWords p c m w) [] w (viewVal m.view) false

/-- An element-wise operation on values that rounds into the view. -/
def State.arith (p c : Nat) (f : Val → Val → Val → Val) (s : State) (m : MCmd) : MAns :=
  State.elementwise p c (fun s m r k =>
    viewNarrow m.view (f (s.opA p c m r k).val (s.opB p c m r k).val (s.opC p c m r k).val)) s m

/-- All ones of the view where a comparison holds. -/
def State.compare (p c : Nat) (f : Val → Val → Bool) (s : State) (m : MCmd) : MAns :=
  State.elementwise p c (fun s m r k =>
    if f (s.opA p c m r k).val (s.opB p c m r k).val then (if m.view = 0 then 0xFFFFFFFF else 0xFFFF) else 0) s m

/-! ## Transcendentals (R124) -/

/-- 1 and −1 and 0.5. -/
def one32 : Word32 := 0x3F800000#32
def negOne32 : Word32 := 0xBF800000#32
def half32 : Word32 := 0x3F000000#32
def inf32 (neg : Bool) : Word32 := if neg then 0xFF800000#32 else 0x7F800000#32

/-- A transcendental: NaN gives the canonical NaN; then −∞, negative finite (none: as computed), −0, +0, +∞ (R124); all else is
the fixed function of the input bits, within its error bound (R122, R123). -/
def special (ninf : Word32) (neg : Option Word32) (nz pz pinf : Word32) (f : Word32 → Word32) (x : Word32) : Word32 :=
  match f32 x with
  | .nan => canonicalNan
  | .inf n => if n then ninf else pinf
  | .fin n m _ => if m = 0 then (if n then nz else pz) else if n then neg.getD (f x) else f x

def expOp : Word32 → Word32 := special 0#32 none one32 one32 (inf32 false) (boundedBy exactExp Config.expBits)
def logOp : Word32 → Word32 := special canonicalNan (some canonicalNan) (inf32 true) (inf32 true) (inf32 false) (boundedBy exactLn Config.logBits)
def rsqrtOp : Word32 → Word32 := special canonicalNan (some canonicalNan) (inf32 true) (inf32 false) 0#32
  (boundedBy exactRsqrt Config.rsqrtBits)
def tanhOp : Word32 → Word32 := special negOne32 none 0x80000000#32 0#32 one32 (boundedBy exactTanh Config.tanhBits)
def erfOp : Word32 → Word32 := special negOne32 none 0x80000000#32 0#32 one32 (boundedBy exactErf Config.erfBits)
def sigmoidOp : Word32 → Word32 := special 0#32 none half32 half32 one32 (boundedBy exactSigmoid Config.sigmoidBits)

/-- A function of the FP32 word of operand A. -/
def State.unary32 (p c : Nat) (f : Word32 → Word32) (s : State) (m : MCmd) : MAns :=
  State.elementwise p c (fun s m r k => (f (BitVec.ofNat 32 (s.opA p c m r k).raw)).toNat) s m

/-! ## CVT and WIDEN (R60–R66, R509, R516) -/

/-- The seed in force (R133). -/
def State.seedOf (s : State) (p c : Nat) : Word64 := BitVec.ofNat 64 (s.rf (MCA_SEED.SEED p c))

/-- The rounding bits of CVT at a tile position. -/
def State.cvtBits (s : State) (p c : Nat) (m : MCmd) (r k : Nat) : Nat :=
  if m.rnd = 1 then roundBits (s.seedOf p c) m.tid (m.row0 + r) (m.col0 + k) else 0

/-- The values of the MX block that holds column `k` in the valid extent, from its first column. -/
def State.cvtBlock (s : State) (p c : Nat) (m : MCmd) (r k : Nat) : List Val × List Nat :=
  let ks := (List.range 32).map (fun i => k / 32 * 32 + i) |>.filter (· < m.vcols)
  (ks.map (fun i => (s.opA p c m r i).val), ks.map (fun i => s.cvtBits p c m r i))

/-- The value of a narrow element held in a register element in the form of R516, scale included. -/
def narrowVal (view fmt raw : Nat) : Val :=
  if fmt = 0 then viewVal view raw else (decodeFmt fmt (raw % 2 ^ fmtBits fmt)).scaled fmt (bits raw 8 8)

/-- One element of CVT in the form of R516; a CVT to FP32 copies its source. -/
def State.cvtElem (s : State) (p c : Nat) (m : MCmd) (r k : Nat) : Nat :=
  if isMx m.fmt then
    (let (vs, rs) := s.cvtBlock p c m r k
     let (sc, codes) := mxBlock m.fmt m.rnd vs rs
     codes.getD (k % 32) 0 + sc * 256)
  else if m.fmt = 0 then (s.opA p c m r k).raw
  else narrow m.fmt m.rnd m.sat (s.cvtBits p c m r k) (s.opA p c m r k).val

/-- CVT (R516, R66). -/
def State.cvtBody (p c : Nat) (s : State) (m : MCmd) : MAns :=
  if 10 ≤ m.fmt ∨ (m.fmt = 0 ∧ m.view = 1) ∨ (isMx m.fmt ∧ m.col0 % 32 ≠ 0) then .fail s stCHECKFAIL
  else
    let w := overValid m (fun r k => s.cvtElem p c m r k)
    let conv := isIntFmt m.fmt && (List.range m.vrows).any (fun r => (List.range m.vcols).any (fun k =>
      !(s.opA p c m r k).val.finite))
    .staged s (s.regWords p c m w) [] w (narrowVal m.view m.fmt) conv

/-- One element of WIDEN: the value of the code and scale that the element holds, rounded into the view; a NaN becomes the canonical
one (R56). -/
def widenElem (view fmt raw : Nat) : Nat := viewNarrow view (narrowVal view fmt raw)

/-- WIDEN (R122, R509). -/
def State.widenBody (p c : Nat) (s : State) (m : MCmd) : MAns :=
  if 10 ≤ m.fmt ∨ (m.fmt = 0 ∧ m.view = 1) then .fail s stCHECKFAIL
  else State.elementwise p c (fun s m r k => widenElem m.view m.fmt (s.opA p c m r k).raw) s m

/-! ## Random operations (R129–R133) -/

/-- A random operation: its descriptor is valid and its tensor within R130; the element is a function of the bits and of
operand A. -/
def State.randomBody (p c : Nat) (f : MCmd → Word32 → MOpnd → Word32) (s : State) (m : MCmd) : MAns :=
  let d := (s.opnd p c m.tdesc).d
  if !s.idxOk p c m.tdesc || decide (2 ^ 40 ≤ d.rows) || decide (2 ^ 30 ≤ d.cols) then .fail s stCHECKFAIL
  else State.elementwise p c (fun s m r k =>
    (f m (randomBits (s.seedOf p c) m.tid (m.row0 + r) (m.col0 + k)) (s.opA p c m r k)).toNat) s m

/-- The negation of an FP32 word, exact. -/
def neg32 (x : Word32) : Word32 := if (f32 x).isNan then canonicalNan else x ^^^ 0x80000000#32

/-- GUMBEL of R132: a + (−LOG(−LOG(u))). -/
def gumbelOf (x : Word32) (a : Word32) : Word32 := addF32 a (neg32 (logOp (neg32 (lnUOf (x.toNat / 256)))))

/-! ## Reductions (R125) -/

/-- The elements of a line, excluded positions marked. -/
def State.lineOf (s : State) (p c : Nat) (m : MCmd) (rows : Bool) (i : Nat) : List (Option Val) :=
  (List.range 64).map (fun j =>
    if rows then (if j < m.vcols then some (s.opA p c m i j).val else none)
    else (if j < m.vrows then some (s.opA p c m j i).val else none))

/-- The index of the lowest maximum of a line (R77), none when nothing is valid. -/
def argMax (l : List (Option Val)) : Option Nat :=
  (l.zipIdx.foldl (fun (b : Option (Val × Nat)) e => match e.1, b with
    | none, _ => b
    | some v, none => some (v, e.2)
    | some v, some x => if greater77 v x.1 then some (v, e.2) else b) none).map (·.2)

/-- The five reductions of a line, as FP32 or integer words; `o` is the logical index of position 0. A logical index beyond 32 bits is
taken modulo 2^32 (log entry 72). -/
def reduceLine (op o : Nat) (l : List (Option Val)) : Word32 :=
  match op with
  | 0 => toF32 (tree sumNode negZero (l.map (fun v => v.getD negZero)))
  | 1 => toF32 (tree Val.max77 (.inf true) (l.map (fun v => v.getD (.inf true))))
  | 2 => toF32 (tree Val.min77 (.inf false) (l.map (fun v => v.getD (.inf false))))
  | 3 => BitVec.ofNat 32 (l.filter (fun v => match v with | some x => nonzeroVal x | none => false)).length
  | _ => match argMax l with
    | some j => BitVec.ofNat 32 (o + j)
    | none => 0xFFFFFFFF#32

/-- A row reduction into column RIDX, or a column reduction into row RIDX. -/
def State.reduceBody (p c op : Nat) (rows : Bool) (s : State) (m : MCmd) : MAns :=
  let w : Writes := fun r k =>
    if rows then (if r < m.vrows ∧ k = m.ridx then some (reduceLine op m.col0 (s.lineOf p c m true r)).toNat else none)
    else (if k < m.vcols ∧ r = m.ridx then some (reduceLine op m.row0 (s.lineOf p c m false k)).toNat else none)
  .staged s (s.regWords p c m w) [] w (viewVal m.view) false

/-! ## TLD and TST (R120, R516) -/

/-- Whether a descriptor may be named by TLD or TST in the command's view. -/
def State.tileDescOk (s : State) (p c : Nat) (m : MCmd) : Bool :=
  let d := (s.opnd p c m.tdesc).d
  s.idxOk p c m.tdesc && d.tile && !(m.view == 1 && (d.index || decide (d.fmt = 0)))

/-- The register element of a stored element (R516). -/
def packElem (d : Desc) (e : Elem) : Nat := e.code + (if d.mx then e.scale * 256 else 0)

/-- The value of a register element that TLD or TST moves in a descriptor's format (R126, R516); an INDEX element counts as the FP32
word it fills (log entry 73). -/
def Desc.regVal (d : Desc) (view raw : Nat) : Val := if d.index then viewVal view raw else narrowVal view d.fmt raw

/-- TLD: the elements of the descriptor at the command's coordinates, clamped and through its map. -/
def State.tldBody (p c : Nat) (es : List EccWord) (s : State) (m : MCmd) : MAns :=
  if !s.tileDescOk p c m then .fail s stCHECKFAIL
  else
    let o := s.opnd p c m.tdesc
    match s.readList (s.tileUnit p c) o (region m.row0 m.col0 m.vrows m.vcols) es with
    | .fail s st => .fail s st
    | .ok s gs =>
      let w := overValid m (fun r k => match gs[r * m.vcols + k]? with
        | some g => packElem o.d g.elem
        | none => 0)
      .staged s (s.regWords p c m w) [] w (o.d.regVal m.view) false

/-- The map bytes a TLD needs; it waits while the mover writes their blocks (R195, R201). -/
def State.tldMaps (s : State) (p c : Nat) (m : MCmd) : List Nat :=
  let o := s.opnd p c m.tdesc
  if s.tileDescOk p c m
  then o.mapAddrs ((region m.row0 m.col0 m.vrows m.vcols).filterMap (fun rc => (o.readLocals rc).map (·.1))) else []

/-- The element TST stores at a tile position: code bits of the element, the scale of the block's lowest valid column. -/
def State.tstElem (s : State) (p c : Nat) (m : MCmd) (d : Desc) (r k : Nat) : Elem :=
  ⟨s.telem p c m.view m.srca r k % 2 ^ d.ebits, if d.mx then bits (s.telem p c m.view m.srca r (k / 32 * 32)) 8 8 else 0⟩

/-- The element TST stores in a 2:4 MX tensor: code and scale formed under R65 from the values the block keeps, a dropped or suppressed
position counting as 0 (R512). -/
def State.tstKept (s : State) (p c : Nat) (m : MCmd) (o : Opnd) (r k : Nat) : Elem :=
  let ks := (List.range 32).map (fun i => k / 32 * 32 + i) |>.filter (· < m.vcols)
  let kept (i : Nat) : Val :=
    match s.destOf o (m.row0 + r) (m.col0 + i) with
    | .at _ _ => o.d.value (s.tstElem p c m o.d r i)
    | _ => .fin false 0 0
  let (sc, codes) := mxBlock o.d.fmt 0 (ks.map kept) []
  ⟨codes.getD (k % 32) 0, sc⟩

/-- TST: the codes of the valid extent packed into the descriptor's tensor (R183, R184, R512). Its summary covers the whole valid
extent, also elements whose write is suppressed or dropped (log entry 74). -/
def State.tstBody (p c : Nat) (es : List EccWord) (s : State) (m : MCmd) : MAns :=
  let o := s.opnd p c m.tdesc
  if !s.tileDescOk p c m || (o.d.mx && decide (m.col0 % 32 ≠ 0)) then .fail s stCHECKFAIL
  else
    let puts := (region 0 0 m.vrows m.vcols).map (fun rk =>
      let e := s.tstElem p c m o.d rk.1 rk.2
      (⟨m.row0 + rk.1, m.col0 + rk.2, if o.d.sparse && o.d.mx then s.tstKept p c m o rk.1 rk.2 else e,
        if o.d.index then e.code != 0 else nonzeroVal (o.d.value e)⟩ : Put))
    match s.build (s.tileUnit p c) o puts es with
    | .fail s st => .fail s st
    | .ok s x => .staged s [] x.t (overValid m (fun r k => s.telem p c m.view m.srca r k)) (o.d.regVal m.view) false

/-- TRANS: element (r, k) takes element (k, r) of operand A. -/
def State.transBody (p c : Nat) (s : State) (m : MCmd) : MAns :=
  State.elementwise p c (fun s m r k => (s.opA p c m k r).raw) s m

/-! ## Commit and retry (R135, R136) -/

/-- The unit ID of a core's Mica. -/
def State.micaUnit (s : State) (p c : Nat) : Nat := unitId p 1 (s.physCore p c)

/-- The record of a Mica mismatch (R338). -/
def State.micaReport (s : State) (p c : Nat) (g : MicaStage) (cls : Cls) : Report :=
  { unit := s.micaUnit p c, cls := cls, code := 0x11, part := some p, retry := 1, synd := [(g.mop, 1), (g.lane, 1), (g.lanes, 2)] }

/-- Commit the staged command: registers, tile memory, summary and counters in one cycle (R128, R135). A part-pair write that
is not performed fails it (R510). -/
def State.micaDone (s : State) (p c : Nat) (g : MicaStage) : State :=
  let s := { s with treg := g.regw.foldl (fun (t : Tbl Word32) (e : Nat × Word32) => t.set 0#32 e.1 e.2) s.treg }
  let (s, ok) := s.writeSet p g.memw
  let s := match g.summary with
    | some x => if g.smode = 0 then s else s.putSummary p c g.slot (g.smode == 2) x
    | none => s
  let s := if g.nonfin then s.inc (MCA_NONFIN.COUNT p c) else s
  let s := ((s.inc (MCA_OPS.OPS p c)).wf (MCA_STATUS.BUSY p c) 0).wf (MCA_STATUS.RECOMP p c) 0
  (s.setStage p c none).finish p c 1 g.seq (if ok then stOK else stCHECKFAIL)

/-- A permanent mismatch: PERM, CHECKFAIL, the core retired, the job aborted (R136). -/
def State.micaPerm (s : State) (p c : Nat) (g : MicaStage) : State :=
  let s := ((s.wf (MCA_RES.PERM p c) 1).wf (MCA_STATUS.BUSY p c) 0).wf (MCA_STATUS.RECOMP p c) 0
  let s := (s.setStage p c none).finish p c 1 g.seq stCHECKFAIL
  let u := s.micaUnit p c
  let s := s.raise (s.micaReport p c g .perm)
  (s.retireCore p (s.physCore p c)).startWave p waveFAULT u

/-- MICA_COMMIT (R135, R136): `waited` is the cycles the command lost to taken banks (R120, R165). In a mismatch `place` is the
lowest failing lane and `found` the number of failing lanes. TLD, TST, reductions and TRANS take the cycles of a full tile whatever
their valid extent (log entry 75). -/
def execMicaCommit (p c waited : Nat) (res : Residue) (s : State) : Answer :=
  onCore s p c (match s.getStage p c with
  | none => s
  | some g =>
    if g.retry then s
    else
      let s := (s.addf (MCA_CYC_BUSY.CYCLES p c) (g.cost + waited)).addf (TLM_BANKWAIT.CYCLES p c) waited
      match res with
      | .agree => s.micaDone p c g
      | .mismatch found place =>
        ((s.wf (MCA_RES.LAST_OP p c) g.mop).wf (MCA_STATUS.RECOMP p c) 1).setStage p c
          (some { g with retry := true, lane := place, lanes := found }))

/-- MICA_RETRY (R136): the retry takes the command's cycles plus 4. -/
def execMicaRetry (p c : Nat) (res : Residue) (s : State) : Answer :=
  onCore s p c (match s.getStage p c with
  | none => s
  | some g =>
    if !g.retry then s
    else
      let s := s.addf (MCA_CYC_BUSY.CYCLES p c) (g.cost + 4)
      match res with
      | .agree => ((s.inc (MCA_RES.TRANS p c)).transRec p (s.micaReport p c g .trans)).micaDone p c g
      | .mismatch found place =>
        (s.wf (MCA_RES.LAST_OP p c) g.mop).micaPerm p c { g with lane := place, lanes := found })

/-- MICA_IDLE_GATE (R485): an idle Mica is clock-gated after IDLE_OFF cycles; IDLE_OFF 0 never gates. The change of current is
a request to the governor. -/
def execMicaIdleGate (p c : Nat) (s : State) : Answer :=
  onCore s p c (
    if s.rf (MCA_CFG.IDLE_OFF p c) = 0 ∨ s.rf (MCA_STATUS.GATED p c) = 1 ∨ (s.getStage p c).isSome ∨
        !(s.getQueue p c 1).entries.isEmpty then s
    else (s.wf (MCA_STATUS.GATED p c) 1).govRequest (.mica p c false))

/-! ## Meanings of the operations -/

/-- Run an operation row: code, sub-operation, BF16 mark, cost and what it computes. -/
def micaRow (p c mop sub : Nat) (bf : Bool) (cost : MCmd → Nat) (body : State → MCmd → MAns) (s : State) : Answer :=
  onCore s p c (s.micaStart p c mop sub bf cost body)

/-- ADD. -/
def execAdd (p c : Nat) (s : State) : Answer := micaRow p c 0x01 0 true (costOf 1) (State.arith p c (fun a b _ => a.add b)) s
/-- SUB. -/
def execSub (p c : Nat) (s : State) : Answer := micaRow p c 0x02 0 true (costOf 1) (State.arith p c (fun a b _ => a.add b.neg)) s
/-- MUL. -/
def execMul (p c : Nat) (s : State) : Answer := micaRow p c 0x03 0 true (costOf 1) (State.arith p c (fun a b _ => a.mul b)) s
/-- FMA, one rounding. -/
def execFma (p c : Nat) (s : State) : Answer :=
  micaRow p c 0x04 0 true (costOf 1) (State.arith p c (fun a b d => (a.mul b).add d)) s
/-- MAX (R77). -/
def execMax (p c : Nat) (s : State) : Answer := micaRow p c 0x05 0 true (costOf 1) (State.arith p c (fun a b _ => a.max77 b)) s
/-- MIN (R77). -/
def execMin (p c : Nat) (s : State) : Answer := micaRow p c 0x05 1 true (costOf 1) (State.arith p c (fun a b _ => a.min77 b)) s
/-- ABS. -/
def execAbs (p c : Nat) (s : State) : Answer := micaRow p c 0x06 0 true (costOf 1) (State.arith p c (fun a _ _ => a.abs)) s
/-- NEG. -/
def execNeg (p c : Nat) (s : State) : Answer := micaRow p c 0x06 1 true (costOf 1) (State.arith p c (fun a _ _ => a.neg)) s
/-- DIV. -/
def execDiv (p c : Nat) (s : State) : Answer := micaRow p c 0x08 0 false (costOf 3) (State.arith p c (fun a b _ => a.div b)) s
/-- RCP. -/
def execRcp (p c : Nat) (s : State) : Answer :=
  micaRow p c 0x09 0 false (costOf 2) (State.arith p c (fun a _ _ => (Val.fin false 1 0).div a)) s
/-- SQRT. -/
def execSqrt (p c : Nat) (s : State) : Answer := micaRow p c 0x0A 0 false (costOf 2) (State.arith p c (fun a _ _ => a.sqrt)) s
/-- CMPLT. -/
def execCmplt (p c : Nat) (s : State) : Answer := micaRow p c 0x10 0 true (costOf 1) (State.compare p c Val.lt) s
/-- CMPLE. -/
def execCmple (p c : Nat) (s : State) : Answer :=
  micaRow p c 0x10 1 true (costOf 1) (State.compare p c (fun a b => a.lt b || a.eq b)) s
/-- CMPEQ. -/
def execCmpeq (p c : Nat) (s : State) : Answer := micaRow p c 0x10 2 true (costOf 1) (State.compare p c Val.eq) s
/-- SEL: B where A has any bit set, else C. -/
def execSel (p c : Nat) (s : State) : Answer :=
  micaRow p c 0x13 0 true (costOf 1) (State.elementwise p c (fun s m r k =>
    if (s.opA p c m r k).raw ≠ 0 then (s.opB p c m r k).raw else (s.opC p c m r k).raw)) s
/-- EXP. -/
def execExp (p c : Nat) (s : State) : Answer := micaRow p c 0x20 0 false (costOf 2) (State.unary32 p c expOp) s
/-- EXPS: e^RNE(a × s − b), s the scalar. -/
def execExps (p c : Nat) (s : State) : Answer :=
  micaRow p c 0x21 0 false (costOf 2) (State.elementwise p c (fun s m r k =>
    (expOp (toF32 (((s.opA p c m r k).val.mul (f32 m.scal)).add (s.opB p c m r k).val.neg))).toNat)) s
/-- LOG. -/
def execLog (p c : Nat) (s : State) : Answer := micaRow p c 0x22 0 false (costOf 2) (State.unary32 p c logOp) s
/-- RSQRT. -/
def execRsqrt (p c : Nat) (s : State) : Answer := micaRow p c 0x23 0 false (costOf 2) (State.unary32 p c rsqrtOp) s
/-- TANH. -/
def execTanh (p c : Nat) (s : State) : Answer := micaRow p c 0x24 0 false (costOf 3) (State.unary32 p c tanhOp) s
/-- ERF. -/
def execErf (p c : Nat) (s : State) : Answer := micaRow p c 0x25 0 false (costOf 3) (State.unary32 p c erfOp) s
/-- SIGMOID. -/
def execSigmoid (p c : Nat) (s : State) : Answer := micaRow p c 0x26 0 false (costOf 3) (State.unary32 p c sigmoidOp) s
/-- CVT. -/
def execCvt (p c : Nat) (s : State) : Answer := micaRow p c 0x30 0 true (costOf 1) (State.cvtBody p c) s
/-- WIDEN. -/
def execWiden (p c : Nat) (s : State) : Answer := micaRow p c 0x31 0 true (costOf 1) (State.widenBody p c) s
/-- RNDU. -/
def execRndu (p c : Nat) (s : State) : Answer := micaRow p c 0x40 0 false (costOf 1) (State.randomBody p c (fun _ x _ => rnduOf x)) s
/-- RNDB: true where x < P. -/
def execRndb (p c : Nat) (s : State) : Answer :=
  micaRow p c 0x41 0 false (costOf 1) (State.randomBody p c (fun m x _ => if x.toNat < m.thresh then 0xFFFFFFFF#32 else 0#32)) s
/-- RNDN. -/
def execRndn (p c : Nat) (s : State) : Answer :=
  micaRow p c 0x42 0 false (costOf 2) (State.randomBody p c (fun _ x _ => rndnOf (x.toNat / 256))) s
/-- GUMBEL. -/
def execGumbel (p c : Nat) (s : State) : Answer :=
  micaRow p c 0x43 0 false (costOf 3) (State.randomBody p c (fun _ x a => gumbelOf x (BitVec.ofNat 32 a.raw))) s
/-- RAWBITS. -/
def execRawbits (p c : Nat) (s : State) : Answer := micaRow p c 0x44 0 false (costOf 1) (State.randomBody p c (fun _ x _ => x)) s
/-- RSUM. -/
def execRsum (p c : Nat) (s : State) : Answer := micaRow p c 0x50 0 false (fun _ => 20) (State.reduceBody p c 0 true) s
/-- RMAX. -/
def execRmax (p c : Nat) (s : State) : Answer := micaRow p c 0x50 1 false (fun _ => 20) (State.reduceBody p c 1 true) s
/-- RMIN. -/
def execRmin (p c : Nat) (s : State) : Answer := micaRow p c 0x50 2 false (fun _ => 20) (State.reduceBody p c 2 true) s
/-- RCNT. -/
def execRcnt (p c : Nat) (s : State) : Answer := micaRow p c 0x50 3 false (fun _ => 20) (State.reduceBody p c 3 true) s
/-- RARGMAX. -/
def execRargmax (p c : Nat) (s : State) : Answer := micaRow p c 0x50 4 false (fun _ => 20) (State.reduceBody p c 4 true) s
/-- CSUM. -/
def execCsum (p c : Nat) (s : State) : Answer := micaRow p c 0x58 0 false (fun _ => 24) (State.reduceBody p c 0 false) s
/-- CMAX. -/
def execCmax (p c : Nat) (s : State) : Answer := micaRow p c 0x58 1 false (fun _ => 24) (State.reduceBody p c 1 false) s
/-- CMIN. -/
def execCmin (p c : Nat) (s : State) : Answer := micaRow p c 0x58 2 false (fun _ => 24) (State.reduceBody p c 2 false) s
/-- CCNT. -/
def execCcnt (p c : Nat) (s : State) : Answer := micaRow p c 0x58 3 false (fun _ => 24) (State.reduceBody p c 3 false) s
/-- CARGMAX. -/
def execCargmax (p c : Nat) (s : State) : Answer := micaRow p c 0x58 4 false (fun _ => 24) (State.reduceBody p c 4 false) s
/-- TLD: an uncorrectable word fails the command and aborts the job (R167). -/
def execTld (p c : Nat) (es : List EccWord) (s : State) : Answer :=
  onCore s p c (
    match s.micaHead p c with
    | none => s
    | some (_, ws) =>
      if (s.tldMaps p c (micaCmd ws)).any (s.interlocked p) then s
      else s.micaStart p c 0x60 0 true (fun _ => 8) (State.tldBody p c es))
/-- TST. -/
def execTst (p c : Nat) (es : List EccWord) (s : State) : Answer := micaRow p c 0x60 1 true (fun _ => 8) (State.tstBody p c es) s
/-- TRANS. -/
def execTrans (p c : Nat) (s : State) : Answer := micaRow p c 0x62 0 false (fun _ => 16) (State.transBody p c) s

end Sys2Proof.Machine
end

