-- ==== Sys2Proof/Machine/Dispatch.lean ====
section
/-!
DEFINITION. The one place where a command meets its meaning: one arm per constructor of Instr, in the order of
spec/opcode_table.json, each one direct call of the meaning.
-/
namespace Sys2Proof.Machine

def exec (i : Instr) (s : State) : Host.Outcome State Fault Refusal :=
  match i with
  | .registerWrite agent sp off size val => Sys2Proof.Machine.execRegisterWrite agent sp off size val s
  | .clockEnableWrite agent p val => Sys2Proof.Machine.execClockEnableWrite agent p val s
  | .partitionResetWarm agent p => Sys2Proof.Machine.execPartitionResetWarm agent p s
  | .partitionResetRetenant agent p => Sys2Proof.Machine.execPartitionResetRetenant agent p s
  | .resetStageDone p => Sys2Proof.Machine.execResetStageDone p s
  | .resetStageWatchdog p => Sys2Proof.Machine.execResetStageWatchdog p s
  | .coldResetDone p => Sys2Proof.Machine.execColdResetDone p s
  | .coldResetWatchdog p => Sys2Proof.Machine.execColdResetWatchdog p s
  | .contextWaitResume n => Sys2Proof.Machine.execContextWaitResume n s
  | .migrationDeferred idx => Sys2Proof.Machine.execMigrationDeferred idx s
  | .flintBaseInstruction p c cycles => Sys2Proof.Machine.execFlintBaseInstruction p c cycles s
  | .flintLoad p c cycles ecc => Sys2Proof.Machine.execFlintLoad p c cycles ecc s
  | .flintStore p c cycles ecc => Sys2Proof.Machine.execFlintStore p c cycles ecc s
  | .flintAccessComplete p c cycles => Sys2Proof.Machine.execFlintAccessComplete p c cycles s
  | .ecall p c => Sys2Proof.Machine.execEcall p c s
  | .ebreak p c => Sys2Proof.Machine.execEbreak p c s
  | .tque p c => Sys2Proof.Machine.execTque p c s
  | .tqueResume p c stalled => Sys2Proof.Machine.execTqueResume p c stalled s
  | .twait p c => Sys2Proof.Machine.execTwait p c s
  | .twaitResume p c stalled => Sys2Proof.Machine.execTwaitResume p c stalled s
  | .sumrd p c => Sys2Proof.Machine.execSumrd p c s
  | .sumrdResume p c stalled => Sys2Proof.Machine.execSumrdResume p c stalled s
  | .mode p c => Sys2Proof.Machine.execMode p c s
  | .modeSwitch p c stalled => Sys2Proof.Machine.execModeSwitch p c stalled s
  | .seedld p c => Sys2Proof.Machine.execSeedld p c s
  | .stepb p c => Sys2Proof.Machine.execStepb p c s
  | .stepbReport p c stalled => Sys2Proof.Machine.execStepbReport p c stalled s
  | .queueErrClear agent p c eng => Sys2Proof.Machine.execQueueErrClear agent p c eng s
  | .garnetPass p c seq stalled ecc => Sys2Proof.Machine.execGarnetPass p c seq stalled ecc s
  | .checkGroupCommit p c a res ecc => Sys2Proof.Machine.execCheckGroupCommit p c a res ecc s
  | .checkGroupRecompute p c a res acc ecc => Sys2Proof.Machine.execCheckGroupRecompute p c a res acc ecc s
  | .garnetStore p c seq stalled order acc ecc => Sys2Proof.Machine.execGarnetStore p c seq stalled order acc ecc s
  | .garnetStoreComplete p c seq busy ecc => Sys2Proof.Machine.execGarnetStoreComplete p c seq busy ecc s
  | .arrayIdleGate p c a => Sys2Proof.Machine.execArrayIdleGate p c a s
  | .arrayWakeDone p c waited => Sys2Proof.Machine.execArrayWakeDone p c waited s
  | .add p c => Sys2Proof.Machine.execAdd p c s
  | .sub p c => Sys2Proof.Machine.execSub p c s
  | .mul p c => Sys2Proof.Machine.execMul p c s
  | .fma p c => Sys2Proof.Machine.execFma p c s
  | .max p c => Sys2Proof.Machine.execMax p c s
  | .min p c => Sys2Proof.Machine.execMin p c s
  | .abs p c => Sys2Proof.Machine.execAbs p c s
  | .neg p c => Sys2Proof.Machine.execNeg p c s
  | .div p c => Sys2Proof.Machine.execDiv p c s
  | .rcp p c => Sys2Proof.Machine.execRcp p c s
  | .sqrt p c => Sys2Proof.Machine.execSqrt p c s
  | .cmplt p c => Sys2Proof.Machine.execCmplt p c s
  | .cmple p c => Sys2Proof.Machine.execCmple p c s
  | .cmpeq p c => Sys2Proof.Machine.execCmpeq p c s
  | .sel p c => Sys2Proof.Machine.execSel p c s
  | .exp p c => Sys2Proof.Machine.execExp p c s
  | .exps p c => Sys2Proof.Machine.execExps p c s
  | .log p c => Sys2Proof.Machine.execLog p c s
  | .rsqrt p c => Sys2Proof.Machine.execRsqrt p c s
  | .tanh p c => Sys2Proof.Machine.execTanh p c s
  | .erf p c => Sys2Proof.Machine.execErf p c s
  | .sigmoid p c => Sys2Proof.Machine.execSigmoid p c s
  | .cvt p c => Sys2Proof.Machine.execCvt p c s
  | .widen p c => Sys2Proof.Machine.execWiden p c s
  | .rndu p c => Sys2Proof.Machine.execRndu p c s
  | .rndb p c => Sys2Proof.Machine.execRndb p c s
  | .rndn p c => Sys2Proof.Machine.execRndn p c s
  | .gumbel p c => Sys2Proof.Machine.execGumbel p c s
  | .rawbits p c => Sys2Proof.Machine.execRawbits p c s
  | .rsum p c => Sys2Proof.Machine.execRsum p c s
  | .rmax p c => Sys2Proof.Machine.execRmax p c s
  | .rmin p c => Sys2Proof.Machine.execRmin p c s
  | .rcnt p c => Sys2Proof.Machine.execRcnt p c s
  | .rargmax p c => Sys2Proof.Machine.execRargmax p c s
  | .csum p c => Sys2Proof.Machine.execCsum p c s
  | .cmax p c => Sys2Proof.Machine.execCmax p c s
  | .cmin p c => Sys2Proof.Machine.execCmin p c s
  | .ccnt p c => Sys2Proof.Machine.execCcnt p c s
  | .cargmax p c => Sys2Proof.Machine.execCargmax p c s
  | .tld p c ecc => Sys2Proof.Machine.execTld p c ecc s
  | .tst p c ecc => Sys2Proof.Machine.execTst p c ecc s
  | .trans p c => Sys2Proof.Machine.execTrans p c s
  | .micaCommit p c waited res => Sys2Proof.Machine.execMicaCommit p c waited res s
  | .micaRetry p c res => Sys2Proof.Machine.execMicaRetry p c res s
  | .micaIdleGate p c => Sys2Proof.Machine.execMicaIdleGate p c s
  | .moverCopy p c seq ecc => Sys2Proof.Machine.execMoverCopy p c seq ecc s
  | .moverSegmentStart p ecc => Sys2Proof.Machine.execMoverSegmentStart p ecc s
  | .moverSegmentDone p ch => Sys2Proof.Machine.execMoverSegmentDone p ch s
  | .dispatchRoundOpen agent p => Sys2Proof.Machine.execDispatchRoundOpen agent p s
  | .returnRoundOpen agent p => Sys2Proof.Machine.execReturnRoundOpen agent p s
  | .tokenSend p => Sys2Proof.Machine.execTokenSend p s
  | .tokenArrive p m => Sys2Proof.Machine.execTokenArrive p m s
  | .tokenDeliver p entry => Sys2Proof.Machine.execTokenDeliver p entry s
  | .endMarkerArrive p m => Sys2Proof.Machine.execEndMarkerArrive p m s
  | .spillEndMarkerArrive p m => Sys2Proof.Machine.execSpillEndMarkerArrive p m s
  | .returnRowArrive p m => Sys2Proof.Machine.execReturnRowArrive p m s
  | .memRequestGrant p i0 arrived cycles ecc => Sys2Proof.Machine.execMemRequestGrant p i0 arrived cycles ecc s
  | .patrolScrub p i0 off onDie ecc => Sys2Proof.Machine.execPatrolScrub p i0 off onDie ecc s
  | .channelTrainingDone stack chan repaired0 repaired1 => Sys2Proof.Machine.execChannelTrainingDone stack chan repaired0 repaired1 s
  | .channelTrainingTimeout stack chan => Sys2Proof.Machine.execChannelTrainingTimeout stack chan s
  | .intervalCalibration stack chan => Sys2Proof.Machine.execIntervalCalibration stack chan s
  | .parityError stack chan half cmd reissueOk => Sys2Proof.Machine.execParityError stack chan half cmd reissueOk s
  | .channelRetrainDone stack chan ok => Sys2Proof.Machine.execChannelRetrainDone stack chan ok s
  | .portEnable i0 => Sys2Proof.Machine.execPortEnable i0 s
  | .pmdTrained i0 => Sys2Proof.Machine.execPmdTrained i0 s
  | .identityReceive i0 ident => Sys2Proof.Machine.execIdentityReceive i0 ident s
  | .acceptReceive n f => Sys2Proof.Machine.execAcceptReceive n f s
  | .refuseReceive n f => Sys2Proof.Machine.execRefuseReceive n f s
  | .trainingTimeout i0 => Sys2Proof.Machine.execTrainingTimeout i0 s
  | .trainingRestart i0 => Sys2Proof.Machine.execTrainingRestart i0 s
  | .zlkCtrlRetrain agent i0 => Sys2Proof.Machine.execZlkCtrlRetrain agent i0 s
  | .zlkCtrlDisable agent i0 hold => Sys2Proof.Machine.execZlkCtrlDisable agent i0 hold s
  | .zlkCtrlUnretire agent i0 => Sys2Proof.Machine.execZlkCtrlUnretire agent i0 s
  | .flitReceive i0 f => Sys2Proof.Machine.execFlitReceive i0 f s
  | .nakReceive i0 ack => Sys2Proof.Machine.execNakReceive i0 ack s
  | .retrainDone i0 lane0Ok lane1Ok => Sys2Proof.Machine.execRetrainDone i0 lane0Ok lane1Ok s
  | .frameReceive i0 fr => Sys2Proof.Machine.execFrameReceive i0 fr s
  | .messageSend idx => Sys2Proof.Machine.execMessageSend idx s
  | .dataMessageReceive m => Sys2Proof.Machine.execDataMessageReceive m s
  | .grantReceive m => Sys2Proof.Machine.execGrantReceive m s
  | .ackReceive m => Sys2Proof.Machine.execAckReceive m s
  | .retransmitTimeout idx seq => Sys2Proof.Machine.execRetransmitTimeout idx seq s
  | .messageAckTimeout idx => Sys2Proof.Machine.execMessageAckTimeout idx s
  | .collectiveOpen agent p q => Sys2Proof.Machine.execCollectiveOpen agent p q s
  | .collectiveClose agent p q => Sys2Proof.Machine.execCollectiveClose agent p q s
  | .joinBlockReceive p q j => Sys2Proof.Machine.execJoinBlockReceive p q j s
  | .joinTimeout p q => Sys2Proof.Machine.execJoinTimeout p q s
  | .collectiveTailWrite agent p q tail => Sys2Proof.Machine.execCollectiveTailWrite agent p q tail s
  | .allreduce p q => Sys2Proof.Machine.execAllreduce p q s
  | .reduce p q => Sys2Proof.Machine.execReduce p q s
  | .broadcast p q => Sys2Proof.Machine.execBroadcast p q s
  | .reduceScatter p q => Sys2Proof.Machine.execReduceScatter p q s
  | .allgather p q => Sys2Proof.Machine.execAllgather p q s
  | .barrier p q => Sys2Proof.Machine.execBarrier p q s
  | .chunkCombine p q seq level base chunk up addrs order dst res retry => Sys2Proof.Machine.execChunkCombine p q seq level base chunk up addrs order dst res retry s
  | .collectiveComplete p q status => Sys2Proof.Machine.execCollectiveComplete p q status s
  | .resultTag agent p => Sys2Proof.Machine.execResultTag agent p s
  | .tagComplete p => Sys2Proof.Machine.execTagComplete p s
  | .updateTagComplete p => Sys2Proof.Machine.execUpdateTagComplete p s
  | .voteBlockReceive p b => Sys2Proof.Machine.execVoteBlockReceive p b s
  | .voteTimeout p => Sys2Proof.Machine.execVoteTimeout p s
  | .recordFlushTimeout => Sys2Proof.Machine.execRecordFlushTimeout s
  | .fieldTestStart p => Sys2Proof.Machine.execFieldTestStart p s
  | .fieldTestDone p fails => Sys2Proof.Machine.execFieldTestDone p fails s
  | .boundaryBarrierEnter p => Sys2Proof.Machine.execBoundaryBarrierEnter p s
  | .updateBegin p c val => Sys2Proof.Machine.execUpdateBegin p c val s
  | .updateDecision p => Sys2Proof.Machine.execUpdateDecision p s
  | .extentCopyDone p ext => Sys2Proof.Machine.execExtentCopyDone p ext s
  | .mirroredBarrierEnter p => Sys2Proof.Machine.execMirroredBarrierEnter p s
  | .localReplay p ctxIdx seq => Sys2Proof.Machine.execLocalReplay p ctxIdx seq s
  | .snap agent p => Sys2Proof.Machine.execSnap agent p s
  | .snapshotStart p => Sys2Proof.Machine.execSnapshotStart p s
  | .snapshotDone p => Sys2Proof.Machine.execSnapshotDone p s
  | .suspend agent p stop => Sys2Proof.Machine.execSuspend agent p stop s
  | .suspendImageStart p => Sys2Proof.Machine.execSuspendImageStart p s
  | .suspendImageDone p => Sys2Proof.Machine.execSuspendImageDone p s
  | .restore p image header writer blocks checks tagOk => Sys2Proof.Machine.execRestore p image header writer blocks checks tagOk s
  | .mirrorPullDone p header blocks checks => Sys2Proof.Machine.execMirrorPullDone p header blocks checks s
  | .engineWatchdog p unit queue seq => Sys2Proof.Machine.execEngineWatchdog p unit queue seq s
  | .flintWatchdog p c => Sys2Proof.Machine.execFlintWatchdog p c s
  | .stepWatchdog p => Sys2Proof.Machine.execStepWatchdog p s
  | .abortBlockReceive b fromCellPeer sealed => Sys2Proof.Machine.execAbortBlockReceive b fromCellPeer sealed s
  | .livenessSend => Sys2Proof.Machine.execLivenessSend s
  | .mgmtWatchdogExpire => Sys2Proof.Machine.execMgmtWatchdogExpire s
  | .certificateReceive viaPf16 fromCellPeer sealed cert => Sys2Proof.Machine.execCertificateReceive viaPf16 fromCellPeer sealed cert s
  | .getVersion n => Sys2Proof.Machine.execGetVersion n s
  | .getCapabilities n => Sys2Proof.Machine.execGetCapabilities n s
  | .negotiateAlgorithms n supported => Sys2Proof.Machine.execNegotiateAlgorithms n supported s
  | .getDigests n => Sys2Proof.Machine.execGetDigests n s
  | .getCertificate n slot off len => Sys2Proof.Machine.execGetCertificate n slot off len s
  | .challenge n slot nonce => Sys2Proof.Machine.execChallenge n slot nonce s
  | .getMeasurements n index => Sys2Proof.Machine.execGetMeasurements n index s
  | .keyExchange n slot => Sys2Proof.Machine.execKeyExchange n slot s
  | .finish n sess macOk => Sys2Proof.Machine.execFinish n sess macOk s
  | .heartbeat n sess => Sys2Proof.Machine.execHeartbeat n sess s
  | .keyUpdate n sess => Sys2Proof.Machine.execKeyUpdate n sess s
  | .endSession n sess => Sys2Proof.Machine.execEndSession n sess s
  | .spdmUnsupported n code => Sys2Proof.Machine.execSpdmUnsupported n code s
  | .heartbeatTimeout n sess => Sys2Proof.Machine.execHeartbeatTimeout n sess s
  | .claim n key => Sys2Proof.Machine.execClaim n key s
  | .claimProve n sigOk => Sys2Proof.Machine.execClaimProve n sigOk s
  | .provision n pv => Sys2Proof.Machine.execProvision n pv s
  | .release n => Sys2Proof.Machine.execRelease n s
  | .fwBegin sess => Sys2Proof.Machine.execFwBegin sess s
  | .fwData sess off data => Sys2Proof.Machine.execFwData sess off data s
  | .fwCommit sess image => Sys2Proof.Machine.execFwCommit sess image s
  | .cfgCommit sess len rec => Sys2Proof.Machine.execCfgCommit sess len rec s
  | .logRead sess region off len => Sys2Proof.Machine.execLogRead sess region off len s
  | .entropyHealthFail test => Sys2Proof.Machine.execEntropyHealthFail test s
  | .drbgReseed => Sys2Proof.Machine.execDrbgReseed s
  | .flr n => Sys2Proof.Machine.execFlr n s
  | .linkReset => Sys2Proof.Machine.execLinkReset s
  | .perstDeassert speed width => Sys2Proof.Machine.execPerstDeassert speed width s
  | .submissionDoorbell n pos => Sys2Proof.Machine.execSubmissionDoorbell n pos s
  | .submissionFetch n sub => Sys2Proof.Machine.execSubmissionFetch n sub s
  | .admitJob n idx job => Sys2Proof.Machine.execAdmitJob n idx job s
  | .write n idx => Sys2Proof.Machine.execWrite n idx s
  | .read n idx => Sys2Proof.Machine.execRead n idx s
  | .rebind n idx => Sys2Proof.Machine.execRebind n idx s
  | .abort n idx => Sys2Proof.Machine.execAbort n idx s
  | .fieldTest n idx => Sys2Proof.Machine.execFieldTest n idx s
  | .unitTransfer idx data checks sealOk => Sys2Proof.Machine.execUnitTransfer idx data checks sealOk s
  | .completionPost n => Sys2Proof.Machine.execCompletionPost n s
  | .completionDoorbell n pos => Sys2Proof.Machine.execCompletionDoorbell n pos s
  | .rebindTimeout idx => Sys2Proof.Machine.execRebindTimeout idx s
  | .mgmtWarmReset p => Sys2Proof.Machine.execMgmtWarmReset p s
  | .mgmtRetenantReset p => Sys2Proof.Machine.execMgmtRetenantReset p s
  | .mgmtFieldTest p => Sys2Proof.Machine.execMgmtFieldTest p s
  | .mgmtCertificate haddr cert => Sys2Proof.Machine.execMgmtCertificate haddr cert s
  | .i3cEntdaa addr => Sys2Proof.Machine.execI3cEntdaa addr s
  | .pldmBaseDiscovery cmd => Sys2Proof.Machine.execPldmBaseDiscovery cmd s
  | .pldmSensorRead sensor value => Sys2Proof.Machine.execPldmSensorRead sensor value s
  | .platformEventRead => Sys2Proof.Machine.execPlatformEventRead s
  | .powerCycleRepeat => Sys2Proof.Machine.execPowerCycleRepeat s
  | .powerUp vin => Sys2Proof.Machine.execPowerUp vin s
  | .crystalStable => Sys2Proof.Machine.execCrystalStable s
  | .crystalTimeout => Sys2Proof.Machine.execCrystalTimeout s
  | .rootPllLock => Sys2Proof.Machine.execRootPllLock s
  | .bootChoice => Sys2Proof.Machine.execBootChoice s
  | .clockMonitorWindow dead edges => Sys2Proof.Machine.execClockMonitorWindow dead edges s
  | .clockSwitchRequest agent sel => Sys2Proof.Machine.execClockSwitchRequest agent sel s
  | .clockSwitchDone sw => Sys2Proof.Machine.execClockSwitchDone sw s
  | .clockSwitchStuck sw => Sys2Proof.Machine.execClockSwitchStuck sw s
  | .sw0Force agent => Sys2Proof.Machine.execSw0Force agent s
  | .timebaseDiscipline offset ppm synced => Sys2Proof.Machine.execTimebaseDiscipline offset ppm synced s
  | .limitExceeded d k => Sys2Proof.Machine.execLimitExceeded d k s
  | .limitCleared d k => Sys2Proof.Machine.execLimitCleared d k s
  | .governorGrant newSlot => Sys2Proof.Machine.execGovernorGrant newSlot s
  | .dieWakeGrant d => Sys2Proof.Machine.execDieWakeGrant d s
  | .flashOperationDone ok => Sys2Proof.Machine.execFlashOperationDone ok s
  | .undervoltageTrip vin => Sys2Proof.Machine.execUndervoltageTrip vin s
  | .inputCutoff vin => Sys2Proof.Machine.execInputCutoff vin s
  | .holdupExpire => Sys2Proof.Machine.execHoldupExpire s
  | .thermalWarning sn => Sys2Proof.Machine.execThermalWarning sn s
  | .thermalTrip sn => Sys2Proof.Machine.execThermalTrip sn s
  | .powerDown => Sys2Proof.Machine.execPowerDown s
  | .moduleReset => Sys2Proof.Machine.execModuleReset s
  | .mgtResetRelease => Sys2Proof.Machine.execMgtResetRelease s
  | .inputVoltageReturn vin => Sys2Proof.Machine.execInputVoltageReturn vin s
  | .thermalTripUnlatch => Sys2Proof.Machine.execThermalTripUnlatch s
  | .sensorsBelow85c => Sys2Proof.Machine.execSensorsBelow85c s
  | .ethernetLinkChange i0 up => Sys2Proof.Machine.execEthernetLinkChange i0 up s
  | .doubledRefreshChange stack temp => Sys2Proof.Machine.execDoubledRefreshChange stack temp s
  | .ideKmRequest sess activate => Sys2Proof.Machine.execIdeKmRequest sess activate s
  | .mctpEidAssign eid => Sys2Proof.Machine.execMctpEidAssign eid s
  | .summaryCopyRefresh => Sys2Proof.Machine.execSummaryCopyRefresh s

end Sys2Proof.Machine
end

