-- ==== Sys2Proof/WellFormed.lean ====
section
/-!
DEFINITION. Which commands are well-formed: the numbers of units a command names lie within what the largest package has (R2, R22,
R24–R28): 16 partitions of at most 8 logical cores, 20 stacks of 32 channels, 80 owned pseudo-channels, 192 fabric ports, 12 I/O dies,
2^18 stream contexts, 256 communication queues, 17 functions, three engines with a command queue and two clock switches. Whether the
package at hand has the unit is `Instr.present` in Safety.lean.
-/
namespace Sys2Proof

/-- A register space names an existing partition or queue window. -/
def RegSpace.wf : RegSpace → Bool
  | .part p => decide (p < 16)
  | .mgmt => true
  | .pfWin n => decide (n < 16)

/-- A clock source of some package. -/
def ClockSource.wf : ClockSource → Bool
  | .ioPll k => decide (k < 12)
  | .stackPll k => decide (k < 20)
  | .crystal => true
  | .root => true
  | .refclk => true
  | .flash => true

/-- A sensor of some package: 16 compute dies, at most 20 stacks and 12 I/O dies. -/
def Sensor.wf (sn : Sensor) : Bool := decide (sn.site < 40)

/-- A command is well-formed. -/
def Instr.wf : Instr → Bool
  | .registerWrite _ sp _ _ _ => sp.wf
  | .clockEnableWrite _ p _ => decide (p < 16)
  | .partitionResetWarm _ p => decide (p < 16)
  | .partitionResetRetenant _ p => decide (p < 16)
  | .resetStageDone p => decide (p < 16)
  | .resetStageWatchdog p => decide (p < 16)
  | .coldResetDone p => decide (p < 16)
  | .coldResetWatchdog p => decide (p < 16)
  | .contextWaitResume n => decide (n < 16)
  | .migrationDeferred idx => decide (idx < 2 ^ 18)
  | .flintBaseInstruction p c _ => decide (p < 16) && decide (c < 8)
  | .flintLoad p c _ _ => decide (p < 16) && decide (c < 8)
  | .flintStore p c _ _ => decide (p < 16) && decide (c < 8)
  | .flintAccessComplete p c _ => decide (p < 16) && decide (c < 8)
  | .ecall p c => decide (p < 16) && decide (c < 8)
  | .ebreak p c => decide (p < 16) && decide (c < 8)
  | .tque p c => decide (p < 16) && decide (c < 8)
  | .tqueResume p c _ => decide (p < 16) && decide (c < 8)
  | .twait p c => decide (p < 16) && decide (c < 8)
  | .twaitResume p c _ => decide (p < 16) && decide (c < 8)
  | .sumrd p c => decide (p < 16) && decide (c < 8)
  | .sumrdResume p c _ => decide (p < 16) && decide (c < 8)
  | .mode p c => decide (p < 16) && decide (c < 8)
  | .modeSwitch p c _ => decide (p < 16) && decide (c < 8)
  | .seedld p c => decide (p < 16) && decide (c < 8)
  | .stepb p c => decide (p < 16) && decide (c < 8)
  | .stepbReport p c _ => decide (p < 16) && decide (c < 8)
  | .queueErrClear _ p c eng => decide (p < 16) && decide (c < 8) && decide (eng < 3)
  | .garnetPass p c _ _ _ => decide (p < 16) && decide (c < 8)
  | .checkGroupCommit p c _ _ _ => decide (p < 16) && decide (c < 8)
  | .checkGroupRecompute p c _ _ _ _ => decide (p < 16) && decide (c < 8)
  | .garnetStore p c _ _ _ _ _ => decide (p < 16) && decide (c < 8)
  | .garnetStoreComplete p c _ _ _ => decide (p < 16) && decide (c < 8)
  | .arrayIdleGate p c _ => decide (p < 16) && decide (c < 8)
  | .arrayWakeDone p c _ => decide (p < 16) && decide (c < 8)
  | .add p c => decide (p < 16) && decide (c < 8)
  | .sub p c => decide (p < 16) && decide (c < 8)
  | .mul p c => decide (p < 16) && decide (c < 8)
  | .fma p c => decide (p < 16) && decide (c < 8)
  | .max p c => decide (p < 16) && decide (c < 8)
  | .min p c => decide (p < 16) && decide (c < 8)
  | .abs p c => decide (p < 16) && decide (c < 8)
  | .neg p c => decide (p < 16) && decide (c < 8)
  | .div p c => decide (p < 16) && decide (c < 8)
  | .rcp p c => decide (p < 16) && decide (c < 8)
  | .sqrt p c => decide (p < 16) && decide (c < 8)
  | .cmplt p c => decide (p < 16) && decide (c < 8)
  | .cmple p c => decide (p < 16) && decide (c < 8)
  | .cmpeq p c => decide (p < 16) && decide (c < 8)
  | .sel p c => decide (p < 16) && decide (c < 8)
  | .exp p c => decide (p < 16) && decide (c < 8)
  | .exps p c => decide (p < 16) && decide (c < 8)
  | .log p c => decide (p < 16) && decide (c < 8)
  | .rsqrt p c => decide (p < 16) && decide (c < 8)
  | .tanh p c => decide (p < 16) && decide (c < 8)
  | .erf p c => decide (p < 16) && decide (c < 8)
  | .sigmoid p c => decide (p < 16) && decide (c < 8)
  | .cvt p c => decide (p < 16) && decide (c < 8)
  | .widen p c => decide (p < 16) && decide (c < 8)
  | .rndu p c => decide (p < 16) && decide (c < 8)
  | .rndb p c => decide (p < 16) && decide (c < 8)
  | .rndn p c => decide (p < 16) && decide (c < 8)
  | .gumbel p c => decide (p < 16) && decide (c < 8)
  | .rawbits p c => decide (p < 16) && decide (c < 8)
  | .rsum p c => decide (p < 16) && decide (c < 8)
  | .rmax p c => decide (p < 16) && decide (c < 8)
  | .rmin p c => decide (p < 16) && decide (c < 8)
  | .rcnt p c => decide (p < 16) && decide (c < 8)
  | .rargmax p c => decide (p < 16) && decide (c < 8)
  | .csum p c => decide (p < 16) && decide (c < 8)
  | .cmax p c => decide (p < 16) && decide (c < 8)
  | .cmin p c => decide (p < 16) && decide (c < 8)
  | .ccnt p c => decide (p < 16) && decide (c < 8)
  | .cargmax p c => decide (p < 16) && decide (c < 8)
  | .tld p c _ => decide (p < 16) && decide (c < 8)
  | .tst p c _ => decide (p < 16) && decide (c < 8)
  | .trans p c => decide (p < 16) && decide (c < 8)
  | .micaCommit p c _ _ => decide (p < 16) && decide (c < 8)
  | .micaRetry p c _ => decide (p < 16) && decide (c < 8)
  | .micaIdleGate p c => decide (p < 16) && decide (c < 8)
  | .moverCopy p c _ _ => decide (p < 16) && decide (c < 8)
  | .moverSegmentStart p _ => decide (p < 16)
  | .moverSegmentDone p _ => decide (p < 16)
  | .dispatchRoundOpen _ p => decide (p < 16)
  | .returnRoundOpen _ p => decide (p < 16)
  | .tokenSend p => decide (p < 16)
  | .tokenArrive p _ => decide (p < 16)
  | .tokenDeliver p _ => decide (p < 16)
  | .endMarkerArrive p _ => decide (p < 16)
  | .spillEndMarkerArrive p _ => decide (p < 16)
  | .returnRowArrive p _ => decide (p < 16)
  | .memRequestGrant p i _ _ _ => decide (p < 16) && decide (i < 80)
  | .patrolScrub p i _ _ _ => decide (p < 16) && decide (i < 80)
  | .channelTrainingDone stack chan _ _ => decide (stack < 20) && decide (chan < 32)
  | .channelTrainingTimeout stack chan => decide (stack < 20) && decide (chan < 32)
  | .intervalCalibration stack chan => decide (stack < 20) && decide (chan < 32)
  | .parityError stack chan _ _ _ => decide (stack < 20) && decide (chan < 32)
  | .channelRetrainDone stack chan _ => decide (stack < 20) && decide (chan < 32)
  | .portEnable i => decide (i < 192)
  | .pmdTrained i => decide (i < 192)
  | .identityReceive i _ => decide (i < 192)
  | .acceptReceive i _ => decide (i < 192)
  | .refuseReceive i _ => decide (i < 192)
  | .trainingTimeout i => decide (i < 192)
  | .trainingRestart i => decide (i < 192)
  | .zlkCtrlRetrain _ i => decide (i < 192)
  | .zlkCtrlDisable _ i _ => decide (i < 192)
  | .zlkCtrlUnretire _ i => decide (i < 192)
  | .flitReceive i _ => decide (i < 192)
  | .nakReceive i _ => decide (i < 192)
  | .retrainDone i _ _ => decide (i < 192)
  | .frameReceive i _ => decide (i < 192)
  | .messageSend idx => decide (idx < 2 ^ 18)
  | .dataMessageReceive _ => true
  | .grantReceive _ => true
  | .ackReceive _ => true
  | .retransmitTimeout idx _ => decide (idx < 2 ^ 18)
  | .messageAckTimeout idx => decide (idx < 2 ^ 18)
  | .collectiveOpen _ p q => decide (p < 16) && decide (q < 256)
  | .collectiveClose _ p q => decide (p < 16) && decide (q < 256)
  | .joinBlockReceive p q _ => decide (p < 16) && decide (q < 256)
  | .joinTimeout p q => decide (p < 16) && decide (q < 256)
  | .collectiveTailWrite _ p q _ => decide (p < 16) && decide (q < 256)
  | .allreduce p q => decide (p < 16) && decide (q < 256)
  | .reduce p q => decide (p < 16) && decide (q < 256)
  | .broadcast p q => decide (p < 16) && decide (q < 256)
  | .reduceScatter p q => decide (p < 16) && decide (q < 256)
  | .allgather p q => decide (p < 16) && decide (q < 256)
  | .barrier p q => decide (p < 16) && decide (q < 256)
  | .chunkCombine p q _ _ _ _ _ _ _ _ _ _ => decide (p < 16) && decide (q < 256)
  | .collectiveComplete p q _ => decide (p < 16) && decide (q < 256)
  | .resultTag _ p => decide (p < 16)
  | .tagComplete p => decide (p < 16)
  | .updateTagComplete p => decide (p < 16)
  | .voteBlockReceive p _ => decide (p < 16)
  | .voteTimeout p => decide (p < 16)
  | .recordFlushTimeout => true
  | .fieldTestStart p => decide (p < 16)
  | .fieldTestDone p _ => decide (p < 16)
  | .boundaryBarrierEnter p => decide (p < 16)
  | .updateBegin p c _ => decide (p < 16) && decide (c < 8)
  | .updateDecision p => decide (p < 16)
  | .extentCopyDone p _ => decide (p < 16)
  | .mirroredBarrierEnter p => decide (p < 16)
  | .localReplay p _ _ => decide (p < 16)
  | .snap _ p => decide (p < 16)
  | .snapshotStart p => decide (p < 16)
  | .snapshotDone p => decide (p < 16)
  | .suspend _ p _ => decide (p < 16)
  | .suspendImageStart p => decide (p < 16)
  | .suspendImageDone p => decide (p < 16)
  | .restore p _ _ _ _ _ _ => decide (p < 16)
  | .mirrorPullDone p _ _ _ => decide (p < 16)
  | .engineWatchdog p _ _ _ => decide (p < 16)
  | .flintWatchdog p c => decide (p < 16) && decide (c < 8)
  | .stepWatchdog p => decide (p < 16)
  | .abortBlockReceive _ _ _ => true
  | .livenessSend => true
  | .mgmtWatchdogExpire => true
  | .certificateReceive _ _ _ _ => true
  | .getVersion n => decide (n < 17)
  | .getCapabilities n => decide (n < 17)
  | .negotiateAlgorithms n _ => decide (n < 17)
  | .getDigests n => decide (n < 17)
  | .getCertificate n _ _ _ => decide (n < 17)
  | .challenge n _ _ => decide (n < 17)
  | .getMeasurements n _ => decide (n < 17)
  | .keyExchange n _ => decide (n < 17)
  | .finish n _ _ => decide (n < 17)
  | .heartbeat n _ => decide (n < 17)
  | .keyUpdate n _ => decide (n < 17)
  | .endSession n _ => decide (n < 17)
  | .spdmUnsupported n _ => decide (n < 17)
  | .heartbeatTimeout n _ => decide (n < 17)
  | .claim n _ => decide (n < 17)
  | .claimProve n _ => decide (n < 17)
  | .provision n _ => decide (n < 17)
  | .release n => decide (n < 17)
  | .fwBegin _ => true
  | .fwData _ _ _ => true
  | .fwCommit _ _ => true
  | .cfgCommit _ _ _ => true
  | .logRead _ _ _ _ => true
  | .entropyHealthFail _ => true
  | .drbgReseed => true
  | .flr n => decide (n < 17)
  | .linkReset => true
  | .perstDeassert _ _ => true
  | .submissionDoorbell n _ => decide (n < 16)
  | .submissionFetch n _ => decide (n < 16)
  | .admitJob n _ _ => decide (n < 16)
  | .write n _ => decide (n < 17)
  | .read n _ => decide (n < 17)
  | .rebind n _ => decide (n < 17)
  | .abort n _ => decide (n < 17)
  | .fieldTest n _ => decide (n < 17)
  | .unitTransfer idx _ _ _ => decide (idx < 2 ^ 18)
  | .completionPost n => decide (n < 16)
  | .completionDoorbell n _ => decide (n < 16)
  | .rebindTimeout idx => decide (idx < 2 ^ 18)
  | .mgmtWarmReset p => decide (p < 16)
  | .mgmtRetenantReset p => decide (p < 16)
  | .mgmtFieldTest p => decide (p < 16)
  | .mgmtCertificate _ _ => true
  | .i3cEntdaa _ => true
  | .pldmBaseDiscovery _ => true
  | .pldmSensorRead _ _ => true
  | .platformEventRead => true
  | .powerCycleRepeat => true
  | .powerUp _ => true
  | .crystalStable => true
  | .crystalTimeout => true
  | .rootPllLock => true
  | .bootChoice => true
  | .clockMonitorWindow dead _ => dead.all ClockSource.wf
  | .clockSwitchRequest _ _ => true
  | .clockSwitchDone sw => decide (sw < 2)
  | .clockSwitchStuck sw => decide (sw < 2)
  | .sw0Force _ => true
  | .timebaseDiscipline _ _ _ => true
  | .limitExceeded d _ => decide (d < 16)
  | .limitCleared d _ => decide (d < 16)
  | .governorGrant _ => true
  | .dieWakeGrant d => decide (d < 16)
  | .flashOperationDone _ => true
  | .undervoltageTrip _ => true
  | .inputCutoff _ => true
  | .holdupExpire => true
  | .thermalWarning sn => sn.wf
  | .thermalTrip sn => sn.wf
  | .powerDown => true
  | .moduleReset => true
  | .mgtResetRelease => true
  | .inputVoltageReturn _ => true
  | .thermalTripUnlatch => true
  | .sensorsBelow85c => true
  | .ethernetLinkChange i _ => decide (i < 192)
  | .doubledRefreshChange stack _ => decide (stack < 20)
  | .ideKmRequest _ _ => true
  | .mctpEidAssign _ => true
  | .summaryCopyRefresh => true

end Sys2Proof
end

