-- ==== Sys2Proof/Safety.lean ====
section
/-!
DEFINITION. What statements about the block say of a state: which commands name units that the package at hand has, and the
invariant that every step keeps.
-/
namespace Sys2Proof.Machine

/-- The agent of a partition register access exists: a Flint of an enabled core, Bedrock, or PF16. -/
def agentIn (s : State) : RegSpace → Agent → Bool
  | .part p, a => s.agentOk p a
  | .mgmt, _ => true
  | .pfWin _, _ => true

/-- The units a command names are there: the package has them and, for a logical core, the partition has it enabled (R25). -/
def present (s : State) : Instr → Bool
  | .registerWrite agent sp _ _ _ => sp.wf && agentIn s sp agent
  | .clockEnableWrite _ p _ => decide (p < 16)
  | .partitionResetWarm _ p => decide (p < 16)
  | .partitionResetRetenant _ p => decide (p < 16)
  | .resetStageDone p => decide (p < 16)
  | .resetStageWatchdog p => decide (p < 16)
  | .coldResetDone p => decide (p < 16)
  | .coldResetWatchdog p => decide (p < 16)
  | .contextWaitResume n => decide (n < 16)
  | .migrationDeferred idx => decide (idx < 2 ^ 18)
  | .flintBaseInstruction p c _ => decide (p < 16) && decide (c < s.lcores p)
  | .flintLoad p c _ _ => decide (p < 16) && decide (c < s.lcores p)
  | .flintStore p c _ _ => decide (p < 16) && decide (c < s.lcores p)
  | .flintAccessComplete p c _ => decide (p < 16) && decide (c < s.lcores p)
  | .ecall p c => decide (p < 16) && decide (c < s.lcores p)
  | .ebreak p c => decide (p < 16) && decide (c < s.lcores p)
  | .tque p c => decide (p < 16) && decide (c < s.lcores p)
  | .tqueResume p c _ => decide (p < 16) && decide (c < s.lcores p)
  | .twait p c => decide (p < 16) && decide (c < s.lcores p)
  | .twaitResume p c _ => decide (p < 16) && decide (c < s.lcores p)
  | .sumrd p c => decide (p < 16) && decide (c < s.lcores p)
  | .sumrdResume p c _ => decide (p < 16) && decide (c < s.lcores p)
  | .mode p c => decide (p < 16) && decide (c < s.lcores p)
  | .modeSwitch p c _ => decide (p < 16) && decide (c < s.lcores p)
  | .seedld p c => decide (p < 16) && decide (c < s.lcores p)
  | .stepb p c => decide (p < 16) && decide (c < s.lcores p)
  | .stepbReport p c _ => decide (p < 16) && decide (c < s.lcores p)
  | .queueErrClear _ p c eng => decide (p < 16) && decide (c < s.lcores p) && decide (eng < 3)
  | .garnetPass p c _ _ _ => decide (p < 16) && decide (c < s.lcores p)
  | .checkGroupCommit p c _ _ _ => decide (p < 16) && decide (c < s.lcores p)
  | .checkGroupRecompute p c _ _ _ _ => decide (p < 16) && decide (c < s.lcores p)
  | .garnetStore p c _ _ _ _ _ => decide (p < 16) && decide (c < s.lcores p)
  | .garnetStoreComplete p c _ _ _ => decide (p < 16) && decide (c < s.lcores p)
  | .arrayIdleGate p c _ => decide (p < 16) && decide (c < s.lcores p)
  | .arrayWakeDone p c _ => decide (p < 16) && decide (c < s.lcores p)
  | .add p c => decide (p < 16) && decide (c < s.lcores p)
  | .sub p c => decide (p < 16) && decide (c < s.lcores p)
  | .mul p c => decide (p < 16) && decide (c < s.lcores p)
  | .fma p c => decide (p < 16) && decide (c < s.lcores p)
  | .max p c => decide (p < 16) && decide (c < s.lcores p)
  | .min p c => decide (p < 16) && decide (c < s.lcores p)
  | .abs p c => decide (p < 16) && decide (c < s.lcores p)
  | .neg p c => decide (p < 16) && decide (c < s.lcores p)
  | .div p c => decide (p < 16) && decide (c < s.lcores p)
  | .rcp p c => decide (p < 16) && decide (c < s.lcores p)
  | .sqrt p c => decide (p < 16) && decide (c < s.lcores p)
  | .cmplt p c => decide (p < 16) && decide (c < s.lcores p)
  | .cmple p c => decide (p < 16) && decide (c < s.lcores p)
  | .cmpeq p c => decide (p < 16) && decide (c < s.lcores p)
  | .sel p c => decide (p < 16) && decide (c < s.lcores p)
  | .exp p c => decide (p < 16) && decide (c < s.lcores p)
  | .exps p c => decide (p < 16) && decide (c < s.lcores p)
  | .log p c => decide (p < 16) && decide (c < s.lcores p)
  | .rsqrt p c => decide (p < 16) && decide (c < s.lcores p)
  | .tanh p c => decide (p < 16) && decide (c < s.lcores p)
  | .erf p c => decide (p < 16) && decide (c < s.lcores p)
  | .sigmoid p c => decide (p < 16) && decide (c < s.lcores p)
  | .cvt p c => decide (p < 16) && decide (c < s.lcores p)
  | .widen p c => decide (p < 16) && decide (c < s.lcores p)
  | .rndu p c => decide (p < 16) && decide (c < s.lcores p)
  | .rndb p c => decide (p < 16) && decide (c < s.lcores p)
  | .rndn p c => decide (p < 16) && decide (c < s.lcores p)
  | .gumbel p c => decide (p < 16) && decide (c < s.lcores p)
  | .rawbits p c => decide (p < 16) && decide (c < s.lcores p)
  | .rsum p c => decide (p < 16) && decide (c < s.lcores p)
  | .rmax p c => decide (p < 16) && decide (c < s.lcores p)
  | .rmin p c => decide (p < 16) && decide (c < s.lcores p)
  | .rcnt p c => decide (p < 16) && decide (c < s.lcores p)
  | .rargmax p c => decide (p < 16) && decide (c < s.lcores p)
  | .csum p c => decide (p < 16) && decide (c < s.lcores p)
  | .cmax p c => decide (p < 16) && decide (c < s.lcores p)
  | .cmin p c => decide (p < 16) && decide (c < s.lcores p)
  | .ccnt p c => decide (p < 16) && decide (c < s.lcores p)
  | .cargmax p c => decide (p < 16) && decide (c < s.lcores p)
  | .tld p c _ => decide (p < 16) && decide (c < s.lcores p)
  | .tst p c _ => decide (p < 16) && decide (c < s.lcores p)
  | .trans p c => decide (p < 16) && decide (c < s.lcores p)
  | .micaCommit p c _ _ => decide (p < 16) && decide (c < s.lcores p)
  | .micaRetry p c _ => decide (p < 16) && decide (c < s.lcores p)
  | .micaIdleGate p c => decide (p < 16) && decide (c < s.lcores p)
  | .moverCopy p c _ _ => decide (p < 16) && decide (c < s.lcores p)
  | .moverSegmentStart p _ => decide (p < 16)
  | .moverSegmentDone p _ => decide (p < 16)
  | .dispatchRoundOpen _ p => decide (p < 16)
  | .returnRoundOpen _ p => decide (p < 16)
  | .tokenSend p => decide (p < 16)
  | .tokenArrive p _ => decide (p < 16)
  | .tokenDeliver p _ => decide (p < 16)
  | .endMarkerArrive p _ => decide (p < 16)
  | .spillEndMarkerArrive p _ => decide (p < 16)
  | .returnRowArrive p _ => decide (p < 16)
  | .memRequestGrant p i _ _ _ => decide (p < 16) && decide (i < s.fuse.variant.chans)
  | .patrolScrub p i _ _ _ => decide (p < 16) && decide (i < s.fuse.variant.chans)
  | .channelTrainingDone stack chan _ _ => decide (stack < s.fuse.variant.stacks) && decide (chan < 32)
  | .channelTrainingTimeout stack chan => decide (stack < s.fuse.variant.stacks) && decide (chan < 32)
  | .intervalCalibration stack chan => decide (stack < s.fuse.variant.stacks) && decide (chan < 32)
  | .parityError stack chan _ _ _ => decide (stack < s.fuse.variant.stacks) && decide (chan < 32)
  | .channelRetrainDone stack chan _ => decide (stack < s.fuse.variant.stacks) && decide (chan < 32)
  | .portEnable i => decide (i < s.fuse.variant.ports)
  | .pmdTrained i => decide (i < s.fuse.variant.ports)
  | .identityReceive i _ => decide (i < s.fuse.variant.ports)
  | .acceptReceive i _ => decide (i < s.fuse.variant.ports)
  | .refuseReceive i _ => decide (i < s.fuse.variant.ports)
  | .trainingTimeout i => decide (i < s.fuse.variant.ports)
  | .trainingRestart i => decide (i < s.fuse.variant.ports)
  | .zlkCtrlRetrain _ i => decide (i < s.fuse.variant.ports)
  | .zlkCtrlDisable _ i _ => decide (i < s.fuse.variant.ports)
  | .zlkCtrlUnretire _ i => decide (i < s.fuse.variant.ports)
  | .flitReceive i _ => decide (i < s.fuse.variant.ports)
  | .nakReceive i _ => decide (i < s.fuse.variant.ports)
  | .retrainDone i _ _ => decide (i < s.fuse.variant.ports)
  | .frameReceive i _ => decide (i < s.fuse.variant.ports)
  | .messageSend idx => decide (idx < 2 ^ 18)
  | .dataMessageReceive _ => true
  | .grantReceive _ => true
  | .ackReceive _ => true
  | .retransmitTimeout idx _ => decide (idx < 2 ^ 18)
  | .messageAckTimeout idx => decide (idx < 2 ^ 18)
  | .collectiveOpen _ p q => decide (p < 16) && decide (q < 256)
  | .collectiveClose _ p q => decide (p < 16) && decide (q < 256)
  | .joinBlockReceive p q _ => decide (p < 16) && decide (q < 256)
  | .joinTimeout p q => decide (p < 16) && decide (q < 256)
  | .collectiveTailWrite _ p q _ => decide (p < 16) && decide (q < 256)
  | .allreduce p q => decide (p < 16) && decide (q < 256)
  | .reduce p q => decide (p < 16) && decide (q < 256)
  | .broadcast p q => decide (p < 16) && decide (q < 256)
  | .reduceScatter p q => decide (p < 16) && decide (q < 256)
  | .allgather p q => decide (p < 16) && decide (q < 256)
  | .barrier p q => decide (p < 16) && decide (q < 256)
  | .chunkCombine p q _ _ _ _ _ _ _ _ _ _ => decide (p < 16) && decide (q < 256)
  | .collectiveComplete p q _ => decide (p < 16) && decide (q < 256)
  | .resultTag _ p => decide (p < 16)
  | .tagComplete p => decide (p < 16)
  | .updateTagComplete p => decide (p < 16)
  | .voteBlockReceive p _ => decide (p < 16)
  | .voteTimeout p => decide (p < 16)
  | .recordFlushTimeout => true
  | .fieldTestStart p => decide (p < 16)
  | .fieldTestDone p _ => decide (p < 16)
  | .boundaryBarrierEnter p => decide (p < 16)
  | .updateBegin p c _ => decide (p < 16) && decide (c < s.lcores p)
  | .updateDecision p => decide (p < 16)
  | .extentCopyDone p _ => decide (p < 16)
  | .mirroredBarrierEnter p => decide (p < 16)
  | .localReplay p _ _ => decide (p < 16)
  | .snap _ p => decide (p < 16)
  | .snapshotStart p => decide (p < 16)
  | .snapshotDone p => decide (p < 16)
  | .suspend _ p _ => decide (p < 16)
  | .suspendImageStart p => decide (p < 16)
  | .suspendImageDone p => decide (p < 16)
  | .restore p _ _ _ _ _ _ => decide (p < 16)
  | .mirrorPullDone p _ _ _ => decide (p < 16)
  | .engineWatchdog p _ _ _ => decide (p < 16)
  | .flintWatchdog p c => decide (p < 16) && decide (c < s.lcores p)
  | .stepWatchdog p => decide (p < 16)
  | .abortBlockReceive _ _ _ => true
  | .livenessSend => true
  | .mgmtWatchdogExpire => true
  | .certificateReceive _ _ _ _ => true
  | .getVersion n => decide (n < 17)
  | .getCapabilities n => decide (n < 17)
  | .negotiateAlgorithms n _ => decide (n < 17)
  | .getDigests n => decide (n < 17)
  | .getCertificate n _ _ _ => decide (n < 17)
  | .challenge n _ _ => decide (n < 17)
  | .getMeasurements n _ => decide (n < 17)
  | .keyExchange n _ => decide (n < 17)
  | .finish n _ _ => decide (n < 17)
  | .heartbeat n _ => decide (n < 17)
  | .keyUpdate n _ => decide (n < 17)
  | .endSession n _ => decide (n < 17)
  | .spdmUnsupported n _ => decide (n < 17)
  | .heartbeatTimeout n _ => decide (n < 17)
  | .claim n _ => decide (n < 17)
  | .claimProve n _ => decide (n < 17)
  | .provision n _ => decide (n < 17)
  | .release n => decide (n < 17)
  | .fwBegin _ => true
  | .fwData _ _ _ => true
  | .fwCommit _ _ => true
  | .cfgCommit _ _ _ => true
  | .logRead _ _ _ _ => true
  | .entropyHealthFail _ => true
  | .drbgReseed => true
  | .flr n => decide (n < 17)
  | .linkReset => true
  | .perstDeassert _ _ => true
  | .submissionDoorbell n _ => decide (n < 16)
  | .submissionFetch n _ => decide (n < 16)
  | .admitJob n _ _ => decide (n < 16)
  | .write n _ => decide (n < 17)
  | .read n _ => decide (n < 17)
  | .rebind n _ => decide (n < 17)
  | .abort n _ => decide (n < 17)
  | .fieldTest n _ => decide (n < 17)
  | .unitTransfer idx _ _ _ => decide (idx < 2 ^ 18)
  | .completionPost n => decide (n < 16)
  | .completionDoorbell n _ => decide (n < 16)
  | .rebindTimeout idx => decide (idx < 2 ^ 18)
  | .mgmtWarmReset p => decide (p < 16)
  | .mgmtRetenantReset p => decide (p < 16)
  | .mgmtFieldTest p => decide (p < 16)
  | .mgmtCertificate _ _ => true
  | .i3cEntdaa _ => true
  | .pldmBaseDiscovery _ => true
  | .pldmSensorRead _ _ => true
  | .platformEventRead => true
  | .powerCycleRepeat => true
  | .powerUp _ => true
  | .crystalStable => true
  | .crystalTimeout => true
  | .rootPllLock => true
  | .bootChoice => true
  | .clockMonitorWindow dead _ => dead.all s.hasSource
  | .clockSwitchRequest _ _ => true
  | .clockSwitchDone sw => decide (sw < 2)
  | .clockSwitchStuck sw => decide (sw < 2)
  | .sw0Force _ => true
  | .timebaseDiscipline _ _ _ => true
  | .limitExceeded d _ => decide (d < 16)
  | .limitCleared d _ => decide (d < 16)
  | .governorGrant _ => true
  | .dieWakeGrant d => decide (d < 16)
  | .flashOperationDone _ => true
  | .undervoltageTrip _ => true
  | .inputCutoff _ => true
  | .holdupExpire => true
  | .thermalWarning sn => s.siteExists sn.site && s.stackSite sn.site == sn.stack
  | .thermalTrip sn => s.siteExists sn.site && s.stackSite sn.site == sn.stack
  | .powerDown => true
  | .moduleReset => true
  | .mgtResetRelease => true
  | .inputVoltageReturn _ => true
  | .thermalTripUnlatch => true
  | .sensorsBelow85c => true
  | .ethernetLinkChange i _ => decide (i < s.fuse.variant.ports)
  | .doubledRefreshChange stack _ => decide (stack < s.fuse.variant.stacks)
  | .ideKmRequest _ _ => true
  | .mctpEidAssign _ => true
  | .summaryCopyRefresh => true

/-- The invariant of the block: memory is in its canonical form, and the register file lists its cells in order, each once. -/
def State.Inv (s : State) : Prop := Memory.wf s.mem = true ∧ Tbl.sortedFrom 0 s.flds = true

end Sys2Proof.Machine
end

