-- ==== Sys2Proof/Certificates/Slice0/Obligations.lean ====
section
/-!
DEFINITION. The statements about the block. A statement gives a command's whole next state as an equation where it can: what the
equation does not name is then unchanged. `wf` writes one register field (FieldWriteChangesOneField says what that means), `set…` one
entry of one table, `emit` appends to what the block sends out, `raise` an error record.
-/
open Sys2Proof Sys2Proof.Machine

/-! ## The block as a whole -/

/-- For every command c and every state whose queue has c at its front, a step is exec of c on that state with the rest of the queue. -/
def Obligations.StepRunsTheFrontCommand : Prop :=
  ∀ (s : State) (c : Instr) (rest : List Instr), s.pending = c :: rest → step s = exec c { s with pending := rest }

/-- The model's choice of log entry 8: on an empty queue a step answers the next state of one tick. While the management domain is down the tick leaves the state as it is; while it runs, the time base counts 1, or 3 in coast (R474: a third of the frequency), modulo 2^64, and memory, stream contexts, fuses and queues stay. -/
def Obligations.EmptyQueueTicksTheTimeBase : Prop :=
  ∀ s : State, s.pending = [] → ∃ t, step s = .next t ∧
    (s.power.mgmt = false → t = s) ∧
    (s.power.mgmt = true → Tbl.sortedFrom 0 s.flds = true →
      t.now = (s.now + (if s.rf QTZ_STATUS.COAST = 1 then 3 else 1)) % 2 ^ 64) ∧
    t = { s with flds := t.flds, freeCtr := t.freeCtr }

/-- In State.reset every register field reads the reset value that its register map gives (where a map gives none: the value that INVENTORY.md names), among them PRT_STATE.STATE 1 (RESET), PRT_ID.STEPPING 0xB0, GRN_CFG.GATE_EN 1, GRN_STATUS.GATED 0xF, MOV_CFG.QCHAN 8, MEM_CFG.SCRUB_H 24, PRT_WDT_CFG 10 ms, 1,000 ms and 600 s; every byte of memory reads 0, no command waits, no stream context is in use, and the module is off (log entry 29: a module start begins with POWER_UP). -/
def Obligations.ResetValues : Prop :=
  (∀ f : Fld, State.reset.rf f = f.rst) ∧
  (∀ p : Nat, State.reset.rf (PRT_STATE.STATE p) = 1 ∧ State.reset.rf (PRT_ID.STEPPING p) = 0xB0 ∧
    State.reset.rf (MOV_CFG.QCHAN p) = 8 ∧ State.reset.rf (PRT_WDT_CFG.ENG_MS p) = 10 ∧
    State.reset.rf (PRT_WDT_CFG.FLT_MS p) = 1000 ∧ State.reset.rf (PRT_WDT_CFG.STEP_S p) = 600) ∧
  (∀ p c : Nat, State.reset.rf (GRN_CFG.GATE_EN p c) = 1 ∧ State.reset.rf (GRN_STATUS.GATED p c) = 0xF) ∧
  (∀ p i : Nat, State.reset.rf (MEM_CFG.SCRUB_H p i) = 24) ∧
  (∀ k : Nat, State.reset.byte k = 0#8) ∧ (∀ i : Nat, (State.reset.getCtx i).state = 0) ∧
  State.reset.pending = [] ∧ State.reset.boot = .off

/-- State.reset has memory in its canonical form and a register file whose cells are listed in rising order. -/
def Obligations.InvariantAtReset : Prop := State.reset.Inv

/-- For every state with the invariant (memory in its canonical form: addresses strictly rising, no listed byte 0; the register file lists its cells in rising order, each once) and every step from it that answers a next state, the next state has the invariant: whatever command runs, however many blocks it writes, drops (resets) or restores (suspend images). -/
def Obligations.EveryStepKeepsTheInvariant : Prop :=
  ∀ s t : State, s.Inv → step s = .next t → t.Inv

/-- Whatever command a step runs: the queue of the next state is the old one without its front command, the fuses (package variant, grade, good cores, serial, security version) are unchanged, and the counter of free values never falls, so that no free value is used for two events. -/
def Obligations.StepConsumesOneCommandAndKeepsFuses : Prop :=
  ∀ s t : State, step s = .next t → t.pending = s.pending.tail ∧ t.fuse = s.fuse ∧ s.freeCtr ≤ t.freeCtr

/-- For every command and every state: when the units that the command names are there, exec answers a next state; when one is not, it answers the fault noSuchUnit. It never refuses. -/
def Obligations.EveryCommandOfPresentUnitsCompletes : Prop :=
  ∀ (i : Instr) (s : State), (present s i = true → ∃ t, exec i s = .next t) ∧ (present s i = false → exec i s = .fault .noSuchUnit)

/-- In every state whose partitions have at most 8 logical cores, a command whose units are there is well-formed. -/
def Obligations.PresentCommandsAreWellFormed : Prop :=
  ∀ (i : Instr) (s : State), (∀ p, s.lcores p ≤ 8) → present s i = true → i.wf = true

/-- For every state with an ordered register file: after wf f v the field f reads v modulo 2^width (both are exact for values in range), every field in another cell reads as before, memory reads as before, and every part of the state beside the register file is unchanged. -/
def Obligations.FieldWriteChangesOneField : Prop :=
  ∀ (s : State) (f : Fld) (v : Nat), Tbl.sortedFrom 0 s.flds = true → 
    (s.wf f v).rf f = v % 2 ^ f.w ∧ (∀ g : Fld, g.cell ≠ f.cell → (s.wf f v).rf g = s.rf g) ∧
    (∀ k, (s.wf f v).byte k = s.byte k) ∧ s.wf f v = { s with flds := (s.wf f v).flds }

/-- For every state with memory in canonical form: after setBytes k bs, address k + i reads byte i of bs, every other address reads as before, memory is in canonical form again, and every part of the state beside memory is unchanged. -/
def Obligations.ByteWriteChangesThoseBytes : Prop :=
  ∀ (s : State) (k : Nat) (bs : List Byte), Memory.wf s.mem = true →
    (∀ i (h : i < bs.length), (s.setBytes k bs).byte (k + i) = bs[i]) ∧
    (∀ a, (a < k ∨ k + bs.length ≤ a) → (s.setBytes k bs).byte a = s.byte a) ∧
    Memory.wf (s.setBytes k bs).mem = true ∧ s.setBytes k bs = { s with mem := (s.setBytes k bs).mem }


/-! ## Chapters 1 and 13: register writes, clock enables, partition resets, contexts -/

/-- A field takes a write by its access type: RO keeps its value; RW takes the written bits that the access covers (unless the result lies outside the values its map permits); W1C clears where a covered written bit is 1; RWL is as RW before LOCK and keeps its value after it, with a bus error if it would change. A write of a partition register that is not there (or with a size or alignment that no register takes) changes nothing but PRT_BUSERR, which keeps the first address until VALID is cleared; no PCIe function reaches a partition's registers and no Flint reaches the management space or a queue window; a register without a row of its own that is there, clocked and not denied takes the write field by field. Completion is stated of REGISTER_WRITE for every agent that exists, every space, offset, size and value. -/
def Obligations.RegisterWritesFollowAccessTypes : Prop :=
  (∀ (s : State) (l : Bool) (key v mask : Nat) (f : RegF), (f.acc = .ro ∨ f.acc = .wo) → s.writeFld l key v mask f = (s, false)) ∧
  (∀ (s : State) (key v mask : Nat) (f : RegF), f.acc = .rw ∨ f.acc = .rwl →
    let new := mixed (s.rf (f.at key)) (bits v f.lo f.w) (bits mask f.lo f.w)
    (bits mask f.lo f.w ≠ 0 → f.okLo ≤ new → new ≤ f.okHi → s.writeFld false key v mask f = (s.wf (f.at key) new, false)) ∧
    (bits mask f.lo f.w = 0 ∨ new < f.okLo ∨ f.okHi < new → s.writeFld false key v mask f = (s, false))) ∧
  (∀ (s : State) (l : Bool) (key v mask : Nat) (f : RegF), f.acc = .w1c → s.writeFld l key v mask f =
    (s.wf (f.at key) (Nat.xor (s.rf (f.at key)) (Nat.land (s.rf (f.at key)) (Nat.land (bits v f.lo f.w) (bits mask f.lo f.w)))), false)) ∧
  (∀ (s : State) (key v mask : Nat) (f : RegF), f.acc = .rwl → s.writeFld true key v mask f =
    (s, decide (mixed (s.rf (f.at key)) (bits v f.lo f.w) (bits mask f.lo f.w) ≠ s.rf (f.at key)))) ∧
  (∀ (s : State) (a : Agent) (p off size : Nat) (v : Word64), p < 16 → s.agentOk p a = true → a ≠ .pf16 →
    exec (.registerWrite a (.part p) off size v) s = .next (
      if sizeOk off size = true then (s.partWrite a p off size v).1.busErrIf (s.partWrite a p off size v).2 p (regBase + off)
      else s.busErr p (regBase + off))) ∧
  (∀ (s : State) (p off size : Nat) (v : Word64), p < 16 → exec (.registerWrite .pf16 (.part p) off size v) s = .next s) ∧
  (∀ (s : State) (c : Nat) (off size : Nat) (v : Word64), exec (.registerWrite (.flint c) .mgmt off size v) s = .next s) ∧
  (∀ (s : State) (c n off size : Nat) (v : Word64), n < 16 → exec (.registerWrite (.flint c) (.pfWin n) off size v) s = .next s) ∧
  (∀ (s : State) (a : Agent) (off size : Nat) (v : Word64), isFlint a = false → sizeOk off size = true →
    exec (.registerWrite a .mgmt off size v) s = .next (s.spaceWrite a off size v)) ∧
  (∀ (s : State) (a : Agent) (n off size : Nat) (v : Word64), n < 16 → isFlint a = false → sizeOk off size = true →
    exec (.registerWrite a (.pfWin n) off size v) s = .next (s.windowWrite n off size v)) ∧
  (∀ (s : State) (a : Agent) (p off size : Nat) (v : Word64), s.regAt p (off - off % 8) = none → s.regWrite a p off size v = (s, true)) ∧
  (∀ (s : State) (a : Agent) (p off size : Nat) (v : Word64) (h : Hit), s.regAt p (off - off % 8) = some h →
    (s.clocked h = false ∨ s.writeDenied a p (off - off % 8) size h = true → s.regWrite a p off size v = (s, true)) ∧
    (s.clocked h = true → s.writeDenied a p (off - off % 8) size h = false → bedrockOnly.contains h.d.name = false →
      s.regWrite a p off size v = s.writeFlds (s.rf (PRT_CTRL.LOCK p) == 1) h.key (placed (off % 8) size v)
        (s.writeMask p (off - off % 8) (coverMask (off % 8) size) h) h.d.flds)) ∧
  (∀ (s : State) (a : Agent) (p off size : Nat) (v : Word64),
    off - off % 8 ∉ [0x28, 0x30, 0x0A000040, 0x0A000078, 0x0B000060] → (off - off % 8) / 0x1000000 ∉ [3, 8, 9] →
    s.partWrite a p off size v = s.regWrite a p off size v) ∧
  (∀ (s : State) (p a : Nat), s.busErr p a = if s.rf (PRT_BUSERR.VALID p) = 1 then s
    else (s.wf (PRT_BUSERR.ADDR p) a).wf (PRT_BUSERR.VALID p) 1) ∧
  (∀ (s : State) (p a : Nat), s.busErrIf true p a = s.busErr p a ∧ s.busErrIf false p a = s)

/-- In a partition whose mover is clocked, an eight-byte write of word w of descriptor i by Bedrock or a Flint of an enabled core gives MOV_DESC that word and changes nothing else (the word held before has 64 bits, as every write leaves it). A write of PRT_CLK_EN by Bedrock or a Flint gives each of the nine enables (GRN, MCA, FLT, TLM, MOV, MEM, STR, ASY, DSP in bits 0 to 5, 7, 8, 12) its bit of the written word; but a bit stays as it is when LOCK holds it (FLT, MEM, ASY) or when it would be cleared while its block has work, and then a write that asks for another value draws a bus error at the register's address; nothing else changes. PF16 does not reach the register. Completion is stated of CLOCK_ENABLE_WRITE for every agent, partition and value. -/
def Obligations.DescriptorAndClockEnableWrites : Prop :=
  (∀ (s : State) (a : Agent) (p i w : Nat) (v : Word64), p < 16 → i < 4096 → w < 32 → s.agentOk p a = true → a ≠ .pf16 →
    s.rf (PRT_CLK_EN.MOV p) = 1 → s.rf (MOV_DESC.D p i w) < 2 ^ 64 →
    exec (.registerWrite a (.part p) (0x05100000 + 0x100 * i + 8 * w) 8 v) s = .next (s.wf (MOV_DESC.D p i w) v.toNat)) ∧
  (∀ (s : State) (a : Agent) (p : Nat) (v : Word64), p < 16 → a ≠ .pf16 →
    let new (i : Nat) : Bool := enableBit (s.rf (PRT_CTRL.LOCK p) == 1) (s.enables p) (s.busyBlocks p) v.toNat (2 ^ 64 - 1) i
    let t := (((((((((s.wf (PRT_CLK_EN.GRN p) (bit (new 0))).wf (PRT_CLK_EN.MCA p) (bit (new 1))).wf (PRT_CLK_EN.FLT p) (bit (new 2))).wf
      (PRT_CLK_EN.TLM p) (bit (new 3))).wf (PRT_CLK_EN.MOV p) (bit (new 4))).wf (PRT_CLK_EN.MEM p) (bit (new 5))).wf (PRT_CLK_EN.STR p)
      (bit (new 7))).wf (PRT_CLK_EN.ASY p) (bit (new 8))).wf (PRT_CLK_EN.DSP p) (bit (new 12)))
    exec (.clockEnableWrite a p v) s = .next (if [0, 1, 2, 3, 4, 5, 7, 8, 12].all (fun i => bitOf v.toNat i == new i) = true then t
      else t.busErr p 0xFF0000000028)) ∧
  (∀ (s : State) (p : Nat) (v : Word64), p < 16 → exec (.clockEnableWrite .pf16 p v) s = .next s) ∧
  (∀ (s : State) (p v m i : Nat), i ∈ [0, 1, 2, 3, 4, 5, 7, 8, 12] → bitOf m i = true →
    let new := enableBit (s.rf (PRT_CTRL.LOCK p) == 1) (s.enables p) (s.busyBlocks p) v m i
    ((s.rf (PRT_CTRL.LOCK p) = 1 ∧ i ∈ [2, 5, 8]) → new = bitOf (s.enables p) i) ∧
    (bitOf (s.enables p) i = true → bitOf (s.busyBlocks p) i = true → new = true) ∧
    ((s.rf (PRT_CTRL.LOCK p) ≠ 1 ∨ i ∉ [2, 5, 8]) → (bitOf (s.enables p) i = false ∨ bitOf (s.busyBlocks p) i = false) →
      new = bitOf v i))

/-- A WARM request (Bedrock, or a Flint through PRT_RESET) or a RETENANT request (Bedrock) to a partition that is not OFF: with no reset in progress, the abort wave of a running job goes first (R388), a running field test ends, and the partition enters RESET with KIND and CAUSE 1 or 2, stage QUIESCE and RESETS one higher; with one in progress, also one that is escalated to the module, a RETENANT request makes a WARM one RETENANT, with KIND and (the model's choice, log entry 66) CAUSE 2, and nothing else changes. A RETENANT write from a Flint is a bus error; PF16 reaches neither; a partition in OFF is left alone. Completion is stated of both requests for every agent and partition. -/
def Obligations.ResetRequestsStartOrMerge : Prop :=
  (∀ (s : State) (a : Agent) (p : Nat), p < 16 → a ≠ .pf16 → exec (.partitionResetWarm a p) s = .next (s.resetRequest p 1)) ∧
  (∀ (s : State) (p : Nat), p < 16 → exec (.partitionResetRetenant .bedrock p) s = .next (s.resetRequest p 2)) ∧
  (∀ (s : State) (p c : Nat), p < 16 → exec (.partitionResetRetenant (.flint c) p) s = .next (s.busErr p 0xFF0000000030)) ∧
  (∀ (s : State) (p : Nat), p < 16 → exec (.partitionResetWarm .pf16 p) s = .next s ∧ exec (.partitionResetRetenant .pf16 p) s = .next s) ∧
  (∀ (s : State) (p k : Nat), s.pstate p = 0 → s.resetRequest p k = s) ∧
  (∀ (s : State) (p k : Nat), s.pstate p ≠ 0 → s.getReset p = none → s.resetRequest p k =
    let u := (s.startWave p 4 s.bedrockUnit).endFieldTest p
    ((((((u.setReset p (some ⟨k, 0, false, false, false, false⟩)).wf (PRT_STATE.STATE p) 1).wf (PRT_STATE.CAUSE p) k).wf
      (PRT_RST_LOG.KIND p) k).wf (PRT_RST_LOG.STAGE p) 0).wf (PRT_RST_LOG.ESC p) 0).inc (PRT_RST_LOG.RESETS p)) ∧
  (∀ (s : State) (p : Nat), s.pstate p ≠ 4 → s.startWave p 4 s.bedrockUnit = s) ∧
  (∀ (s : State) (p : Nat), (s.getFt p).running = false → s.endFieldTest p = s) ∧
  (∀ (s : State) (p k : Nat) (r : ResetRun), s.pstate p ≠ 0 → s.getReset p = some r → s.resetRequest p k =
    if r.kind < k then ((s.setReset p (some { r with kind := k })).wf (PRT_RST_LOG.KIND p) k).wf (PRT_STATE.CAUSE p) k else s)

/-- The stages QUIESCE (0), CLEAR (1), ZERO1 to ZERO4 (2 to 5) and CONFIG (6) follow one another; a WARM reset goes from CLEAR to CONFIG; a RETENANT reset draws a memory key before ZERO1, ends the claim, and stays in CLEAR when the entropy source has failed; it zeroes a quarter of stacked memory in each stage (ZeroStagesClearStackedMemory), and one merged into a WARM reset after its CLEAR clears again and zeroes before CONFIG takes effect; the end of CONFIG configures the partition and finishes the reset: READY, or OFF or OFFLINE with its cause, or a field test first where the die is suspect at module start. The stage watchdog counts in PRT_WDT_STAT, records PERM 0x93 and isolates the die for a cold reset (CAUSE 3), which resumes at CLEAR once its die is awake; a second expiry, or the cold reset's own watchdog, escalates to the module: FATAL 0x94, every job aborts, the records are flushed, the die is suspect and a power cycle is asked for. Without a reset in progress these events do nothing. Completion is stated of RESET_STAGE_DONE in every stage of a reset in progress, of RESET_STAGE_WATCHDOG in one, and of COLD_RESET_DONE and COLD_RESET_WATCHDOG in a cold reset. -/
def Obligations.ResetStagesFollowInOrder : Prop :=
  (∀ (s : State) (p : Nat), p < 16 → s.getReset p = none → exec (.resetStageDone p) s = .next s ∧ exec (.resetStageWatchdog p) s = .next s ∧
    exec (.coldResetDone p) s = .next s ∧ exec (.coldResetWatchdog p) s = .next s) ∧
  (∀ (s : State) (p : Nat) (r : ResetRun), p < 16 → s.getReset p = some r → r.cold = false → r.powerCycle = false →
    (r.stage = 0 → exec (.resetStageDone p) s = .next ((s.quiesce p).enterStage p r 1)) ∧
    (r.stage = 1 → r.kind ≠ 2 → exec (.resetStageDone p) s = .next
      (((s.clearPartition p false).enterStage p r 6).wf (PRT_STATE.STATE p) 2)) ∧
    (r.stage = 1 → r.kind = 2 → exec (.resetStageDone p) s = .next ((s.clearPartition p true).enterZero p r)) ∧
    (r.stage = 2 → exec (.resetStageDone p) s = .next ((s.zeroStage p 0).enterStage p r 3)) ∧
    (r.stage = 3 → exec (.resetStageDone p) s = .next ((s.zeroStage p 1).enterStage p r 4)) ∧
    (r.stage = 4 → exec (.resetStageDone p) s = .next ((s.zeroStage p 2).enterStage p r 5)) ∧
    (r.stage = 5 → exec (.resetStageDone p) s = .next
      (((s.zeroStage p 3).enterStage p { r with zeroed := true } 6).wf (PRT_STATE.STATE p) 2)) ∧
    (r.stage = 6 → (r.kind ≠ 2 ∨ r.zeroed = true) → exec (.resetStageDone p) s = .next (s.finishReset p r)) ∧
    (r.stage = 6 → r.kind = 2 → r.zeroed = false → exec (.resetStageDone p) s = .next ((s.clearPartition p true).enterZero p r)) ∧
    (let u := (s.wdtStat p 4 s.bedrockUnit).raise
        { unit := s.bedrockUnit, cls := .perm, code := 0x93, part := none, synd := [(p, 1), (r.stage, 1)] }
     (r.escalated = false → exec (.resetStageWatchdog p) s = .next (((((u.setReset p (some { r with cold := true, escalated := true })).wf
        (PRT_RST_LOG.ESC p) 1).inc (PRT_RST_LOG.COLD p)).wf (PRT_STATE.CAUSE p) 3).askDie p)) ∧
     (r.escalated = true → exec (.resetStageWatchdog p) s = .next (u.escalate p r)))) ∧
  (∀ (s : State) (p : Nat) (r : ResetRun), p < 16 → s.getReset p = some r → r.cold = true → r.powerCycle = false →
    (s.gov.awake.contains p = true → exec (.coldResetDone p) s = .next (s.enterStage p { r with cold := false } 1)) ∧
    (s.gov.awake.contains p = false → exec (.coldResetDone p) s = .next s) ∧
    exec (.coldResetWatchdog p) s = .next ((s.wdtStat p 5 s.bedrockUnit).escalate p r) ∧
    exec (.resetStageDone p) s = .next s) ∧
  (∀ (s : State) (p stage : Nat) (r : ResetRun), s.enterStage p r stage =
    (s.setReset p (some { r with stage := stage })).wf (PRT_RST_LOG.STAGE p) stage) ∧
  (∀ (s : State) (p : Nat), s.quiesce p = (List.range s.fuse.variant.chans).foldl
    (fun s i => s.setPc p i { s.getPc p i with reqs := [] }) (s.stopPartition p)) ∧
  (∀ (s : State) (p : Nat) (r : ResetRun),
    (s.rf BDR_SEC.DRBG_OK ≠ 1 → s.enterZero p r = s) ∧
    (s.rf BDR_SEC.DRBG_OK = 1 →
      let u := { s with drbgReqs := s.drbgReqs + 1, freeCtr := s.freeCtr + 1, mkey := s.mkey.set 0 p s.freeCtr }.inc (BDR_PSEC.KEYGEN p)
      s.enterZero p r = ((((((u.setTen p {}).setMember p {}).wf (BDR_PSEC.CLAIMED p) 0).wf (BDR_PSEC.PROVISIONED p) 0).enterStage
        p r 2).wf (PRT_STATE.STATE p) 1))) ∧
  (∀ (s : State) (p : Nat) (r : ResetRun),
    let u := ((s.configure p).setReset p none).mgmtDone p
    let t := u.setTen p { u.getTen p with lastRetenant := r.kind == 2, claimedSinceReset := false }
    (∀ c, t.heldOff p = some c → s.finishReset p r = (t.wf (PRT_STATE.STATE p) 0).wf (PRT_STATE.CAUSE p) c) ∧
    (∀ c, t.heldOff p = none → t.offlineCause p = some c →
      s.finishReset p r = (t.wf (PRT_STATE.STATE p) 6).wf (PRT_STATE.CAUSE p) c) ∧
    (t.heldOff p = none → t.offlineCause p = none → s.finishReset p r =
      if t.rf (PRT_STATE.CAUSE p) = 0 ∧ t.log.suspect.get 0 p = 1 then (t.setFt p { running := true }).wf (ASY_FT.BUSY p) 1
      else t.wf (PRT_STATE.STATE p) 3)) ∧
  (∀ (s : State) (p kind unit : Nat), s.wdtStat p kind unit =
    ((s.wf (PRT_WDT_STAT.LAST p) kind).wf (PRT_WDT_STAT.UNIT p) unit).inc (PRT_WDT_STAT.COUNT p)) ∧
  (∀ (s : State) (p : Nat) (r : ResetRun),
    let u := s.raise { unit := s.bedrockUnit, cls := .fatal, code := 0x94, part := none, synd := [(p, 1)] }
    let v := ((List.range 16).foldl (fun w q => w.startWave q 1 u.bedrockUnit) u).flushRecords
    let w := v.logState { v.log with suspect := v.log.suspect.set 0 p (v.log.suspect.get 0 p + 1) }
    let x := ((w.wf (PRT_RST_LOG.SUSPECT p) 1).wf (PRT_RST_LOG.ESC p) 2).setReset p (some { r with powerCycle := true })
    s.escalate p r = { x with pwrCycle := true }.platform .powerCycle)

/-- For memory in canonical form: after zeroStage p k every byte of partition p's stacked memory whose offset in its pseudo-channel lies in the k-th 256 MiB reads 0, every other byte of the module reads as before, and no register field changes; after all four stages every byte of the partition's stacked memory reads 0. -/
def Obligations.ZeroStagesClearStackedMemory : Prop :=
  (∀ (s : State) (p k key : Nat), Memory.wf s.mem = true →
    (s.zeroStage p k).byte key =
      if (p * 2 ^ 48 ≤ key ∧ key < p * 2 ^ 48 + s.fuse.variant.stackedBytes) ∧ (s.pcOf (key - p * 2 ^ 48)).2 / 2 ^ 28 = k then 0#8
      else s.byte key) ∧
  (∀ (s : State) (p k : Nat) (f : Fld), (s.zeroStage p k).rf f = s.rf f) ∧
  (∀ (s : State) (p a : Nat), Memory.wf s.mem = true → a < s.fuse.variant.stackedBytes →
    ((((s.zeroStage p 0).zeroStage p 1).zeroStage p 2).zeroStage p 3).byte (p * 2 ^ 48 + a) = 0#8)

/-- For every context in use (ordered context table and register file): after freeing, the context is free, its generation is one higher, or 1 after 16,383, and so not 0; its partition's INUSE is one lower; a handle of it names no live context of any partition. A context never used has generation 1, and a handle with GEN 0 is null: it names no context in any state. -/
def Obligations.FreedContextTakesTheNextGeneration : Prop :=
  (∀ (s : State) (p h : Nat), h / 2 ^ 18 % 2 ^ 14 = 0 → s.handleOk p h = false) ∧
  (∀ i : Nat, (State.reset.getCtx i).gen = 1) ∧
  ∀ (s : State) (i p h : Nat), (s.getCtx i).state ≠ 0 → Tbl.sortedFrom 0 s.ctx = true → Tbl.sortedFrom 0 s.flds = true →
    let g := (s.getCtx i).gen
    ((s.freeCtx i).getCtx i).gen = (if g = 16383 then 1 else g + 1) ∧ ((s.freeCtx i).getCtx i).gen ≠ 0 ∧ ((s.freeCtx i).getCtx i).state = 0 ∧
    (s.freeCtx i).rf (PRT_CTX.INUSE (s.getCtx i).part) = (s.rf (PRT_CTX.INUSE (s.getCtx i).part) - 1) % 2 ^ 19 ∧
    (h % 2 ^ 18 = i → (s.freeCtx i).handleOk p h = false)

/-- When PF n's command waits and a context is free for it, CONTEXT_WAIT_RESUME accepts the command; when none waits there, the first opening communication queue of the partition that waits for contexts goes on; otherwise nothing happens. MIGRATION_DEFERRED carries out the migration that waits on a context once 2 µs (200 ticks) have passed since the last one, and does nothing before. A context is free for PF n's command while INUSE is below QUOTA, fewer than 258,048 contexts belong to partitions and fewer than 1,024 handles of the function are open. Completion is stated of both commands. -/
def Obligations.WaitingCommandsResume : Prop :=
  (∀ (s : State) (n : Nat) (w : HostWait), n < 16 → (s.getHost n).wait = some w → exec (.contextWaitResume n) s = .next (
    if s.hostRoom n = true then (s.setHost n { s.getHost n with wait := none }).acceptSub n w.sub else s)) ∧
  (∀ (s : State) (n : Nat), s.hostRoom n = true ↔ s.rf (PRT_CTX.INUSE n) + 1 ≤ s.rf (PRT_CTX.QUOTA n) ∧ s.ctxsHeld + 1 ≤ 258048 ∧
    s.rf (HST_QSTAT.OPEN n) < 1024) ∧
  (∀ (s : State) (n q : Nat), n < 16 → (s.getHost n).wait = none →
    (s.colQueues n).find? (fun q => (s.getColq n q).waiting) = some q → exec (.contextWaitResume n) s = .next (s.openStreams n q)) ∧
  (∀ (s : State) (n : Nat), n < 16 → (s.getHost n).wait = none →
    (s.colQueues n).find? (fun q => (s.getColq n q).waiting) = none → exec (.contextWaitResume n) s = .next s) ∧
  (∀ (s : State) (i : Nat), i < 2 ^ 18 → (s.getAux i).migrWait ≠ 0 →
    (∀ t ∈ (s.getAux i).lastMigr, t + 200 ≤ s.now) → exec (.migrationDeferred i) s = .next (s.rebindNow ((s.getAux i).migrWait - 1))) ∧
  (∀ (s : State) (i t : Nat), i < 2 ^ 18 → (s.getAux i).lastMigr = some t → s.now < t + 200 → exec (.migrationDeferred i) s = .next s) ∧
  (∀ (s : State) (i : Nat), i < 2 ^ 18 → (s.getAux i).migrWait = 0 → exec (.migrationDeferred i) s = .next s)


/-! ## Chapter 5: Flint and the command queues -/

/-- For memory in canonical form and a 256-byte block of the data region or of tile memory, aligned to 256 bytes: when writeBlock with the block's own check word reports that every write was performed, the block reads the new bytes and verifies, and its ciphertext is their AES-256-XTS under the partition's memory key with the tweak address / 256; whether or not, every byte outside the block and (for the data region) outside the four bytes of its check word reads as before. It reports failure only for a data-region block whose check word lies in an uncorrectable pair. -/
def Obligations.WrittenBlockVerifies : Prop :=
  ∀ (s : State) (p a : Nat) (bs : List Byte), Memory.wf s.mem = true → Tbl.sortedFrom 0 s.tileChk = true → Tbl.sortedFrom 0 s.pc = true →
    p < 16 → bs.length = 256 → a % 256 = 0 →
    (a < s.fuse.variant.dataBytes ∨ (0xF00000000000 ≤ a ∧ a < 0xFF0000000000)) →
    let r := s.writeBlock p a bs (checkWord bs)
    (r.2 = true → r.1.block p a = bs ∧ r.1.blockOk p a = true ∧ r.1.cipherBlock p a = xtsEncrypt (s.memoryKey p) (a / 256) bs) ∧
    (∀ key, (key < memKey p a ∨ memKey p a + 256 ≤ key) →
      (a < s.fuse.variant.dataBytes → key < memKey p (s.checkAddr a) ∨ memKey p (s.checkAddr a) + 4 ≤ key) →
      r.1.byte key = s.byte key) ∧
    (r.2 = false → a < s.fuse.variant.dataBytes)

/-- On a Flint that issues, the base instruction at the pc executes, with its cycles counted in FLT_CYC_RUN. Arithmetic writes rd, unless it is x0, and moves the pc on by the instruction's length; every other register, and everything beside this Flint, stays. JAL and JALR write the return address and jump (JALR with bit 0 cleared); a branch goes to its target or on; a DMEM store writes 2^sz bytes of DMEM and no register. Division by zero gives all ones and the dividend as remainder (the RISC-V specification that R138 refers to: log entry 32). A fetch outside IMEM halts with cause 5 (access), an encoding that is no instruction with cause 3 (illegal). A Flint that does not issue does nothing. Completion is stated of FLINT_BASE_INSTRUCTION for every instruction at the pc. -/
def Obligations.FlintBaseInstructionExecutes : Prop :=
  (∀ (s : State) (p c cycles : Nat), p < 16 → c < s.lcores p → s.issues p c = true →
    (∀ i len, fetchAt (s.getFlint p c) = .instr i len → isBase (s.getFlint p c) i = true →
      exec (.flintBaseInstruction p c cycles) s = .next ((s.addf (FLT_CYC_RUN.CYCLES p c) cycles).baseInstr p c i len)) ∧
    (∀ i len, fetchAt (s.getFlint p c) = .instr i len → isBase (s.getFlint p c) i = false →
      exec (.flintBaseInstruction p c cycles) s = .next s) ∧
    (fetchAt (s.getFlint p c) = .fault →
      exec (.flintBaseInstruction p c cycles) s = .next ((s.addf (FLT_CYC_RUN.CYCLES p c) cycles).flintFault p c 5)) ∧
    (fetchAt (s.getFlint p c) = .illegal →
      exec (.flintBaseInstruction p c cycles) s = .next ((s.addf (FLT_CYC_RUN.CYCLES p c) cycles).flintFault p c 3))) ∧
  (∀ (s : State) (p c cycles : Nat), p < 16 → c < s.lcores p → s.issues p c = false → exec (.flintBaseInstruction p c cycles) s = .next s) ∧
  (∀ (s : State) (p c len : Nat) (i : RInstr), Tbl.sortedFrom 0 s.flint = true → Tbl.sortedFrom 0 (s.getFlint p c).x = true →
    let f := s.getFlint p c
    let t := s.baseInstr p c i len
    let g := t.getFlint p c
    let next := f.pc + BitVec.ofNat 64 len
    let writes (rd : Nat) (v pc : Word64) : Prop := t = { s with flint := t.flint } ∧ g = { f with x := g.x, pc := pc } ∧
      ∀ r, xreg g r = if r = rd ∧ rd ≠ 0 then v else xreg f r
    (∀ o w rd a b, i = .alu o w rd a b → writes rd (aluRun o w (xreg f a) (xreg f b)) next) ∧
    (∀ o w rd a v, i = .aluI o w rd a v → writes rd (aluRun o w (xreg f a) v) next) ∧
    (∀ rd v, i = .lui rd v → writes rd v next) ∧
    (∀ rd v, i = .auipc rd v → writes rd (f.pc + v) next) ∧
    (∀ rd o, i = .jal rd o → writes rd next (f.pc + o)) ∧
    (∀ rd a o, i = .jalr rd a o → writes rd next ((xreg f a + o) &&& ~~~1#64)) ∧
    (∀ k a b o, i = .branch k a b o → writes 0 0#64 (if condHolds k (xreg f a) (xreg f b) = true then f.pc + o else next)) ∧
    (i = .fence → writes 0 0#64 next)) ∧
  (∀ (s : State) (p c len sz a b : Nat) (o : Word64), dmemBase ≤ (xreg (s.getFlint p c) a + o).toNat →
    (xreg (s.getFlint p c) a + o).toNat < dmemBase + 0x10000 → (xreg (s.getFlint p c) a + o).toNat % 2 ^ sz = 0 →
    let f := s.getFlint p c
    s.baseInstr p c (.store sz a b o) len = s.setFlint p c { f with
      dmem := putBytes f.dmem ((xreg f a + o).toNat - dmemBase) (leBytes (2 ^ sz) (xreg f b).toNat), pc := f.pc + BitVec.ofNat 64 len }) ∧
  (∀ (s : State) (p c len sz rd a : Nat) (sg : Bool) (o : Word64), dmemBase ≤ (xreg (s.getFlint p c) a + o).toNat →
    (xreg (s.getFlint p c) a + o).toNat < dmemBase + 0x10000 → (xreg (s.getFlint p c) a + o).toNat % 2 ^ sz = 0 →
    let f := s.getFlint p c
    s.baseInstr p c (.load sz sg rd a o) len =
      s.wrNext p c rd (extLoad sz sg (tblBytes f.dmem ((xreg f a + o).toNat - dmemBase) (2 ^ sz))) len) ∧
  (∀ a b : Word64, alu64 .add a b = a + b ∧ alu64 .sub a b = a - b ∧ alu64 .mul a b = a * b ∧ alu64 .divu a 0#64 = BitVec.allOnes 64 ∧
    alu64 .div a 0#64 = BitVec.allOnes 64 ∧ alu64 .rem a 0#64 = a ∧ alu64 .remu a 0#64 = a ∧
    alu32 .add a b = (a.setWidth 32 + b.setWidth 32).signExtend 64)

/-- With u the state once the access's cycles are counted. A misaligned access halts Flint with cause 4 before anything else. An aligned one to a block that a mover segment is writing waits. A load from memory that is reachable, lost to no failed channel and verifies puts in flight the little-endian value of its 2^sz bytes, extended as the load says; Flint goes on when the access completes, with rd written and the pc moved on. A store to such a block of the data region (whose page of the route table is not protected) writes exactly its 2^sz bytes and the block's check word, moves the pc on and is in flight; one to tile memory likewise. A register access reads or writes the register, and a store that a bus error answers leaves what its other fields did. An access that nothing serves (no region, check words, memory not clocked, a protected route table) is a bus error and is in flight with fault cause 5 (access), as is one to a failed channel; a block that fails verification, or holds an uncorrectable word, gives cause 6. What completes is the oldest access in flight, and one with a fault halts Flint with its cause. With no access in flight a completion does nothing. Completion is stated of FLINT_LOAD and FLINT_STORE for every aligned address and target of partition space, and of FLINT_ACCESS_COMPLETE for a load, a store and a fault. -/
def Obligations.FlintPartitionAccesses : Prop :=
  (∀ (s : State) (p c cycles sz rd a len : Nat) (sg : Bool) (o : Word64) (ecc : List EccWord), p < 16 → c < s.lcores p →
    s.nextInstr p c = some (.load sz sg rd a o, len) → (xreg (s.getFlint p c) a + o).toNat < 2 ^ 48 →
    let ad := (xreg (s.getFlint p c) a + o).toNat
    let u := s.addf (FLT_CYC_RUN.CYCLES p c) cycles
    let due (v : State) (x : Word64) (fault : Nat) : State := v.inFlight p c ⟨true, rd, x, false, fault, ad⟩
    (ad % 2 ^ sz ≠ 0 → exec (.flintLoad p c cycles ecc) s = .next (u.flintFault p c 4)) ∧
    (ad % 2 ^ sz = 0 → s.interlocked p ad = true → exec (.flintLoad p c cycles ecc) s = .next s) ∧
    (ad % 2 ^ sz = 0 → s.interlocked p ad = false →
      ((∀ off, u.place p ad ≠ .regs off) → u.reach p ad = false → exec (.flintLoad p c cycles ecc) s = .next (due (u.busErr p ad) 0#64 5)) ∧
      (u.reach p ad = true → u.lost p ad = true → exec (.flintLoad p c cycles ecc) s = .next (due u 0#64 5)) ∧
      (∀ v, u.reach p ad = true → u.lost p ad = false → u.eccBlock p ad ecc = (v, false) → v.blockOk p ad = true →
        exec (.flintLoad p c cycles ecc) s = .next (due v (extLoad sz sg (leNat (v.bytes (memKey p ad) (2 ^ sz)))) 0)) ∧
      (∀ v, u.reach p ad = true → u.lost p ad = false → u.eccBlock p ad ecc = (v, false) → v.blockOk p ad = false →
        exec (.flintLoad p c cycles ecc) s = .next (due (v.checkFailRec p (v.flintUnit p c) ad) 0#64 6)) ∧
      (∀ v, u.reach p ad = true → u.lost p ad = false → u.eccBlock p ad ecc = (v, true) →
        exec (.flintLoad p c cycles ecc) s = .next ((due v 0#64 6).startWave p 1 (v.placeUnit p ad))) ∧
      (∀ off v, u.place p ad = .regs off → u.readReg p off (2 ^ sz) = some v →
        exec (.flintLoad p c cycles ecc) s = .next (due u (extLoad sz sg v) 0)) ∧
      (∀ off, u.place p ad = .regs off → u.readReg p off (2 ^ sz) = none →
        exec (.flintLoad p c cycles ecc) s = .next (due (u.busErr p ad) 0#64 5)))) ∧
  (∀ (s : State) (p c cycles sz a b len : Nat) (o : Word64) (ecc : List EccWord), p < 16 → c < s.lcores p →
    s.nextInstr p c = some (.store sz a b o, len) → (xreg (s.getFlint p c) a + o).toNat < 2 ^ 48 →
    let ad := (xreg (s.getFlint p c) a + o).toNat
    let v := xreg (s.getFlint p c) b
    let u := s.addf (FLT_CYC_RUN.CYCLES p c) cycles
    let due (w : State) (barrier : Bool) (fault : Nat) : State := w.setFlint p c { w.getFlint p c with
      pc := (w.getFlint p c).pc + BitVec.ofNat 64 len, access := (w.getFlint p c).access ++ [⟨false, 0, 0#64, barrier, fault, ad⟩] }
    (ad % 2 ^ sz ≠ 0 → exec (.flintStore p c cycles ecc) s = .next (u.flintFault p c 4)) ∧
    (ad % 2 ^ sz = 0 → s.interlocked p ad = true → exec (.flintStore p c cycles ecc) s = .next s) ∧
    (ad % 2 ^ sz = 0 → s.interlocked p ad = false → Tbl.sortedFrom 0 s.flint = true →
      ((∀ off, u.place p ad ≠ .regs off) → (u.reach p ad = false ∨ u.rtProtected p ad = true) →
        exec (.flintStore p c cycles ecc) s = .next (due (u.busErr p ad) false 5)) ∧
      (u.reach p ad = true → u.rtProtected p ad = false → u.lost p ad = true →
        exec (.flintStore p c cycles ecc) s = .next (due u false 5)) ∧
      (u.place p ad = .data → u.reach p ad = true → u.lost p ad = false → u.rtProtected p ad = false → u.blockOk p ad = true →
        u.pairBad p (u.checkAddr (ad / 256 * 256)) = false → sz ≤ 3 → Memory.wf s.mem = true →
        ∃ t, exec (.flintStore p c cycles ecc) s = .next t ∧ t.bytes (memKey p ad) (2 ^ sz) = leBytes (2 ^ sz) v.toNat ∧
          (∀ key, (key < memKey p ad ∨ memKey p ad + 2 ^ sz ≤ key) →
            (key < memKey p (u.checkAddr (ad / 256 * 256)) ∨ memKey p (u.checkAddr (ad / 256 * 256)) + 4 ≤ key) → t.byte key = s.byte key) ∧
          t.getFlint p c = { s.getFlint p c with
            pc := (s.getFlint p c).pc + BitVec.ofNat 64 len, access := (s.getFlint p c).access ++ [⟨false, 0, 0#64, false, 0, ad⟩] }) ∧
      (∀ w t, (∀ off, u.place p ad ≠ .regs off) → u.reach p ad = true → u.rtProtected p ad = false → u.lost p ad = false →
        u.eccBlock p ad ecc = (w, false) → w.mergeWrite p ad (leBytes (2 ^ sz) v.toNat) (.flint c) = (t, true) →
        exec (.flintStore p c cycles ecc) s = .next (due t false 0)) ∧
      (∀ w t, (∀ off, u.place p ad ≠ .regs off) → u.reach p ad = true → u.rtProtected p ad = false → u.lost p ad = false →
        u.eccBlock p ad ecc = (w, false) → w.mergeWrite p ad (leBytes (2 ^ sz) v.toNat) (.flint c) = (t, false) →
        exec (.flintStore p c cycles ecc) s = .next (due (w.checkFailRec p (w.flintUnit p c) ad) false 6)) ∧
      (∀ w, (∀ off, u.place p ad ≠ .regs off) → u.reach p ad = true → u.rtProtected p ad = false → u.lost p ad = false →
        u.eccBlock p ad ecc = (w, true) → exec (.flintStore p c cycles ecc) s = .next ((due w false 6).startWave p 1 (w.placeUnit p ad))) ∧
      (∀ off t, u.place p ad = .regs off → (due u (barrierOff off) 0).partWrite (.flint c) p off (2 ^ sz) v = (t, false) →
        exec (.flintStore p c cycles ecc) s = .next t) ∧
      (∀ off t, u.place p ad = .regs off → (due u (barrierOff off) 0).partWrite (.flint c) p off (2 ^ sz) v = (t, true) →
        exec (.flintStore p c cycles ecc) s = .next ((t.busErr p ad).faultLast p c 5)))) ∧
  (∀ (s : State) (p c : Nat) (x : Access), s.inFlight p c x = s.setFlint p c { s.getFlint p c with access := (s.getFlint p c).access ++ [x] }) ∧
  (∀ (s : State) (p c cycles : Nat) (x : Access) (rest : List Access), p < 16 → c < s.lcores p → (s.getFlint p c).access = x :: rest →
    let u := (s.setFlint p c { s.getFlint p c with access := rest }).addf (FLT_CYC_RUN.CYCLES p c) cycles
    (∀ i len, x.fault = 0 → x.load = true → fetchAt (s.getFlint p c) = .instr i len →
      exec (.flintAccessComplete p c cycles) s = .next (u.wrNext p c x.rd x.value len)) ∧
    (x.fault = 0 → x.load = false → exec (.flintAccessComplete p c cycles) s = .next u) ∧
    (x.fault ≠ 0 → exec (.flintAccessComplete p c cycles) s = .next (u.flintFault p c x.fault))) ∧
  (∀ (s : State) (p c rd len : Nat) (v : Word64), Tbl.sortedFrom 0 s.flint = true → Tbl.sortedFrom 0 (s.getFlint p c).x = true →
    let t := s.wrNext p c rd v len
    t = { s with flint := t.flint } ∧ (t.getFlint p c).pc = (s.getFlint p c).pc + BitVec.ofNat 64 len ∧
    ∀ r, xreg (t.getFlint p c) r = if r = rd ∧ rd ≠ 0 then v else xreg (s.getFlint p c) r) ∧
  (∀ (s : State) (p c cycles : Nat), p < 16 → c < s.lcores p → (s.getFlint p c).access = [] →
    exec (.flintAccessComplete p c cycles) s = .next s)

/-- ECALL at the pc halts Flint with cause 1 (DONE) and EBREAK with cause 2 (BREAK): RUN clears, STATE is halted, CAUSE and PC (the instruction's own address) are recorded, no stall and no access is left. Causes 3 to 6 halt in the same way and then raise FATAL 0x21 with cause and pc, which starts the abort wave with cause FAULT. With another instruction at the pc the commands do nothing. Completion is stated of ECALL and EBREAK. -/
def Obligations.FlintHalts : Prop :=
  (∀ (s : State) (p c len : Nat), p < 16 → c < s.lcores p → s.nextInstr p c = some (.ecall, len) → exec (.ecall p c) s = .next (s.haltFlint p c 1)) ∧
  (∀ (s : State) (p c len : Nat), p < 16 → c < s.lcores p → s.nextInstr p c = some (.ebreak, len) → exec (.ebreak p c) s = .next (s.haltFlint p c 2)) ∧
  (∀ (s : State) (p c : Nat), p < 16 → c < s.lcores p → (∀ len, s.nextInstr p c ≠ some (.ecall, len)) → exec (.ecall p c) s = .next s) ∧
  (∀ (s : State) (p c : Nat), p < 16 → c < s.lcores p → (∀ len, s.nextInstr p c ≠ some (.ebreak, len)) → exec (.ebreak p c) s = .next s) ∧
  (∀ (s : State) (p c k : Nat), s.haltFlint p c k =
    ((((s.setFlint p c { s.getFlint p c with stall := .none, access := [] }).wf (FLT_CTRL.RUN p c) 0).wf (FLT_STATUS.STATE p c) 0).wf
      (FLT_STATUS.CAUSE p c) k).wf (FLT_STATUS.PC p c) (s.getFlint p c).pc.toNat) ∧
  (∀ (s : State) (p c k : Nat), s.flintFault p c k =
    let r : Report := { unit := s.flintUnit p c, cls := .fatal, code := 0x21, part := some p,
                        synd := [(k, 1), ((s.getFlint p c).pc.toNat % 65536, 2)] }
    ((s.haltFlint p c k).raise r).startWave p 1 (s.flintUnit p c))

/-- For engine e of 0, 1, 2 and an ordered register file: the number a queue has issued reads 0 after the CLEAR of a partition reset (and at module reset); every enqueued entry (TQUE command, MODE, SEEDLD) takes the next number modulo 2^24, which is then the number issued. The done value d is the highest number such that every entry numbered d or lower has completed: one below the oldest incomplete entry, modulo 2^24, and the number issued when no entry is incomplete. Sequence s counts as complete exactly when (d − s) mod 2^24 is below 2^23. -/
def Obligations.SequenceNumbersComplete : Prop :=
  (∀ (s : State) (p c e : Nat) (r : Bool), p < 16 → c < 8 → e < 3 → Tbl.sortedFrom 0 s.flds = true →
    (s.clearPartition p r).rf (qIssued p c e) = 0 ∧ State.reset.rf (qIssued p c e) = 0) ∧
  (∀ (s : State) (p c e : Nat) (k : QKind), e < 3 → Tbl.sortedFrom 0 s.flds = true →
    (s.enqueue p c e k).2 = (s.rf (qIssued p c e) + 1) % 2 ^ 24 ∧
    (s.enqueue p c e k).1.rf (qIssued p c e) = (s.rf (qIssued p c e) + 1) % 2 ^ 24) ∧
  (∀ (s : State) (p c e : Nat), (s.getQueue p c e).entries = [] → s.doneOf p c e = s.rf (qIssued p c e)) ∧
  (∀ (s : State) (p c e : Nat) (x : QEntry) (rest : List QEntry), (s.getQueue p c e).entries = x :: rest →
    s.doneOf p c e = (x.seq + 2 ^ 24 - 1) % 2 ^ 24) ∧
  (∀ (s : State) (p c e sq : Nat), sq < 2 ^ 24 →
    (s.seqDone p c e sq = true ↔ ((s.doneOf p c e : Int) - (sq : Int)) % 2 ^ 24 < 2 ^ 23))

/-! ## Chapter 5: the command extension -/

/-- With encodeExt the word that R145's table gives (opcode 0b0001011, rd in bits 11 to 7, funct3, rs1 in bits 19 to 15, rs2 = 0, the engine, slot or mode in funct7): decoding the word of any extension instruction whose field R145 permits (engines 0 to 2, slots 0 to 7, modes 0 and 1), for any rd and rs1, gives that instruction back; and a 32-bit word that decodes to an extension instruction is the word of that instruction, so that every other word of the opcode is illegal. A well-formed instruction standing at the pc in IMEM is fetched as such; any other word of the opcode there is illegal. TQUE a5, a0, mica is 0x0205078B. The effects of the six are the statements on TQUE, TWAIT and the others below. -/
def Obligations.ExtensionEncodingRoundTrips : Prop :=
  (∀ (e : Ext) (rd rs1 : Nat), e.ok = true → rd < 32 → rs1 < 32 → decode32 (encodeExt e rd rs1) = some (.ext e rd rs1)) ∧
  (∀ (w rd rs1 : Nat) (e : Ext), w < 2 ^ 32 → decode32 w = some (.ext e rd rs1) →
    w = encodeExt e rd rs1 ∧ e.ok = true ∧ rd < 32 ∧ rs1 < 32) ∧
  (∀ w : Nat, w < 2 ^ 32 → w % 128 = 0x0B → (decode32 w = none ∨ ∃ e rd rs1, w = encodeExt e rd rs1 ∧ e.ok = true ∧ rd < 32 ∧ rs1 < 32)) ∧
  (∀ (f : Flint) (w o : Nat), f.pc.toNat = imemBase + o → o < 0xFFFE → imem16 f o + 65536 * imem16 f (o + 2) = w → w % 128 = 0x0B →
    fetchAt f = match decode32 w with
      | some i => .instr i 4
      | none => .illegal) ∧
  encodeExt (.tque 1) 15 10 = 0x0205078B

/-- At a Flint that issues and with the instruction at the pc: TQUE from a 64-byte aligned DMEM operand, MODE and SEEDLD enqueue when the queue has room (a TQUE also waits until no store to a descriptor, a binding or STR_UPD is in flight) and otherwise stall. A misaligned operand of TQUE halts with cause 4, one outside DMEM with cause 5. Enqueuing gives rd (unless x0) the new sequence number, one more than the number issued, moves the pc on by 4 and ends the stall; every other register of this Flint, every other Flint, and all memory, contexts and engine state stay (only queues, register fields and requests to the governor move). TQUE_RESUME does it for a stalled instruction once the entry may be enqueued, counting the stalled cycles, and before that nothing. The eight words are those in DMEM at that moment. Completion is stated of TQUE, MODE, SEEDLD and TQUE_RESUME. -/
def Obligations.EnqueuingReturnsTheSequenceNumber : Prop :=
  (∀ (s : State) (p c rd eng : Nat) (v : Word64), p < 16 → c < s.lcores p → s.nextExt p c = some (.tque eng, rd, v) →
    let ws := cmdWords (s.getFlint p c) v.toNat
    (v.toNat % 64 = 0 → dmemBase ≤ v.toNat → v.toNat + 64 ≤ dmemBase + 65536 → s.mayEnqueue p c eng 0 = true →
      exec (.tque p c) s = .next (s.enqueueNow p c eng 0 ws rd)) ∧
    (v.toNat % 64 = 0 → dmemBase ≤ v.toNat → v.toNat + 64 ≤ dmemBase + 65536 → s.mayEnqueue p c eng 0 = false →
      exec (.tque p c) s = .next (s.stallIn p c (.enqueue eng 0 ws rd))) ∧
    (v.toNat % 64 ≠ 0 → exec (.tque p c) s = .next (s.flintFault p c 4)) ∧
    (v.toNat % 64 = 0 → (v.toNat < dmemBase ∨ dmemBase + 65536 < v.toNat + 64) → exec (.tque p c) s = .next (s.flintFault p c 5))) ∧
  (∀ (s : State) (p c rd m : Nat) (v : Word64), p < 16 → c < s.lcores p → s.nextExt p c = some (.mode m, rd, v) →
    (s.hasRoom p c 0 = true → exec (.mode p c) s = .next (s.enqueueNow p c 0 1 [BitVec.ofNat 64 m] rd)) ∧
    (s.hasRoom p c 0 = false → exec (.mode p c) s = .next (s.stallIn p c (.enqueue 0 1 [BitVec.ofNat 64 m] rd)))) ∧
  (∀ (s : State) (p c rd : Nat) (v : Word64), p < 16 → c < s.lcores p → s.nextExt p c = some (.seedld, rd, v) →
    (s.hasRoom p c 1 = true → exec (.seedld p c) s = .next (s.enqueueNow p c 1 2 [v] rd)) ∧
    (s.hasRoom p c 1 = false → exec (.seedld p c) s = .next (s.stallIn p c (.enqueue 1 2 [v] rd)))) ∧
  (∀ (s : State) (p c stalled eng kind rd : Nat) (ws : List Word64), p < 16 → c < s.lcores p →
    (s.getFlint p c).stall = .enqueue eng kind ws rd →
    (s.mayEnqueue p c eng kind = true →
      exec (.tqueResume p c stalled) s = .next ((s.addf (FLT_CYC_QFULL.CYCLES p c) stalled).enqueueNow p c eng kind ws rd)) ∧
    (s.mayEnqueue p c eng kind = false → exec (.tqueResume p c stalled) s = .next s)) ∧
  (∀ (s : State) (p c eng kind rd : Nat) (ws : List Word64), eng < 3 → Tbl.sortedFrom 0 s.flds = true → Tbl.sortedFrom 0 s.flint = true →
    Tbl.sortedFrom 0 (s.getFlint p c).x = true →
    let t := s.enqueueNow p c eng kind ws rd
    let f := s.getFlint p c
    let sq := (s.rf (qIssued p c eng) + 1) % 2 ^ 24
    t = { s with flint := t.flint, flds := t.flds, queue := t.queue, gov := t.gov } ∧ t.rf (qIssued p c eng) = sq ∧
    t.getFlint p c = { f with x := (t.getFlint p c).x, stall := .none, pc := f.pc + 4#64,
                              storeSeed := if kind = 2 then wordAt ws 0 else f.storeSeed } ∧
    (∀ r, xreg (t.getFlint p c) r = if r = rd ∧ rd ≠ 0 then BitVec.ofNat 64 sq else xreg f r) ∧
    (∀ p' c', coreKey p' c' ≠ coreKey p c → t.getFlint p' c' = s.getFlint p' c'))

/-- TWAIT returns at once when the sequence is complete, and otherwise stalls until TWAIT_RESUME finds it so: rd gets the first failing status since ERR was cleared (0 is OK). SUMRD (an 8-byte aligned DMEM operand of 24 bytes) waits until no incomplete Mica command enqueued before it names the slot; SUMRD_RESUME then writes words A, B and C to DMEM and returns word B. STEPB waits until the three queues are empty; STEPB_REPORT then returns the status in ERRSTAT of the first queue whose ERR is set (whatever the step number: log entry 78), or CHECKFAIL (with the abort wave) for a step number that is not the next, and otherwise reports to Strata, ends the update phase of its Flint and stalls until the boundary, when it returns OK and FLT_CYC_WAIT counts 12 cycles a tick of the stall. QUEUE_ERR_CLEAR (Flint or Bedrock; not PF16) clears ERR, ERRSTAT and the first status, after which the core's queues are brought up to date. Returning a value gives rd (unless x0) the value, moves the pc on by 4, ends the stall and changes nothing else. Completion is stated of TWAIT, TWAIT_RESUME, SUMRD, SUMRD_RESUME, STEPB, STEPB_REPORT and QUEUE_ERR_CLEAR. -/
def Obligations.WaitingInstructionsReturn : Prop :=
  (∀ (s : State) (p c rd eng : Nat) (v : Word64), p < 16 → c < s.lcores p → s.nextExt p c = some (.twait eng, rd, v) →
    (s.seqDone p c eng v.toNat = true → exec (.twait p c) s = .next
      ((s.flintReturn p c rd (BitVec.ofNat 64 (s.getQueue p c eng).firstErr)).inc (FLT_CYC_RUN.CYCLES p c))) ∧
    (s.seqDone p c eng v.toNat = false → exec (.twait p c) s = .next (s.stallIn p c (.twait eng (v.toNat % 2 ^ 24) rd)))) ∧
  (∀ (s : State) (p c stalled rd eng sq : Nat), p < 16 → c < s.lcores p → (s.getFlint p c).stall = .twait eng sq rd →
    exec (.twaitResume p c stalled) s = .next (if s.seqDone p c eng sq = true then
      (s.addf (FLT_CYC_WAIT.CYCLES p c) stalled).flintReturn p c rd (BitVec.ofNat 64 (s.getQueue p c eng).firstErr) else s)) ∧
  (∀ (s : State) (p c rd slot : Nat) (v : Word64), p < 16 → c < s.lcores p → s.nextExt p c = some (.sumrd slot, rd, v) →
    (v.toNat % 8 = 0 → dmemBase ≤ v.toNat → v.toNat + 24 ≤ dmemBase + 65536 →
      exec (.sumrd p c) s = .next (s.stallIn p c (.sumrd slot v.toNat rd (s.rf (qIssued p c 1))))) ∧
    (v.toNat % 8 ≠ 0 → exec (.sumrd p c) s = .next (s.flintFault p c 4)) ∧
    (v.toNat % 8 = 0 → (v.toNat < dmemBase ∨ dmemBase + 65536 < v.toNat + 24) → exec (.sumrd p c) s = .next (s.flintFault p c 5))) ∧
  (∀ (s : State) (p c stalled rd slot ad upto : Nat), p < 16 → c < s.lcores p → (s.getFlint p c).stall = .sumrd slot ad rd upto →
    ((s.getQueue p c 1).entries.all (fun x => !namesSlot slot x.kind || !seqCovers upto x.seq) = true → Tbl.sortedFrom 0 s.flint = true →
      ∃ t, exec (.sumrdResume p c stalled) s = .next t ∧
        (t.getFlint p c).dmem = putBytes (s.getFlint p c).dmem (ad - dmemBase) ((s.slotWords p c slot).flatMap (leBytes 8)) ∧
        (t.getFlint p c).pc = (s.getFlint p c).pc + 4#64 ∧ (t.getFlint p c).stall = .none ∧
        (rd ≠ 0 → Tbl.sortedFrom 0 (s.getFlint p c).x = true →
          xreg (t.getFlint p c) rd = BitVec.ofNat 64 ((s.slotWords p c slot).getD 1 0)) ∧ t = { s with flint := t.flint, flds := t.flds }) ∧
    ((s.getQueue p c 1).entries.any (fun x => namesSlot slot x.kind && seqCovers upto x.seq) = true →
      exec (.sumrdResume p c stalled) s = .next s)) ∧
  (∀ (s : State) (p c rd : Nat) (v : Word64), p < 16 → c < s.lcores p → s.nextExt p c = some (.stepb, rd, v) →
    exec (.stepb p c) s = .next (s.stallIn p c (.stepb v rd false 0))) ∧
  (∀ (s : State) (p c stalled rd k : Nat) (step : Word64), p < 16 → c < s.lcores p → (s.getFlint p c).stall = .stepb step rd false k →
    let u := s.addf (FLT_CYC_WAIT.CYCLES p c) stalled
    (s.queuesEmpty p c = false → exec (.stepbReport p c stalled) s = .next s) ∧
    (∀ e, s.queuesEmpty p c = true → u.errQueue p c = some e → exec (.stepbReport p c stalled) s = .next
      (u.flintReturn p c rd (BitVec.ofNat 64 (u.rf (qErrStat p c e))))) ∧
    (s.queuesEmpty p c = true → u.errQueue p c = none → u.stepOk p c step = true →
      exec (.stepbReport p c stalled) s = .next (
        let w := u.setFlint p c { u.getFlint p c with stall := .stepb step rd true u.now, lastStep := some step, upd := false }
        w.setStrata p { w.getStrata p with reports := c :: (w.getStrata p).reports.filter (· != c) })) ∧
    (s.queuesEmpty p c = true → u.errQueue p c = none → u.stepOk p c step = false →
      exec (.stepbReport p c stalled) s = .next ((u.flintReturn p c rd 3#64).startWave p 1 (u.flintUnit p c)))) ∧
  (∀ (s : State) (p c k rd : Nat) (step : Word64) (b : Bool), (s.getFlint p c).stall = .stepb step rd b k →
    s.stepbReturn p c = ((s.addf (FLT_CYC_WAIT.CYCLES p c) (12 * (s.now - k))).flintReturn p c rd 0#64).wf (FLT_STEP.STEP p c) step.toNat) ∧
  (∀ (s : State) (p c rd : Nat) (v : Word64), Tbl.sortedFrom 0 s.flint = true → Tbl.sortedFrom 0 (s.getFlint p c).x = true →
    let t := s.flintReturn p c rd v
    t = { s with flint := t.flint, flds := t.flds } ∧ (t.getFlint p c).pc = (s.getFlint p c).pc + 4#64 ∧ (t.getFlint p c).stall = .none ∧
    ∀ r, xreg (t.getFlint p c) r = if r = rd ∧ rd ≠ 0 then v else xreg (s.getFlint p c) r) ∧
  (∀ (s : State) (p c : Nat) (st : Stall), s.stallIn p c st =
    (s.setFlint p c { s.getFlint p c with stall := st }).wf (FLT_STATUS.STATE p c) 2) ∧
  (∀ (s : State) (a : Agent) (p c e : Nat), p < 16 → c < s.lcores p → e < 3 → a ≠ .pf16 → s.rf (PRT_CLK_EN.FLT p) = 1 →
    exec (.queueErrClear a p c e) s = .next ((((s.setQueue p c e { s.getQueue p c e with firstErr := 0 }).wf (qErr p c e) 0).wf
      (qErrStat p c e) 0).settle p c)) ∧
  (∀ (s : State) (p c e : Nat), p < 16 → c < s.lcores p → e < 3 → exec (.queueErrClear .pf16 p c e) s = .next s)

/-! ## Chapter 3: Garnet -/

/-- A MODE entry at the head of the Garnet queue completes OK; when it names the other mode every accumulator element of the core is first invalid and no operand loaded (those of other cores stay), GRN_MODE.MODE takes the new mode, SWITCHES counts one, SWITCHING reads 0 and the stalled array-cycles are counted. With GRN_CFG.IDLE_OFF set an idle array's GATED bit is set, and when all four are, a request goes to the governor; a busy or already gated array, or IDLE_OFF clear, leaves the state. An array is busy while its BUSY bit is set or a queued entry names it; in fused mode any BUSY bit counts for all four. When a granted ramp ends all four GATED bits clear and the wait is counted. Completion is stated of MODE_SWITCH in both cases, of ARRAY_IDLE_GATE gating an array, and of ARRAY_WAKE_DONE ending a ramp. -/
def Obligations.ModeSwitchAndGating : Prop :=
  (∀ (s : State) (p c stalled m : Nat) (x : QEntry) (rest : List QEntry), p < 16 → c < s.lcores p →
    (s.getQueue p c 0).entries = x :: rest → x.kind = .mode m →
    (m = s.rf (GRN_MODE.MODE p c) → exec (.modeSwitch p c stalled) s = .next (s.finish p c 0 x.seq 0)) ∧
    (m ≠ s.rf (GRN_MODE.MODE p c) → exec (.modeSwitch p c stalled) s = .next ((((((s.clearArrays p c).addf (GRN_CYC_STALL.CYCLES p c)
      stalled).wf (GRN_MODE.MODE p c) m).inc (GRN_MODE.SWITCHES p c)).wf (GRN_MODE.SWITCHING p c) 0).finish p c 0 x.seq 0))) ∧
  (∀ (s : State) (p c stalled : Nat), p < 16 → c < s.lcores p → (∀ x ∈ (s.getQueue p c 0).entries.head?, ∀ m, x.kind ≠ .mode m) →
    exec (.modeSwitch p c stalled) s = .next s) ∧
  (∀ (s : State) (p c : Nat), Tbl.sortedFrom 0 s.acc = true → Tbl.sortedFrom 0 s.loaded = true →
    (∀ k, (s.clearArrays p c).acc.get none k = if k / 131072 = coreKey p c then none else s.acc.get none k) ∧
    (∀ k, (s.clearArrays p c).loaded.get none k = if k / 4 = coreKey p c then none else s.loaded.get none k) ∧
    s.clearArrays p c = { s with acc := (s.clearArrays p c).acc, loaded := (s.clearArrays p c).loaded }) ∧
  (∀ (s : State) (p c a : Nat), s.arrayBusy p c a = true ↔
    ((if s.fused p c = true then s.rf (GRN_STATUS.BUSY p c) ≠ 0 else bitOf (s.rf (GRN_STATUS.BUSY p c)) a = true) ∨
      ∃ x ∈ (s.getQueue p c 0).entries, a ∈ s.clockedArrays p c x)) ∧
  (∀ (s : State) (p c a : Nat), p < 16 → c < s.lcores p → a < 4 → s.rf (GRN_CFG.IDLE_OFF p c) ≠ 0 →
    bitOf (s.rf (GRN_STATUS.GATED p c)) a = false → s.arrayBusy p c a = false → exec (.arrayIdleGate p c a) s = .next (
      let u := s.wf (GRN_STATUS.GATED p c) (s.rf (GRN_STATUS.GATED p c) + 2 ^ a)
      if s.rf (GRN_STATUS.GATED p c) + 2 ^ a = 15 then u.govRequest (.arrays p c false) else u)) ∧
  (∀ (s : State) (p c a : Nat), p < 16 → c < s.lcores p → (s.rf (GRN_CFG.IDLE_OFF p c) = 0 ∨ bitOf (s.rf (GRN_STATUS.GATED p c)) a = true ∨
    s.arrayBusy p c a = true) → exec (.arrayIdleGate p c a) s = .next s) ∧
  (∀ (s : State) (p c waited : Nat), p < 16 → c < s.lcores p → exec (.arrayWakeDone p c waited) s = .next (
    if (s.getGarnet p c).waking = true then
      ((s.setGarnet p c { s.getGarnet p c with waking := false }).wf (GRN_STATUS.GATED p c) 0).addf (GRN_CYC_STALL.CYCLES p c) waited
    else s))

/-- With x the pass's plan by the maps as they stand: its operands, the effective masks, the driven vectors, the cells and streamed elements as local indices, and whether every seen cell lies in absent tiles. A pass command that may start waits while the mover writes a map block it reads; else its entry is started and the stalled array-cycles are counted. A malformed command, a REUSE with no operand of that format and sparsity, an ACCUM over an invalid word, a non-local cell or streamed element, or a byte outside its key/value slot completes CHECKFAIL before any operand is read. Otherwise the operand's unmasked cells are loaded into the array (none under REUSE) and the pass, with its check groups of 64 vectors and its copy of the map bytes, joins those of the core; a skipped pass counts in DSP_OCC_SKIP and its groups are not driven; a pass with no driven vector completes OK. A read that fails completes the command with its status and keeps the operand loaded before (the model's choice, log entry 69). A command that may not start leaves the state. Completion is stated of GARNET_PASS for a loading, a reusing and a skipped pass. -/
def Obligations.GarnetPassStarts : Prop :=
  (∀ (s : State) (p c sq stalled : Nat) (es : List EccWord), p < 16 → c < s.lcores p → s.garnetEntry p c sq 1 = none →
    exec (.garnetPass p c sq stalled es) s = .next s) ∧
  (∀ (s : State) (p c sq stalled : Nat) (es : List EccWord) (e : QEntry) (ws : List Word64), p < 16 → c < s.lcores p →
    s.garnetEntry p c sq 1 = some (e, ws) →
    let m := passCmd ws
    let w := s.planOf p c m
    let waits := (w.smaps ++ w.vmaps).any (s.interlocked p)
    let u := (s.start p c 0 sq).addf (GRN_CYC_STALL.CYCLES p c) stalled
    let x := u.planOf p c m
    let fused := u.fused p c
    let width := accWidth fused m.sparse
    let matching := !m.reuse || x.reuseOk m.sparse
    let valid := !m.accum || u.accumOk p c m.arr width m.base x.n x.cm
    let readable := (x.skipped || x.vecs.isSome) && u.passKv x
    (s.passOk p c m = true → waits = true → exec (.garnetPass p c sq stalled es) s = .next s) ∧
    (s.passOk p c m = false → u.passOk p c m = false → exec (.garnetPass p c sq stalled es) s = .next (u.finish p c 0 sq 3)) ∧
    (u.passOk p c m = true → waits = false →
      (matching = false → exec (.garnetPass p c sq stalled es) s = .next (u.finish p c 0 sq 3)) ∧
      (matching = true → valid = false → exec (.garnetPass p c sq stalled es) s = .next (u.finish p c 0 sq 3)) ∧
      (matching = true → valid = true → x.cells = none → exec (.garnetPass p c sq stalled es) s = .next (u.finish p c 0 sq 3)) ∧
      (matching = true → valid = true → readable = false → exec (.garnetPass p c sq stalled es) s = .next (u.finish p c 0 sq 3)) ∧
      (∀ ls v st, m.reuse = false → valid = true → readable = true → x.cells = some ls → u.loadCells p c x.so ls es = .fail v st →
        exec (.garnetPass p c sq stalled es) s = .next (v.finish p c 0 sq st)) ∧
      (∀ ls v cells, matching = true → valid = true → readable = true → x.cells = some ls →
        (if m.reuse = true then v = u ∧ cells = (x.old.getD {}).cells else u.loadCells p c x.so ls es = .ok v cells) →
        let kept := cells.filter (fun k => k.2.isSome)
        let put (y : State) : State := if m.reuse = true then y
          else y.setLoaded p c m.arr (some ⟨x.so.d.fmt, m.sparse, x.skipped, x.rm, x.cm, kept⟩)
        let q : Pass := ⟨sq, m.arr, m.accum, m.base, x.n, width, x.vo.d.fmt, x.so.d.fmt, m.m0, m.kt, v.descWords p m.vdesc ++ [x.vo.bind],
          x.rm, x.cm, kept, v.mapCopy p x.vmaps, [], false, 0, 0⟩
        let enter (y : State) (gs : List Group) (cyc : Nat) : State :=
          let z := y.addf (GRN_CYC_LOAD.CYCLES p c) (arrayCycles (y.fused p c) cyc)
          if gs = [] then z.finish p c 0 sq 0
          else z.putGarnet p c { z.getGarnet p c with passes := (z.getGarnet p c).passes ++ [{ q with groups := gs }] }
        (x.skipped = true → exec (.garnetPass p c sq stalled es) s = .next
          (enter ((put v).inc (DSP_OCC_SKIP.PASSES p)) (skippedGroups 16 0 x.n) 0)) ∧
        (∀ v2 st gs, x.skipped = false → v.streamAll p c (kTile fused) m.m0 m.kt x.rm x.vo es 16 0 x.n = (v2, st, gs) →
          (st ≠ 0 → exec (.garnetPass p c sq stalled es) s = .next (v2.finish p c 0 sq st)) ∧
          (st = 0 → exec (.garnetPass p c sq stalled es) s = .next (enter ((put v2).addf (DSP_OCC_SKIP.GROUPS p)
            (gs.filter (fun g => !g.driven)).length) gs (if m.reuse = true then 0 else kTile fused))))))) ∧
  (∀ (s : State) (p c : Nat) (m : PCmd), (s.planOf p c m).old = s.getLoaded p c m.arr ∧ ((s.planOf p c m).reuseOk m.sparse = true ↔
    ∃ l, s.getLoaded p c m.arr = some l ∧ l.fmt = (s.opnd p c m.sdesc).d.fmt ∧ l.sparse = m.sparse)) ∧
  (∀ (first left : Nat), left ≤ 64 → left ≠ 0 → skippedGroups 2 first left = [⟨first, List.replicate left [], false⟩])

/-- For a pass whose column mask lies within its width and ordered accumulators: committing a group gives, for each of its vectors v and each unmasked column j, the accumulator word of row BASE + first + v and column j the value RNE(old + sum) and makes it valid; old is +0 under INIT and for an invalid word, sum is the column sum of the vector, and 0 for a group that is not driven. Every other accumulator word of every array and core stays, and beside the accumulators only the count GRN_MACS moves. With agreeing residues, and no uncorrectable word among the accumulator words it reads, CHECK_GROUP_COMMIT counts the group's cycles, reports each corrected word, commits the next group of the array's oldest pass, and the pass completes OK with its last group; while the head group recomputes, the group after it commits. An uncorrectable accumulator word commits nothing: the pass completes CHECKFAIL and the word is reported. With no started pass on the array both commands leave the state. Completion is stated of CHECK_GROUP_COMMIT. -/
def Obligations.CheckGroupCommitsItsElements : Prop :=
  (∀ (s : State) (p c t : Nat) (q : Pass) (g : Group), Tbl.sortedFrom 0 s.acc = true → (∀ j ∈ bitsSet 256 q.cmask, j < q.width) →
    let u := s.commitGroup p c t q g
    let key (v j : Nat) := accKey p c q.arr ((q.base + g.first + v) * q.width + j)
    (∀ (v : Nat) (h : v < g.vecs.length) (j : Nat), j ∈ bitsSet 256 q.cmask → u.acc.get none (key v j) =
      some (toF32 ((if q.accum = true then f32 (s.accWord (key v j)) else .fin false 0 0).add
        (if g.driven = true then q.colSum t j g.vecs[v] else .fin false 0 0)))) ∧
    (∀ k, (∀ v j, v < g.vecs.length → j ∈ bitsSet 256 q.cmask → k ≠ key v j) → u.acc.get none k = s.acc.get none k) ∧
    u = { s with acc := u.acc, flds := u.flds } ∧ (∀ f : Fld, Tbl.sortedFrom 0 s.flds = true → f.cell ≠ (GRN_MACS.MACS p c).cell →
      u.rf f = s.rf f)) ∧
  (∀ (s : State) (p c a : Nat) (acc : List EccWord) (q : Pass) (g : Group) (gs : List Group), p < 16 → c < s.lcores p →
    s.headPass p c a = some q → (if q.recomp = true then q.groups.drop 1 else q.groups) = g :: gs →
    let u := s.addf (GRN_CYC_STREAM.CYCLES p c) (arrayCycles (s.fused p c) (q.groupCycles g))
    ((∀ e ∈ acc, q.reads g (accPlace (s.fused p c) e.pos).1 (accPlace (s.fused p c) e.pos).2 = true → e.fixed = true) →
      exec (.checkGroupCommit p c a .agree acc) s = .next
        (((u.accEcc p c q.width (q.reads g) acc).commitGroup p c (kTile (s.fused p c)) q g).dropGroup p c q.seq g.first q.recomp)) ∧
    (∀ e ∈ acc, ∀ res, q.reads g (accPlace (s.fused p c) e.pos).1 (accPlace (s.fused p c) e.pos).2 = true → e.fixed = false →
      exec (.checkGroupCommit p c a res acc) s = .next ((u.failPass p c q.seq).accEcc p c q.width (q.reads g) acc))) ∧
  (∀ (s : State) (p c width : Nat) (reads : Nat → Nat → Bool), s.accEcc p c width reads [] = s) ∧
  (∀ (s : State) (p c a : Nat) (res : Residue) (acc es : List EccWord), p < 16 → c < s.lcores p → s.headPass p c a = none →
    exec (.checkGroupCommit p c a res acc) s = .next s ∧ exec (.checkGroupRecompute p c a res acc es) s = .next s)

/-- Each operand element held in an array carries the residue modulo 7 of its integer significand (the implicit bit included); the expected residue of a place of a group comes from the residues held. A mismatch commits nothing: LAST_ARRAY, LAST_ROW and the array's RECOMP bit are set and the pass keeps expected and found residues for CHECK_GROUP_RECOMPUTE. While it recomputes, the group after it may still commit, but its own mismatch waits. The recompute reads the group's vectors again through the map bytes the pass copied (a group not driven reads none), counts its cycles twice (streaming, and with the drain as stall) and clears the bit: with agreeing residues GRN_RES.TRANS counts one, a TRANS record 0x01 is written and the newly read group is committed; with a second mismatch PERM is set, the command completes CHECKFAIL, a PERM record is raised, the physical core is retired and the job's abort wave starts; a failing read completes the command with its status. Completion is stated of CHECK_GROUP_RECOMPUTE with clean accumulator words, and of CHECK_GROUP_COMMIT noting a mismatch. -/
def Obligations.ResidueMismatchRecomputes : Prop :=
  (∀ (d : Desc) (e : Elem), d.held e = ⟨e, match floatFmt d.fmt with
    | some f => (bits e.code 0 f.mb + (if bits e.code f.mb f.eb = 0 then 0 else 2 ^ f.mb)) % 7
    | none => (toInt (fmtBits d.fmt) e.code % 7).toNat⟩) ∧
  (∀ (q : Pass) (t place : Nat) (g : Group), (g.driven = false → q.expectedAt t place g = 0) ∧
    (g.driven = true → q.expectedAt t place g = q.colResidue t (place % 256) (g.vecs.getD (place / 256) []))) ∧
  (∀ (s : State) (p c a f place : Nat) (q : Pass) (g : Group) (gs : List Group), p < 16 → c < s.lcores p → s.headPass p c a = some q →
    q.recomp = false → q.groups = g :: gs → exec (.checkGroupCommit p c a (.mismatch f place) []) s = .next (
      let u := ((s.addf (GRN_CYC_STREAM.CYCLES p c) (arrayCycles (s.fused p c) (q.groupCycles g))).wf (GRN_RES.LAST_ARRAY p c) a).wf
        (GRN_RES.LAST_ROW p c) (q.base + g.first)
      let u := u.wf (GRN_STATUS.RECOMP p c) (Nat.lor (u.rf (GRN_STATUS.RECOMP p c)) (2 ^ a))
      u.setGarnet p c { u.getGarnet p c with passes := (u.getGarnet p c).passes.map (fun x => if x.seq = q.seq
        then { x with recomp := true, expected := q.expectedAt (kTile (s.fused p c)) place g, found := f } else x) })) ∧
  (∀ (s : State) (p c a f place : Nat) (q : Pass), p < 16 → c < s.lcores p → s.headPass p c a = some q → q.recomp = true →
    exec (.checkGroupCommit p c a (.mismatch f place) []) s = .next s) ∧
  (∀ (s : State) (p c a : Nat) (es : List EccWord) (q : Pass) (g : Group) (gs : List Group), p < 16 → c < s.lcores p →
    s.headPass p c a = some q → q.recomp = true → q.groups = g :: gs →
    let fused := s.fused p c
    let cyc := arrayCycles fused (q.groupCycles g)
    let u := (s.addf (GRN_CYC_STREAM.CYCLES p c) cyc).addf (GRN_CYC_STALL.CYCLES p c) (cyc + arrayCycles fused (if fused = true then 13 else 12))
    let u := u.wf (GRN_STATUS.RECOMP p c) (u.rf (GRN_STATUS.RECOMP p c) - bits (u.rf (GRN_STATUS.RECOMP p c)) a 1 * 2 ^ a)
    let o := { u.opndOf p c q.vdesc (wordAt q.vdesc 32) with snap := q.vmap }
    let r : GroupAns := if g.driven = true then u.streamGroup p c (kTile fused) q.m0 q.kt q.rmask g.first g.vecs.length o es else .ok u g
    (∀ v st res acc, r = .fail v st → exec (.checkGroupRecompute p c a res acc es) s = .next (v.failPassWith p c q.seq st)) ∧
    (∀ v g2, r = .ok v g2 → exec (.checkGroupRecompute p c a .agree [] es) s = .next
      ((((v.inc (GRN_RES.TRANS p c)).transRec p
        ⟨v.garnetUnit p c q.arr, .trans, 1, some p, 1, 0, 0, [(q.arr, 1), (q.base + g.first, 2), (q.expected, 1), (q.found, 1)], 0⟩).commitGroup p c (kTile fused) q g2).dropGroup
          p c q.seq g.first false)) ∧
    (∀ v g2 f place, r = .ok v g2 → exec (.checkGroupRecompute p c a (.mismatch f place) [] es) s = .next (
      let v := ((v.wf (GRN_RES.PERM p c) 1).wf (GRN_RES.LAST_ARRAY p c) a).wf (GRN_RES.LAST_ROW p c) (q.base + g.first)
      let v := (v.failPass p c q.seq).raise ⟨v.garnetUnit p c q.arr, .perm, 1, some p, 1, 0, 0,
        [(q.arr, 1), (q.base + g.first, 2), (q.expectedAt (kTile fused) place g2, 1), (f, 1)], 0⟩
      (v.retireCore p (v.physCore p c)).startWave p 1 (v.garnetUnit p c a))))

/-- A store that may start waits while a running pass still writes its rows or the mover writes a map block it reads. Malformed, it completes CHECKFAIL; a block of its partials or maps that does not verify completes it with that status, an uncorrectable accumulator word with CHECKFAIL and its report; else corrected words are reported and the store keeps, until it completes, its copy of the map bytes and one word for each row and column: the accumulator word, or the combination of its KSPLIT + 1 partials by the tree of R75, or, in fast mode (FAST and FAST_EN), in the order in which they became ready, which is counted and recorded as nondeterminism. When the store-transform unit ends, its busy cycles are counted, and with no bias and no scatter the elements are converted at row M0 + i and the columns reordered and permuted, built into blocks and written, the store completing OK if every write was performed and with the read's status if one failed. Completion is stated of GARNET_STORE with clean accumulator words and of GARNET_STORE_COMPLETE. -/
def Obligations.GarnetStoreCombinesAndWrites : Prop :=
  (∀ (s : State) (p c sq stalled : Nat) (order : List Nat) (acc es : List EccWord) (x : QEntry) (ws : List Word64), p < 16 → c < s.lcores p →
    s.garnetEntry p c sq 2 = some (x, ws) →
    let m := storeCmd ws
    let w := accWidth (s.fused p c) m.sparse
    let ps := s.partialsOf p c m ws
    let maps := s.storeMaps p c m w
    let waits := s.rowsPending p c w m.nrows ps || (s.storeOk p c m ws && maps.any (s.interlocked p))
    let u := (s.start p c 0 sq).addf (GRN_CYC_STALL.CYCLES p c) stalled
    let blocks := m.blocks c w ps ++ blocksOfAddrs maps
    (waits = true → exec (.garnetStore p c sq stalled order acc es) s = .next s) ∧
    (waits = false → u.storeOk p c m ws = false → exec (.garnetStore p c sq stalled order acc es) s = .next (u.finish p c 0 sq 3)) ∧
    (∀ v st, waits = false → u.storeOk p c m ws = true → u.verify p (u.tileUnit p c) blocks es = (v, st) → st ≠ 0 →
      exec (.garnetStore p c sq stalled order acc es) s = .next (v.finish p c 0 sq st)) ∧
    (∀ v e, waits = false → u.storeOk p c m ws = true → u.verify p (u.tileUnit p c) blocks es = (v, 0) → e ∈ acc → e.fixed = false →
      storeReads w m.nrows ps (accPlace (u.fused p c) e.pos).1 (accPlace (u.fused p c) e.pos).2 = true →
      exec (.garnetStore p c sq stalled order acc es) s = .next ((v.finish p c 0 sq 3).accEcc p c w (storeReads w m.nrows ps) acc)) ∧
    (∀ v, waits = false → u.storeOk p c m ws = true → u.verify p (u.tileUnit p c) blocks es = (v, 0) →
      (∀ e ∈ acc, storeReads w m.nrows ps (accPlace (u.fused p c) e.pos).1 (accPlace (u.fused p c) e.pos).2 = true → e.fixed = true) →
      let v := v.accEcc p c w (storeReads w m.nrows ps) acc
      let fast := m.fast && v.rf (GRN_CFG.FAST_EN p c) == 1
      let qs := if fast = true then inOrder ps order else ps
      let v1 := if fast = true ∧ 1 < ps.length then v.ndet p .ksplit (ps.length - 1) else v
      ∃ st : Store, exec (.garnetStore p c sq stalled order acc es) s = .next (v1.putGarnet p c { v1.getGarnet p c with
          stores := (v1.getGarnet p c).stores ++ [st] }) ∧ st.seq = sq ∧ st.words = ws ∧ st.seed = x.seed ∧ st.maps = v1.mapCopy p maps ∧
        st.rows = (List.range m.nrows).map (fun r => (List.range w).map (fun j =>
          combinePartials fast (qs.map (fun q => v.partialWord p c w q r j)))))) ∧
  (∀ (s : State) (p c sq stalled : Nat) (order : List Nat) (acc es : List EccWord), p < 16 → c < s.lcores p → s.garnetEntry p c sq 2 = none →
    exec (.garnetStore p c sq stalled order acc es) s = .next s) ∧
  (∀ a b x y : Word32, combinePartials true [a, b, x, y] = addF32 (addF32 (addF32 a b) x) y ∧
    combinePartials false [a, b, x, y] = addF32 (addF32 a b) (addF32 x y) ∧ combinePartials false [a, b, x] = addF32 (addF32 a b) x ∧
    combinePartials false [a] = a) ∧
  (∀ (s : State) (p c sq busy : Nat) (es : List EccWord) (x : Store), p < 16 → c < s.lcores p →
    (s.getGarnet p c).stores.find? (fun x => x.seq == sq) = some x →
    x.bdesc = [] → x.idesc = [] → isIntFmt (storeCmd x.words).fmt = false → Tbl.sortedFrom 0 s.flds = true →
    ∃ u : State, u = { s with flds := u.flds } ∧
      (∀ f : Fld, f.cell ≠ (TLM_STX_BUSY.CYCLES p c).cell → f.cell ≠ (TLM_SCAT_SUP.OOB p c).cell → f.cell ≠ (TLM_SCAT_SUP.NONLOCAL p c).cell → u.rf f = s.rf f) ∧
      let m := storeCmd x.words
      let w := accWidth (u.fused p c) m.sparse
      let d := u.copied p c x.ddesc
      let cols := (List.range (m.regionCols w)).map (m.destCol w)
      let puts := (List.range (m.regionRows w)).flatMap (fun k =>
        u.convertRow d m x.seed (m.row0 + k) cols ((List.range (m.regionCols w)).map (storedVal m x.rows [] k)))
      (∀ v st, u.build (u.tileUnit p c) d puts es = .fail v st → exec (.garnetStoreComplete p c sq busy es) s = .next (v.storeEnd p c x.seq st)) ∧
      (∀ v b, u.build (u.tileUnit p c) d puts es = .ok v b → exec (.garnetStoreComplete p c sq busy es) s = .next
        ((v.writeSet p b.t).1.storeEnd p c x.seq (if (v.writeSet p b.t).2 = true then 0 else 3)))) ∧
  (∀ (s : State) (p c sq busy : Nat) (es : List EccWord), p < 16 → c < s.lcores p →
    (s.getGarnet p c).stores.find? (fun x => x.seq == sq) = none → exec (.garnetStoreComplete p c sq busy es) s = .next s)

/-! ## Chapter 4: Mica -/

/-- For the command at the head of the Mica queue of an idle, awake Mica whose waits are done, being the operation the row names (MOP, SUBOP): a command that breaks the conditions of R158 (or names the BF16 view of an operation without that mark) completes CHECKFAIL. Otherwise it is staged: the words of register DST it will write take, at each element of the valid extent, the given function of the operands A, B and C there (each a register, a row or column broadcast, or the scalar), rounded once into the view; elements outside the extent keep their bits; with them its cost, and the summary of what is written. ADD, SUB, MUL and FMA round once; MAX and MIN are those of R77; DIV, RCP and SQRT are correctly rounded; comparisons give all ones or 0; SEL takes B where A has a bit set; EXP to SIGMOID have R124's exact special values, and otherwise the exact function's value to within 2 ulp (an overflow an infinity), which bits the spec leaves open (log entry 6); TRANS exchanges rows and columns. Completion is stated of every element-wise operation, comparison, SEL, transcendental and TRANS. -/
def Obligations.ElementwiseCommandsStage : Prop :=
  (∀ (s : State) (p c : Nat) (x : QEntry) (ws : List Word64), p < 16 → c < s.lcores p → s.micaHead p c = some (x, ws) →
    let m := micaCmd ws
    let u := s.start p c 1 x.seq
    let a (r k : Nat) : Val := (u.opA p c m r k).val
    let b (r k : Nat) : Val := (u.opB p c m r k).val
    let d (r k : Nat) : Val := (u.opC p c m r k).val
    let word (r k : Nat) : Word32 := BitVec.ofNat 32 (u.opA p c m r k).raw
    let rnd (v : Val) : Nat := viewNarrow m.view v
    let mask (t : Bool) : Nat := if t = true then (if m.view = 0 then 0xFFFFFFFF else 0xFFFF) else 0
    let staged (i : Instr) (mop sub : Nat) (bf : Bool) (cost : Nat) (f : Nat → Nat → Nat) : Prop := m.mop = mop → m.subop = sub →
      (m.ok bf = false → exec i s = .next (u.finish p c 1 x.seq 3)) ∧
      (m.ok bf = true → let sm := summaryOf m (overValid m f) (viewVal m.view) false
        exec i s = .next ((u.setStage p c (some ⟨x.seq, mop, cost, u.regWords p c m (overValid m f), [], some sm, m.smode, m.slot, sm.nonfin,
          false, 0, 0⟩)).wf (MCA_STATUS.BUSY p c) 1))
    staged (.add p c) 0x01 0 true (costOf 1 m) (fun r k => rnd ((a r k).add (b r k))) ∧
    staged (.sub p c) 0x02 0 true (costOf 1 m) (fun r k => rnd ((a r k).add (b r k).neg)) ∧
    staged (.mul p c) 0x03 0 true (costOf 1 m) (fun r k => rnd ((a r k).mul (b r k))) ∧
    staged (.fma p c) 0x04 0 true (costOf 1 m) (fun r k => rnd (((a r k).mul (b r k)).add (d r k))) ∧
    staged (.max p c) 0x05 0 true (costOf 1 m) (fun r k => rnd ((a r k).max77 (b r k))) ∧
    staged (.min p c) 0x05 1 true (costOf 1 m) (fun r k => rnd ((a r k).min77 (b r k))) ∧
    staged (.abs p c) 0x06 0 true (costOf 1 m) (fun r k => rnd (a r k).abs) ∧
    staged (.neg p c) 0x06 1 true (costOf 1 m) (fun r k => rnd (a r k).neg) ∧
    staged (.div p c) 0x08 0 false (costOf 3 m) (fun r k => rnd ((a r k).div (b r k))) ∧
    staged (.rcp p c) 0x09 0 false (costOf 2 m) (fun r k => rnd ((Val.fin false 1 0).div (a r k))) ∧
    staged (.sqrt p c) 0x0A 0 false (costOf 2 m) (fun r k => rnd (a r k).sqrt) ∧
    staged (.cmplt p c) 0x10 0 true (costOf 1 m) (fun r k => mask ((a r k).lt (b r k))) ∧
    staged (.cmple p c) 0x10 1 true (costOf 1 m) (fun r k => mask ((a r k).lt (b r k) || (a r k).eq (b r k))) ∧
    staged (.cmpeq p c) 0x10 2 true (costOf 1 m) (fun r k => mask ((a r k).eq (b r k))) ∧
    staged (.sel p c) 0x13 0 true (costOf 1 m) (fun r k =>
      if (u.opA p c m r k).raw = 0 then (u.opC p c m r k).raw else (u.opB p c m r k).raw) ∧
    staged (.exp p c) 0x20 0 false (costOf 2 m) (fun r k => (expOp (word r k)).toNat) ∧
    staged (.exps p c) 0x21 0 false (costOf 2 m) (fun r k => (expOp (toF32 (((a r k).mul (f32 m.scal)).add (b r k).neg))).toNat) ∧
    staged (.log p c) 0x22 0 false (costOf 2 m) (fun r k => (logOp (word r k)).toNat) ∧
    staged (.rsqrt p c) 0x23 0 false (costOf 2 m) (fun r k => (rsqrtOp (word r k)).toNat) ∧
    staged (.tanh p c) 0x24 0 false (costOf 3 m) (fun r k => (tanhOp (word r k)).toNat) ∧
    staged (.erf p c) 0x25 0 false (costOf 3 m) (fun r k => (erfOp (word r k)).toNat) ∧
    staged (.sigmoid p c) 0x26 0 false (costOf 3 m) (fun r k => (sigmoidOp (word r k)).toNat) ∧
    staged (.trans p c) 0x62 0 false 16 (fun r k => (u.opA p c m k r).raw)) ∧
  (∀ (s : State) (p c r j : Nat) (m : MCmd) (f : Nat → Nat → Nat) (v : Word32), m.view = 0 → m.vrows ≤ 64 → m.vcols ≤ 64 →
    ((tregKey p c m.dst r j, v) ∈ s.regWords p c m (overValid m f) → r < 64 → j < 64 → m.dst < 16 →
      r < m.vrows ∧ j < m.vcols ∧ v = BitVec.ofNat 32 (f r j)) ∧
    (r < m.vrows → j < m.vcols → (tregKey p c m.dst r j, BitVec.ofNat 32 (f r j)) ∈ s.regWords p c m (overValid m f))) ∧
  (∀ (x : Word32) (n : Bool) (k : Nat) (e : Int), f32 x = .fin n k e → k ≠ 0 →
    expOp x = bounded (exactExp (f32 x)) (Config.expBits x) ∧ tanhOp x = bounded (exactTanh (f32 x)) (Config.tanhBits x) ∧
    erfOp x = bounded (exactErf (f32 x)) (Config.erfBits x) ∧ sigmoidOp x = bounded (exactSigmoid (f32 x)) (Config.sigmoidBits x) ∧
    logOp x = (if n = true then canonicalNan else bounded (exactLn (f32 x)) (Config.logBits x)) ∧
    rsqrtOp x = (if n = true then canonicalNan else bounded (exactRsqrt (f32 x)) (Config.rsqrtBits x))) ∧
  (∀ (v : Val) (c : Word32), bounded v c = toF32 v ∨ ((rnd32 v).finite = true ∧ withinUlps 2 v (bounded v c) = true)) ∧
  (expOp 0x7FC00000#32 = 0x7FC00000#32 ∧ expOp 0xFF800000#32 = 0#32 ∧ expOp 0x7F800000#32 = 0x7F800000#32 ∧ expOp 0#32 = 0x3F800000#32) ∧
  (logOp 0#32 = 0xFF800000#32 ∧ logOp 0xBF800000#32 = 0x7FC00000#32 ∧ rsqrtOp 0x80000000#32 = 0xFF800000#32 ∧ rsqrtOp 0x7F800000#32 = 0#32 ∧
    tanhOp 0xFF800000#32 = 0xBF800000#32 ∧ erfOp 0x80000000#32 = 0x80000000#32 ∧ sigmoidOp 0x80000000#32 = 0x3F000000#32)

/-- As for element-wise commands, of the command at the head of an idle, awake Mica. CVT converts into the command's format with the block scale of an MX format, and WIDEN back (a NaN becoming the canonical one); they fail on format codes above 9, FP32 from the BF16 view, or an MX block not aligned. The five random operations give each element the function of the counter-based bits of (seed, tensor, global row, global column), and fail without a valid descriptor or with indices out of R130's range: RNDU the fraction, RNDB the comparison with the threshold, RNDN a value of Φ^-1, GUMBEL the noise added to A, RAWBITS the bits. A row reduction writes column RIDX of the valid rows, a column reduction row RIDX of the valid columns: sum by the tree, maximum and minimum of R77, count of non-zeros, index of the lowest maximum. TLD stages the descriptor's elements at ROW0 and COL0, clamped to the extent; TST stages the packed codes for tile memory; both fail without a valid tile-memory descriptor, and with the status of a failing read; TLD waits while the mover writes a map block it reads. Completion is stated of CVT, WIDEN, the random operations, the reductions, TLD and TST. -/
def Obligations.ConversionsRandomReductionsAndTileAccess : Prop :=
  (∀ (s : State) (p c : Nat) (x : QEntry) (ws : List Word64), p < 16 → c < s.lcores p → s.micaHead p c = some (x, ws) →
    let m := micaCmd ws
    let u := s.start p c 1 x.seq
    let staging (w : Writes) (val : Nat → Val) (cost : Nat) (mem : WriteSet) (regs : List (Nat × Word32)) (v : State) (conv : Bool) : State :=
      (v.setStage p c (some ⟨x.seq, m.mop, cost, regs, mem, some (summaryOf m w val conv), m.smode, m.slot,
        (summaryOf m w val conv).nonfin, false, 0, 0⟩)).wf (MCA_STATUS.BUSY p c) 1
    let toReg (w : Writes) (cost : Nat) : State := staging w (viewVal m.view) cost [] (u.regWords p c m w) u false
    let failed (v : State) (st : Nat) : State := v.finish p c 1 x.seq st
    let is (mop sub : Nat) (bf : Bool) : Prop := m.mop = mop ∧ m.subop = sub ∧ m.ok bf = true
    (is 0x30 0 true → ((10 ≤ m.fmt ∨ (m.fmt = 0 ∧ m.view = 1) ∨ (isMx m.fmt = true ∧ m.col0 % 32 ≠ 0)) → exec (.cvt p c) s = .next (failed u 3)) ∧
      (m.fmt < 10 → (m.fmt ≠ 0 ∨ m.view ≠ 1) → (isMx m.fmt = false ∨ m.col0 % 32 = 0) → ∃ conv : Bool,
        (let w := overValid m (fun r k => u.cvtElem p c m r k)
         exec (.cvt p c) s = .next (staging w (narrowVal m.view m.fmt) (costOf 1 m) [] (u.regWords p c m w) u conv)) ∧
        (conv = true ↔ isIntFmt m.fmt = true ∧ ∃ r k, r < m.vrows ∧ k < m.vcols ∧ (u.opA p c m r k).val.finite = false))) ∧
    (is 0x31 0 true → ((10 ≤ m.fmt ∨ (m.fmt = 0 ∧ m.view = 1)) → exec (.widen p c) s = .next (failed u 3)) ∧
      (m.fmt < 10 → (m.fmt ≠ 0 ∨ m.view ≠ 1) → exec (.widen p c) s = .next
      (toReg (overValid m (fun r k => viewNarrow m.view (narrowVal m.view m.fmt (u.opA p c m r k).raw))) (costOf 1 m)))) ∧
    (let d := (u.opnd p c m.tdesc).d
     let bits (r k : Nat) : Word32 := randomBits (u.seedOf p c) m.tid (m.row0 + r) (m.col0 + k)
     let drawn (i : Instr) (sub cost : Nat) (f : Nat → Nat → Word32) : Prop := is (0x40 + sub) 0 false →
       ((u.idxOk p c m.tdesc = false ∨ 2 ^ 40 ≤ d.rows ∨ 2 ^ 30 ≤ d.cols) → exec i s = .next (failed u 3)) ∧
       (u.idxOk p c m.tdesc = true → d.rows < 2 ^ 40 → d.cols < 2 ^ 30 →
         exec i s = .next (toReg (overValid m (fun r k => (f r k).toNat)) cost))
     drawn (.rndu p c) 0 (costOf 1 m) (fun r k => rnduOf (bits r k)) ∧
     drawn (.rndb p c) 1 (costOf 1 m) (fun r k => if (bits r k).toNat < m.thresh then 0xFFFFFFFF#32 else 0#32) ∧
     drawn (.rndn p c) 2 (costOf 2 m) (fun r k => rndnOf ((bits r k).toNat / 256)) ∧
     drawn (.gumbel p c) 3 (costOf 3 m) (fun r k => gumbelOf (bits r k) (BitVec.ofNat 32 (u.opA p c m r k).raw)) ∧
     drawn (.rawbits p c) 4 (costOf 1 m) (fun r k => bits r k)) ∧
    (let rows (op : Nat) : Writes := fun r k => if r < m.vrows ∧ k = m.ridx then some (reduceLine op m.col0 (u.lineOf p c m true r)).toNat else none
     let cols (op : Nat) : Writes := fun r k => if k < m.vcols ∧ r = m.ridx then some (reduceLine op m.row0 (u.lineOf p c m false k)).toNat else none
     (is 0x50 0 false → exec (.rsum p c) s = .next (toReg (rows 0) 20)) ∧ (is 0x50 1 false → exec (.rmax p c) s = .next (toReg (rows 1) 20)) ∧
     (is 0x50 2 false → exec (.rmin p c) s = .next (toReg (rows 2) 20)) ∧ (is 0x50 3 false → exec (.rcnt p c) s = .next (toReg (rows 3) 20)) ∧
     (is 0x50 4 false → exec (.rargmax p c) s = .next (toReg (rows 4) 20)) ∧ (is 0x58 0 false → exec (.csum p c) s = .next (toReg (cols 0) 24)) ∧
     (is 0x58 1 false → exec (.cmax p c) s = .next (toReg (cols 1) 24)) ∧ (is 0x58 2 false → exec (.cmin p c) s = .next (toReg (cols 2) 24)) ∧
     (is 0x58 3 false → exec (.ccnt p c) s = .next (toReg (cols 3) 24)) ∧ (is 0x58 4 false → exec (.cargmax p c) s = .next (toReg (cols 4) 24))) ∧
    (let o := u.opnd p c m.tdesc
     let waits := (s.tldMaps p c m).any (s.interlocked p)
     (∀ es, waits = true → exec (.tld p c es) s = .next s) ∧
     (∀ es, is 0x60 0 true → waits = false → u.tileDescOk p c m = false → exec (.tld p c es) s = .next (failed u 3)) ∧
     (∀ es v gs, is 0x60 0 true → waits = false → u.tileDescOk p c m = true →
       u.readList (u.tileUnit p c) o (region m.row0 m.col0 m.vrows m.vcols) es = .ok v gs →
       let w := overValid m (fun r k => match gs[r * m.vcols + k]? with
         | some g => packElem o.d g.elem
         | none => 0)
       exec (.tld p c es) s = .next (staging w (o.d.regVal m.view) 8 [] (v.regWords p c m w) v false)) ∧
     (∀ es v st, is 0x60 0 true → waits = false → u.tileDescOk p c m = true →
       u.readList (u.tileUnit p c) o (region m.row0 m.col0 m.vrows m.vcols) es = .fail v st → exec (.tld p c es) s = .next (failed v st)) ∧
     (let puts : List Put := (region 0 0 m.vrows m.vcols).map (fun rk =>
        ⟨m.row0 + rk.1, m.col0 + rk.2, if (o.d.sparse && o.d.mx) = true then u.tstKept p c m o rk.1 rk.2 else u.tstElem p c m o.d rk.1 rk.2,
          if o.d.index = true then (u.tstElem p c m o.d rk.1 rk.2).code != 0 else nonzeroVal (o.d.value (u.tstElem p c m o.d rk.1 rk.2))⟩)
      (∀ es, is 0x60 1 true → (u.tileDescOk p c m = false ∨ (o.d.mx = true ∧ m.col0 % 32 ≠ 0)) → exec (.tst p c es) s = .next (failed u 3)) ∧
      (∀ es v st, is 0x60 1 true → u.tileDescOk p c m = true → (o.d.mx = false ∨ m.col0 % 32 = 0) →
        u.build (u.tileUnit p c) o puts es = .fail v st → exec (.tst p c es) s = .next (failed v st)) ∧
      (∀ es v b, is 0x60 1 true → u.tileDescOk p c m = true → (o.d.mx = false ∨ m.col0 % 32 = 0) →
        u.build (u.tileUnit p c) o puts es = .ok v b →
        exec (.tst p c es) s = .next (staging (overValid m (fun r k => v.telem p c m.view m.srca r k)) (o.d.regVal m.view) 8 b.t [] v false))))) ∧
  (∀ (s : State) (p c : Nat) (es : List EccWord), p < 16 → c < s.lcores p → s.micaHead p c = none →
    ∀ i ∈ [Instr.cvt p c, .widen p c, .rsum p c, .tld p c es, .tst p c es, .add p c, .trans p c], exec i s = .next s)

/-- With agreeing residues the staged command commits: each of its register words is written (the last write of a key wins), every other word of every tile register stays; its blocks go to tile memory; its summary goes to its slot by SMODE; MCA_NONFIN counts when R66 or a non-finite value marks it; OPS counts one, BUSY and RECOMP clear, the stage empties, and the queue entry completes OK (CHECKFAIL when a block write was not performed). A mismatch commits nothing: LAST_OP and RECOMP are set and lane and lane count kept; MICA_RETRY then commits with TRANS counted and a TRANS record 0x11, or, on a second mismatch, sets PERM, completes CHECKFAIL, raises the PERM record, retires the core and starts the abort wave. Without a stage nothing happens. Cycles lost to taken banks count in TLM_BANKWAIT too. An idle Mica with IDLE_OFF set is gated and its ramp asked for; a busy or gated one, or IDLE_OFF clear, leaves the state. Completion is stated of MICA_COMMIT, MICA_RETRY and MICA_IDLE_GATE. -/
def Obligations.MicaCommitsAndRetries : Prop :=
  (∀ (s : State) (p c waited f l : Nat) (g : MicaStage), p < 16 → c < s.lcores p → s.getStage p c = some g →
    let u := (s.addf (MCA_CYC_BUSY.CYCLES p c) (g.cost + waited)).addf (TLM_BANKWAIT.CYCLES p c) waited
    let v := s.addf (MCA_CYC_BUSY.CYCLES p c) (g.cost + 4)
    let rep (w : State) (cls : Cls) (g : MicaStage) : Report :=
      ⟨w.micaUnit p c, cls, 0x11, some p, 1, 0, 0, [(g.mop, 1), (g.lane, 1), (g.lanes, 2)], 0⟩
    (g.retry = false → exec (.micaCommit p c waited .agree) s = .next (u.micaDone p c g)) ∧
    (g.retry = false → exec (.micaCommit p c waited (.mismatch f l)) s = .next
      (((u.wf (MCA_RES.LAST_OP p c) g.mop).wf (MCA_STATUS.RECOMP p c) 1).setStage p c (some { g with retry := true, lane := l, lanes := f }))) ∧
    (g.retry = true → exec (.micaCommit p c waited .agree) s = .next s) ∧
    (g.retry = true → exec (.micaRetry p c .agree) s = .next
      (((v.inc (MCA_RES.TRANS p c)).transRec p (rep v .trans g)).micaDone p c g)) ∧
    (g.retry = true → exec (.micaRetry p c (.mismatch f l)) s = .next (
      let w := (((v.wf (MCA_RES.LAST_OP p c) g.mop).wf (MCA_RES.PERM p c) 1).wf (MCA_STATUS.BUSY p c) 0).wf (MCA_STATUS.RECOMP p c) 0
      let w := (w.setStage p c none).finish p c 1 g.seq 3
      let x := w.raise (rep w .perm { g with lane := l, lanes := f })
      (x.retireCore p (x.physCore p c)).startWave p 1 (w.micaUnit p c))) ∧
    (g.retry = false → exec (.micaRetry p c .agree) s = .next s)) ∧
  (∀ (s : State) (p c waited : Nat) (res : Residue), p < 16 → c < s.lcores p → s.getStage p c = none →
    exec (.micaCommit p c waited res) s = .next s ∧ exec (.micaRetry p c res) s = .next s) ∧
  (∀ (s : State) (p c : Nat) (g : MicaStage), Tbl.sortedFrom 0 s.treg = true → Tbl.sortedFrom 0 s.stage = true →
    let t := s.micaDone p c g
    (∀ k, (∀ e ∈ g.regw, e.1 ≠ k) → t.treg.get 0#32 k = s.treg.get 0#32 k) ∧
    (∀ (l r : List (Nat × Word32)) (k : Nat) (v : Word32), g.regw = l ++ (k, v) :: r → (∀ e ∈ r, e.1 ≠ k) → t.treg.get 0#32 k = v) ∧
    t.getStage p c = none ∧ (g.memw = [] → t = { s with flds := t.flds, treg := t.treg, stage := t.stage, queue := t.queue, gov := t.gov })) ∧
  (∀ (s : State) (p c : Nat), p < 16 → c < s.lcores p → s.rf (MCA_CFG.IDLE_OFF p c) ≠ 0 → s.rf (MCA_STATUS.GATED p c) ≠ 1 →
    s.getStage p c = none → (s.getQueue p c 1).entries = [] →
    exec (.micaIdleGate p c) s = .next ((s.wf (MCA_STATUS.GATED p c) 1).govRequest (.mica p c false))) ∧
  (∀ (s : State) (p c : Nat), p < 16 → c < s.lcores p → (s.rf (MCA_CFG.IDLE_OFF p c) = 0 ∨ s.rf (MCA_STATUS.GATED p c) = 1 ∨
    (s.getStage p c).isSome = true ∨ (s.getQueue p c 1).entries ≠ []) → exec (.micaIdleGate p c) s = .next s)

/-! ## Chapters 7 and 8: the mover and stacked memory -/

/-- The oldest unstarted command of a mover queue, being a copy whose waits allow, waits on while the mover writes a map or metadata block it reads as it starts. Malformed, or between two streams, it completes CHECKFAIL; with a stale handle STALE, with a handle not open ABORTED. A copy inside the partition whose descriptors and region are not permitted (a destination in a protected route table draws a bus error) completes CHECKFAIL; one whose occupancy-map and metadata reads do not verify completes with their status, one with metadata out of order CHECKFAIL; else its suppressed writes are counted, it copies its map bytes and is cut into segments of at most 256 blocks in ascending order; one without positions inside its destination completes OK. A copy to a stream counts its clamped reads and waits for the grant of its blocks unless that came before, and a differing grant is a window violation; a copy from a stream counts its suppressed writes and opens its posted window, or waits while another is open. MOVER_SEGMENT_START serves the queues round-robin after the one last served, and takes for the oldest segment of the core it serves the lowest free channel that is not retired; a segment that meets a block being written waits, and a failing read ends its copy with the status. MOVER_SEGMENT_DONE frees the channel and counts bytes; to a stream it queues the segment's messages; else it writes the blocks and counts pruned elements and carried or regenerated blocks, and the last segment completes the copy OK; a write not performed ends it CHECKFAIL. With nothing to start or end the state stays. Completion is stated of MOVER_COPY for copies inside the partition and to and from streams, of MOVER_SEGMENT_START running a segment, and of MOVER_SEGMENT_DONE for both kinds. -/
def Obligations.MoverCopiesRunInSegments : Prop :=
  (∀ (s : State) (p c sq : Nat) (es : List EccWord) (x : QEntry) (ws : List Word64), p < 16 → c < s.lcores p →
    s.nextEntry p c 2 = some x → x.kind = .cmd ws → x.seq = sq → s.canStart p c x = true → w0Ok 2 ws = true →
    let m := moverCmd ws
    let u := s.start p c 2 sq
    let bad := m.rsv = false ∨ m.skind = 3 ∨ m.dkind = 3 ∨ (m.skind = 2 ∧ m.dkind = 2)
    let idx := m.handle % 2 ^ 18
    let ends (t : State) : Prop := exec (.moverCopy p c sq es) s = .next (t.settle p c)
    (s.copyWaits p c m = true → exec (.moverCopy p c sq es) s = .next s) ∧
    (s.copyWaits p c m = false → bad → ends (u.finish p c 2 sq 3)) ∧
    (s.copyWaits p c m = false → ¬ bad → (m.skind = 2 ∨ m.dkind = 2) →
      (u.handleOk p m.handle = false → ends (u.finish p c 2 sq 1)) ∧
      (u.handleOk p m.handle = true → (u.getCtx idx).state ≠ 1 → ends (u.finish p c 2 sq 2)) ∧
      (u.handleOk p m.handle = true → (u.getCtx idx).state = 1 →
        ends (if m.dkind = 2 then u.startSend p c sq idx ws es else u.startReceive p c sq idx ws))) ∧
    (s.copyWaits p c m = false → ¬ bad → m.skind ≠ 2 → m.dkind ≠ 2 → ends (u.startLocal p c sq ws es))) ∧
  (∀ (s : State) (p c sq : Nat) (es : List EccWord), p < 16 → c < s.lcores p → s.nextEntry p c 2 = none →
    exec (.moverCopy p c sq es) s = .next s) ∧
  (∀ (s : State) (p c sq : Nat) (ws : List Word64) (es : List EccWord),
    let m := moverCmd ws
    let o := s.opnd p c m.sdesc
    let d := s.opnd p c m.ddesc
    let maps := s.localMaps p c m
    let w := s.addf (TLM_OOB_WR.ELEMS p c) (m.region.filter (fun rc => d.d.oob rc.1 rc.2)).length
    let reads := blocksOfAddrs (maps ++ s.localMetas p c m)
    (s.copyShape p c m = false → s.startLocal p c sq ws es = s.finish p c 2 sq 3) ∧
    (∀ a, s.copyShape p c m = true → s.protectedDst p c m = some a → (s.busErr p a).copyOk p c m = false →
      s.startLocal p c sq ws es = (s.busErr p a).finish p c 2 sq 3) ∧
    (s.copyShape p c m = true → s.protectedDst p c m = none → s.copyOk p c m = false → s.startLocal p c sq ws es = s.finish p c 2 sq 3) ∧
    (∀ v st, s.copyOk p c m = true → w.verify p (s.tileUnit p c) reads es = (v, st) → st ≠ 0 →
      s.startLocal p c sq ws es = v.finish p c 2 sq st) ∧
    (∀ v, s.copyOk p c m = true → w.verify p (s.tileUnit p c) reads es = (v, 0) →
      (rawCopy o d = false → (∃ rc ∈ m.region, s.metaOk d rc.1 rc.2 = false) → s.startLocal p c sq ws es = s.finish p c 2 sq 3) ∧
      ((rawCopy o d = true ∨ ∀ rc ∈ m.region, s.metaOk d rc.1 rc.2 = true) →
        let ms := pieces (v.cellsOf o d m)
        let blocks := ascending (ms.map (fun q => q.dst / 2048))
        s.startLocal p c sq ws es = v.cutCopy p
          ⟨c, sq, ws, s.copyWords p m.sdesc, s.copyWords p m.ddesc, carries ms, 0, v.mapCopy p maps⟩
          (if blocks = [] ∧ v.cellsOf o d m ≠ [] then [⟨c, sq, [], 0, true⟩] else segmentsOf c sq blocks)))) ∧
  (∀ (c sq : Nat) (blocks : List Nat) (g : Segment), g ∈ segmentsOf c sq blocks → g.blocks.length ≤ 256 ∧ g.core = c ∧ g.seq = sq) ∧
  (∀ (s : State) (p : Nat) (x : Copy), s.cutCopy p x [] = s.endCopy p x.core x.seq 0) ∧
  (∀ (s : State) (p c sq idx : Nat) (ws : List Word64) (es : List EccWord),
    let m := moverCmd ws
    let o := s.opnd p c m.sdesc
    let maps := o.mapAddrs (o.within m)
    let n := (o.windowBlocks m).length
    (s.streamOk o m.sdesc m.skind m = false → s.startSend p c sq idx ws es = s.finish p c 2 sq 3) ∧
    (∀ v, s.streamOk o m.sdesc m.skind m = true → s.verify p (s.tileUnit p c) (blocksOfAddrs maps) es = (v, 0) →
      let v1 := v.addf (TLM_CLAMP_RD.ELEMS p c) (m.outside o).length
      let h := v1.holdCopy p ⟨c, sq, ws, v1.copyWords p m.sdesc, [], true, 0, v1.mapCopy p maps⟩
      let a := v1.getAux idx
      (n = 0 → s.startSend p c sq idx ws es = h.endCopy p c sq 0) ∧
      (∀ g gs, n ≠ 0 → a.sends = [] → a.grants = g :: gs → s.startSend p c sq idx ws es = (h.setAux idx { a with grants := gs }).serveSend p c sq n g) ∧
      (n ≠ 0 → (a.sends ≠ [] ∨ a.grants = []) →
        s.startSend p c sq idx ws es = h.setAux idx { a with sends := a.sends ++ [(c, sq, n)] })) ∧
    (∀ v st, s.streamOk o m.sdesc m.skind m = true → s.verify p (s.tileUnit p c) (blocksOfAddrs maps) es = (v, st) → st ≠ 0 →
      s.startSend p c sq idx ws es = v.finish p c 2 sq st)) ∧
  (∀ (s : State) (p c sq n g : Nat) (x : Copy), (s.getMover p).copy c sq = some x →
    (n = g → s.serveSend p c sq n g = s.cutCopy p x (segmentsOf c sq ((s.opndCopy p c x.sdesc).windowBlocks (moverCmd x.words)))) ∧
    (n ≠ g → s.serveSend p c sq n g =
      (((s.inc (ZTP_WINVIOL.COUNT p)).endCopy p c sq 3)).queueCtl ((moverCmd x.words).handle % 2 ^ 18) 4 0)) ∧
  (∀ (s : State) (p c sq idx : Nat) (ws : List Word64),
    let m := moverCmd ws
    let o := s.opnd p c m.ddesc
    let h := (s.addf (TLM_OOB_WR.ELEMS p c) (m.outside o).length).holdCopy p ⟨c, sq, ws, [], s.copyWords p m.ddesc, true, 0, []⟩
    (s.streamOk o m.ddesc m.dkind m = false → s.startReceive p c sq idx ws = s.finish p c 2 sq 3) ∧
    (s.streamOk o m.ddesc m.dkind m = true → (s.getAux idx).posted = none →
      s.startReceive p c sq idx ws = h.openPosted idx p c sq ws (s.copyWords p m.ddesc)) ∧
    (s.streamOk o m.ddesc m.dkind m = true → (s.getAux idx).posted ≠ none →
      s.startReceive p c sq idx ws = h.setAux idx { s.getAux idx with recvWait := (s.getAux idx).recvWait ++ [(c, sq)] })) ∧
  (∀ (s : State) (idx p c sq : Nat) (ws dd : List Word64), let bs := (s.opndCopy p c dd).windowBlocks (moverCmd ws)
    (bs = [] → s.openPosted idx p c sq ws dd = s.endCopy p c sq 0) ∧
    (bs ≠ [] → let u := s.setAux idx { s.getAux idx with posted := some ⟨c, sq, bs, List.range bs.length⟩ }
      s.openPosted idx p c sq ws dd =
        (u.setCtx idx { u.getCtx idx with winBase := bs.headD 0 * 256, winLen := bs.length }).queueGrant idx bs.length)) ∧
  (∀ (s : State) (p c k : Nat) (es : List EccWord) (g : Segment) (x : Copy), p < 16 → s.nextCore p = some c → s.freeChannel p = some k →
    (s.getMover p).waiting.find? (fun g => g.core == c) = some g → (s.getMover p).copy c g.seq = some x →
    (s.readSegment p x g es = .wait → exec (.moverSegmentStart p es) s = .next s) ∧
    (∀ v st, s.readSegment p x g es = .fail v st → exec (.moverSegmentStart p es) s = .next (v.endCopy p c g.seq st)) ∧
    (∀ v r, s.readSegment p x g es = .run v r → exec (.moverSegmentStart p es) s = .next (v.takeChannel p k r))) ∧
  (∀ (s : State) (p : Nat) (es : List EccWord), p < 16 → (s.nextCore p = none ∨ s.freeChannel p = none) →
    exec (.moverSegmentStart p es) s = .next s) ∧
  (∀ (s : State) (p c : Nat), s.nextCore p = some c → (∃ g ∈ (s.getMover p).waiting, g.core = c) ∧
    (s.getMover p).held c < s.rf (MOV_CFG.QCHAN p)) ∧
  (∀ (s : State) (p k : Nat), s.freeChannel p = some k → k < 32 ∧ (s.getMover p).chans.get none k = none ∧
    bitOf (s.log.retiredChans.get 0 p) k = false ∧
    ∀ j, j < k → ((s.getMover p).chans.get none j ≠ none ∨ bitOf (s.log.retiredChans.get 0 p) j = true)) ∧
  (∀ (s : State) (p k : Nat) (r : Running) (x : Copy), p < 16 → (s.getMover p).chans.get none k = some r →
    (s.getMover p).copy r.seg.core r.seg.seq = some x →
    let u := s.putMover p { s.getMover p with chans := (s.getMover p).chans.set none k none }
    ((moverCmd x.words).dkind = 2 → exec (.moverSegmentDone p k) s = .next
      (((u.addf (MOV_BYTES.COUNT p) r.bytes).queueTx ((moverCmd x.words).handle % 2 ^ 18) r.msgs).copyProgress p r.seg.core r.seg.seq
        r.msgs.length)) ∧
    ((moverCmd x.words).dkind ≠ 2 →
      let w := u.writeSet p r.blocks
      let v := ((w.1.addf (MOV_BYTES.COUNT p) r.bytes).addf (TLM_PRUNED.ELEMS p r.seg.core) r.pruned).addf
        (if x.carry = true then MOV_BLK_CARRY.COUNT p else MOV_BLK_REGEN.COUNT p) r.blocks.length
      (w.2 = true → exec (.moverSegmentDone p k) s = .next (v.copyProgress p r.seg.core r.seg.seq 0)) ∧
      (w.2 = false → exec (.moverSegmentDone p k) s = .next (v.endCopy p r.seg.core r.seg.seq 3)))) ∧
  (∀ (s : State) (p k : Nat), p < 16 → (s.getMover p).chans.get none k = none → exec (.moverSegmentDone p k) s = .next s)

/-- DSP_GO.OPEN and RETURN (from a Flint or Bedrock) draw a bus error while DSP is not clocked, a round is open or ERR is set, and open their round otherwise. Opening sets CUR_RID and SEND_OPEN and discards and counts what is staged of an older round; a list that is not one, does not read, breaks R207 or has hosting entries without permitted values closes the round with CHECKFAIL or the status of the read before anything is sent. A round ends on a failure with ERR and, if it was clear, the status in ERRSTAT. TOKEN_SEND takes a free channel and sends the first token-choice in list order whose stream is free, as messages on the handle of its expert, unless the mover writes its row; after the last one an end marker goes to every distinct handle of the send table; a stale handle closes the round STALE, one not open ABORTED, an expert without entry CHECKFAIL. The messages of the four arrival commands arrive on their stream, are recorded for a replay, and are taken in SEQ order, each giving back the credit of its blocks: what is of an older round (modulo 2^32) counts in DSP_STALE, a marker of a round not yet open waits, a token is staged once its row is whole, a marker is noted, a returned row is written to the return buffer. TOKEN_DELIVER takes the entry's next token: while the entry has room the row and its slot metadata are written and DSP_DELIV counts; when full the token goes to its spill expert (DSP_SPILL), or is dropped (DSP_DROP). Opening a return round sends the rows of every hosting entry's valid slots and end markers of kind 2. Completion is stated of DISPATCH_ROUND_OPEN, RETURN_ROUND_OPEN, TOKEN_SEND, TOKEN_ARRIVE, END_MARKER_ARRIVE, SPILL_END_MARKER_ARRIVE, RETURN_ROW_ARRIVE and TOKEN_DELIVER. -/
def Obligations.DispatchRoundsSendAndDeliver : Prop :=
  (∀ (s : State) (a : Agent) (p : Nat), p < 16 → a ≠ .pf16 →
    (s.goRefused p = true ↔ (s.rf (DSP_STATUS.SEND_OPEN p) ≠ 0 ∨ s.rf (DSP_STATUS.RECV_OPEN p) ≠ 0 ∨ s.rf (DSP_STATUS.RET_OPEN p) ≠ 0 ∨
      s.rf (DSP_STATUS.ERR p) = 1)) ∧
    ((s.rf (PRT_CLK_EN.DSP p) = 0 ∨ s.goRefused p = true) → exec (.dispatchRoundOpen a p) s = .next (s.busErr p 0xFF0009000020) ∧
      exec (.returnRoundOpen a p) s = .next (s.busErr p 0xFF0009000020)) ∧
    (s.rf (PRT_CLK_EN.DSP p) ≠ 0 → s.goRefused p = false → exec (.dispatchRoundOpen a p) s = .next (s.openRound p) ∧
      exec (.returnRoundOpen a p) s = .next (s.openReturn p))) ∧
  (∀ (s : State) (p : Nat),
    let rid := s.rf (DSP_RND.RID p)
    let o := s.dspOpnd p (s.rf (DSP_RND.LIST p))
    let d := s.getDisp p
    let u := (((s.wf (DSP_STATUS.CUR_RID p) rid).setDisp p { d with
      opened := true, list := [], sent := [], hosts := [], staged := d.staged.filter (fun t => !ridOlder t.tok.rid rid) }).addf
        (DSP_STALE.COUNT p) (d.staged.filter (fun t => ridOlder t.tok.rid rid)).length).wf (DSP_STATUS.SEND_OPEN p) 1
    let isList := u.idxOk p 0 (s.rf (DSP_RND.LIST p)) && !o.d.tile && o.d.index && o.d.cols % 16 == 0 && u.rowDescOk p (u.rf (DSP_RND.XDESC p))
    (isList = false → s.openRound p = u.failRound p 3) ∧
    (∀ v st, isList = true → u.readList (dspUnit p) o (region 0 0 1 o.d.cols) = .fail v st → s.openRound p = v.failRound p st) ∧
    (∀ v gs, isList = true → u.readList (dspUnit p) o (region 0 0 1 o.d.cols) = .ok v gs →
      let es := routeEntries (o.d.cols / 16) (gs.map (fun g => g.elem.code))
      let good := es.all routeReserved && v.listValid p (es.map routeEntry) &&
        decide ((v.dspOpnd p (v.rf (DSP_RND.XDESC p))).d.rowSize ≤ 65536) && (v.hostWords p).all (v.hostOk p)
      (good = false → s.openRound p = v.failRound p 3) ∧
      (good = true → s.openRound p = (((v.setDisp p { v.getDisp p with
        list := es.map routeEntry, sent := [], hosts := (v.hostWords p).map (fun ws => ⟨ws, [], 0, false, false⟩), spillEnds := []
        spillSent := false, fast := v.rf (DSP_CFG.FAST_EN p) == 1 && v.rf (DSP_RND2.FAST p) == 1, retEnds := [], returned := [] }).wf
          (DSP_STATUS.RECV_OPEN p) (bit (!(v.hostWords p).isEmpty))).recvProgress p).drainAll p))) ∧
  (∀ (s : State) (p st : Nat), Tbl.sortedFrom 0 s.flds = true → st < 8 → s.roundsOpen p = true → let u := s.failRound p st
    u.rf (DSP_STATUS.SEND_OPEN p) = 0 ∧ u.rf (DSP_STATUS.RECV_OPEN p) = 0 ∧ u.rf (DSP_STATUS.RET_OPEN p) = 0 ∧
    u.rf (DSP_STATUS.ERR p) = 1 ∧ u.rf (DSP_STATUS.ERRSTAT p) = (if s.rf (DSP_STATUS.ERR p) = 1 then s.rf (DSP_STATUS.ERRSTAT p) else st)) ∧
  (∀ (s : State) (p : Nat), p < 16 → s.rf (DSP_STATUS.SEND_OPEN p) = 0 → exec (.tokenSend p) s = .next s) ∧
  (∀ (s : State) (p i k : Nat) (t : State) (e : RouteEntry) (j : Nat), p < 16 → s.rf (DSP_STATUS.SEND_OPEN p) ≠ 0 → s.nextChoice p = some i →
    (choicesOf (s.getDisp p).list)[i]? = some (e, j) → s.takeTurn p (s.dspTurn p) = some (k, t) →
    (s.rowWaits p (s.rf (DSP_RND.XDESC p)) e.row = true → exec (.tokenSend p) s = .next s) ∧
    (s.rowWaits p (s.rf (DSP_RND.XDESC p)) e.row = false →
      (t.sendEntry p (e.exps.getD j 0) = none → exec (.tokenSend p) s = .next (t.failRound p 3)) ∧
      (∀ h, t.sendEntry p (e.exps.getD j 0) = some h → t.handleOk p h = false → exec (.tokenSend p) s = .next (t.failRound p 1)) ∧
      (∀ h, t.sendEntry p (e.exps.getD j 0) = some h → t.handleOk p h = true → (t.getCtx (h % 2 ^ 18)).state ≠ 1 →
        exec (.tokenSend p) s = .next (t.failRound p 2)) ∧
      (∀ h v st, t.sendEntry p (e.exps.getD j 0) = some h → t.handleOk p h = true → (t.getCtx (h % 2 ^ 18)).state = 1 →
        t.readRow p (t.rf (DSP_RND.XDESC p)) e.row = .fail v st → exec (.tokenSend p) s = .next (v.failRound p st)) ∧
      (∀ h u gs, t.sendEntry p (e.exps.getD j 0) = some h → t.handleOk p h = true → (t.getCtx (h % 2 ^ 18)).state = 1 →
        t.readRow p (t.rf (DSP_RND.XDESC p)) e.row = .ok u gs →
        let v := u.queueTx (h % 2 ^ 18) (tokenMsgs ⟨u.rf (DSP_STATUS.CUR_RID p), e.token, j, u.rankOf p, e.gates.getD j 0#32, e.exps.getD j 0,
          false, e.spillx, rowBytes (u.dspOpnd p (t.rf (DSP_RND.XDESC p))).d (gs.map Got.elem)⟩ false)
        let w := v.setDisp p { v.getDisp p with sent := i :: (v.getDisp p).sent }
        exec (.tokenSend p) s = .next (if (v.getDisp p).sent.length + 1 = (choicesOf (v.getDisp p).list).length
          then (w.sendMarkers p 0).wf (DSP_STATUS.SEND_OPEN p) 0 else w)))) ∧
  (∀ (s : State) (p : Nat), p < 16 → s.rf (DSP_STATUS.SEND_OPEN p) ≠ 0 → choicesOf (s.getDisp p).list = [] →
    exec (.tokenSend p) s = .next ((s.sendMarkers p 0).wf (DSP_STATUS.SEND_OPEN p) 0)) ∧
  (∀ (s : State) (p i : Nat), s.nextChoice p = some i → i < (choicesOf (s.getDisp p).list).length ∧ i ∉ (s.getDisp p).sent) ∧
  (∀ (s : State) (p kind : Nat), s.sendMarkers p kind = if (∃ h ∈ s.sendHandles p, s.handleOk p h = false) then s.failRound p 1
    else (s.sendHandles p).foldl (fun s h => s.queueTx (h % 2 ^ 18)
      [⟨3, 256 * (s.rf (DSP_STATUS.CUR_RID p) % 2 ^ 32) + 2 ^ 40 * kind, [], [], none, false⟩]) s) ∧
  (∀ (s : State) (p : Nat) (m : Msg), p < 16 → m.dpart % 16 = p → (s.liveHandle m.dhandle = true → (s.getCtx (m.dhandle % 2 ^ 18)).kind = 2) →
    (m.mtype = 0 → (tokenPart m.blocks.flatten).ret = false → exec (.tokenArrive p m) s = .next (s.boxMessage m)) ∧
    (m.mtype = 0 → (tokenPart m.blocks.flatten).ret = true → exec (.returnRowArrive p m) s = .next (s.boxMessage m)) ∧
    (m.mtype = 3 → markerKind m ≠ 1 → exec (.endMarkerArrive p m) s = .next (s.boxMessage m)) ∧
    (m.mtype = 3 → markerKind m = 1 → exec (.spillEndMarkerArrive p m) s = .next (s.boxMessage m))) ∧
  (∀ (s : State) (m : Msg), let idx := m.dhandle % 2 ^ 18
    (∀ u, s.arrive m = (u, none) → s.boxMessage m = u) ∧
    (∀ u k, s.arrive m = (u, some k) → let x := u.getCtx idx
      let v := if x.part < 16 ∧ u.runs x.part = true then u.ringRecord x.part ⟨idx, m.seq, m.offset, m.blocks, m.checks, x.peerKind == 2⟩ else u
      s.boxMessage m = (v.intoBox idx k m).drainBox x.part idx ((v.getAux idx).inbox.length + 1))) ∧
  (∀ (s : State) (p idx n : Nat), s.drainBox p idx 0 = s ∧ ((s.getAux idx).inbox = [] → s.drainBox p idx (n + 1) = s) ∧
    (∀ m l, (s.getAux idx).inbox = m :: l →
      (seqBefore m.seq (s.getCtx idx).rxSeq = false → s.drainBox p idx (n + 1) = s) ∧
      (s.takeItem p idx m = none → s.drainBox p idx (n + 1) = s) ∧
      (∀ t, seqBefore m.seq (s.getCtx idx).rxSeq = true → s.takeItem p idx m = some t →
        let v := t.setAux idx { t.getAux idx with inbox := (t.getAux idx).inbox.tail }
        s.drainBox p idx (n + 1) = (if m.nblk = 0 then v else v.queueGrant idx m.nblk).drainBox p idx n))) ∧
  (∀ (s : State) (p idx : Nat) (m : Msg), m.mtype = 3 →
    (s.ridStale p (markerRid m) = true → s.takeItem p idx m = some (s.inc (DSP_STALE.COUNT p))) ∧
    (s.ridStale p (markerRid m) = false → s.ridNow p (markerRid m) = false → s.takeItem p idx m = none) ∧
    (s.ridStale p (markerRid m) = false → s.ridNow p (markerRid m) = true →
      (markerKind m = 2 → s.rf (DSP_STATUS.RET_OPEN p) = 1 → s.takeItem p idx m = some ((s.noteRetEnd p (s.peerRank idx)).retProgress p)) ∧
      (markerKind m = 2 → s.rf (DSP_STATUS.RET_OPEN p) ≠ 1 → s.takeItem p idx m = none) ∧
      (markerKind m = 1 → s.rf (DSP_STATUS.RECV_OPEN p) ≠ 0 → (s.getDisp p).spillEnds.contains (s.peerRank idx) = false →
        s.takeItem p idx m = some ((s.setDisp p { s.getDisp p with spillEnds := s.peerRank idx :: (s.getDisp p).spillEnds }).recvProgress p)) ∧
      (markerKind m = 0 → s.rf (DSP_STATUS.RECV_OPEN p) = 1 → s.takeItem p idx m = some ((s.noteEnd p (s.peerRank idx)).recvProgress p)))) ∧
  (∀ (s : State) (p idx : Nat) (m : Msg), m.mtype ≠ 3 → (∀ e ∈ m.blocks.zip m.checks, checkWord e.1 = e.2) →
    let t := tokenPart m.blocks.flatten
    let row := (if t.off = 0 then [] else (s.getAux idx).rowPart) ++ t.tok.row
    (s.ridStale p t.tok.rid = true → s.takeItem p idx m = some (if t.off = 0 then s.inc (DSP_STALE.COUNT p) else s)) ∧
    (s.ridStale p t.tok.rid = false → row.length < t.len → s.takeItem p idx m = some (s.setAux idx { s.getAux idx with rowPart := row })) ∧
    (s.ridStale p t.tok.rid = false → t.len ≤ row.length → s.takeItem p idx m =
      (if t.ret = true then (if s.ridNow p t.tok.rid = true ∧ s.rf (DSP_STATUS.RET_OPEN p) = 1 then some (s.takeRow p { t.tok with row := row }) else none)
        else s.stageToken p (s.peerRank idx) { t.tok with row := row }).map (fun u => u.setAux idx { u.getAux idx with rowPart := [] }))) ∧
  (∀ (s : State) (p i k : Nat) (u : State) (h : Hosting) (t : Staged) (primary : Bool), p < 16 → (s.getDisp p).hosts[i]? = some h →
    s.rf (DSP_STATUS.RECV_OPEN p) ≠ 0 → s.nextToken p h = some (t, primary) → s.takeTurn p (s.dspTurn p) = some (k, u) →
    ((s.stagedWaits p t = true ∨ s.spillFree p h t.tok primary = false) → exec (.tokenDeliver p i) s = .next s) ∧
    (s.stagedWaits p t = false → s.spillFree p h t.tok primary = true →
      (∀ v st row, u.stagedRow p t = (v, st, row) → st ≠ 0 → exec (.tokenDeliver p i) s = .next (v.failRound p st)) ∧
      (∀ v row, u.stagedRow p t = (v, 0, row) → rxCap h.words ≤ h.filled → exec (.tokenDeliver p i) s = .next
        ((((v.unstage p t).overflow p h { t.tok with row := row } primary).recvProgress p).drainAll p)) ∧
      (∀ v row v1 v2, u.stagedRow p t = (v, 0, row) → h.filled < rxCap h.words →
        (v.unstage p t).writeRow p (rxSlot h.words) h.filled (rowElems ((v.unstage p t).dspOpnd p (rxSlot h.words)).d row) = (v1, 0) →
        v1.writeMeta p h.words h.filled (metaBytes { t.tok with row := row }) = (v2, 0) →
        let w := (v2.putHost p i { h with filled := h.filled + 1 }).inc (DSP_DELIV.COUNT p)
        exec (.tokenDeliver p i) s = .next
          (((if ((v.unstage p t).getDisp p).fast = true then w.ndet p .disp 1 else w).recvProgress p).drainAll p)))) ∧
  (∀ (s : State) (p i : Nat) (h : Hosting), p < 16 → (s.getDisp p).hosts[i]? = some h → s.nextToken p h = none →
    exec (.tokenDeliver p i) s = .next s) ∧
  (∀ (s : State) (p : Nat) (h : Hosting) (m : TokenMsg),
    s.overflow p h m false = s.inc (DSP_DROP.COUNT p) ∧
    (rxSpill h.words = false ∨ m.spillx = 0xFFFF ∨ m.spillx = rxExpert h.words → s.overflow p h m true = s.inc (DSP_DROP.COUNT p)) ∧
    (∀ hd, rxSpill h.words = true → m.spillx ≠ 0xFFFF → m.spillx ≠ rxExpert h.words → s.sendEntry p m.spillx = some hd → s.handleOk p hd = true →
      s.overflow p h m true =
        (s.queueTx (hd % 2 ^ 18) (tokenMsgs { m with expert := m.spillx, spilled := true } false)).inc (DSP_SPILL.COUNT p))) ∧
  (∀ (s : State) (p : Nat), let rd := s.rf (DSP_RND2.RDESC p)
    let u := s.wf (DSP_STATUS.RET_OPEN p) 1
    let w := u.setDisp p { u.getDisp p with retEnds := [], returned := [] }
    (s.rf (DSP_RND2.RDESC p) ≠ 0xFFFF → u.rowDescOk p rd = false → s.openReturn p = u.failRound p 3) ∧
    (∀ v st, (rd = 0xFFFF ∨ u.rowDescOk p rd = true) → w.returnAll p (s.rf (DSP_STATUS.CUR_RID p)) (w.hostWords p) = (v, st) → st ≠ 0 →
      s.openReturn p = v.failRound p st) ∧
    (∀ v, (rd = 0xFFFF ∨ u.rowDescOk p rd = true) → w.returnAll p (s.rf (DSP_STATUS.CUR_RID p)) (w.hostWords p) = (v, 0) →
      s.openReturn p = ((v.sendMarkers p 2).retProgress p).drainAll p))

/-- R233 places each block of the stacked address space at one offset of one owned pseudo-channel, and addrAt is its inverse. What a pair holds is the AES-256-XTS ciphertext of its block under the partition's memory key with the address divided by 256 as tweak. Mover channel k asks on port k/8, a Flint, Strata and Assay on port 4. A grant first takes in what arrived and refills the regulators; at a ready channel the chosen port is the next in-guarantee one in round-robin order, else the next that LIMIT does not hold, unless the other pseudo-channel takes the slot; the request leaves, its charge (sectors and what moves with them, the pairs a read-modify-write reads with their turnaround, 1 for an activation, 4 for a turnaround) is added to CHARGED and, in guarantee, taken from the tokens, and its bytes counted. Then each pair it reads is looked at: one already uncorrectable, or found so now, is bad from then on, its address is kept if it is the first, and raises FATAL 0x51 and the job's abort wave; a corrected symbol raises CORR 0x51, and the third in one pair also PERM. Found by the scrub an uncorrectable pair raises PERM and no wave. A scrub also counts the on-die corrections reported with it. A failed channel drops its requests. Completion is stated of MEM_REQUEST_GRANT granting a request and of PATROL_SCRUB. -/
def Obligations.MemoryGrantsAndScrubs : Prop :=
  (∀ (s : State) (a : Nat), a < s.fuse.variant.stackedBytes →
    (s.pcOf a).1 < s.fuse.variant.chans ∧ (s.pcOf a).2 < 2 ^ 30 ∧ s.addrAt (s.pcOf a).1 (s.pcOf a).2 = a) ∧
  (∀ (s : State) (i o : Nat), i < s.fuse.variant.chans → o < 2 ^ 30 → s.addrAt i o < s.fuse.variant.stackedBytes ∧ s.pcOf (s.addrAt i o) = (i, o)) ∧
  (∀ (s : State) (p i o : Nat), s.storedPair p i o =
    ((xtsEncrypt (s.memoryKey p) (s.addrAt i o / 256) (s.block p (s.addrAt i o))).drop (o % 256 / 64 * 64)).take 64) ∧
  (∀ (k c : Nat), (k < 32 → reqPort (.channel k) = k / 8) ∧ reqPort (.flint c) = 4 ∧ reqPort .strata = 4 ∧ reqPort .assay = 4) ∧
  (∀ (s : State) (p i cycles : Nat) (arrived : List MemReq) (errs : List (Nat × PairErrors)), p < 16 → i < s.fuse.variant.chans →
    let ch := s.getChan (s.chanOf p i).1 (s.chanOf p i).2.1
    let u := (s.setPc p i { s.getPc p i with reqs := (s.getPc p i).reqs ++ arrived }).refill p i cycles
    (ch.st = 3 → exec (.memRequestGrant p i arrived cycles errs) s = .next (u.setPc p i { u.getPc p i with reqs := [] })) ∧
    ((ch.st = 0 ∨ ch.st = 2) → exec (.memRequestGrant p i arrived cycles errs) s = .next u) ∧
    (ch.st = 1 → u.chooseReq p i (u.getPc p i) = none → exec (.memRequestGrant p i arrived cycles errs) s = .next u) ∧
    (∀ r g, ch.st = 1 → u.chooseReq p i (u.getPc p i) = some (r, g) → u.slotToOther p i g = true →
      exec (.memRequestGrant p i arrived cycles errs) s = .next (u.inc (MEM_SLOTWAIT.CYCLES p i))) ∧
    (∀ r g, ch.st = 1 → u.chooseReq p i (u.getPc p i) = some (r, g) → u.slotToOther p i g = false →
      exec (.memRequestGrant p i arrived cycles errs) s = .next
        ((readPairs r).foldl (fun s q => s.pairRead p i errs q) (u.grantReq p i r g)))) ∧
  (∀ (s : State) (p i : Nat) (x : PseudoChan) (r : MemReq) (g : Bool), s.chooseReq p i x = some (r, g) →
    (g = true ↔ 256 * x.charge r ≤ s.rf (MEM_REG.TOKENS p i (memPort r))) ∧ (g = false → s.rf (MEM_REG.LIMIT p i (memPort r)) = 0) ∧ r ∈ x.reqs) ∧
  (∀ (s : State) (p i q : Nat) (errs : List (Nat × PairErrors)),
    let f := symbolFinding ((errs.filter (fun e => e.1 == q)).flatMap (·.2))
    (q ∈ (s.getPc p i).bad → s.pairRead p i errs q = s.pairUncorrectable p i (64 * q)) ∧
    (q ∉ (s.getPc p i).bad → (f = .clean → s.pairRead p i errs q = s) ∧
      (∀ pos, f = .corrected pos → s.pairRead p i errs q = s.pairCorrected p i (64 * q) pos false) ∧
      (f = .uncorrectable → s.pairRead p i errs q = s.pairUncorrectable p i (64 * q)))) ∧
  symbolFinding [] = .clean ∧
  (∀ (r : MemReq) (q : Nat), q ∈ readPairs r → r.off / 64 ≤ q ∧ q < r.off / 64 + memPairs r) ∧
  (∀ (s : State) (p i : Nat) (x : PseudoChan) (r : MemReq), x = s.getPc p i → Tbl.sortedFrom 0 s.pc = true → Tbl.sortedFrom 0 s.flds = true →
    let t := s.grantReq p i r true
    let k := memPort r
    let c := Nat.max r.sectors (2 * memPairs r) + (if isRmw r = true then 2 * partPairs r + 4 else 0) +
      (if x.rows.get 0 (bankOf r.off) = rowAt r.off + 1 then 0 else 1) + (if x.writing = (r.write && !isRmw r) then 0 else 4)
    t.getPc p i = { x with reqs := x.reqs.erase r, lastPort := k, lastReq := x.lastReq.set 0 k (reqPlace r.who),
                           rows := x.rows.set 0 (bankOf r.off) (rowAt r.off + 1), writing := r.write } ∧
    t.rf (MEM_SVC.CHARGED p i k) = (s.rf (MEM_SVC.CHARGED p i k) + c) % 2 ^ 64 ∧
    t.rf (MEM_BYTES.BYTES p i) = (s.rf (MEM_BYTES.BYTES p i) + 32 * r.sectors) % 2 ^ 64 ∧
    t = { s with pc := t.pc, flds := t.flds, chan := t.chan }) ∧
  (∀ (s : State) (p i o pos : Nat) (scrub : Bool),
    let n := (s.getPc p i).corrected.get 0 (o / 64) + 1
    let u := ((s.setPc p i { s.getPc p i with corrected := (s.getPc p i).corrected.set 0 (o / 64) n }).inc (MEM_ECC.CORR p i))
    let v := u.raise (u.pairReport p i o pos .corr scrub)
    s.pairCorrected p i o pos scrub = if n = 3 then v.raise (v.pairReport p i o pos .perm scrub) else v) ∧
  (∀ (s : State) (p i o : Nat), Tbl.sortedFrom 0 s.pc = true →
    (s.pairUncorrectable p i o = let u := (s.pairLost p i o).eccAddr p i o false
      (u.raise { u.pairReport p i o 0xFF .fatal false with cls := .fatal, part := some p }).startWave p 1 (u.memUnit p i)) ∧
    o / 64 ∈ ((s.pairLost p i o).getPc p i).bad) ∧
  (∀ (s : State) (p i o : Nat) (scrub : Bool), let u := s.inc (MEM_ECC.UNC p i)
    (u.rf (MEM_ECC_ADDR.VALID p i) = 1 → s.eccAddr p i o scrub = u) ∧
    (u.rf (MEM_ECC_ADDR.VALID p i) ≠ 1 → s.eccAddr p i o scrub = ((u.wf (MEM_ECC_ADDR.ADDR p i) (u.addrAt i (o / 64 * 64))).wf
      (MEM_ECC_ADDR.SCRUB p i) (bit scrub)).wf (MEM_ECC_ADDR.VALID p i) 1)) ∧
  (∀ (s : State) (p i o od : Nat) (errs : PairErrors), p < 16 → i < s.fuse.variant.chans → s.rf (MEM_CFG.SCRUB_EN p i) ≠ 0 →
    (s.getChan (s.chanOf p i).1 (s.chanOf p i).2.1).st = 1 →
    let v := s.addf (MEM_ODECC.ODCORR p i) od
    let lost := (let u := (v.pairLost p i o).eccAddr p i o true
      u.raise (v.pairReport p i o 0xFF .perm true))
    (o / 64 ∈ (v.getPc p i).bad → exec (.patrolScrub p i o od errs) s = .next lost) ∧
    (o / 64 ∉ (v.getPc p i).bad → (symbolFinding errs = .clean → exec (.patrolScrub p i o od errs) s = .next v) ∧
      (∀ pos, symbolFinding errs = .corrected pos → exec (.patrolScrub p i o od errs) s = .next (v.pairCorrected p i o pos true)) ∧
      (symbolFinding errs = .uncorrectable → exec (.patrolScrub p i o od errs) s = .next lost))) ∧
  (∀ (s : State) (p i o od : Nat) (errs : PairErrors), p < 16 → i < s.fuse.variant.chans → (s.rf (MEM_CFG.SCRUB_EN p i) = 0 ∨
    (s.getChan (s.chanOf p i).1 (s.chanOf p i).2.1).st ≠ 1) → exec (.patrolScrub p i o od errs) s = .next s)

/-- CHANNEL_TRAINING_DONE takes a channel in training to ready and records the repaired lanes; a time-out fails it. INTERVAL_CALIBRATION leaves the state as it is. A parity error of a ready channel whose reissue succeeds counts a retry and raises TRANS 0x52 with the number of attempts of that command; after the third failed reissue of one command the channel retrains. A retraining that succeeds counts one for each half, raises TRANS 0x53 and the channel is ready; a second failure fails the channel. A failed channel raises FATAL 0x54 with the abort wave for both of its pseudo-channels, drops their requests and is logged. DOUBLED_REFRESH_CHANGE gives the temperature to each of the stack's 64 pseudo-channels and doubles refresh above 85 °C (680 steps). In another state of the channel these events leave it. Completion is stated of CHANNEL_TRAINING_DONE, CHANNEL_TRAINING_TIMEOUT, INTERVAL_CALIBRATION, PARITY_ERROR, CHANNEL_RETRAIN_DONE and DOUBLED_REFRESH_CHANGE. -/
def Obligations.ChannelsTrainRetrainAndFail : Prop :=
  (∀ (s : State) (st ch r0 r1 : Nat), st < s.fuse.variant.stacks → ch < 32 → (s.getChan st ch).st = 0 →
    exec (.channelTrainingDone st ch r0 r1) s = .next (
      let u := s.setChan st ch { s.getChan st ch with st := 1, repaired0 := r0, repaired1 := r1 }
      let a := u.ownerOf st ch
      let b := u.ownerOf st (ch + 32)
      ((u.wf (MEM_LINK.REPAIRED a.1 a.2) r0).wf (MEM_LINK.REPAIRED b.1 b.2) r1).leaveOffs) ∧
    exec (.channelTrainingTimeout st ch) s = .next ((s.failChannel st ch 0).leaveOffs)) ∧
  (∀ (s : State) (st ch r0 r1 : Nat), st < s.fuse.variant.stacks → ch < 32 → (s.getChan st ch).st ≠ 0 →
    exec (.channelTrainingDone st ch r0 r1) s = .next s ∧ exec (.channelTrainingTimeout st ch) s = .next s) ∧
  (∀ (s : State) (st ch : Nat), st < s.fuse.variant.stacks → ch < 32 → exec (.intervalCalibration st ch) s = .next s) ∧
  (∀ (s : State) (st ch half cmd : Nat), st < s.fuse.variant.stacks → ch < 32 → half < 2 →
    let x := s.getChan st ch
    let a := s.ownerOf st (ch + 32 * half)
    let k := 2 * cmd + half
    let n := x.reissues.get 0 k + 1
    let u := (s.setChan st ch { x with reissues := x.reissues.set 0 k 0 }).inc (MEM_LINK.RETRIES a.1 a.2)
    (x.st = 1 → exec (.parityError st ch half cmd true) s = .next
      (u.raise { unit := s.memUnit a.1 a.2, cls := .trans, code := 0x52, part := some a.1, retry := n, synd := [(ch, 1), (n, 1)] })) ∧
    (x.st = 1 → n < 3 → exec (.parityError st ch half cmd false) s = .next (s.setChan st ch { x with reissues := x.reissues.set 0 k n })) ∧
    (x.st = 1 → 3 ≤ n → exec (.parityError st ch half cmd false) s = .next (s.setChan st ch { x with reissues := [], st := 2 })) ∧
    (∀ ok, x.st ≠ 1 → exec (.parityError st ch half cmd ok) s = .next s)) ∧
  (∀ (s : State) (st ch : Nat), st < s.fuse.variant.stacks → ch < 32 →
    let x := s.getChan st ch
    let a := s.ownerOf st ch
    let b := s.ownerOf st (ch + 32)
    let u := ((s.setChan st ch { x with st := 1, fails := 0 }).inc (MEM_LINK.RETRAINS a.1 a.2)).inc (MEM_LINK.RETRAINS b.1 b.2)
    (x.st = 2 → exec (.channelRetrainDone st ch true) s = .next
      (u.raise { unit := s.memUnit a.1 a.2, cls := .trans, code := 0x53, part := some a.1, retry := x.fails + 1, synd := [(ch, 1), (x.fails + 1, 1)] })) ∧
    (x.st = 2 → x.fails = 0 → exec (.channelRetrainDone st ch false) s = .next (s.setChan st ch { x with fails := 1 })) ∧
    (x.st = 2 → 1 ≤ x.fails → exec (.channelRetrainDone st ch false) s = .next ((s.setChan st ch { x with fails := x.fails + 1 }).failChannel st ch 1)) ∧
    (∀ ok, x.st ≠ 2 → exec (.channelRetrainDone st ch ok) s = .next s)) ∧
  (∀ (s : State) (st ch stage : Nat), Tbl.sortedFrom 0 s.chan = true → ((s.failChannel st ch stage).getChan st ch).st = 3 ∧
    st * 32 + ch ∈ (s.failChannel st ch stage).log.failedChans) ∧
  (∀ (s : State) (st ch stage : Nat),
    let drop (u : State) (h : Nat) : State :=
      let a := u.ownerOf st (ch + 32 * h)
      let v := u.setPc a.1 a.2 { u.getPc a.1 a.2 with reqs := [] }
      (v.raise { unit := u.memUnit a.1 a.2, cls := .fatal, code := 0x54, part := some a.1, synd := [(ch, 1), (stage, 1)] }).startWave a.1 1
        (u.memUnit a.1 a.2)
    s.failChannel st ch stage = (let u := drop (drop (s.setChan st ch { s.getChan st ch with st := 3 }) 0) 1
      u.logState { u.log with failedChans := (st * 32 + ch) :: u.log.failedChans.filter (· != st * 32 + ch) })) ∧
  (∀ (s : State) (st temp q : Nat), st < s.fuse.variant.stacks → q < 64 → temp < 2 ^ 11 → Tbl.sortedFrom 0 s.flds = true →
    ∃ t, exec (.doubledRefreshChange st temp) s = .next t ∧
      (let a := s.ownerOf st q
       t.rf (MEM_TEMP.TEMP a.1 a.2) = temp ∧ t.rf (MEM_TEMP.REF2X a.1 a.2) = (if 680 < temp then 1 else 0)) ∧
      t = { s with flds := t.flds })

/-! ## Chapters 9: links and the transport -/

/-- For every port of the module. PORT_ENABLE starts training of a peer port that is DOWN and not held, on a running module; PMD_TRAINED sends the identity flit and enters IDENT; a time-out of either takes it DOWN and TRAINING_RESTART counts and trains again. In IDENT an identity, accept or refuse flit counts what FEC and the link CRC find and is discarded when it fails. An identity is shown; the first condition of R262 that it breaks is refused and quarantines the port with that cause and one PERM record 0x64; else it is accepted, MINOR_RUN is the lower minor version, and the port is UP once both ends accepted; a refusal after the own acceptance quarantines with cause 7. When the last port of a bundle leaves UP, or none of a bundle without an UP port is on its way up any more, 0x65 is raised, once until the bundle has one again. RETRAIN (not from a Flint) retrains an UP port, and a quarantined one that is not held. DISABLE holds the port DOWN (one in QUARANTINE stays there). UNRETIRE (PF16 only) clears the retired lanes and trains afresh. A retraining with every lane passed brings the port back (or to IDENT), else it counts, retires a lane that failed twice with PERM 0x63, and retires the port when it must. Completion is stated of PORT_ENABLE, PMD_TRAINED, IDENTITY_RECEIVE, ACCEPT_RECEIVE, REFUSE_RECEIVE, TRAINING_TIMEOUT, TRAINING_RESTART, ZLK_CTRL_RETRAIN, ZLK_CTRL_DISABLE, ZLK_CTRL_UNRETIRE, RETRAIN_DONE and ETHERNET_LINK_CHANGE. -/
def Obligations.PortsTrainIdentifyAndRetrain : Prop :=
  ∀ (s : State) (i : Nat), i < s.fuse.variant.ports →
    let x := s.getPort i
    let z := s.zstate i
    let fresh := { x.afresh with enabled := true }
    (s.boot = .running → s.zrole i = 0 → z = 0 → s.held i = false →
      exec (.portEnable i) s = .next ((s.setPort i fresh).portState i 1)) ∧
    ((s.boot ≠ .running ∨ s.zrole i ≠ 0 ∨ z ≠ 0 ∨ s.held i = true) → exec (.portEnable i) s = .next s) ∧
    (z = 1 → exec (.pmdTrained i) s = .next ((s.portState i 2).emit
      (.flit i (controlFlit 3 (identityBytes (s.ownIdentity i)))))) ∧
    (z ≠ 1 → exec (.pmdTrained i) s = .next s) ∧
    ((z = 1 ∨ z = 2) → exec (.trainingTimeout i) s = .next (s.portDown i)) ∧
    (z ≠ 1 → z ≠ 2 → exec (.trainingTimeout i) s = .next s) ∧
    (let u := s.cutForward i
     let v := (u.setPort i (u.getPort i).afresh).portState i 0
     s.portDown i = (u.getPort i).messages.foldl (fun s g => s.dropMsg i g) v) ∧
    (z = 0 → x.enabled = true → s.held i = false → s.zrole i = 0 → s.boot = .running →
      exec (.trainingRestart i) s = .next ((s.inc (ZLK_RETRY.TRAIN_FAILS i)).portState i 1)) ∧
    (∀ f : Flit, z ≠ 2 → exec (.identityReceive i f) s = .next s ∧ exec (.acceptReceive i f) s = .next s ∧ exec (.refuseReceive i f) s = .next s) ∧
    (∀ f : Flit, z = 2 → let u := s.addf (ZLK_FEC.CORR i) f.fecCorrected
      (f.fecOk = false → exec (.identityReceive i f) s = .next (u.inc (ZLK_FEC.UNCORR i)) ∧
        exec (.acceptReceive i f) s = .next (u.inc (ZLK_FEC.UNCORR i)) ∧ exec (.refuseReceive i f) s = .next (u.inc (ZLK_FEC.UNCORR i))) ∧
      (f.fecOk = true → f.crc ≠ flitCrc f → exec (.identityReceive i f) s = .next (u.inc (ZLK_CRC.COUNT i)) ∧
        exec (.acceptReceive i f) s = .next (u.inc (ZLK_CRC.COUNT i)) ∧ exec (.refuseReceive i f) s = .next (u.inc (ZLK_CRC.COUNT i))) ∧
      (f.fecOk = true → f.crc = flitCrc f → f.typ = 3 → exec (.identityReceive i f) s = .next (u.compareIdentity i (identityOf f.payload))) ∧
      (f.fecOk = true → f.crc = flitCrc f → f.typ = 4 → f.payload.headD 0#8 = 1#8 →
        let v := u.setPort i { u.getPort i with gotAccept := true }
        exec (.acceptReceive i f) s = .next (if (u.getPort i).sentAccept = true then v.portState i 3 else v)) ∧
      (f.fecOk = true → f.crc = flitCrc f → f.typ = 4 → f.payload.headD 0#8 = 2#8 →
        exec (.refuseReceive i f) s = .next (if (u.getPort i).sentAccept = true then u.quarantine i 7
          else u.setPort i { u.getPort i with gotRefuse := true }))) ∧
    (∀ d : Identity, let u := s.showPeer i d
      (u.refusal i d ≠ 0 → s.compareIdentity i d = (u.emit (.flit i (refuseFlit (u.refusal i d)))).quarantine i (u.refusal i d)) ∧
      (u.refusal i d = 0 →
        let v := ((u.emit (.flit i acceptFlit)).setPort i { u.getPort i with sentAccept := true }).wf (ZLK_STATE.MINOR_RUN i)
          (Nat.min d.minor s.cfg.protoMinor)
        s.compareIdentity i d = if (u.getPort i).gotRefuse = true then v.quarantine i 7
          else if (u.getPort i).gotAccept = true then v.portState i 3 else v) ∧
      (s.refusal i d = 0 ↔ d.cell = s.ownCell ∧ d.pos = s.ztarget i ∧ d.port = s.expectedPort i ∧
        (∀ e ∈ s.cfg.peerSerials, e.1 = i → e.2 = d.serial) ∧ d.major = s.cfg.protoMajor ∧ d.digest = s.fabricDigest ∧ d.role = 0)) ∧
    (∀ q : Nat, let u := (s.portState i 4).wf (ZLK_STATE.QCAUSE i) q
      s.quarantine i q = u.raise (u.portReport i 0x64 0 q)) ∧
    (∀ a : Agent, (∀ c, a ≠ .flint c) →
      (z = 3 → exec (.zlkCtrlRetrain a i) s = .next
        ((s.enterRetrain i).setPort i { (s.enterRetrain i).getPort i with sentAccept := true, gotAccept := true })) ∧
      (z = 4 → s.held i = false → exec (.zlkCtrlRetrain a i) s = .next (s.enterRetrain i)) ∧
      (z = 4 → s.held i = true → exec (.zlkCtrlRetrain a i) s = .next s) ∧
      (z ≠ 3 → z ≠ 4 → exec (.zlkCtrlRetrain a i) s = .next s) ∧
      (∀ b : Bool, let u := s.wf (ZLK_CTRL.DISABLE i) (bit b)
        ((u.zstate i = 6 ∨ u.zstate i = 4) → exec (.zlkCtrlDisable a i b) s = .next u) ∧
        (u.zstate i ≠ 6 → u.zstate i ≠ 4 → b = true → exec (.zlkCtrlDisable a i b) s = .next (u.portDown i)) ∧
        (u.zstate i ≠ 6 → u.zstate i ≠ 4 → b = false → (u.isGlobal i = false ∨ u.zstate i ≠ 0) → exec (.zlkCtrlDisable a i b) s = .next u))) ∧
    (∀ c b, exec (.zlkCtrlRetrain (.flint c) i) s = .next s ∧ exec (.zlkCtrlDisable (.flint c) i b) s = .next s ∧
      exec (.zlkCtrlUnretire (.flint c) i) s = .next s ∧ exec (.zlkCtrlUnretire .bedrock i) s = .next s) ∧
    (s.log.retiredLanes.get 0 i ≠ 0 →
      let u := ((s.logState { s.log with retiredLanes := s.log.retiredLanes.set 0 i 0 }).wf (ZLK_STATE.LANES_RET i) 0).wf (ZLK_STATE.NARROW i) 0
      let v := u.setPort i { (u.getPort i).afresh with laneFails0 := 0, laneFails1 := 0 }
      exec (.zlkCtrlUnretire .pf16 i) s = .next (if v.isGlobal i = true then v.globalState i
        else if v.held i = true then v.portState i 0 else v.portState i 1)) ∧
    (s.log.retiredLanes.get 0 i = 0 → exec (.zlkCtrlUnretire .pf16 i) s = .next s) ∧
    (∀ a b : Bool, z ≠ 5 → exec (.retrainDone i a b) s = .next s) ∧
    (z = 5 → let v := s.setPort i { x with laneFails0 := 0, laneFails1 := 0 }
      let w := v.raise { unit := v.portUnit i, cls := .trans, code := 0x62, part := none, synd := [(i, 1), (x.failSeq, 2)] }
      exec (.retrainDone i true true) s = .next (if w.isGlobal i = true then w.globalState i
        else if x.sentAccept = true ∧ x.gotAccept = true then (w.portState i 3).pumpAll i else w.enterIdent i)) ∧
    (z = 5 → s.rf (ZLK_STATE.LANES_RET i) = 0 → x.laneFails0 = 0 → exec (.retrainDone i false true) s = .next (
      let v := (s.setPort i { x with laneFails0 := 1, laneFails1 := 0 }).inc (ZLK_RETRY.TRAIN_FAILS i)
      let r := v.rf (ZLK_STATE.LANES_RET i)
      if wholeRetired (v.zrole i) r = true then v.portState i 6
      else (if r = 0 then v else v.wf (ZLK_STATE.NARROW i) 1).inc (ZLK_RETRY.RETRAINS i))) ∧
    (∀ k : Nat, let u := s.raise (s.portReport i 0x63 k 0)
      s.retireLane i k = (u.logState { u.log with retiredLanes := u.log.retiredLanes.set 0 i (Nat.lor (s.log.retiredLanes.get 0 i) (2 ^ k)) }).wf
        (ZLK_STATE.LANES_RET i) (Nat.lor (s.log.retiredLanes.get 0 i) (2 ^ k))) ∧
    (∀ up, s.isGlobal i = false → exec (.ethernetLinkChange i up) s = .next s) ∧
    (∀ up, s.isGlobal i = true → let u := s.setPort i { x with ethUp := up }
      ((u.zstate i = 5 ∨ u.zstate i = 6) → exec (.ethernetLinkChange i up) s = .next u) ∧
      (u.zstate i ≠ 5 → u.zstate i ≠ 6 → exec (.ethernetLinkChange i up) s = .next (
        if (u.getPort i).ethUp = true ∧ u.macSet i = true ∧ u.held i = false then u.portState i 3 else u.portDown i))) ∧
    (∀ st, let u := s.wf (ZLK_STATE.STATE i) st
      let b := (u.zrole i, u.ztarget i)
      (st = 3 → s.portState i st = { u with noUp := u.noUp.filter (· != b) }) ∧
      (st ≠ 3 → (u.upBundle (u.zrole i) (u.ztarget i) ≠ [] ∨ (z ≠ 3 ∧ ∃ k ∈ u.bundle (u.zrole i) (u.ztarget i), settled (u.zstate k) = false) ∨
        u.zrole i = 3 ∨ b ∈ u.noUp) → s.portState i st = u) ∧
      (st ≠ 3 → u.upBundle (u.zrole i) (u.ztarget i) = [] → (z = 3 ∨ ∀ k ∈ u.bundle (u.zrole i) (u.ztarget i), settled (u.zstate k) = true) →
        u.zrole i ≠ 3 → b ∉ u.noUp → s.portState i st = ({ u with noUp := b :: u.noUp }).raise (u.portReport i 0x65 0 0)))

/-- On an UP peer port a flit whose FEC fails is counted UNCORR, one whose CRC is wrong is counted in ZLK_CRC, and neither is taken: the first failure of the flit that is due is answered with a NAK, later ones discarded. A good flit returns credits (at most 128), and its acknowledgement frees every flit of the replay buffer up to its number, or a NAK frees them and replays the rest in order; a fourth refusal of one flit retrains the port. A data flit with the number due is accepted, the number advances modulo 4096, a flit received on a replay is counted, and it is acknowledged, with its credit unless it keeps its place in the receive buffer until it is sent on; another is dropped without taking anything of it. A flit is sent only with a credit of its channel, fewer than 64 unacknowledged, and the port UP: that of the message being sent, else the first that has a credit. On an UP global port an IPv6 UDP packet to the module's address and port with a right checksum carries a transport message, a neighbour solicitation for that address is answered, and every other frame counts in RXDROP. Elsewhere nothing happens. Completion is stated of FLIT_RECEIVE, NAK_RECEIVE and FRAME_RECEIVE. -/
def Obligations.FlitsAreAcknowledgedOrReplayed : Prop :=
  (∀ (s : State) (i : Nat) (f : Flit), i < s.fuse.variant.ports → (s.zstate i ≠ 3 ∨ s.zrole i ≠ 0) → exec (.flitReceive i f) s = .next s) ∧
  (∀ (s : State) (i : Nat) (f : Flit), i < s.fuse.variant.ports → s.zstate i = 3 → s.zrole i = 0 →
    let u := s.addf (ZLK_FEC.CORR i) f.fecCorrected
    let v := u.setPort i { u.getPort i with credit0 := Nat.min 128 ((u.getPort i).credit0 + f.cr0), credit1 := Nat.min 128 ((u.getPort i).credit1 + f.cr1) }
    let w := if f.nak = true then v.linkNak i f.ack else v.linkAck i f.ack
    (f.fecOk = false → exec (.flitReceive i f) s = .next ((u.inc (ZLK_FEC.UNCORR i)).flitFailed i f.seq)) ∧
    (f.fecOk = true → f.crc ≠ flitCrc f → exec (.flitReceive i f) s = .next ((u.inc (ZLK_CRC.COUNT i)).flitFailed i f.seq)) ∧
    (f.fecOk = true → f.crc = flitCrc f → f.typ ≠ 1 → exec (.flitReceive i f) s = .next (w.pumpAll i)) ∧
    (f.fecOk = true → f.crc = flitCrc f → f.typ = 1 → f.seq ≠ (u.getPort i).rxSeq → exec (.flitReceive i f) s = .next (u.dataFlit i f)) ∧
    (f.fecOk = true → f.crc = flitCrc f → f.typ = 1 → f.seq = (u.getPort i).rxSeq → w.zstate i = 3 →
      exec (.flitReceive i f) s = .next ((w.dataFlit i f).pumpAll i))) ∧
  (∀ (s : State) (i seq : Nat), let x := s.getPort i
    let u := s.setPort i (Port.toCome { x with discarding := true } seq)
    s.flitFailed i seq = if x.discarding = true ∧ seq ≠ x.rxSeq then u
      else (u.setPort i { u.getPort i with naks := (u.getPort i).naks + 1 }).emit (.flit i (bareFlit 2 ((x.rxSeq + 4095) % 4096) true 0 0))) ∧
  (∀ (s : State) (i : Nat) (f : Flit), let x := s.getPort i
    (f.seq ≠ x.rxSeq → s.dataFlit i f = s.setPort i (x.toCome f.seq)) ∧
    (f.seq = x.rxSeq →
      let u := s.setPort i { x with rxSeq := (x.rxSeq + 1) % 4096, discarding := false, naks := 0, again := x.again - 1 }
      let v := if 0 < x.again then u.replayed i f.seq x.naks else u
      s.dataFlit i f = (v.forward i f).1.emit (.flit i (bareFlit 2 f.seq false (bit (!f.vc && !(v.forward i f).2)) (bit f.vc))))) ∧
  (∀ (s : State) (i seq naks : Nat), let u := s.inc (ZLK_RETRY.REPLAYS i)
    ((u.getPort i).lastTrans = some (u.now / 1000000) → s.replayed i seq naks = u) ∧
    ((u.getPort i).lastTrans ≠ some (u.now / 1000000) → s.replayed i seq naks =
      (u.setPort i { u.getPort i with lastTrans := some (u.now / 1000000) }).raise
        { unit := u.portUnit i, cls := .trans, code := 0x61, part := none, retry := naks, synd := [(i, 1), (seq, 2)] })) ∧
  (∀ (s : State) (i k ack : Nat), let x := s.getPort i
    x.replay.findIdx? (fun f => f.seq == ack % 4096) = some k → s.linkAck i ack = s.setPort i { x with
      replay := x.replay.drop (k + 1), kept := ackKept (x.kept.length + (k + 1) - x.replay.length) x.kept
      fails := if (x.replay.take (k + 1)).any (fun f => f.seq == x.failSeq) = true then 0 else x.fails }) ∧
  (∀ (s : State) (i ack : Nat), (s.getPort i).replay.findIdx? (fun f => f.seq == ack % 4096) = none → s.linkAck i ack = s) ∧
  (∀ (s : State) (i ack : Nat) (f : Flit) (fs : List Flit), i < s.fuse.variant.ports → s.zstate i = 3 →
    let u := s.linkAck i ack
    let x := u.getPort i
    x.replay = f :: fs → exec (.nakReceive i ack) s = .next (
      let n := if x.fails ≠ 0 ∧ x.failSeq = f.seq then x.fails + 1 else 1
      let v := u.setPort i { x with failSeq := f.seq, fails := n }
      if n ≤ 3 then (f :: fs).foldl (fun s g => s.emit (.flit i g)) v
      else (v.enterRetrain i).setPort i { (v.enterRetrain i).getPort i with sentAccept := true, gotAccept := true, failSeq := f.seq })) ∧
  (∀ (s : State) (i ack : Nat), i < s.fuse.variant.ports → s.zstate i ≠ 3 → exec (.nakReceive i ack) s = .next s) ∧
  (∀ (s : State) (i : Nat), let x := s.getPort i
    (x.nextFlit = none → s.pump1 i = s) ∧
    (∀ q : QFlit, x.nextFlit = some q → (64 ≤ x.replay.length ∨ s.zstate i ≠ 3) → s.pump1 i = s) ∧
    (∀ q : QFlit, x.nextFlit = some q → q.held = false → x.replay.length < 64 → s.zstate i = 3 → Tbl.sortedFrom 0 s.port = true →
      ∃ g : Flit, g.payload = q.flit.payload ∧ g.seq = x.txSeq ∧ g.ack = (x.rxSeq + 4095) % 4096 ∧ g.crc = flitCrc g ∧ g.vc = q.flit.vc ∧
        g.eom = q.flit.eom ∧ (s.pump1 i).out = s.out ++ [.flit i g] ∧ (s.pump1 i).getPort i = { x with
          queue := x.queue.erase q, kept := x.kept ++ [{ q with held := false }], replay := x.replay ++ [g], txSeq := (x.txSeq + 1) % 4096
          cur := if q.flit.eom = true then 0 else q.src, credit0 := if q.flit.vc = true then x.credit0 else x.credit0 - 1
          credit1 := if q.flit.vc = true then x.credit1 - 1 else x.credit1 })) ∧
  (∀ (x : Port) (q : QFlit), x.nextFlit = some q → q ∈ x.queue ∧ 0 < (if q.flit.vc = true then x.credit1 else x.credit0) ∧
    (x.cur ≠ 0 → q.src = x.cur)) ∧
  (∀ (s : State) (i : Nat) (fr : Frame), i < s.fuse.variant.ports → (s.isGlobal i = false ∨ s.zstate i ≠ 3) → exec (.frameReceive i fr) s = .next s) ∧
  (∀ (s : State) (i dst port : Nat) (ok : Bool) (m : Msg), i < s.fuse.variant.ports → s.isGlobal i = true → s.zstate i = 3 →
    (dst = s.ownAddr i → port = s.rf ZTP_MCFG.UDP_PORT → ok = true → exec (.frameReceive i (.udp dst port ok m)) s = .next (s.receive m)) ∧
    ((dst ≠ s.ownAddr i ∨ port ≠ s.rf ZTP_MCFG.UDP_PORT ∨ ok = false) →
      exec (.frameReceive i (.udp dst port ok m)) s = .next (s.inc (ZLK_RXDROP.COUNT i))) ∧
    exec (.frameReceive i .other) s = .next (s.inc (ZLK_RXDROP.COUNT i)) ∧
    (dst = s.ownAddr i → exec (.frameReceive i (.neighborSolicitation dst)) s = .next (s.emit (.neighborAdvert i))) ∧
    (dst ≠ s.ownAddr i → exec (.frameReceive i (.neighborSolicitation dst)) s = .next (s.inc (ZLK_RXDROP.COUNT i))))

/-- MESSAGE_SEND takes the oldest request of an open stream with credit for its blocks; without one, without credit, or not open, nothing happens. With a route the message takes the next SEQ and is kept until acknowledged, and CREDIT and INFLIGHT move; the next port of its path in rotation carries it, and inside the module it needs none; in a local replay a job's data message is counted in STR_SUPP and not sent, nor is a grant or a close; while a suspend image is taken none is sent. A rank that the active route table does not know but the shadow does is parked, the first time counted (at most 256 wait), one that neither knows completes its handle CHECKFAIL. After a swap the parked messages leave the queue. RETRANSMIT_TIMEOUT sends an unacknowledged message again, unchanged, one that left on an uplink on the next uplink where there is one, and counts it. MESSAGE_ACK_TIMEOUT closes the context (its users end ABORTED), raises FATAL 0x69 against the peer and starts the abort wave of its partition, or of every job for one of Bedrock's own streams. Completion is stated of MESSAGE_SEND, RETRANSMIT_TIMEOUT and MESSAGE_ACK_TIMEOUT. -/
def Obligations.MessagesAreSentAndRetransmitted : Prop :=
  (∀ (s : State) (idx : Nat), idx < 2 ^ 18 → (s.getAux idx).txq = [] → exec (.messageSend idx) s = .next s) ∧
  (∀ (s : State) (idx : Nat) (r : TxReq) (rs : List TxReq), idx < 2 ^ 18 → (s.getAux idx).txq = r :: rs →
    let x := s.getCtx idx
    let u := s.popTx idx
    (x.state ≠ 1 → exec (.messageSend idx) s = .next s) ∧
    (x.state = 1 → x.part < 16 → x.kind ≠ 4 → (s.getStrata x.part).suspRun = true → exec (.messageSend idx) s = .next s) ∧
    (x.state = 1 → x.part < 16 → x.kind ≠ 4 → (s.getStrata x.part).suspRun = false → (s.getStrata x.part).replay.isSome = true →
      (r.mtype = 0 → r.owner = none → exec (.messageSend idx) s = .next (u.inc (STR_SUPP.COUNT x.part))) ∧
      (r.mtype = 0 → ∀ o, r.owner = some o → exec (.messageSend idx) s = .next ((u.inc (STR_SUPP.COUNT x.part)).copyProgress x.part o.1 o.2 0)) ∧
      (r.mtype ≠ 0 → x.kind ≤ 2 → exec (.messageSend idx) s = .next u)) ∧
    (x.state = 1 → (x.kind = 4 ∨ 16 ≤ x.part ∨ ((s.getStrata x.part).suspRun = false ∧ (s.getStrata x.part).replay = none)) →
      (u.trySend idx r = none → exec (.messageSend idx) s = .next s) ∧
      (∀ t, u.trySend idx r = some t → exec (.messageSend idx) s = .next t))) ∧
  (∀ (s : State) (idx : Nat) (r : TxReq), let x := s.getCtx idx
    (x.credit < r.blocks.length → s.trySend idx r = none) ∧
    (r.blocks.length ≤ x.credit →
      (∀ c q k, s.routeOf idx = .to c q k → s.trySend idx r = some (s.sendMsg idx r (s.msgOf idx r c q k))) ∧
      (s.routeOf idx = .external → s.trySend idx r = some (s.sendMsg idx r (s.msgOf idx r 0 0 0))) ∧
      (s.routeOf idx = .park → (s.getPark x.part).length < 256 → s.trySend idx r = some (s.parkMsg x.part idx r)) ∧
      (s.routeOf idx = .park → 256 ≤ (s.getPark x.part).length → s.trySend idx r = none) ∧
      (s.routeOf idx = .none → s.trySend idx r = some (s.failSend x.part idx r)))) ∧
  (∀ (s : State) (idx c q k : Nat) (r : TxReq), let x := s.getCtx idx
    let m := s.msgOf idx r c q k
    m.seq = x.txSeq ∧ m.mtype = r.mtype ∧ m.offset = r.offset ∧ m.dhandle = x.peerHandle ∧ m.epoch = x.peerEpoch ∧ m.nblk = r.blocks.length ∧
    m.blocks = r.blocks ∧ m.checks = r.checks ∧ m.dcell = c ∧ m.dpos = q ∧ m.dpart = k ∧ m.scell = s.ownCell ∧ m.spos = s.ownPos ∧
    m.tstamp = s.now / 2 ^ 18 % 2 ^ 16) ∧
  (∀ (s : State) (idx : Nat) (r : TxReq) (m : Msg), s.sendMsg idx r m =
    let x := s.getCtx idx
    let u := s.setCtx idx { x with
      txSeq := (x.txSeq + 1) % 2 ^ 48, inflight := x.inflight + 1, credit := x.credit - r.blocks.length
      txAcked := if (s.getAux idx).unacked = [] then x.txSeq else x.txAcked }
    let v := u.sendTo idx m
    v.1.setAux idx { v.1.getAux idx with unacked := (v.1.getAux idx).unacked ++ [⟨m, v.1.now, v.1.now, r.owner, v.2, r.parked⟩] }) ∧
  (∀ (s : State) (idx : Nat) (m : Msg), (s.portsFor idx m = [] → s.sendTo idx m = (s.emit (.message idx [] m), 0)) ∧
    (∀ i, (s.portsFor idx m)[(s.getAux idx).rot % (s.portsFor idx m).length]? = some i →
      s.sendTo idx m = ((s.setAux idx { s.getAux idx with rot := (s.getAux idx).rot + 1 }).sendOn i idx m, i + 1))) ∧
  (∀ (s : State) (p idx : Nat) (r : TxReq),
    let u := (s.setPark p (s.getPark p ++ [(idx, { r with parked := true })])).wf (ZTP_PARK.DEPTH p) ((s.getPark p).length + 1)
    s.parkMsg p idx r = if r.parked = true then u else u.inc (ZTP_PARK.PARKED p)) ∧
  (∀ (s : State) (p idx : Nat) (r : TxReq), r.owner = none → s.failSend p idx r = s.endUnits idx stCHECKFAIL) ∧
  (∀ (s : State) (p idx : Nat) (r : TxReq) (o : Nat × Nat), r.owner = some o → s.failSend p idx r =
    (s.setAux idx { s.getAux idx with txq := (s.getAux idx).txq.filter (fun t => t.owner != r.owner) }).endCopies p stCHECKFAIL [o]) ∧
  (∀ (s : State) (p idx : Nat) (r : TxReq), s.getPark p = [(idx, r)] → let u := (s.setPark p []).wf (ZTP_PARK.DEPTH p) 0
    ((u.getAux idx).txq.any TxReq.parked = true → s.unpark p = u.requeue idx r) ∧
    ((u.getAux idx).txq.any TxReq.parked = false → u.trySend idx r = none → s.unpark p = u.requeue idx r) ∧
    (∀ t, (u.getAux idx).txq.any TxReq.parked = false → u.trySend idx r = some t → s.unpark p = t)) ∧
  (∀ (s : State) (idx seq : Nat) (u : Unacked), idx < 2 ^ 18 → (s.getAux idx).unacked.find? (fun u => u.msg.seq == seq) = some u →
    (s.getCtx idx).part < 16 →
    let v := (s.inc (ZTP_RETX.COUNT (s.getCtx idx).part)).sendAgain idx u
    exec (.retransmitTimeout idx seq) s = .next (v.1.setAux idx { v.1.getAux idx with
      unacked := (v.1.getAux idx).unacked.map (fun w => if w.msg.seq = seq then { w with last := v.1.now, via := v.2 } else w) })) ∧
  (∀ (s : State) (idx : Nat) (u : Unacked),
    (∀ i, u.via ≠ 0 → s.zrole (u.via - 1) = 1 → s.nextUplink (u.via - 1) = some i → s.sendAgain idx u = (s.sendOn i idx u.msg, i + 1)) ∧
    ((u.via = 0 ∨ s.zrole (u.via - 1) ≠ 1 ∨ s.nextUplink (u.via - 1) = none) → s.sendAgain idx u = s.sendTo idx u.msg)) ∧
  (∀ (s : State) (idx seq : Nat), idx < 2 ^ 18 → (s.getAux idx).unacked.find? (fun u => u.msg.seq == seq) = none →
    exec (.retransmitTimeout idx seq) s = .next s) ∧
  (∀ (s : State) (idx : Nat), idx < 2 ^ 18 → ((s.getAux idx).unacked = [] → exec (.messageAckTimeout idx) s = .next s) ∧
    ((s.getAux idx).unacked ≠ [] →
      let x := s.getCtx idx
      let c := s.closeCtx idx stABORTED
      let r : Report := { unit := s.transportUnit, cls := .fatal, code := 0x69, part := if x.part < 16 then some x.part else none,
                          handle := c.handleOf idx, epoch := x.epoch, synd := [(x.peerKind, 1), (x.peerId, 3)] }
      exec (.messageAckTimeout idx) s = .next (if x.part < 16 then (c.raise r).startWave x.part 1 s.transportUnit
        else (c.raise r).abortJobs s.transportUnit)))

/-- A message for a partition in OFF, RESET or CONFIG is dropped and counted there whatever its handle, unless it is for one of Bedrock's own streams. Another passes only with a live handle of the partition it names, with a good tag (only a data message of an external endpoint carries one), the current epoch and a fresh time stamp, to an open context; otherwise it is dropped, with the counts of R277 and R280. Nothing of a dropped message takes effect. A numbered message that has come before, or is older, is acknowledged again; one more than 31 ahead of the number due is dropped. A data message of another stream than the dispatch unit's is placed in its window and marked, and acknowledged; one outside its window counts in ZTP_WINVIOL, ends the receiving copy CHECKFAIL and tells the other end, which a close then makes end CHECKFAIL too. A grant without a waiting send adds credit (at most 65,535), and is kept for a mover stream; with one it serves the oldest. An acknowledgement drops every message up to its SEQ and INFLIGHT is what is left. Completion is stated of DATA_MESSAGE_RECEIVE, GRANT_RECEIVE and ACK_RECEIVE. -/
def Obligations.ReceivedMessagesPassAndTakeEffect : Prop :=
  (∀ (s : State) (m : Msg), let idx := m.dhandle % 2 ^ 18
    let x := s.getCtx idx
    let own := s.liveHandle m.dhandle && decide (16 ≤ x.part)
    (own = false → s.pstate (m.dpart % 16) ∈ [0, 1, 2] → s.admitMsg m = (s.inc (ZTP_STALE.COUNT (m.dpart % 16)), false)) ∧
    (own = false → s.pstate (m.dpart % 16) ∉ [0, 1, 2] → (s.liveHandle m.dhandle = false ∨ x.part ≠ m.dpart % 16) →
      s.admitMsg m = (s, false)) ∧
    (s.liveHandle m.dhandle = true → (16 ≤ x.part ∨ (s.pstate (m.dpart % 16) ∉ [0, 1, 2] ∧ x.part = m.dpart % 16)) →
      let sealed := m.tagOk = true ∨ (m.mtype ≠ 0 ∧ x.peerKind = 2)
      (¬ sealed → s.admitMsg m = (s.tagFailure idx (m.scell + m.spos * 2 ^ 13 + m.spart * 2 ^ 18), false)) ∧
      (sealed → (m.epoch % 65536 ≠ x.epoch ∨ s.tooOld m.tstamp = true) → s.admitMsg m = (s.staleMsg idx, false)) ∧
      (sealed → m.epoch % 65536 = x.epoch → s.tooOld m.tstamp = false → x.state ≠ 1 → s.admitMsg m = (s, false)) ∧
      (sealed → m.epoch % 65536 = x.epoch → s.tooOld m.tstamp = false → x.state = 1 → s.admitMsg m = (s, true)))) ∧
  (∀ (s t : State) (m : Msg), s.admitMsg m = (t, false) → s.arrive m = (t, none) ∧
    (m.mtype = 1 → exec (.grantReceive m) s = .next t) ∧ (m.mtype = 2 → exec (.ackReceive m) s = .next t)) ∧
  (∀ (s : State) (m : Msg), s.admitMsg m = (s, true) →
    let idx := m.dhandle % 2 ^ 18
    let x := s.getCtx idx
    let k := (m.seq + 2 ^ 48 - x.rxSeq) % 2 ^ 48
    ((2 ^ 47 ≤ k ∨ (k ≤ 31 ∧ bitOf x.rxMap k = true)) → s.arrive m = (s.ackUp idx m, none)) ∧
    (31 < k → k < 2 ^ 47 → s.arrive m = (s, none)) ∧
    (k ≤ 31 → bitOf x.rxMap k = false → s.arrive m = (s, some k))) ∧
  (∀ (s : State) (m : Msg), m.mtype = 0 ∨ m.mtype = 4 → exec (.dataMessageReceive m) s = .next (s.receive m)) ∧
  (∀ (s : State) (m : Msg), m.mtype ≠ 0 → m.mtype ≠ 4 → exec (.dataMessageReceive m) s = .next s) ∧
  (∀ (s : State) (m : Msg), let idx := m.dhandle % 2 ^ 18
    (m.mtype = 0 → (s.getCtx idx).kind ≠ 2 →
      (∀ t, s.arrive m = (t, none) → s.receive m = t) ∧ (∀ t k, s.arrive m = (t, some k) → s.receive m = t.placeData idx k m)) ∧
    (m.mtype = 4 → (∀ t, s.arrive m = (t, none) → s.receive m = t) ∧
      (∀ t k, s.arrive m = (t, some k) → s.receive m = (((t.markIn idx k).takeClose idx).ackUp idx m)))) ∧
  (∀ (s : State) (idx k : Nat) (m : Msg), m.nblk ≠ 0 → s.isVote idx = false →
    (s.windowAddrs idx m.offset m.nblk = none → s.placeData idx k m = s.winViolation idx) ∧
    (∀ as, s.windowAddrs idx m.offset m.nblk = some as →
      let w := s.placeBlocks (s.getCtx idx).part (as.zip (m.blocks.zip m.checks))
      s.placeData idx k m = ((w.1.markIn idx k).afterPlace idx m as (s.isHeldMirror idx) w.2).ackUp idx m)) ∧
  (∀ (s : State) (idx : Nat), (s.getCtx idx).part < 16 →
    let u := (s.inc (ZTP_WINVIOL.COUNT (s.getCtx idx).part)).queueCtl idx 4 0
    ((u.getAux idx).posted = none → s.winViolation idx = u) ∧
    (∀ w, (u.getAux idx).posted = some w → s.winViolation idx = (u.closePosted idx).endCopies (s.getCtx idx).part stCHECKFAIL [(w.core, w.seq)])) ∧
  (∀ (s : State) (idx : Nat), (s.getAux idx).posted = none → s.takeClose idx =
    (s.endCopies (s.getCtx idx).part stCHECKFAIL ((s.getAux idx).txq.filterMap TxReq.owner ++ s.ownersOf idx)).endUnits idx stCHECKFAIL) ∧
  (∀ x : Ctx, x.rxMap = 0 → (x.arrived 0).rxSeq = (x.rxSeq + 1) % 2 ^ 48 ∧ (x.arrived 0).rxMap = 0 ∧
    (x.arrived 3).rxSeq = x.rxSeq ∧ (x.arrived 3).rxMap = 8) ∧
  (∀ (s : State) (idx : Nat) (m : Msg), ((s.getCtx idx).rxSeq = 0 → s.ackUp idx m = s) ∧
    ((s.getCtx idx).rxSeq ≠ 0 → s.ackUp idx m = (s.sendTo idx { s.msgOf idx { mtype := 2, offset := 0, blocks := [], checks := [], owner := none }
      m.scell m.spos m.spart with seq := (s.getCtx idx).rxSeq - 1 }).1)) ∧
  (∀ (s t : State) (m : Msg), m.mtype = 1 → let idx := m.dhandle % 2 ^ 18
    (s.arrive m = (t, none) → exec (.grantReceive m) s = .next t) ∧
    (∀ k, s.arrive m = (t, some k) → exec (.grantReceive m) s = .next (((t.markIn idx k).takeGrant idx (m.offset / 256)).ackUp idx m))) ∧
  (∀ (s : State) (m : Msg), (m.mtype ≠ 1 → exec (.grantReceive m) s = .next s) ∧ (m.mtype ≠ 2 → exec (.ackReceive m) s = .next s)) ∧
  (∀ (s : State) (m : Msg), m.mtype = 2 → s.admitMsg m = (s, true) → exec (.ackReceive m) s = .next (s.takeAck (m.dhandle % 2 ^ 18) m.seq)) ∧
  (∀ (s : State) (idx v : Nat), let x := s.getCtx idx
    let a := s.getAux idx
    let u := s.setCtx idx { x with credit := Nat.min (x.credit + v) 65535 }
    (a.sends = [] → s.takeGrant idx v = (if x.standing = true ∨ x.kind ≠ 3 ∨ 16 ≤ x.part then u else u.setAux idx { a with grants := a.grants ++ [v] })) ∧
    (∀ c q n r, a.sends = (c, q, n) :: r → let w := s.setAux idx { a with sends := r }
      s.takeGrant idx v = (if n = v then w.setCtx idx { w.getCtx idx with credit := Nat.min (x.credit + v) 65535 } else w).serveSend x.part c q n v) ∧
    (a.unacked.all (fun u => u.owner.isNone) = true →
      let left := a.unacked.filter (fun u => decide (2 ^ 47 ≤ (v % 2 ^ 48 + 2 ^ 48 - u.msg.seq) % 2 ^ 48))
      s.takeAck idx v = (s.setAux idx { a with unacked := left }).setCtx idx
        { x with inflight := left.length, txAcked := (left.map (fun u => u.msg.seq)).headD x.txSeq }))

/-! ## Chapters 10 to 13: collectives, Assay, Strata, recovery -/

/-- Bedrock, or a Flint on queues below 255, opens a closed queue with permitted values within the limits of R291 and closes an open one; queue 255 from a Flint, or a limit reached, is a bus error; PF16 reaches neither. A join block of a tree peer counts when it agrees with the own, and the queue opens, and then counts as open, when every rank it exchanges partials or results with has joined; one that disagrees, or the time-out, fails the join. A permitted TAIL issues the new entries in order and sweeps those that cannot run; another is a bus error. A queue's next entry of a row's kind begins, where it moves data on a free mover channel and with no source block being written: broken, it fails; with its source blocks verified the member sends its contribution and its status block; a failing source fails it. Every node of the tree is formed, up or down, once, by its executor, and only when its inputs have arrived; the chunk of status blocks ORs the flags of those that agree and fails the operation otherwise. A failed operation completes CHECKFAIL, and its peers are told. The oldest started operation completes OK with the combined flag once the member has done all of it (Strata's queue 255 then acts), and fails on a status block that disagrees. The executor of R292 is always a member of its node. Completion is stated of COLLECTIVE_OPEN, COLLECTIVE_CLOSE, COLLECTIVE_TAIL_WRITE, JOIN_BLOCK_RECEIVE, JOIN_TIMEOUT, ALLREDUCE, REDUCE, BROADCAST, REDUCE_SCATTER, ALLGATHER, BARRIER, CHUNK_COMBINE and COLLECTIVE_COMPLETE. -/
def Obligations.CollectivesOpenRunAndComplete : Prop :=
  (∀ (s : State) (a : Agent) (p q : Nat), p < 16 → q < 256 → a ≠ .pf16 → (isFlint a = false ∨ q ≠ 255) →
    let x := s.getColq p q
    let up := queuesUp s.colq
    let own := queuesUp (s.colq.filter (fun e => decide (e.1 / 256 = p)))
    ((x.opening = true ∨ x.opened = true ∨ s.openOk p q = false) → exec (.collectiveOpen a p q) s = .next s) ∧
    (x.opening = false → x.opened = false → s.openOk p q = true →
      ((4096 ≤ up ∨ 256 ≤ own) → exec (.collectiveOpen a p q) s = .next (s.busErr p (regBase + colCtrlOff q))) ∧
      (up < 4096 → own < 256 → exec (.collectiveOpen a p q) s = .next (s.colOpen p q))) ∧
    exec (.collectiveClose a p q) s = .next (if x.opening = true ∨ x.opened = true then s.colClose p q else s)) ∧
  (∀ (s : State) (p c : Nat), p < 16 → exec (.collectiveOpen (.flint c) p 255) s = .next (s.busErr p (regBase + colCtrlOff 255)) ∧
    exec (.collectiveClose (.flint c) p 255) s = .next (s.busErr p (regBase + colCtrlOff 255))) ∧
  (∀ (s : State) (p q tail : Nat), p < 16 → q < 256 → exec (.collectiveOpen .pf16 p q) s = .next s ∧ exec (.collectiveClose .pf16 p q) s = .next s ∧
    exec (.collectiveTailWrite .pf16 p q tail) s = .next s) ∧
  (∀ (s : State) (p q : Nat) (j : JoinBlock), p < 16 → q < 256 → let x := s.getColq p q
    (x.opening = true → x.peers.contains j.rank = true → { j with rank := s.rf (COL_Q_RANK.RANK p q) } = s.ownJoin p q →
      exec (.joinBlockReceive p q j) s = .next ((s.setColq p q { x with joined := x.joined ++ [j.rank] }).joinProgress p q)) ∧
    (x.opening = true → x.peers.contains j.rank = true → { j with rank := s.rf (COL_Q_RANK.RANK p q) } ≠ s.ownJoin p q →
      exec (.joinBlockReceive p q j) s = .next (s.joinFailed p q)) ∧
    ((x.opening = false ∨ x.peers.contains j.rank = false) → exec (.joinBlockReceive p q j) s = .next s) ∧
    exec (.joinTimeout p q) s = .next (if x.opening = true then s.joinFailed p q else s)) ∧
  (∀ (s : State) (p q : Nat), let x := s.getColq p q
    (x.opening = true → x.waiting = false → x.awaited.all x.joined.contains = true → s.joinProgress p q =
      (((s.setColq p q { x with opening := false, opened := true }).wf (COL_Q_RANK.OPEN p q) 1).inc (COL_CFG.QOPEN p)).colSweep p q 64) ∧
    (x.awaited.all x.joined.contains = false → s.joinProgress p q = s)) ∧
  (∀ (s : State) (a : Agent) (p q tail : Nat), p < 16 → q < 256 → a ≠ .pf16 → exec (.collectiveTailWrite a p q tail) s = .next (
    if (isFlint a = true ∧ q = 255) ∨ s.tailOk p q tail = false then s.busErr p (0xFF0008010030 + 0x40 * q) else s.tailWrite p q tail)) ∧
  (∀ (s : State) (p q tail : Nat), (s.getColq p q).opened = true → Tbl.sortedFrom 0 s.colq = true →
    (s.colIssue p q tail).getColq p q = { s.getColq p q with ops := (s.getColq p q).ops ++
      (List.range ((tail % 2 ^ 24 + 2 ^ 24 - s.rf (COL_Q_SEQ.TAIL p q)) % 2 ^ 24)).map (fun i =>
        { seq := (s.rf (COL_Q_SEQ.TAIL p q) + 1 + i) % 2 ^ 24, words := [] }) } ∧
    s.tailWrite p q tail = (s.colIssue p q tail).colSweep p q 64) ∧
  (∀ (s u : State) (p q k : Nat) (o : ColOp) (ws : List Word64), p < 16 → q < 256 → (s.getColq p q).opened = true → (s.getColq p q).next = some o →
    s.ringEntry p q o.seq = some ws →
    ((colCmd ws).srcBlocks (s.rf (COL_Q_RANK.N p q)) (s.rf (COL_Q_RANK.RANK p q))).any (s.interlocked p) = false →
    ((colCmd ws).op = 5 → exec (.barrier p q) s = .next ((s.colBegin p q o.seq ws).colSweep p q 64)) ∧
    (s.takeTurn p (s.colTurn p) = some (k, u) →
      let go (i : Instr) (n : Nat) : Prop := (colCmd ws).op = n → exec i s = .next ((u.colBegin p q o.seq ws).colSweep p q 64)
      go (.allreduce p q) 0 ∧ go (.reduce p q) 1 ∧ go (.broadcast p q) 2 ∧ go (.reduceScatter p q) 3 ∧ go (.allgather p q) 4)) ∧
  (∀ (s : State) (p q sq : Nat) (ws : List Word64),
    let t := s.colTree p q
    let m := colCmd ws
    let o : ColOp := { seq := sq, words := ws, started := true }
    let u := s.colStarted p q sq ws
    (u.colCmdOk t.n m = false → s.colBegin p q sq ws = u.colFail p q o stCHECKFAIL) ∧
    (∀ v st, u.colCmdOk t.n m = true → u.verify p (u.colUnit p) (m.srcBlocks t.n t.k) [] (u.rf (COL_Q_HANDLE.HANDLE p q)) = (v, st) →
      s.colBegin p q sq ws = (if st ≠ 0 then v.colFail p q o st else (v.contribute p q t m).sendStatus p q sq m))) ∧
  (∀ (s : State) (p q st : Nat) (o : ColOp), (s.getColq p q).peers = [] → s.colFail p q o st = s.colEnd p q o.seq st (colCmd o.words).nf) ∧
  (∀ (s : State) (p q st k : Nat) (o : ColOp), (s.getColq p q).peers = [k] → s.colFail p q o st =
    (s.emit (.status p q k (statusOf o.seq (colCmd o.words) (colCmd o.words).nf true))).colEnd p q o.seq st (colCmd o.words).nf) ∧
  (∀ (s : State) (p q sq lev b c : Nat) (up : Bool) (addrs order : List Nat) (stat : List StatusBlock) (res retry : Residue) (o : ColOp), p < 16 → q < 256 →
    (s.getColq p q).ops.find? (fun o => o.seq == sq && o.started && o.status.isNone) = some o →
    let t := s.colTree p q
    let m := colCmd o.words
    let kids := childrenOf t.n t.r lev b
    let ins := (List.range kids.length).map (fun i =>
      (s.childIn p q t o lev (kids.getD i 0) c (addrs.getD i 0), t.upIn m (lev - 1) (kids.getD i 0) c))
    let x := s.resultIn p q t o lev b c (addrs.headD 0)
    let go := exec (.chunkCombine p q sq lev b c up addrs stat order res retry) s
    (((t.duties m).contains (lev, b, c, up) = false ∨ (o.node lev b c up).isSome = true) → go = .next s) ∧
    ((t.duties m).contains (lev, b, c, up) = true → o.node lev b c up = none →
      (c = t.chunks m → up = true → go = .next (s.statusUp p q t o m lev b c stat)) ∧
      (c = t.chunks m → up = false → go = .next (s.statusDown p q t o m lev b c stat)) ∧
      (c ≠ t.chunks m → up = true → ins.all (s.inReady p t m (m.width (lev - 1)) (c * t.ch)) = true →
        ∀ k u, s.takeTurn p (s.colTurn p) = some (k, u) → go = .next (u.nodeUp p q t o m lev b c k ins order res retry)) ∧
      (c ≠ t.chunks m → up = true → ins.all (s.inReady p t m (m.width (lev - 1)) (c * t.ch)) = false → go = .next s) ∧
      (c ≠ t.chunks m → up = false → (lev ≠ 0 ∨ o.settled = true) → s.inReady p t m 1 (c * t.ch) (x, t.downIn m lev b c) = true →
        ∀ k u, s.takeTurn p (s.colTurn p) = some (k, u) → go = .next (u.nodeDown p q t o m lev b c k x)) ∧
      (c ≠ t.chunks m → up = false → (lev = 0 ∧ o.settled = false) → go = .next s))) ∧
  (∀ (t : ColTree) (m : ColCmd) (lev b c : Nat) (up : Bool), (t.duties m).contains (lev, b, c, up) = true →
    lev ≤ t.top ∧ c ≤ t.chunks m ∧ b = baseOf t.r lev t.k ∧ executor t.n t.r lev b c = t.k) ∧
  (∀ (s : State) (p q c b lev : Nat) (t : ColTree) (o : ColOp) (m : ColCmd) (stat l : List StatusBlock),
    (List.range (childrenOf t.n t.r lev b).length).mapM (fun i => o.statusIn t (executor t.n t.r (lev - 1) ((childrenOf t.n t.r lev b).getD i 0) c)
      (if lev ≤ 1 then some m.nf else (o.node (lev - 1) ((childrenOf t.n t.r lev b).getD i 0) c true).map (·.flag)) stat[i]?) = some l →
    (l.all (statusAgrees (statusOf o.seq m m.nf)) = false → s.statusUp p q t o m lev b c stat = s.colFail p q o stCHECKFAIL) ∧
    (l.all (statusAgrees (statusOf o.seq m m.nf)) = true →
      let f := l.any StatusBlock.flag
      let u := s.addNode p q o.seq { lev := lev, base := b, chunk := c, up := true, flag := f }
      s.statusUp p q t o m lev b c stat = if t.top ≤ lev ∨ t.parent lev b c = t.k then u
        else u.emit (.status p q (t.parent lev b c) (statusOf o.seq m f)))) ∧
  (∀ n r lev b c : Nat, 2 ≤ r → b < n → b ≤ executor n r lev b c ∧ executor n r lev b c < n ∧ executor n r lev b c < b + r ^ lev) ∧
  (∀ (s : State) (p q : Nat) (o : ColOp) (status : List StatusBlock), p < 16 → q < 256 → (s.getColq p q).opened = true →
    (s.getColq p q).ops.find? (fun o => o.started && o.status.isNone) = some o →
    let m := colCmd o.words
    let own := (status.filter (fun b => b.seq == o.seq)).all (statusAgrees (statusOf o.seq m m.nf))
    (own = false → exec (.collectiveComplete p q status) s = .next (s.colFail p q o stCHECKFAIL)) ∧
    (own = true → s.opDone p q o = false → exec (.collectiveComplete p q status) s = .next s) ∧
    (own = true → s.opDone p q o = true → exec (.collectiveComplete p q status) s = .next
      (if q = 255 then (s.colEnd p q o.seq stOK o.flag).barrierDone p o.flag else s.colEnd p q o.seq stOK o.flag)))

/-- RESULT_TAG starts a tag over its list (BUSY; CHECKFAIL on a bad list); when it ends BUSY clears, DONE counts, and ASY_TAG takes the SHA3-256 of the message of R318 only with status OK. An update tag that ends is kept and shown, goes to every other replica, and may decide the vote: with one tag or any nondeterminism the outcome is UNCHECKED (2); all equal CHECKED (1); a majority among three or more DEVIANT (3) with the others in DEVMASK; else SPLIT (4). A vote block of this or the last step, of the running attempt and a known replica is kept, another counts in ASY_VSTALE. A vote that misses a replica at the time-out is MISSING (5), with FATAL 0x81 and the abort wave. A pending field test starts in READY or FAULT; at its end result, phase, cores and channels are recorded, every failing unit raises 0x83, the core or mover channel it belongs to is retired, and a WARM reset follows. Completion is stated of RESULT_TAG, TAG_COMPLETE, UPDATE_TAG_COMPLETE, VOTE_BLOCK_RECEIVE, VOTE_TIMEOUT, FIELD_TEST_START and FIELD_TEST_DONE. -/
def Obligations.TagsVotesAndFieldTests : Prop :=
  (∀ (s : State) (a : Agent) (p : Nat), p < 16 → a ≠ .pf16 → exec (.resultTag a p) s = .next (
    if s.rf (PRT_CLK_EN.ASY p) = 0 ∨ s.rf (ASY_TAG_STATUS.BUSY p) = 1 then s.busErr p 0xFF000B000060 else s.startTag p)) ∧
  (∀ (s : State) (p : Nat) (t : TagRun), p < 16 → (s.getAssay p).tagR = some t →
    let u := (((s.setAssay p { s.getAssay p with tagR := none }).wf (ASY_TAG_STATUS.BUSY p) 0).wf (ASY_TAG_STATUS.STAT p) t.status).inc
      (ASY_TAG_STATUS.DONE p)
    (t.status ≠ 0 → exec (.tagComplete p) s = .next u) ∧
    (t.status = 0 → exec (.tagComplete p) s = .next (u.putTag (ASY_TAG.TAG p) (leNat (sha3_256 (s.tagMessage p 0 t)))))) ∧
  (∀ (s : State) (p : Nat), p < 16 → (s.getAssay p).tagR = none → exec (.tagComplete p) s = .next s) ∧
  (∀ (s : State) (p : Nat), p < 16 → (s.getAssay p).tagU = none → exec (.updateTagComplete p) s = .next s) ∧
  (∀ (s : State) (p : Nat) (t : TagRun), p < 16 → (s.getAssay p).tagU = some t → s.rf (ASY_VCFG.REPL p) = 1 → s.rf (ASY_VCFG.OWN p) = 0 →
    Tbl.sortedFrom 0 s.flds = true →
    let x := s.getAssay p
    let tag := leNat (sha3_256 (s.tagMessage p 1 t))
    exec (.updateTagComplete p) s = .next ((((s.setAssay p { x with tagU := none, ownDone := true, tags := x.tags ++
      [⟨x.step, x.attempt, s.rf (ASY_VPEER.RANK p 0), x.ndet, tag⟩] }).wf (ASY_STATUS.UBUSY p) 0).putTag (ASY_UTAG.TAG p) tag).decideVote p)) ∧
  (∀ l : List VoteTag, (l.length ≤ 1 ∨ l.any VoteTag.ndet = true → outcomeOf l = (2, 0)) ∧
    (2 ≤ l.length → l.any VoteTag.ndet = false → (∀ v ∈ l, ∀ w ∈ l, v.tag = w.tag) → outcomeOf l = (1, 0)) ∧
    (∀ t, 3 ≤ l.length → l.any VoteTag.ndet = false → l.length < 2 * agreeing l t → (∃ v ∈ l, v.tag ≠ t) →
      (outcomeOf l).1 = 3 ∧ ∀ k (h : k < l.length), bitOf (outcomeOf l).2 k = decide (l[k].tag ≠ t)) ∧
    (2 ≤ l.length → l.any VoteTag.ndet = false → (∃ v ∈ l, ∃ w ∈ l, v.tag ≠ w.tag) → (∀ t, 2 * agreeing l t ≤ l.length ∨ l.length = 2) →
      outcomeOf l = (4, 0))) ∧
  (∀ (s : State) (p : Nat), (s.getAssay p).decided = false → (s.getAssay p).ownDone = true → ∀ l, s.allTags p = some l →
    s.decideVote p = ((s.putVote p (outcomeOf l).1 (outcomeOf l).2).voteRecords p (outcomeOf l).1 (outcomeOf l).2).tryRelease p) ∧
  (∀ (s : State) (p : Nat) (b : VoteBlock), p < 16 → let x := s.getAssay p
    let named := ∃ k, k < s.rf (ASY_VCFG.REPL p) ∧ s.rf (ASY_VPEER.RANK p k) = b.rank
    ((b.step = x.step ∨ b.step + 1 = x.step) → b.attempt = x.attempt → named → exec (.voteBlockReceive p b) s = .next
      ((s.setAssay p { x with tags := x.tags.filter (fun t => !(t.step == b.step && t.attempt == b.attempt && t.rank == b.rank)) ++
        [⟨b.step, b.attempt, b.rank, b.ndet, b.tag⟩] }).decideVote p)) ∧
    (((b.step ≠ x.step ∧ b.step + 1 ≠ x.step) ∨ b.attempt ≠ x.attempt ∨ ¬ named) → exec (.voteBlockReceive p b) s = .next (s.inc (ASY_VSTALE.COUNT p)))) ∧
  (∀ (s : State) (p : Nat), p < 16 → ((s.getAssay p).decided = true ∨ (s.getAssay p).ownDone = false) → exec (.voteTimeout p) s = .next s) ∧
  (∀ (s : State) (p k : Nat), p < 16 → (s.getAssay p).decided = false → (s.getAssay p).ownDone = true →
    (List.range (s.rf (ASY_VCFG.REPL p))).find? (fun k => (s.repTag p k).isNone) = some k → exec (.voteTimeout p) s = .next (
      let c := (s.getAssay p).ctxs.getD k 0
      let u := s.putVote p 5 0
      let x := s.getAssay p
      (u.raise { unit := asyUnit p, cls := .fatal, code := 0x81, part := some p, handle := s.handleOf c, epoch := (s.getCtx c).epoch,
                 synd := [(x.step, 8), (x.attempt, 1), (5, 1), (0, 1)] }).startWave p 1 (asyUnit p))) ∧
  (∀ (s : State) (p : Nat), p < 16 → exec (.fieldTestStart p) s = .next (
    if (s.getFt p).pending = true ∧ (s.getFt p).running = false ∧ (s.pstate p = 3 ∨ s.pstate p = 5) then
      (s.setFt p ⟨false, true⟩).wf (ASY_FT.BUSY p) 1 else s)) ∧
  (∀ (s : State) (p : Nat) (l : List FtFail), p < 16 → (s.getFt p).running = false → exec (.fieldTestDone p l) s = .next s) ∧
  (∀ (s : State) (p : Nat), p < 16 → (s.getFt p).running = true → exec (.fieldTestDone p []) s = .next (
    let u := ((((s.setFt p {}).wf (ASY_FT.BUSY p) 0).wf (ASY_FT.RESULT p) 1).wf (ASY_FT.PHASE p) 0).wf (ASY_FT.CORES p) 0
    ((((u.wf (ASY_FT.CHANS p) 0).inc (ASY_FT.RUNS p)).endHostOps p 6 0).mgmtDone (p + 16)).resetRequest p 1)) ∧
  (∀ (s : State) (p : Nat) (e : FtFail), p < 16 → (s.getFt p).running = true → exec (.fieldTestDone p [e]) s = .next (
    let a := s.raise { unit := unitId p e.cls e.inst, cls := .perm, code := 0x83, part := some p, synd := [(e.phase, 1), (e.test, 2)] }
    let b := match ftCore e with
      | some k => a.retireCore p k
      | none => a
    let c := match ftChan e with
      | some k => b.retireChan p k
      | none => b
    let u := ((((c.setFt p {}).wf (ASY_FT.BUSY p) 0).wf (ASY_FT.RESULT p) 2).wf (ASY_FT.PHASE p) e.phase).wf (ASY_FT.CORES p)
      (match ftCore e with
       | some k => 2 ^ k
       | none => 0)
    let v := u.wf (ASY_FT.CHANS p) (match ftChan e with
      | some k => 2 ^ k
      | none => 0)
    (((v.inc (ASY_FT.RUNS p)).endHostOps p 6 0).mgmtDone (p + 16)).resetRequest p 1)) ∧
  (∀ (s : State) (p : Nat) (e : FtFail) (l : List FtFail), (∀ f ∈ e :: l, f.cls = 7) →
    s.ftRetire p (e :: l) = (s.raise (ftRecord p e)).ftRetire p l) ∧
  (∀ e : FtFail, (e.cls ≤ 3 → ftCore e = some (if e.cls = 0 then e.inst / 4 % 8 else e.inst % 8) ∧ ftChan e = none) ∧
    (e.cls = 4 → ftCore e = none ∧ ftChan e = some (e.inst % 32)))

/-- In a running partition with every condition of R345 met, no image under way and the last step mirrored and voted on, Strata enters the boundary BARRIER; in a local replay the boundary is the partition's own. A first UPDATE_BEGIN of a step's Flint starts its update phase (the first of all names the deciding collective); a second, queue 255, or STR not clocked is a bus error. The decision, once the deciding collective is complete and the previous step mirrored, takes SKIP from the non-finite flag. A released extent is copied once its blocks verify and none is being written; the mirrored BARRIER follows when own copy and held mirror are complete. In a replay a receive takes the next recorded message of its context, into the window where it was or for the dispatch unit, and a SEQ that differs, or none, is FATAL 0x74 with the abort wave. After its admission to a restarted job a partition whose pulled mirror is COMPLETE and of this size gets blocks, step and counters back; then the replay begins, or the partition runs on; another mirror is FATAL 0x71. Otherwise nothing happens. Completion is stated of BOUNDARY_BARRIER_ENTER, UPDATE_BEGIN, UPDATE_DECISION, EXTENT_COPY_DONE, MIRRORED_BARRIER_ENTER, LOCAL_REPLAY and MIRROR_PULL_DONE. -/
def Obligations.StrataStepsMirrorsAndReplays : Prop :=
  (∀ (s : State) (p : Nat), p < 16 → let x := s.getStrata p
    ((s.runs p = false ∨ s.stepDone p = false ∨ x.suspRun = true) → exec (.boundaryBarrierEnter p) s = .next s) ∧
    (s.runs p = true → s.stepDone p = true → x.suspRun = false →
      (x.replay ≠ none → exec (.boundaryBarrierEnter p) s = .next (s.jobBoundary p 2)) ∧
      (x.replay = none → x.phase = 7 → (s.getAssay p).decided = true →
        exec (.boundaryBarrierEnter p) s = .next ((s.setStrata p { x with phase := 2 }).enterBarrier p 1 false)) ∧
      (x.replay = none → (x.phase ≠ 7 ∨ (s.getAssay p).decided = false) → exec (.boundaryBarrierEnter p) s = .next s))) ∧
  (∀ (s : State) (p c : Nat) (v : Word64), p < 16 → c < s.lcores p → let f := s.getFlint p c
    let x := s.getStrata p
    (s.rf (PRT_CLK_EN.STR p) = 0 → exec (.updateBegin p c v) s = .next (s.busErr p 0xFF000A000040)) ∧
    (s.rf (PRT_CLK_EN.STR p) ≠ 0 → fieldOf v 0 0 = 0 → exec (.updateBegin p c v) s = .next s) ∧
    (s.rf (PRT_CLK_EN.STR p) ≠ 0 → fieldOf v 0 0 ≠ 0 → (fieldOf v 8 1 = 255 ∨ f.upd = true) →
      exec (.updateBegin p c v) s = .next (s.busErr p 0xFF000A000040)) ∧
    (s.rf (PRT_CLK_EN.STR p) ≠ 0 → fieldOf v 0 0 ≠ 0 → fieldOf v 8 1 ≠ 255 → f.upd = false → exec (.updateBegin p c v) s = .next (
      let u := s.setFlint p c { f with upd := true }
      if x.deciding = none then u.setStrata p { x with deciding := some (fieldOf v 8 1, fieldOf v 39 16) } else u))) ∧
  (∀ (s : State) (p q sq : Nat), p < 16 → (s.getStrata p).deciding = some (q, sq) → let x := s.getStrata p
    (x.decided = false → x.phase = 7 → seqCovers (s.rf (COL_Q_SEQ.DONE p q)) sq = true → exec (.updateDecision p) s = .next
      ((((s.setStrata p { x with decided := true }).wf (STR_STATUS.SKIP p) (s.rf (STR_NF.FLAG p))).wf (STR_STATUS.PHASE p) 2).settleAll p
        (((s.setStrata p { x with decided := true }).wf (STR_STATUS.SKIP p) (s.rf (STR_NF.FLAG p))).lcores p))) ∧
    ((x.decided = true ∨ x.phase ≠ 7 ∨ seqCovers (s.rf (COL_Q_SEQ.DONE p q)) sq = false) → exec (.updateDecision p) s = .next s)) ∧
  (∀ (s : State) (p : Nat), p < 16 → (s.getStrata p).deciding = none → exec (.updateDecision p) s = .next s) ∧
  (∀ (s : State) (p ext : Nat), p < 16 → let x := s.getStrata p
    let bad := (rangeBlocks x.ranges (ext * 4096) 4096).find? (fun a => !s.blockOk p a)
    let busy := (rangeBlocks x.ranges (ext * 4096) 4096).any (s.interlocked p)
    ((x.copying.contains ext = false ∨ busy = true) → exec (.extentCopyDone p ext) s = .next s) ∧
    (x.copying.contains ext = true → busy = false → bad = none → exec (.extentCopyDone p ext) s = .next (s.copyExtent p ext)) ∧
    (∀ a, x.copying.contains ext = true → busy = false → bad = some a → exec (.extentCopyDone p ext) s = .next (s.checkFailRec p (strUnit p) a))) ∧
  (∀ (s : State) (p : Nat), p < 16 → let x := s.getStrata p
    exec (.mirroredBarrierEnter p) s = .next (if x.phase = 5 ∧ s.copiesDone p = true ∧ x.suspRun = false then
      (s.setStrata p { x with phase := 6 }).enterBarrier p 3 false else s)) ∧
  (∀ (s : State) (p idx sq st : Nat), p < 16 → (s.getStrata p).replay = some st → let x := s.getStrata p
    let msgs := (x.slot (st % 2)).filter (fun m => m.idx == idx)
    let k := x.taken.get 0 idx
    let lost (found : Nat) := (s.raise { unit := strUnit p, cls := .fatal, code := 0x74, part := some p,
                                         synd := [(idx, 3), (sq, 6), (found, 6)] }).startWave p 1 (strUnit p)
    (msgs[k]? = none → exec (.localReplay p idx sq) s = .next (lost 0)) ∧
    (∀ m, msgs[k]? = some m → m.seq ≠ sq → exec (.localReplay p idx sq) s = .next (lost m.seq)) ∧
    (∀ m, msgs[k]? = some m → m.seq = sq → (s.getAux idx).posted = none →
      let u := s.setStrata p { x with taken := x.taken.set 0 idx (k + 1) }
      let as := blocksFrom m.addr m.blocks.length
      let v := if (s.getCtx idx).kind = 1 then u.setAux idx { u.getAux idx with fresh := (u.getAux idx).fresh ++ as } else u
      exec (.localReplay p idx sq) s = .next (if (s.getCtx idx).kind = 2 then u.replayItem p idx m
        else (v.placeBlocks p (as.zip (m.blocks.zip m.checks))).1)) ∧
    (∀ m w, msgs[k]? = some m → m.seq = sq → (s.getAux idx).posted = some w →
      let u := s.setStrata p { x with taken := x.taken.set 0 idx (k + 1) }
      let o := w.blocks.idxOf (m.addr / 256)
      let v := u.placeBlocks p ((((w.blocks.drop o).take m.blocks.length).map (· * 256)).zip (m.blocks.zip m.checks))
      let left := w.left.filter (fun i => decide (i < o ∨ o + m.blocks.length ≤ i))
      (v.2 = false → exec (.localReplay p idx sq) s = .next ((v.1.closePosted idx).endCopies p stCHECKFAIL [(w.core, w.seq)])) ∧
      (v.2 = true → left = [] → exec (.localReplay p idx sq) s = .next ((v.1.endCopies p stOK [(w.core, w.seq)]).closePosted idx)))) ∧
  (∀ (s : State) (p idx sq : Nat), p < 16 → (s.getStrata p).replay = none → exec (.localReplay p idx sq) s = .next s) ∧
  (∀ (s : State) (p : Nat) (h : List Byte) (bs : List (List Byte)) (cs : List Word32), p < 16 →
    let as := s.stateBlocks p
    let step := hdrField h 0 8
    let due := s.runs p = true ∧ (s.getStrata p).restart = true ∧ s.roundsOpen p = false
    (¬ due → exec (.mirrorPullDone p h bs cs) s = .next s) ∧
    (due → (hdrField h 8 1 ≠ 2 ∨ hdrField h 12 4 ≠ as.length ∨ bs.length ≠ as.length) → exec (.mirrorPullDone p h bs cs) s = .next
      ((s.raise { unit := strUnit p, cls := .fatal, code := 0x71, part := some p, synd := [(step, 8), (2 ^ p, 2)] }).startWave p 1 (strUnit p))) ∧
    (due → hdrField h 8 1 = 2 → hdrField h 12 4 = as.length → bs.length = as.length →
      let u := ((s.placeBlocks p (as.zip (bs.zip cs))).1).putCounters p step (hdrField h 16 8) (hdrField h 24 4) (hdrField h 32 8)
      let v := u.setStrata p { u.getStrata p with clean := [], reports := [], restart := false }
      (bitOf (v.getAssay p).redo (v.rf (ASY_VCFG.OWN p)) = true → exec (.mirrorPullDone p h bs cs) s = .next
        (((v.setStrata p { v.getStrata p with replay := some (step + 1), taken := [] }).wf (STR_STATUS.PHASE p) 3).runFlints p)) ∧
      (bitOf (v.getAssay p).redo (v.rf (ASY_VCFG.OWN p)) = false → exec (.mirrorPullDone p h bs cs) s = .next
        ((((v.swapTables p).swapRoutes p).release p).wf (STR_STATUS.PHASE p) 1))))

/-- SNAP and SUSPEND (a Flint or Bedrock, STR clocked) leave a request; with STR not clocked they are bus errors. A snapshot starts when its step is mirrored: from a complete held mirror, over a live endpoint handle, with every block verified, its header (WRITER, flags, NBLK) and blocks are queued to the endpoint; else it ends CHECKFAIL or STALE. It waits while a block of the mirror is being written. It ends OK when everything is acknowledged, or with the status its stream ended with. An image is begun with the last step mirrored and no snapshot running, and stops the Flints; when the engines are quiet it is stored under the partition with what it holds, STAT is OK or the status its stream ended with, and with STOP the partition leaves the job for READY. A restore with a failing tag raises 0x68, with another shape 0x76 (both CHECKFAIL), with a block that fails verification FATAL 0x73 with the abort wave and a WARM reset; else the snapshot's state, or the image's, takes its place. Completion is stated of SNAP, SUSPEND, SNAPSHOT_START, SNAPSHOT_DONE, SUSPEND_IMAGE_START, SUSPEND_IMAGE_DONE and RESTORE. -/
def Obligations.SnapshotsImagesAndRestores : Prop :=
  (∀ (s : State) (a : Agent) (p : Nat) (stop : Bool), p < 16 → a ≠ .pf16 →
    (s.rf (PRT_CLK_EN.STR p) = 0 → exec (.snap a p) s = .next (s.busErr p 0xFF000A000078) ∧ exec (.suspend a p stop) s = .next (s.busErr p 0xFF000A000078)) ∧
    (s.rf (PRT_CLK_EN.STR p) ≠ 0 → exec (.snap a p) s = .next (s.setStrata p { s.getStrata p with snapReq := true }) ∧
      exec (.suspend a p stop) s = .next (s.setStrata p { s.getStrata p with suspReq := true, suspStop := stop }))) ∧
  (∀ (s : State) (p : Nat), p < 16 → let busy := (blocksFrom (s.rf (STR_MHELD.BASE p)) (1 + s.rf (STR_MHELD_LEN.BLOCKS p))).any (s.interlocked p)
    ((s.getStrata p).phase ≠ 7 ∨ (s.getStrata p).snapDue = false ∨ busy = true) → exec (.snapshotStart p) s = .next s) ∧
  (∀ (s : State) (p : Nat), p < 16 → (s.getStrata p).phase = 7 → (s.getStrata p).snapDue = true →
    (blocksFrom (s.rf (STR_MHELD.BASE p)) (1 + s.rf (STR_MHELD_LEN.BLOCKS p))).any (s.interlocked p) = false →
    let x := s.getStrata p
    let nr := s.rf (STR_CFG.NARROW p) == 1
    let body := s.snapFrom p nr 0 x.tsl
    let once := s.onceOnly p body.length
    let own := s.rf (ASY_VCFG.OWN p)
    let w := s.rf (STR_STEP.STEP p) % s.rf (ASY_VCFG.REPL p)
    let full := !once || w == own
    let u := ((((s.setStrata p { x with snapDue := false, snapRun := true, ckptStat := stOK }).wf (STR_CKPT_STATUS.BUSY p) 1).wf (STR_CKPT_STATUS.ONCE p)
      (bit once)).wf (STR_CKPT_STATUS.WROTE p) (bit full)).wf (STR_CKPT_STATUS.STEP p) (s.rf (STR_STEP.STEP p))
    let base := u.rf (STR_MHELD.BASE p)
    let bad := (if full = true then blocksFrom base (1 + u.rf (STR_MHELD_LEN.BLOCKS p)) else [base]).find? (fun a => !u.goodBlock p a)
    ((u.holdsMirror p = false ∨ u.rf (STR_STATUS.HELD p) ≠ 2) → exec (.snapshotStart p) s = .next (u.snapEnd p 3)) ∧
    (u.holdsMirror p = true → u.rf (STR_STATUS.HELD p) = 2 → u.handleOk p (u.rf (STR_CKPT_EP.HELD p)) = false →
      exec (.snapshotStart p) s = .next (u.snapEnd p 1)) ∧
    (u.holdsMirror p = true → u.rf (STR_STATUS.HELD p) = 2 → u.handleOk p (u.rf (STR_CKPT_EP.HELD p)) = true →
      (∀ a, bad = some a → exec (.snapshotStart p) s = .next ((u.checkFailRec p (strUnit p) a).snapEnd p 3)) ∧
      (bad = none → ∃ hdr : List Byte, exec (.snapshotStart p) s = .next (({ u with freeCtr := u.freeCtr + 1 }).queueTx (u.rf (STR_CKPT_EP.HELD p) % 2 ^ 18)
        (streamMsgs ((hdr, checkWord hdr) :: (if full = true then body else []))))))) ∧
  (∀ (s : State) (p : Nat), p < 16 → let i := s.rf (STR_CKPT_EP.HELD p) % 2 ^ 18
    let x := s.getStrata p
    exec (.snapshotDone p) s = .next (if x.snapRun = true ∧ (x.ckptStat ≠ stOK ∨ ((s.getAux i).txq = [] ∧ (s.getAux i).unacked = [])) then s.snapEnd p x.ckptStat else s)) ∧
  (∀ (s : State) (p : Nat), p < 16 → let x := s.getStrata p
    exec (.suspendImageStart p) s = .next (if x.suspReq = true ∧ x.phase = 7 ∧ s.runs p = true ∧ x.snapRun = false then
      (let u := ((s.setStrata p { x with suspReq := false, suspRun := true, ckptStat := stOK }).wf (STR_CKPT_STATUS.BUSY p) 1).wf (STR_STATUS.PHASE p) 4
       (List.range (u.lcores p)).foldl (fun s c => s.holdFlint p c) u) else s)) ∧
  (∀ (s : State) (p : Nat), p < 16 → ((s.getStrata p).suspRun = false ∨ s.imageReady p = false) → exec (.suspendImageDone p) s = .next s) ∧
  (∀ (s : State) (p : Nat), p < 16 → (s.getStrata p).suspRun = true → s.imageReady p = true → (s.getStrata p).suspStop = false →
    Tbl.sortedFrom 0 s.images = true → Tbl.sortedFrom 0 s.flds = true →
    ∃ t h m, exec (.suspendImageDone p) s = .next t ∧ t.images.get none p = some m ∧ m.header = h ∧ t.rf (STR_CKPT_STATUS.BUSY p) = 0 ∧
      t.rf (STR_CKPT_STATUS.STAT p) = (s.getStrata p).ckptStat % 8 ∧ t.out = s.out ++ [.image p (s.rf (STR_STEP.STEP p)) h] ∧ m.mem = s.mem.filter (fun e => e.1 / 2 ^ 48 == p) ∧
      t = { s with flds := t.flds, strata := t.strata, images := t.images, out := t.out, freeCtr := s.freeCtr + 1 }) ∧
  (∀ (s : State) (p : Nat), p < 16 → (s.getStrata p).suspRun = true → s.imageReady p = true → (s.getStrata p).suspStop = true →
    s.Inv → ∃ t, exec (.suspendImageDone p) s = .next t ∧ t.rf (PRT_STATE.STATE p) = 3 ∧ t.rf (MOV_RANK.VALID p) = 0) ∧
  (∀ (s : State) (p : Nat) (im tag : Bool) (h w : List Byte) (bs : List (List Byte)) (cs : List Word32), p < 16 →
    (s.runs p = false → exec (.restore p im h w bs cs tag) s = .next s) ∧
    (s.runs p = true → (let i := s.rf (STR_CKPT_EP.OWN p)
      exec (.restore p im h w bs cs false) s = .next ((s.raise
        ⟨s.transportUnit, .perm, 0x68, some p, 0, i, (s.getCtx (i % 2 ^ 18)).epoch, [(0, 2), (0, 1), (0, 1)], 0⟩).restoreEnd p 3)) ∧
      (∀ o, s.restoreMismatch p im h w = some o → exec (.restore p im h w bs cs true) s = .next
        ((s.raise { unit := strUnit p, cls := .perm, code := 0x76, part := some p, synd := [(o, 1)] }).restoreEnd p 3)) ∧
      (∀ i, s.restoreMismatch p im h w = none → (bs.zip cs).findIdx? (fun e => checkWord e.1 != e.2) = some i →
        let e := (bs.zip cs).getD i ([], 0#32)
        exec (.restore p im h w bs cs true) s = .next ((((s.restoreEnd p 3).raise { unit := strUnit p, cls := .fatal, code := 0x73, part := some p
                                                                                    synd := [(i, 6), ((checkWord e.1).toNat, 4), (e.2.toNat, 4)] }).startWave p 1
          (strUnit p)).resetRequest p 1)) ∧
      (s.restoreMismatch p im h w = none → (bs.zip cs).findIdx? (fun e => checkWord e.1 != e.2) = none →
        (im = false → exec (.restore p im h w bs cs true) s = .next (s.putSnapshot p h w (bs.zip cs))) ∧
        (∀ m, im = true → s.images.get none p = some m → m.header = h → exec (.restore p im h w bs cs true) s = .next ((s.putImage p m).restoreEnd p 0)))))

/-- In a running partition with its limit not 0, each watchdog records kind and unit, raises FATAL 0x91 and starts the abort wave with cause WATCHDOG (the Flint's only while it runs); otherwise nothing happens. An abort block takes effect only sealed, for a job here with this MEPOCH, and above AWAVE. LIVENESS_SEND sends one data message without blocks on each of Bedrock's open streams. The management watchdog halts every running partition, holds every port DOWN and asks for a power cycle. A certificate counts only through PF16 or sealed: against the membership of its job it is rejected, with its reason of R401 (form 1, scope 2, signatures 3, members 4) counted and recorded 0x97, or accepted: MEPOCH and ACCEPTED advance, the membership changes, 0x96 is recorded, streams to the expelled close, and an expelled module resets; a second one of the epoch with another body is a conflict, recorded FATAL 0x98 with the abort wave, and the same one a duplicate. A module in no such job takes one as a spare. Completion is stated of ENGINE_WATCHDOG, FLINT_WATCHDOG, STEP_WATCHDOG, ABORT_BLOCK_RECEIVE, LIVENESS_SEND, MGMT_WATCHDOG_EXPIRE and CERTIFICATE_RECEIVE. -/
def Obligations.WatchdogsWavesAndCertificates : Prop :=
  (∀ (s : State) (p unit queue sq : Nat), p < 16 → exec (.engineWatchdog p unit queue sq) s = .next (
    if s.runs p = true ∧ s.rf (PRT_WDT_CFG.ENG_MS p) ≠ 0 then s.watchdog p 1 unit queue sq else s)) ∧
  (∀ (s : State) (p c : Nat), p < 16 → c < s.lcores p → exec (.flintWatchdog p c) s = .next (
    if s.runs p = true ∧ s.rf (PRT_WDT_CFG.FLT_MS p) ≠ 0 ∧ s.rf (FLT_STATUS.STATE p c) = 1 then s.watchdog p 2 (s.flintUnit p c) 0xFFFF 0 else s)) ∧
  (∀ (s : State) (p : Nat), p < 16 → exec (.stepWatchdog p) s = .next (
    if s.runs p = true ∧ s.rf (PRT_WDT_CFG.STEP_S p) ≠ 0 then s.watchdog p 3 (strUnit p) 0xFFFF 0 else s)) ∧
  (∀ (s : State) (p kind unit queue sq : Nat), s.watchdog p kind unit queue sq =
    ((s.wdtStat p kind unit).raise
      ⟨s.bedrockUnit, .fatal, 0x91, none, 0, 0, 0, [(kind, 1), (unit, 2), (queue, 2), (sq, 3)], 0⟩).startWave p 5 unit) ∧
  (∀ (s : State) (b : AbortBlock) (f : Bool), exec (.abortBlockReceive b f false) s = .next s) ∧
  (∀ (s : State) (b : AbortBlock) (f : Bool),
    (∀ p ∈ s.jobParts b.job, s.rf (PRT_JOB2.MEPOCH p) ≠ b.mepoch ∨ b.wave ≤ s.rf (PRT_JOB2.AWAVE p)) → exec (.abortBlockReceive b f true) s = .next s) ∧
  (∀ (s : State) (b : AbortBlock) (f : Bool) (p : Nat), p ∈ s.jobParts b.job → s.rf (PRT_JOB2.MEPOCH p) = b.mepoch →
    s.rf (PRT_JOB2.AWAVE p) < b.wave → exec (.abortBlockReceive b f true) s = .next (s.takeWave b f)) ∧
  (∀ s : State, s.liveness = [] → exec .livenessSend s = .next s) ∧
  (∀ s : State, exec .livenessSend s = .next (s.liveness.foldl (fun s e =>
    let r : TxReq := { mtype := 0, offset := 0, blocks := [], checks := [], owner := none }
    s.sendMsg e.1 r (s.msgOf e.1 r e.2.1 e.2.2 0)) s)) ∧
  (∀ (s : State) (i c q : Nat), (i, (c, q)) ∈ s.liveness ↔
    ∃ e ∈ s.ctx, e.1 = i ∧ e.2.part = 16 ∧ e.2.state = 1 ∧ (s.getAux i).dest = some (c, q)) ∧
  (∀ s : State, ∃ u, exec .mgmtWatchdogExpire s = .next u ∧
    u = (let h := (List.range 16).foldl (fun s p => s.haltPartition p) s
      ((List.range h.fuse.variant.ports).foldl (fun s i => (s.wf (ZLK_CTRL.DISABLE i) 1).portDown i) h).askPowerCycle)) ∧
  (∀ (s : State) (p : Nat), s.haltPartition p = if s.runs p = true then (s.stopPartition p).wf (PRT_STATE.STATE p) 5 else s) ∧
  (∀ (s : State) (f : Bool) (c : Cert), exec (.certificateReceive false f false c) s = .next s) ∧
  (∀ (s : State) (v f l : Bool) (c : Cert) (p : Nat) (ps : List Nat), v = true ∨ l = true → s.memberParts c.job = p :: ps →
    let m := s.getMember p
    (∀ a, m.accepted = some a → a.mepoch = c.mepoch → sameBody a c = true → exec (.certificateReceive v f l c) s = .next s) ∧
    (∀ a, m.accepted = some a → a.mepoch = c.mepoch → sameBody a c = false → s.certReason c.job c.mepoch m.rmap m.before c ≠ 0 →
      exec (.certificateReceive v f l c) s = .next (s.certReject (p :: ps) c (s.certReason c.job c.mepoch m.rmap m.before c))) ∧
    (∀ a, m.accepted = some a → a.mepoch = c.mepoch → sameBody a c = false → s.certReason c.job c.mepoch m.rmap m.before c = 0 →
      exec (.certificateReceive v f l c) s = .next (
        let u := (p :: ps).foldl (fun s q => s.wf (PRT_QC.CONFLICT q) 1) s
        let w := u.raise { unit := u.bedrockUnit, cls := .fatal, code := 0x98, part := none, synd := [(c.mepoch, 4)] }
        (p :: ps).foldl (fun s q => s.startWave q 1 s.bedrockUnit) w)) ∧
    (m.accepted = none → let u := s.certForward (p :: ps) c f
      let r := u.certReason c.job (u.rf (PRT_JOB2.MEPOCH p)) m.rmap m.modules c
      exec (.certificateReceive v f l c) s = .next (if r = 0 then u.certAccept (p :: ps) c else u.certReject (p :: ps) c r))) ∧
  (∀ (s : State) (v f l : Bool) (c : Cert), v = true ∨ l = true → s.memberParts c.job = [] →
    exec (.certificateReceive v f l c) s = .next (s.certSpare c).1) ∧
  (∀ (s : State) (job me rm : Nat) (ms : List (Nat × Nat × Nat)) (c : Cert),
    (s.certReason job me rm ms c = 0 ↔ s.certForm c = true ∧ c.job = job ∧ c.mepoch = me ∧ c.rmap = rm ∧ s.certSigned c = true ∧ certMembers ms c = true) ∧
    (s.certForm c = false → s.certReason job me rm ms c = 1) ∧
    (s.certForm c = true → (c.job ≠ job ∨ c.mepoch ≠ me ∨ c.rmap ≠ rm) → s.certReason job me rm ms c = 2)) ∧
  (∀ (m : Membership) (c : Cert) (e : CertEntry), e ∈ c.entries → e.spare = false →
    (∀ f ∈ c.entries, f.spare = true → (f.spareSerial, f.cell, f.sparePos) ≠ (e.serial, e.cell, e.pos)) →
    (e.serial, e.cell, e.pos) ∉ (m.after c).modules ∧ (m.after c).before = m.modules ∧ (m.after c).accepted = some c)

/-! ## Chapter 14: attestation and tenancy -/

/-- A responder that runs answers each request of R414: GET_VERSION begins the connection, and the others come in its order, else ERROR UnexpectedRequest (the codes are DSP0274's, log entry 10). Slot 0 alone is served. GET_MEASUREMENTS counts in BDR_ATT, blocks 6 and 7 only on PF0 to PF15. KEY_EXCHANGE takes the first free session (one on PF0 to PF15, two on PF16) unless the entropy source has failed or none is free. FINISH opens it: PF0 to PF15 show SESSION and their queues count from 0; a wrong MAC records 0x9A and ends it. Inside an open session HEARTBEAT, KEY_UPDATE and END_SESSION are answered; outside, ERROR. A session ends with its third missed heartbeat; its keys go, SESSION clears and the function's running transfers stop. PF0 to PF15 answer ERROR in maintenance mode; before Bedrock runs nothing happens. Completion is stated of GET_VERSION, GET_CAPABILITIES, NEGOTIATE_ALGORITHMS, GET_DIGESTS, GET_CERTIFICATE, CHALLENGE, GET_MEASUREMENTS, KEY_EXCHANGE, FINISH, HEARTBEAT, KEY_UPDATE, END_SESSION, HEARTBEAT_TIMEOUT and SPDM_UNSUPPORTED. -/
def Obligations.SpdmMessagesAndSessions : Prop :=
  (∀ (s : State) (n : Nat), n < 17 → (s.boot = .running ∨ s.boot = .maint ∧ n = 16) →
    let ph := (s.getSess (sessKey n 0)).phase
    exec (.getVersion n) s = .next ((s.setPhase n 1).spdmRsp n 0x04 [0x13]) ∧
    (∀ code, exec (.spdmUnsupported n code) s = .next (s.spdmRsp n 0x7F [7, code])) ∧
    (1 ≤ ph → exec (.getCapabilities n) s = .next ((s.setPhase n 2).spdmRsp n 0x61 [])) ∧
    (2 ≤ ph → ∀ ok, exec (.negotiateAlgorithms n ok) s = .next (if ok = true then (s.setPhase n 3).spdmRsp n 0x63 [] else s.spdmErr n 1)) ∧
    (3 ≤ ph → exec (.getDigests n) s = .next (s.spdmRsp n 0x01 [1]) ∧
      (∀ slot off len, exec (.getCertificate n slot off len) s =
        .next (if slot = 0 then s.spdmRsp n 0x02 [slot, off, len] else s.spdmErr n 1)) ∧
      (∀ slot nonce, exec (.challenge n slot nonce) s =
        .next (if slot = 0 then s.draw.spdmRsp n 0x03 [slot, nonce, Config.randomDraw s.freeCtr] else s.spdmErr n 1)) ∧
      exec (.getMeasurements n 0) s = .next ((s.inc BDR_ATT.MEAS).spdmRsp n 0x60 [if n = 16 then 6 else 8]) ∧
      exec (.getMeasurements n 0xFF) s = .next ((s.inc BDR_ATT.MEAS).spdmRsp n 0x60
        (((if n = 16 then [1, 2, 3, 4, 5, 8] else [1, 2, 3, 4, 5, 6, 7, 8]).map (s.measurement n)).flatten)) ∧
      (∀ i, i ≠ 0 → i ≠ 0xFF → exec (.getMeasurements n i) s = .next (
        if i ≤ 8 ∧ (n < 16 ∨ i ≠ 6 ∧ i ≠ 7) then (s.inc BDR_ATT.MEAS).spdmRsp n 0x60 (s.measurement n i) else s.spdmErr n 1)) ∧
      (∀ slot, slot ≠ 0 → exec (.keyExchange n slot) s = .next (s.spdmErr n 1)) ∧
      (s.rf BDR_SEC.DRBG_OK = 0 → exec (.keyExchange n 0) s = .next (s.spdmErr n 5)) ∧
      (s.rf BDR_SEC.DRBG_OK ≠ 0 →
        ((s.getSess (sessKey n 0)).stage = 0 → exec (.keyExchange n 0) s =
          .next ((s.draw.setSess (sessKey n 0) { stage := 1, phase := ph, secret := s.freeCtr }).spdmRsp n 0x64 [0])) ∧
        ((s.getSess (sessKey n 0)).stage ≠ 0 → n = 16 → (s.getSess (sessKey n 1)).stage = 0 → exec (.keyExchange n 0) s =
          .next ((s.draw.setSess (sessKey n 1) { stage := 1, phase := (s.getSess (sessKey n 1)).phase, secret := s.freeCtr }).spdmRsp n 0x64 [1])) ∧
        ((s.getSess (sessKey n 0)).stage ≠ 0 → (n = 16 → (s.getSess (sessKey n 1)).stage ≠ 0) →
          exec (.keyExchange n 0) s = .next (s.spdmErr n 10)))) ∧
    (ph < 3 → ∀ a b c, exec (.getDigests n) s = .next (s.spdmErr n 4) ∧ exec (.getCertificate n a b c) s = .next (s.spdmErr n 4) ∧
      exec (.challenge n a b) s = .next (s.spdmErr n 4) ∧ exec (.getMeasurements n a) s = .next (s.spdmErr n 4) ∧
      exec (.keyExchange n a) s = .next (s.spdmErr n 4)) ∧
    (ph < 2 → ∀ ok, exec (.negotiateAlgorithms n ok) s = .next (s.spdmErr n 4)) ∧
    (ph = 0 → exec (.getCapabilities n) s = .next (s.spdmErr n 4)) ∧
    (∀ i, i < sessLimit n →
      let k := sessKey n i
      let x := s.getSess k
      (x.stage = 1 → exec (.finish n i false) s = .next ((s.secureFail n i 0).spdmErr n 6)) ∧
      (x.stage = 1 → n = 16 → exec (.finish n i true) s =
        .next (((s.setSess k { x with stage := 2, proven := true }).inc BDR_SEC.PF16_SESS).spdmRsp n 0x65 [])) ∧
      (x.stage = 1 → n < 16 → exec (.finish n i true) s =
        .next ((((s.setSess k { x with stage := 2, proven := decide (s.rf (BDR_PSEC.CLAIMED n) = 0) }).wf (BDR_PSEC.SESSION n) 1).setHost n
          { s.getHost n with sqSeq := 0, cqSeq := 0 }).spdmRsp n 0x65 [])) ∧
      (x.stage ≠ 1 → ∀ ok, exec (.finish n i ok) s = .next (s.spdmErr n 4)) ∧
      (x.stage = 2 → exec (.heartbeat n i) s = .next ((s.setSess k { x with missed := 0 }).spdmRsp n 0x68 []) ∧
        exec (.keyUpdate n i) s = .next ((s.setSess k { x with updates := x.updates + 1 }).spdmRsp n 0x69 []) ∧
        exec (.endSession n i) s = .next ((s.endSession n i).spdmRsp n 0x6C [])) ∧
      (x.stage ≠ 2 → exec (.heartbeat n i) s = .next (s.spdmErr n 4) ∧ exec (.keyUpdate n i) s = .next (s.spdmErr n 4) ∧
        exec (.endSession n i) s = .next (s.spdmErr n 4)))) ∧
  (∀ (s : State) (n i : Nat), n < 17 → let x := s.getSess (sessKey n i)
    exec (.heartbeatTimeout n i) s = .next (if x.stage ≠ 2 ∨ sessLimit n ≤ i then s
      else if 2 ≤ x.missed then s.endSession n i else s.setSess (sessKey n i) { x with missed := x.missed + 1 })) ∧
  (∀ (s : State) (n i : Nat), Tbl.sortedFrom 0 s.flds = true → Tbl.sortedFrom 0 s.sess = true → n < 16 → (s.getSess (sessKey n i)).stage = 2 →
    (s.endSession n i).getSess (sessKey n i) = { phase := (s.getSess (sessKey n i)).phase } ∧
    (s.endSession n i).rf (BDR_PSEC.SESSION n) = 0 ∧
    (∀ e ∈ (s.endSession n i).handles, ∀ h, e.2 = some h → h.fn = n → h.op ≤ 3 → h.st ≠ .accepted ∧ h.st ≠ .running)) ∧
  (∀ (s : State) (n : Nat), n < 16 → s.boot = .maint → ∀ a b c ok, exec (.getVersion n) s = .next (s.spdmErr n 5) ∧
    exec (.getCapabilities n) s = .next (s.spdmErr n 5) ∧ exec (.keyExchange n a) s = .next (s.spdmErr n 5) ∧
    exec (.getCertificate n a b c) s = .next (s.spdmErr n 5) ∧ exec (.finish n a ok) s = .next (s.spdmErr n 5)) ∧
  (∀ (s : State) (n : Nat), n < 17 → s.boot ≠ .maint → s.boot ≠ .running → ∀ a b c ok, exec (.getVersion n) s = .next s ∧
    exec (.getDigests n) s = .next s ∧ exec (.challenge n a b) s = .next s ∧ exec (.getCertificate n a b c) s = .next s ∧
    exec (.getMeasurements n a) s = .next s ∧ exec (.keyExchange n a) s = .next s ∧ exec (.finish n a ok) s = .next s ∧
    exec (.negotiateAlgorithms n ok) s = .next s)

/-- In the open session of a partition's function: CLAIM is accepted only in READY, unclaimed, with no claim since a last reset that was RETENANT, and while the DRBG is well; it records the key and sets CLAIMED. A session that has not proven the claim may only prove it: a failure counts, records 0x9D, and the fourth ends the session. PROVISION needs a claimed READY partition and zeros elsewhere, else 0x9B reason 3; an ANONCE used before for the job is reason 1; accepted, MEPOCH and AWAVE show and PROVISIONED is set. RELEASE of a claimed partition starts a RETENANT reset. Inside a PF16 session FW_BEGIN erases the other slot, FW_DATA programs up to 4 KiB of it, FW_COMMIT takes a bootable image, CFG_COMMIT a record that fits, LOG_READ answers up to 4 KiB; IDE keys are programmed, then active. A health failure clears DRBG_OK with 0x9C; a reseed restarts the request count. Answer codes and what LOG_READ shows are the model's (log entries 10, 28). Completion is stated of CLAIM, CLAIM_PROVE, PROVISION, RELEASE, FW_BEGIN, FW_DATA, FW_COMMIT, CFG_COMMIT, LOG_READ, IDE_KM_REQUEST, ENTROPY_HEALTH_FAIL and DRBG_RESEED. -/
def Obligations.TenancyFlashRequestsAndEntropy : Prop :=
  (∀ (s : State) (n : Nat), n < 16 → s.boot = .running → (s.getSess (sessKey n 0)).stage = 2 →
    let x := s.getSess (sessKey n 0)
    let t := s.getTen n
    (x.proven = false → (∀ key, exec (.claim n key) s = .next (s.spdmErr n 4)) ∧ (∀ v, exec (.provision n v) s = .next (s.spdmErr n 4)) ∧
      exec (.release n) s = .next (s.spdmErr n 4) ∧
      exec (.claimProve n true) s = .next ((s.setSess (sessKey n 0) { x with proven := true }).spdmRsp n 0x7E []) ∧
      (let u := ((s.setSess (sessKey n 0) { x with fails := x.fails + 1 }).inc (BDR_PSEC.PROOF_FAIL n)).raise
          ⟨s.bedrockUnit, .perm, 0x9D, none, 0, 0, 0, [(n, 1), (x.fails + 1, 1)], 0⟩;
        exec (.claimProve n false) s = .next (if x.fails < 3 then u.spdmErr n 5 else (u.endSession n 0).spdmErr n 5))) ∧
    (x.proven = true → (∀ ok, exec (.claimProve n ok) s = .next (s.spdmErr n 4)) ∧
      (s.rf BDR_SEC.DRBG_OK ≠ 0 → s.pstate n = psREADY → s.rf (BDR_PSEC.CLAIMED n) ≠ 1 → t.claimedSinceReset = false → t.lastRetenant = true →
        ∀ key, exec (.claim n key) s = .next (((s.setTen n { t with claimKey := some key, claimedSinceReset := true }).wf
          (BDR_PSEC.CLAIMED n) 1).spdmRsp n 0x7E [])) ∧
      ((s.rf BDR_SEC.DRBG_OK = 0 ∨ s.pstate n ≠ psREADY ∨ s.rf (BDR_PSEC.CLAIMED n) = 1 ∨ t.claimedSinceReset = true ∨ t.lastRetenant = false) →
        ∀ key, exec (.claim n key) s = .next (s.spdmErr n 5)) ∧
      (∀ v : Provision,
        (s.rf BDR_SEC.DRBG_OK = 0 → exec (.provision n v) s = .next ((s.spdmErr n 5).inc BDR_ATT.REFUSED)) ∧
        (s.rf BDR_SEC.DRBG_OK ≠ 0 → (s.pstate n ≠ psREADY ∨ s.rf (BDR_PSEC.CLAIMED n) = 0 ∨ v.othersZero = false) →
          exec (.provision n v) s = .next ((s.refuse 3).spdmErr n 5)) ∧
        (s.rf BDR_SEC.DRBG_OK ≠ 0 → s.pstate n = psREADY → s.rf (BDR_PSEC.CLAIMED n) ≠ 0 → v.othersZero = true →
          (s.anonces.contains (v.job, v.anonce) = true → exec (.provision n v) s = .next ((s.refuse 1).spdmErr n 5)) ∧
          (s.anonces.contains (v.job, v.anonce) = false → Tbl.sortedFrom 0 s.flds = true → ∃ u, exec (.provision n v) s = .next u ∧
            (s.rf (PRT_JOB.JOB n) = v.job → u = (((({ s.setTen n { t with prov := some v } with
              anonces := (v.job, v.anonce) :: s.anonces }.wf (PRT_JOB2.MEPOCH n) v.mepoch).wf (PRT_JOB2.AWAVE n) v.awave).setMember n
              { s.getMember n with rmap := v.rmap }).wf (BDR_PSEC.PROVISIONED n) 1).spdmRsp n 0x7E []) ∧
            u.anonces = (v.job, v.anonce) :: s.anonces ∧ u.rf (BDR_PSEC.PROVISIONED n) = 1 ∧
            u.rf (PRT_JOB2.MEPOCH n) = v.mepoch % 2 ^ (PRT_JOB2.MEPOCH n).w ∧ u.rf (PRT_JOB2.AWAVE n) = v.awave % 2 ^ (PRT_JOB2.AWAVE n).w ∧
            u.out = s.out ++ [.spdm n 0x7E []] ∧ u.mem = s.mem))) ∧
      exec (.release n) s = .next (if s.rf (BDR_PSEC.CLAIMED n) = 0 then s.spdmErr n 5 else (s.spdmRsp n 0x7E []).resetRequest n 2))) ∧
  (∀ (s : State) (n key : Nat) (v : Provision) (ok : Bool), n < 16 → s.boot = .running → (s.getSess (sessKey n 0)).stage ≠ 2 →
    exec (.claim n key) s = .next (s.spdmErr n 4) ∧ exec (.claimProve n ok) s = .next (s.spdmErr n 4) ∧
    exec (.provision n v) s = .next (s.spdmErr n 4) ∧ exec (.release n) s = .next (s.spdmErr n 4)) ∧
  (∀ (s : State) (i : Nat), i < 2 → (s.boot = .running ∨ s.boot = .maint) → (s.getSess (sessKey 16 i)).stage = 2 →
    let slot := 1 - s.flash.running
    exec (.fwBegin i) s = .next ((s.flashDo (.eraseSlot slot)).spdmRsp 16 0x7E []) ∧
    (∀ off data, exec (.fwData i off data) s = .next (if 4096 < data.length ∨ 48 * 2 ^ 20 < off + data.length then s.spdmErr 16 1
      else ({ s with flash := s.flash.setSlot slot none }.flashDo (.programSlot slot off data)).spdmRsp 16 0x7E [])) ∧
    (∀ im : FwImage, let u := { s with flash := s.flash.setSlot slot (some im) }
      exec (.fwCommit i im) s = .next (if im.sigOk = true ∧ s.fuse.svn ≤ im.svn ∧ im.schemaLo ≤ im.schemaHi then
        (u.flashEntry .boot (.boothdr slot)).spdmRsp 16 0x7E [] else u.spdmErr 16 5)) ∧
    (∀ len r, (65216 < len ∨ s.flash.hasRoom .config (Payload.config r len).pages = false) → exec (.cfgCommit i len r) s = .next (s.spdmErr 16 5)) ∧
    (∀ len r, len ≤ 65216 → s.flash.hasRoom .config (Payload.config r len).pages = true → ∃ a b, exec (.cfgCommit i len r) s =
      .next ((s.flashEntry .config (.config r len)).spdmRsp 16 0x7E [a, b]) ∧ a ≤ 1 ∧ b ≤ 1 ∧
      (a = 1 ↔ ∃ m, s.flash.slotA = some m ∧ fwReads m r.schema = true) ∧ (b = 1 ↔ ∃ m, s.flash.slotB = some m ∧ fwReads m r.schema = true)) ∧
    (∀ region off len, exec (.logRead i region off len) s = .next (if 4096 < len ∨ regionBytes region < off + len then s.spdmErr 16 1
      else s.spdmRsp 16 0x7E (s.logBytes region off len))) ∧
    exec (.ideKmRequest i false) s = .next ((s.wf BDR_SEC.IDE 1).spdmRsp 16 0x7E []) ∧
    exec (.ideKmRequest i true) s = .next (if s.rf BDR_SEC.IDE = 0 then s.spdmErr 16 4 else (s.wf BDR_SEC.IDE 2).spdmRsp 16 0x7E [])) ∧
  (∀ (s : State) (i : Nat) (im : FwImage) (r : CfgRecord), (s.boot = .running ∨ s.boot = .maint) → (s.getSess (sessKey 16 i)).stage ≠ 2 →
    ∀ a b c data act, exec (.fwBegin i) s = .next (s.spdmErr 16 4) ∧ exec (.fwData i a data) s = .next (s.spdmErr 16 4) ∧
    exec (.fwCommit i im) s = .next (s.spdmErr 16 4) ∧ exec (.cfgCommit i a r) s = .next (s.spdmErr 16 4) ∧
    exec (.logRead i a b c) s = .next (s.spdmErr 16 4) ∧ exec (.ideKmRequest i act) s = .next (s.spdmErr 16 4)) ∧
  (∀ (s : State) (test : Nat), exec (.entropyHealthFail test) s = .next (((s.wf BDR_SEC.DRBG_OK 0).inc BDR_DRBG.HEALTH_FAIL).raise
    ⟨s.bedrockUnit, .perm, 0x9C, none, 0, 0, 0, [(test, 1)], 0⟩)) ∧
  (∀ s : State, exec .drbgReseed s = .next ({ s with drbgReqs := 0 }.inc BDR_DRBG.RESEEDS))

/-! ## Chapter 15: the host interface and the management channel -/

/-- An FLR of PF0 to PF15 ends the session, clears EN and both ring positions and resets the queue registers; delivered work and the partition's memory stay; of PF16 it ends the PF16 sessions. A link reset is an FLR of every function and one retraining. A doorbell past the ring, or with EN 0, is ignored. A submission is fetched only while EN and SESSION are set, the session has proven the claim of a claimed partition (the model's reading of R417, log entry 54), none waits and the ring holds one; a wrong SEQ or tag records 0x9A and ends the session; else HEAD and the count advance and the command opens its context with an ACCEPT, or waits, counted, when the quota, the function's 1,024 handles or the module's contexts are used up; a command that breaks its form gets ACCEPT and DONE CHECKFAIL. COMPLETION_POST takes the oldest completion while the ring has a free slot and writes it with its SEQ, its body sealed under the function's queue key; HEAD moves only up to TAIL, and a DONE under the current epoch that is passed frees its context. Completion is stated of FLR, LINK_RESET, PERST_DEASSERT, SUBMISSION_DOORBELL, SUBMISSION_FETCH, COMPLETION_POST and COMPLETION_DOORBELL. -/
def Obligations.SubmissionsCompletionsAndFunctionResets : Prop :=
  (∀ (s : State) (n : Nat), n < 16 → exec (.flr n) s = .next ((((s.inc HST_LINKERR.FLR).endSession n 0).endRings n).resetPf n)) ∧
  (∀ s : State, exec (.flr 16) s = .next (((s.inc HST_LINKERR.FLR).endSession 16 0).endSession 16 1)) ∧
  (∀ s : State, exec .linkReset s = .next (((List.range 17).foldl State.flrOf s).inc HST_LINK.RETRAINS)) ∧
  (∀ (s t : State) (n : Nat), n < 17 → Tbl.sortedFrom 0 s.host = true → exec (.flr n) s = .next t → t.mem = s.mem ∧ t.ctx = s.ctx ∧ t.out = s.out ∧
    (∀ m, (t.getHost m).produced = (s.getHost m).produced ∧ (t.getHost m).wait = (s.getHost m).wait)) ∧
  (∀ (s : State) (n : Nat), n < 16 → Tbl.sortedFrom 0 s.flds = true → (s.flrOf n).rf (HST_QCFG.EN n) = 0 ∧
    (s.flrOf n).rf (HST_QSTAT.SQ_HEAD n) = 0 ∧ (s.flrOf n).rf (HST_QSTAT.CQ_TAIL n) = 0) ∧
  (∀ (s : State) (sp w : Nat), let u := { s with power := { s.power with perst := false } }
    exec (.perstDeassert sp w) s = .next (if s.power.otherRails = false then u
      else (((u.wf HST_LINK.SPEED sp).wf HST_LINK.WIDTH w).wf HST_LINK.FLIT (if sp = 6 then 1 else 0)).wf HST_LINK.UP 1)) ∧
  (∀ (s : State) (n pos : Nat), n < 16 → exec (.submissionDoorbell n pos) s = .next (
    if s.rf (HST_QCFG.EN n) = 1 ∧ pos < 64 * 2 ^ s.rf (HST_SQ_BASE.SIZE n) then s.setHost n { s.getHost n with sqTail := pos } else s)) ∧
  (∀ (s : State) (n : Nat) (sub : Submission), n < 16 →
    let h := s.getHost n
    ((s.rf (HST_QCFG.EN n) ≠ 1 ∨ s.rf (BDR_PSEC.SESSION n) ≠ 1 ∨ (s.getSess (sessKey n 0)).proven = false ∨ h.wait.isSome = true ∨ s.rf (HST_QSTAT.SQ_HEAD n) = h.sqTail) →
      exec (.submissionFetch n sub) s = .next s) ∧
    (s.rf (HST_QCFG.EN n) = 1 → s.rf (BDR_PSEC.SESSION n) = 1 → (s.getSess (sessKey n 0)).proven = true → h.wait = none → s.rf (HST_QSTAT.SQ_HEAD n) ≠ h.sqTail →
      ((sub.seq ≠ h.sqSeq ∨ sub.tagOk = false) → exec (.submissionFetch n sub) s = .next (s.secureFail n 0 sub.seq)) ∧
      (sub.seq = h.sqSeq → sub.tagOk = true →
        let u := (s.wf (HST_QSTAT.SQ_HEAD n) ((s.rf (HST_QSTAT.SQ_HEAD n) + 1) % (64 * 2 ^ s.rf (HST_SQ_BASE.SIZE n)))).setHost n
          { h with sqSeq := h.sqSeq + 1 }
        exec (.submissionFetch n sub) s = .next (if u.hostRoom n = true then u.acceptSub n sub
          else (u.setHost n { u.getHost n with wait := some ⟨sub, true⟩ }).inc (PRT_CTX_WAIT.WAITS n))))) ∧
  (∀ (s u : State) (n i : Nat) (sub : Submission), s.takePartCtx n { kind := 0 } = (u, i) →
    let v := (u.setHandle i (some { fn := n, op := sub.op, tag := sub.tag, haddr := sub.haddr, paddr := sub.paddr, units := sub.units
                                    target := sub.handle })).inc (HST_QSTAT.OPEN n)
    (subOk sub = true → sub.op = 4 → s.acceptSub n sub = v) ∧
    (subOk sub = true → sub.op ≠ 4 → s.acceptSub n sub = v.produce n ⟨v.handleOf i, 0, 0, false, sub.tag, 0⟩) ∧
    (subOk sub = false → s.acceptSub n sub = (v.produce n ⟨v.handleOf i, 0, 0, false, sub.tag, 0⟩).hostDone i 3)) ∧
  (∀ sub : Submission, subOk sub = true ↔ (1 ≤ sub.op ∧ sub.op ≤ 6 ∧ sub.reservedZero = true ∧ sub.haddr % 4096 = 0 ∧
    (sub.op = 4 ∨ sub.paddr % 256 = 0 ∧ sub.handle = 0))) ∧
  (∀ (s : State) (n : Nat), n < 16 → let h := s.getHost n
    let tl := (s.rf (HST_QSTAT.CQ_TAIL n) + 1) % (64 * 2 ^ s.rf (HST_CQ_BASE.SIZE n))
    ((h.produced = [] ∨ s.rf (HST_QCFG.EN n) ≠ 1 ∨ s.rf (BDR_PSEC.SESSION n) ≠ 1 ∨ tl = h.cqHead) → exec (.completionPost n) s = .next s) ∧
    (∀ c cs, h.produced = c :: cs → s.rf (HST_QCFG.EN n) = 1 → s.rf (BDR_PSEC.SESSION n) = 1 → tl ≠ h.cqHead → exec (.completionPost n) s =
      .next (((s.setHost n { h with produced := cs, ring := h.ring ++ [c], cqSeq := h.cqSeq + 1 }).wf (HST_QSTAT.CQ_TAIL n) tl).emit
        (.completion n h.cqSeq c (s.completionBytes n h.cqSeq c))))) ∧
  (∀ (s : State) (n sq : Nat) (c : Completion), ∃ b t : List Byte, s.completionBytes n sq c = leBytes 8 sq ++ leBytes 8 0 ++ b ++ t ∧
    gcmSeal (s.queueKey n 1) (leBytes 4 0 ++ leBytes 8 sq) (leBytes 8 sq ++ leBytes 8 0) (leBytes 8 (c.handle % 2 ^ 32 + c.epoch % 2 ^ 16 * 2 ^ 32 +
      c.status % 8 * 2 ^ 48 + bit c.isDone * 2 ^ 51) ++ leBytes 8 (c.tag % 2 ^ 32) ++ leBytes 8 (c.units % 2 ^ 48) ++ leBytes 8 0) = (b, t)) ∧
  (∀ (s : State) (n pos : Nat), n < 16 → let h := s.getHost n
    let sz := 64 * 2 ^ s.rf (HST_CQ_BASE.SIZE n)
    let k := (pos + sz - h.cqHead) % sz
    exec (.completionDoorbell n pos) s = .next (
      if s.rf (HST_QCFG.EN n) = 1 ∧ pos < sz ∧ k ≤ (s.rf (HST_QSTAT.CQ_TAIL n) + sz - h.cqHead) % sz then
        (h.ring.take k).foldl (fun s c => s.consumed n c) (s.setHost n { h with cqHead := pos, ring := h.ring.drop k })
      else s)) ∧
  (∀ (s : State) (n : Nat) (c : Completion), let i := c.handle % 2 ^ 18
    (c.isDone = true → s.handleOk n c.handle = true → (s.getCtx i).epoch = c.epoch → (s.getHandle i).isSome = true →
      s.consumed n c = ((s.setHandle i none).freeCtx i).wf (HST_QSTAT.OPEN n) (s.rf (HST_QSTAT.OPEN n) - 1)) ∧
    ((c.isDone = false ∨ s.handleOk n c.handle = false ∨ (s.getCtx i).epoch ≠ c.epoch ∨ s.getHandle i = none) → s.consumed n c = s))

/-- A WRITE or READ whose region leaves the data region ends CHECKFAIL, else it runs; one with no units left ends OK. A unit of a running WRITE is verified and written block by block, and the last ends the command OK, a failure with its status; a READ unit waits for blocks that are being written, and when its blocks verify it goes out with its stored check words, sealed under the function's queue key with an IV of handle, epoch and unit number; an ADMIT unit joins the image; one that does not open ends CHECKFAIL. REBIND is carried out unless an earlier migration of the handle is less than 2 µs old or waits; the time-out ends a stopped handle ABORTED. ABORT of a running partition ends OK and starts the wave of cause TENANT, else CHECKFAIL. FIELD_TEST runs in READY, FAULT and RUNNING. ADMIT, with every unit read, in READY, provisioned, with contexts free and header, digest and lists good, writes digest and header registers, loads the image, admits and ends OK; a wrong state is reason 3, a wrong header 4, a wrong digest 2. Completion is stated of WRITE, READ, UNIT_TRANSFER, REBIND, REBIND_TIMEOUT, ABORT, FIELD_TEST and ADMIT. -/
def Obligations.HostCommandsTransferRebindAbortAndAdmit : Prop :=
  (∀ (s : State) (i : Nat) (h : HostHandle), s.getHandle i = some h → (h.op = 2 ∨ h.op = 3) → h.st = .accepted → h.fn < 16 →
    let go := .next (if s.fuse.variant.dataBytes < h.paddr + 4096 * h.units then s.hostDone i 3
      else if h.units ≤ h.doneUnits then s.hostDone i 0 else s.setHandle i (some { h with st := .running }))
    (h.op = 2 → exec (.write h.fn i) s = go) ∧ (h.op = 3 → exec (.read h.fn i) s = go)) ∧
  (∀ (s : State) (n i : Nat), n < 16 → (∀ h, s.getHandle i = some h → h.fn = n → h.op ≠ 2) → exec (.write n i) s = .next s) ∧
  (∀ (s : State) (n i : Nat), n < 16 → (∀ h, s.getHandle i = some h → h.fn = n → h.op ≠ 3) → exec (.read n i) s = .next s) ∧
  (∀ (s : State) (i : Nat) (h : HostHandle) (data : List Byte) (checks : List Word32), i < 2 ^ 18 → s.getHandle i = some h → h.doneUnits < h.units →
    let a := h.paddr + 4096 * h.doneUnits
    (h.op = 2 → h.st = .running → exec (.unitTransfer i data checks false) s = .next (s.hostDone i 3)) ∧
    (h.op = 1 → h.st = .accepted → exec (.unitTransfer i data checks false) s = .next (s.hostDone i 3)) ∧
    (h.op = 2 → h.st = .running → data.length = 4096 → checks.length = 16 → ∀ u st, s.writeUnit i h.fn (unitBlocks a data checks) = (u, st) →
      exec (.unitTransfer i data checks true) s = .next (if st = 0 then u.unitDone i else u.hostDone i st)) ∧
    (h.op = 3 → h.st = .running → (blocksFrom a 16).any (s.interlocked h.fn) = true → ∀ ok, exec (.unitTransfer i data checks ok) s = .next s) ∧
    (h.op = 3 → h.st = .running → (blocksFrom a 16).any (s.interlocked h.fn) = false → ∀ u st ok,
      s.verify h.fn (s.colUnit h.fn) (blocksFrom a 16) [] (s.handleOf i) = (u, st) →
      exec (.unitTransfer i data checks ok) s = .next (if st ≠ 0 then u.hostDone i st else
        ((u.emit (.hostUnit i h.doneUnits (u.getCtx i).epoch (u.sealUnit i h.doneUnits h (blocksFrom a 16)))).addf
          (MOV_BYTES.COUNT h.fn) 4096).unitDone i)) ∧
    (h.op = 1 → h.st = .accepted → data.length = 4096 → checks.length = 16 →
      ((∀ e ∈ unitBlocks 0 data checks, checkWord e.2.1 = e.2.2) →
        exec (.unitTransfer i data checks true) s = .next ((s.setHandle i (some { h with image := h.image ++ data })).unitDone i)) ∧
      ((∃ e ∈ unitBlocks 0 data checks, checkWord e.2.1 ≠ e.2.2) → exec (.unitTransfer i data checks true) s = .next (s.hostDone i 3)))) ∧
  (∀ (s : State) (i unit : Nat) (h : HostHandle) (as : List Nat), ∃ b t : List Byte, s.sealUnit i unit h as = b ++ t ∧
    gcmSeal (s.queueKey h.fn 1) (leBytes 4 (s.handleOf i) ++ leBytes 2 (s.getCtx i).epoch ++ leBytes 6 unit) []
      (as.flatMap (s.block h.fn) ++ as.flatMap (fun a => leBytes 4 (s.checkOf h.fn a).toNat)) = (b, t)) ∧
  (∀ (s : State) (i p : Nat) (l : List (Nat × List Byte × Word32)) (a : Nat) (b : List Byte) (w : Word32),
    (s.writeUnit i p [] = (s, 0)) ∧
    (s.lost p a = true → s.writeUnit i p ((a, b, w) :: l) = (s, stABORTED)) ∧
    (s.lost p a = false → s.rtProtected p a = true → s.writeUnit i p ((a, b, w) :: l) = (s.busErr p a, 3)) ∧
    (s.lost p a = false → s.rtProtected p a = false → checkWord b ≠ w → s.writeUnit i p ((a, b, w) :: l) = (s.unitCheckFail i a b w, 3)) ∧
    (s.lost p a = false → s.rtProtected p a = false → checkWord b = w → ∀ u, s.writeBlock p a b w = (u, true) →
      s.writeUnit i p ((a, b, w) :: l) = ((u.inc (MOV_BLK_CARRY.COUNT p)).addf (MOV_BYTES.COUNT p) 256).writeUnit i p l)) ∧
  (∀ (s : State) (i : Nat) (h : HostHandle), s.getHandle i = some h → Tbl.sortedFrom 0 s.handles = true →
    let u := s.setHandle i (some { h with doneUnits := h.doneUnits + 1 })
    s.unitDone i = if h.doneUnits + 1 = h.units ∧ h.op ≠ 1 then u.hostDone i 0 else u) ∧
  (∀ (s : State) (n i : Nat) (h : HostHandle), n < 16 → s.handleAs n i 4 = some h → h.st = .accepted →
    let x := s.getAux (h.target % 2 ^ 18)
    ((s.handleOk n h.target = false ∨ x.migrWait = 0 ∧ (∀ t ∈ x.lastMigr, t + 200 ≤ s.now)) → exec (.rebind n i) s = .next (s.rebindNow i)) ∧
    (s.handleOk n h.target = true → x.migrWait = 0 → (∃ t ∈ x.lastMigr, s.now < t + 200) →
      exec (.rebind n i) s = .next (s.setAux (h.target % 2 ^ 18) { x with migrWait := i + 1 })) ∧
    (s.handleOk n h.target = true → x.migrWait ≠ 0 → exec (.rebind n i) s = .next s)) ∧
  (∀ (s : State) (i : Nat), i < 2 ^ 18 →
    ((∀ h, s.getHandle i = some h → h.st ≠ .stopped) → exec (.rebindTimeout i) s = .next s) ∧
    (∀ h, s.getHandle i = some h → h.st = .stopped → exec (.rebindTimeout i) s = .next ((s.setHandle i (some { h with st := .done stABORTED })).produce
      h.fn ⟨s.handleOf i, (s.getCtx i).epoch, stABORTED, true, h.tag, h.doneUnits⟩))) ∧
  (∀ (s : State) (n i : Nat) (h : HostHandle), n < 16 → s.handleAs n i 5 = some h → h.st = .accepted →
    (s.runs n = true → exec (.abort n i) s = .next ((s.hostDone i 0).startWave n 6 0)) ∧
    (s.runs n = false → exec (.abort n i) s = .next (s.hostDone i 3))) ∧
  (∀ (s : State) (n i : Nat) (h : HostHandle), n < 16 → s.handleAs n i 6 = some h → h.st = .accepted →
    ((s.pstate n = psREADY ∨ s.pstate n = psFAULT ∨ s.pstate n = psRUNNING) →
      exec (.fieldTest n i) s = .next ((s.askFieldTest n).setHandle i (some { h with st := .running }))) ∧
    (s.pstate n ≠ psREADY → s.pstate n ≠ psFAULT → s.pstate n ≠ psRUNNING → exec (.fieldTest n i) s = .next (s.hostDone i 3))) ∧
  (∀ (s : State) (n i : Nat) (h : HostHandle) (job : JobMap), n < 16 → s.handleAs n i 1 = some h → h.st = .accepted → h.units ≤ h.doneUnits →
    s.rf QTZ_STATUS.COAST ≠ 1 → (s.getFt n).running = false →
    let hd := imageHeaderOf h.image
    let digest := sha3_256 (h.image.take hd.length)
    let nt := s.ntAt n hd.tsl
    ((s.getTen n).prov = none → exec (.admitJob n i job) s = .next ((s.refuse 3).hostDone i 3)) ∧
    (∀ v, (s.getTen n).prov = some v → (s.pstate n ≠ psREADY → exec (.admitJob n i job) s = .next ((s.refuse 3).hostDone i 3)) ∧
      (s.pstate n = psREADY → s.mapOk job v.rank = true →
        (s.quotaFor n (s.ctxNeed n job v.rank) = false → h.waited = false → exec (.admitJob n i job) s =
          .next ((s.setHandle i (some { h with waited := true })).inc (PRT_CTX_WAIT.WAITS n))) ∧
        (s.quotaFor n (s.ctxNeed n job v.rank) = true →
          (s.headerOk n h.image.length hd = false → exec (.admitJob n i job) s = .next ((s.refuse 4).hostDone i 3)) ∧
          (s.headerOk n h.image.length hd = true →
            (leNat digest ≠ v.pdig → exec (.admitJob n i job) s = .next ((s.refuse 2).hostDone i 3)) ∧
            (leNat digest = v.pdig → ∀ u st, s.verify n (strUnit n) (spanBlocks hd.tsl (8 + 4 * nt)) = (u, st) →
              (st ≠ 0 → exec (.admitJob n i job) s = .next ((u.inc BDR_ATT.REFUSED).hostDone i st)) ∧
              (st = 0 →
                let t := (u.admitRegs n hd digest v).loadImage n h.image hd
                (t.tslOk n hd.tsl (u.ntAt n hd.tsl) = false → exec (.admitJob n i job) s = .next ((u.inc BDR_ATT.REFUSED).hostDone i 3)) ∧
                (t.tslOk n hd.tsl (u.ntAt n hd.tsl) = true → exec (.admitJob n i job) s = .next ((t.admitJob n hd v job).hostDone i 0)))))))))

/-- A request of HST_MREQ while BUSY is 1 only counts in REFUSED. A reset of a partition in OFF has RESULT 2; one that meets a reset in progress is merged, RESULT 3; else BUSY is set and the reset begins. A field test is merged into a running one (3), rejected where none can start (2), or asked for. A certificate is judged at once, RESULT 1 or 2 with its reason; BUSY stays 0. The I3C address, then the MCTP EID, are what the controller assigns; PLDM messages are answered once there is an EID. Reading a platform event takes the oldest, and the alert goes with the last. POWER_CYCLE_REPEAT sends the event again while a power cycle is requested. A summary refresh copies the ten registers of every partition and changes nothing else. Completion is stated of MGMT_WARM_RESET, MGMT_RETENANT_RESET, MGMT_FIELD_TEST, MGMT_CERTIFICATE, I3C_ENTDAA, MCTP_EID_ASSIGN, PLDM_BASE_DISCOVERY, PLDM_SENSOR_READ, PLATFORM_EVENT_READ, POWER_CYCLE_REPEAT and SUMMARY_COPY_REFRESH. -/
def Obligations.ModuleRequestsManagementAndSummaries : Prop :=
  (∀ (s : State) (p : Nat), p < 16 → s.boot ≠ .running → s.boot ≠ .maint → exec (.mgmtWarmReset p) s = .next s ∧
    exec (.mgmtRetenantReset p) s = .next s ∧ exec (.mgmtFieldTest p) s = .next s) ∧
  (∀ (s : State) (p : Nat), p < 16 → (s.boot = .running ∨ s.boot = .maint) → s.rf HST_MREQ_STAT.BUSY = 1 →
    exec (.mgmtWarmReset p) s = .next (s.inc HST_MREQ_STAT.REFUSED) ∧ exec (.mgmtRetenantReset p) s = .next (s.inc HST_MREQ_STAT.REFUSED) ∧
    exec (.mgmtFieldTest p) s = .next (s.inc HST_MREQ_STAT.REFUSED) ∧
    (∀ c, exec (.mgmtCertificate 0 c) s = .next (s.inc HST_MREQ_STAT.REFUSED))) ∧
  (∀ (s : State) (p : Nat), p < 16 → (s.boot = .running ∨ s.boot = .maint) → s.rf HST_MREQ_STAT.BUSY ≠ 1 →
    let res (u : State) (r : Nat) : State := (u.wf HST_MREQ_STAT.BUSY 0).wf HST_MREQ_STAT.RESULT r
    let begin (k : Nat) : State := { s with mreq := some k }.wf HST_MREQ_STAT.BUSY 1
    (s.pstate p = psOFF → exec (.mgmtWarmReset p) s = .next (res s 2) ∧ exec (.mgmtRetenantReset p) s = .next (res s 2)) ∧
    (s.pstate p ≠ psOFF → (s.getReset p).isSome = true →
      exec (.mgmtWarmReset p) s = .next (res (s.resetRequest p 1) 3) ∧ exec (.mgmtRetenantReset p) s = .next (res (s.resetRequest p 2) 3)) ∧
    (s.pstate p ≠ psOFF → s.getReset p = none →
      exec (.mgmtWarmReset p) s = .next ((begin p).resetRequest p 1) ∧ exec (.mgmtRetenantReset p) s = .next ((begin p).resetRequest p 2)) ∧
    ((s.getFt p).running = true → exec (.mgmtFieldTest p) s = .next (res s 3)) ∧
    ((s.getFt p).running = false → (s.pstate p = psREADY ∨ s.pstate p = psFAULT ∨ s.pstate p = psRUNNING) →
      exec (.mgmtFieldTest p) s = .next ((begin (p + 16)).setFt p { s.getFt p with pending := true })) ∧
    ((s.getFt p).running = false → s.pstate p ≠ psREADY → s.pstate p ≠ psFAULT → s.pstate p ≠ psRUNNING →
      exec (.mgmtFieldTest p) s = .next (res s 2))) ∧
  (∀ (s : State) (haddr : Nat) (c : Cert), haddr % 4096 ≠ 0 → exec (.mgmtCertificate haddr c) s = .next s) ∧
  (∀ (s u : State) (haddr r : Nat) (c : Cert), haddr % 4096 = 0 → (s.boot = .running ∨ s.boot = .maint) → s.rf HST_MREQ_STAT.BUSY ≠ 1 →
    s.takeCert c false = (u, r) → exec (.mgmtCertificate haddr c) s =
      .next (((u.wf HST_MREQ_STAT.REASON r).wf HST_MREQ_STAT.BUSY 0).wf HST_MREQ_STAT.RESULT (if r = 0 then 1 else 2))) ∧
  (∀ (s : State) (a : Nat), exec (.i3cEntdaa a) s = .next { s with i3cAddr := some a } ∧
    exec (.mctpEidAssign a) s = .next (if s.i3cAddr.isSome = true then { s with mctpEid := some a } else s)) ∧
  (∀ (s : State) (a b : Nat), exec (.pldmBaseDiscovery a) s = .next (if s.mctpEid.isSome = true then s.emit (.pldm 0 a 0) else s) ∧
    exec (.pldmSensorRead a b) s = .next (if s.mctpEid.isSome = true then s.emit (.pldm 2 a b) else s)) ∧
  (∀ s : State, exec .platformEventRead s = .next { s with events := s.events.tail
                                                           power := { s.power with alert := decide (2 ≤ s.events.length) } }) ∧
  (∀ s : State, exec .powerCycleRepeat s = .next (if s.pwrCycle = true then { s with events := s.events ++ [.powerCycle]
                                                                                     power := { s.power with alert := true }
                                                                                     out := s.out ++ [.platformEvent .powerCycle] } else s)) ∧
  (∀ s : State, ∃ l, exec .summaryCopyRefresh s = .next { s with summ := l } ∧
    (Tbl.sortedFrom 0 s.summ = true → ∀ p k, p < 16 → k < 10 → ∀ h,
      s.regAt p ([0x00, 0x18, 0x08, 0x60, 0x58, 0x68, 0x70, 0x78, 0x80, 0x0B000008].getD k 0) = some h → l.get 0 (p * 16 + k) = s.readHit p h))

/-! ## Chapters 2 and 11: number formats and error records -/

/-- In each of the ten formats every code that is no NaN narrows back to itself, under either rounding, either overflow rule and any random bits. A NaN narrows to the canonical NaN of BF16, FP16, FP8, and to 0 in the integers. Rounding under R61 gives a multiple at most half the spacing away, an even one on a tie. An integer narrows to the nearest of INT8 or INT4, whatever SAT says. A magnitude of the largest finite value plus half its last place or more becomes the largest finite value under SAT, else infinity, in E4M3 the NaN, in the MX formats always the largest. The exact column sum of the narrow formats is the same for every order of its products, and an exact zero is +0. -/
def Obligations.NarrowingAndExactColumnSums : Prop :=
  (∀ fmt n rnd sat r : Nat, fmt ≤ 9 → n < 2 ^ fmtBits fmt → (decodeFmt fmt n).isNan = false → narrow fmt rnd sat r (decodeFmt fmt n) = n) ∧
  (∀ rnd sat r : Nat, narrow 0 rnd sat r .nan = 0x7FC00000 ∧ narrow 1 rnd sat r .nan = 0x7FC0 ∧ narrow 2 rnd sat r .nan = 0x7E00 ∧
    narrow 3 rnd sat r .nan = 0x7F ∧ narrow 4 rnd sat r .nan = 0x7E ∧ narrow 8 rnd sat r .nan = 0 ∧ narrow 9 rnd sat r .nan = 0) ∧
  (∀ m k : Nat, 0 < k → 2 * (rneShift m k * 2 ^ k) ≤ 2 * m + 2 ^ k ∧ 2 * m ≤ 2 * (rneShift m k * 2 ^ k) + 2 ^ k ∧
    (2 * (m % 2 ^ k) = 2 ^ k → rneShift m k % 2 = 0)) ∧
  (∀ (i : Int) (rnd sat r : Nat), narrow 8 rnd sat r (.ofInt i) = (max (-128) (min 127 i) % 256).toNat ∧
    narrow 9 rnd sat r (.ofInt i) = (max (-8) (min 7 i) % 16).toNat) ∧
  (∀ (neg : Bool) (m r : Nat), let sg (b : Nat) : Nat := if neg = true then 2 ^ b else 0
    (65520 ≤ m → narrow 2 0 1 r (.fin neg m 0) = sg 15 + 0x7BFF ∧ narrow 2 0 0 r (.fin neg m 0) = sg 15 + 0x7C00) ∧
    (464 ≤ m → narrow 3 0 1 r (.fin neg m 0) = sg 7 + 0x7E ∧ narrow 3 0 0 r (.fin neg m 0) = 0x7F) ∧
    (61440 ≤ m → narrow 4 0 1 r (.fin neg m 0) = sg 7 + 0x7B ∧ narrow 4 0 0 r (.fin neg m 0) = sg 7 + 0x7C) ∧
    (∀ sat, (30 ≤ m → narrow 5 0 sat r (.fin neg m 0) = sg 5 + 0x1F) ∧ (31 ≤ m → narrow 6 0 sat r (.fin neg m (-2)) = sg 5 + 0x1F) ∧
      (7 ≤ m → narrow 7 0 sat r (.fin neg m 0) = sg 3 + 0x7))) ∧
  (∀ l l' : List Val, l.Perm l' → exactColumn l = exactColumn l') ∧
  (∀ l : List Val, (exactColumn l).isZero = true → (exactColumn l).sign = false)

/-- A record has eight words and its CHK covers the 60 bytes before it; W2 is the time base and W3 carries SEQ (temperature and voltage there are free values, log entry 30). The copy Bedrock keeps of a partition's record has HANDLE, EPOCH, ADDR and SYNDROME 0 and its own CHK. A record advances SEQ by 1; with no partition it goes to Bedrock and PF16 whole. PF16's ring takes it unless PROD would reach CONS, then LOST counts; PERM and FATAL signal vector 0 and, raised, assert the alert with a platform event. A partition's record goes to its ring at PROD, and a full or absent ring counts LOST; a ring block that verifies is rewritten around the new record with its check word, and one that does not is written afresh, with a record 0x32 that follows. Which records the flash takes is R342's (fewer than 15 pending here); a flush writes those pending, with a SUPPRESSED record, which PF16 gets too, where some were suppressed, no entry holding more than 16. -/
def Obligations.ErrorRecordsAreSealedNumberedAndDelivered : Prop :=
  (∀ (s : State) (r : Report), (s.recordOf r).length = 8 ∧
    (s.recordOf r).getD 7 0 = BitVec.ofNat 64 ((crc32c (recBytes (s.recordOf r))).toNat * 2 ^ 32) ∧
    (s.recordOf r).getD 2 0 = BitVec.ofNat 64 s.now ∧ ((s.recordOf r).getD 3 0).toNat / 2 ^ 32 = s.recSeq % 2 ^ 32 ∧
    (r.unit < 2 ^ 16 → r.retry < 256 → r.code < 2 ^ 16 → r.epoch < 2 ^ 16 →
      bits ((s.recordOf r).getD 0 0).toNat 0 16 = r.unit ∧ recClass (s.recordOf r) = r.cls.code ∧ bits ((s.recordOf r).getD 0 0).toNat 32 16 = r.code ∧
      bits ((s.recordOf r).getD 0 0).toNat 48 16 = r.epoch)) ∧
  (∀ (s : State) (r : Report), let w := hideRec (s.recordOf r)
    w.length = 8 ∧ w.getD 7 0 = BitVec.ofNat 64 ((crc32c (recBytes w)).toNat * 2 ^ 32) ∧ bits (w.getD 0 0).toNat 48 16 = 0 ∧
    bits (w.getD 0 0).toNat 0 48 = bits ((s.recordOf r).getD 0 0).toNat 0 48 ∧ bits (w.getD 1 0).toNat 0 32 = 0 ∧
    bits (w.getD 1 0).toNat 32 32 = bits ((s.recordOf r).getD 1 0).toNat 32 32 ∧ w.getD 2 0 = (s.recordOf r).getD 2 0 ∧
    w.getD 3 0 = (s.recordOf r).getD 3 0 ∧ w.getD 4 0 = 0 ∧ w.getD 5 0 = 0 ∧ w.getD 6 0 = 0) ∧
  (∀ (s : State) (r : Report), r.part = none → s.recPend.length < 15 → r.cls ≠ .corr →
    let w := s.recordOf r
    let k := (r.unit, r.code, s.now / 100000000)
    let u := { s with recSeq := (s.recSeq + 1) % 2 ^ 32, freeCtr := s.freeCtr + 1, recPend := s.recPend ++ [w]
                      corrSeen := k :: s.corrSeen.filter (fun t => t.2.2 == s.now / 100000000 && t != k) }
    s.raise r = if r.cls = .trans then u.elogCopy w else (u.elogCopy w).platform (.record w)) ∧
  (∀ (s : State) (w : Rec),
    let u := if (s.rf HST_ELOG.PROD + 1) % 1024 = s.rf HST_ELOG.CONS then s.inc HST_ELOG.LOST
      else { s with elog := s.elog.set [] (s.rf HST_ELOG.PROD) w }.inc HST_ELOG.PROD
    s.elogCopy w = if recClass w < 2 then u else u.emit (.msix 16 0)) ∧
  (∀ (s : State) (p : Nat) (w : Rec), let base := s.rf (ASY_RING_BASE.BASE p)
    let prod := s.rf (ASY_RING.PROD p)
    ((base = 0 ∨ (prod + 1) % 1024 = s.rf (ASY_RING.CONS p)) → s.ringWrite p w = (s.inc (ASY_RING.LOST p), none)) ∧
    (base ≠ 0 → (prod + 1) % 1024 ≠ s.rf (ASY_RING.CONS p) → s.chanFailed p (base + 64 * prod) = false → base % 256 = 0 →
      let a := base + 256 * (prod / 4)
      let o := 64 * (prod % 4)
      let rec64 := w.flatMap (fun x => leBytes 8 x.toNat)
      let ok := s.blockOk p a
      let old := if ok = true then s.block p a else List.replicate 256 0#8
      let new := old.take o ++ rec64 ++ old.drop (o + 64)
      s.ringWrite p w = ((s.writeBlock p a new (checkWord new) .assay).1.inc (ASY_RING.PROD p), if ok = true then none else some a))) ∧
  (∀ (s t : State) (r : Report) (p n : Nat), r.part = some p →
    (s.raise1 r = (t, none) → raiseN (n + 1) s r = t) ∧
    (∀ a, s.raise1 r = (t, some a) → raiseN (n + 1) s r = raiseN n (t.countCheckFail p a) (s.checkReport p (unitId p 8 0) a 0))) ∧
  (∀ (s : State) (w : Rec) (rs : List Rec), s.recPend = w :: rs →
    (s.suppressed = [0, 0, 0, 0] → s.flushRecords = { s with recFlush := w :: rs, recPend := [] }.flashEntry .errlog (.errlog (w :: rs))) ∧
    (s.suppressed ≠ [0, 0, 0, 0] → ∃ c, s.suppressedRec = [c] ∧
      let u := { s with recSeq := (s.recSeq + 1) % 2 ^ 32, freeCtr := s.freeCtr + 1, suppressed := [0, 0, 0, 0]
                        recFlush := w :: rs ++ [c], recPend := [] }.elogCopy c
      s.flushRecords = if rs.length < 15 then u.flashEntry .errlog (.errlog (w :: rs ++ [c]))
        else (u.flashEntry .errlog (.errlog (w :: rs))).flashEntry .errlog (.errlog [c])))

/-! ## Chapter 16 and 17: supplies, clocks, boot, the governor, the flash -/

/-- POWER_UP at 42 V (1,680 steps of PWR_STATUS.VIN) or more on a module that is off and held by no latch starts it: time 0 of R473, with every register field but VIN at its reset value, memory and contexts empty, fuses, queued commands and stored images kept; below 42 V nothing happens; on a running module only the pins change. MODULE_RESET and HOLDUP_EXPIRE lose everything but fuses, flash and pins. MGT_RESET_RELEASE and SENSORS_BELOW_85C end their hold, and start the module when nothing else holds it. POWER_DOWN aborts every job, flushes the records and takes the rails off. INPUT_VOLTAGE_RETURN ends the cut-off at 42 V. THERMAL_TRIP_UNLATCH clears the latch only while MGT_PWR_EN is deasserted. UNDERVOLTAGE_TRIP below 38 V (1,520 steps) trips the flash; INPUT_CUTOFF latches, raises 0xB2 and takes the rails off. Completion is stated of POWER_UP, MODULE_RESET, HOLDUP_EXPIRE, MGT_RESET_RELEASE, SENSORS_BELOW_85C, POWER_DOWN, INPUT_VOLTAGE_RETURN, THERMAL_TRIP_UNLATCH, UNDERVOLTAGE_TRIP and INPUT_CUTOFF. -/
def Obligations.SupplyEventsStartAndStopTheModule : Prop :=
  (∀ (s : State) (vin : Nat), 1680 ≤ vin → s.boot = .off → s.power.resetHeld = false → s.power.thermLatch = false → s.power.hot = false →
    ∃ t, exec (.powerUp vin) s = .next t ∧ t.boot = .started ∧
      t.power = { pwrEn := true, standby := true, otherRails := true, mgmt := true, resetHeld := false, perst := s.power.perst } ∧
      t.mem = [] ∧ t.ctx = [] ∧ t.rf PWR_STATUS.VIN = vin % 2 ^ 12 ∧ (∀ f : Fld, f.cell ≠ PWR_STATUS.VIN.cell → t.rf f = f.rst) ∧
      t.fuse = s.fuse ∧ t.pending = s.pending ∧ t.images = s.images) ∧
  (∀ (s : State) (vin : Nat), vin < 1680 → exec (.powerUp vin) s = .next s) ∧
  (∀ (s : State) (vin : Nat), 1680 ≤ vin → s.boot ≠ .off →
    exec (.powerUp vin) s = .next { s with power := { s.power with pwrEn := true, standby := true, cutLatch := false } }) ∧
  (∀ s : State, ∃ t, exec .moduleReset s = .next t ∧ t.boot = .off ∧ t.power.resetHeld = true ∧ t.power.mgmt = false ∧
      t.mem = [] ∧ t.ctx = [] ∧ (∀ f : Fld, t.rf f = f.rst) ∧ t.fuse = s.fuse ∧ t.pending = s.pending ∧ t.images = s.images) ∧
  (∀ s : State, ∃ t, exec .holdupExpire s = .next t ∧ t.boot = .off ∧ t.power.standby = false ∧ t.power.mgmt = false ∧
      t.mem = [] ∧ t.ctx = [] ∧ (∀ f : Fld, t.rf f = f.rst) ∧ t.fuse = s.fuse ∧ t.pending = s.pending ∧ t.images = s.images) ∧
  (∀ s : State, s.boot = .off → s.power.pwrEn = true → s.power.thermLatch = false → s.power.hot = false → s.power.cutLatch = false →
    ∃ t, exec .mgtResetRelease s = .next t ∧ t.boot = .started ∧ t.power.resetHeld = false ∧ t.power.mgmt = true) ∧
  (∀ s : State, (s.boot ≠ .off ∨ s.power.pwrEn = false ∨ s.power.thermLatch = true ∨ s.power.hot = true ∨ s.power.cutLatch = true) →
    exec .mgtResetRelease s = .next { s with power := { s.power with resetHeld := false } }) ∧
  (∀ s : State, s.boot = .off → s.power.pwrEn = true → s.power.resetHeld = false → s.power.thermLatch = false → s.power.cutLatch = false →
    ∃ t, exec .sensorsBelow85c s = .next t ∧ t.boot = .started ∧ t.power.hot = false ∧ t.power.mgmt = true) ∧
  (∀ s : State, (s.boot ≠ .off ∨ s.power.pwrEn = false ∨ s.power.resetHeld = true ∨ s.power.thermLatch = true ∨ s.power.cutLatch = true) →
    exec .sensorsBelow85c s = .next { s with power := { s.power with hot := false } }) ∧
  (∀ s : State, s.boot = .off → exec .powerDown s = .next { s with power := { s.power with pwrEn := false } }) ∧
  (∀ s : State, s.boot ≠ .off →
    exec .powerDown s = .next (({ s with power := { s.power with pwrEn := false } }.abortJobs s.bedrockUnit).flushRecords.railsOff)) ∧
  (∀ (s : State) (vin : Nat), exec (.inputVoltageReturn vin) s =
    .next (if vin < 1680 then s else { s with power := { s.power with cutLatch := false } }.wf PWR_STATUS.VIN vin)) ∧
  (∀ s : State, exec .thermalTripUnlatch s =
    .next (if s.power.pwrEn = true then s else { s with power := { s.power with thermLatch := false } })) ∧
  (∀ (s : State) (vin : Nat), exec (.undervoltageTrip vin) s = .next (
    if 1520 ≤ vin then s else if s.flash.tripped = true then s.wf PWR_STATUS.VIN vin
    else { s.wf PWR_STATUS.VIN vin with flash := s.flash.trip })) ∧
  (∀ (s : State) (vin : Nat), exec (.inputCutoff vin) s = .next (
    let u := { s with power := { s.power with cutLatch := true } }
    if 1520 ≤ vin then s else if s.boot = .off then u
    else (({ u with flash := if s.flash.tripped = true then s.flash else s.flash.trip }.wf PWR_STATUS.VIN vin).moduleFatal s.powerUnit 0xB2
      [(vin, 2)]).railsOff))

/-- The rails going off (POWER_DOWN, INPUT_CUTOFF, THERMAL_TRIP) leave a module that is off: no rail, memory and contexts empty, every partition in OFF, not claimed, not provisioned and without a session, no management request; fuses, flash, configuration, records not yet flushed and stored images stay. The register file must list its cells in order. -/
def Obligations.RailsOffLosesVolatileState : Prop :=
  ∀ s : State, Tbl.sortedFrom 0 s.flds = true →
    let t := s.railsOff
    t.boot = .off ∧ t.power = { s.power with coreRail := false, otherRails := false, pwrGd := false } ∧ t.mem = [] ∧ t.ctx = [] ∧
    (∀ p, p < 16 → t.rf (PRT_STATE.STATE p) = 0 ∧ t.rf (BDR_PSEC.CLAIMED p) = 0 ∧ t.rf (BDR_PSEC.SESSION p) = 0 ∧
      t.rf (BDR_PSEC.PROVISIONED p) = 0) ∧
    t.rf HST_MREQ_STAT.BUSY = 0 ∧ t.rf BDR_SEC.PF16_SESS = 0 ∧ t.rf HST_LINK.UP = 0 ∧ t.rf QTZ_TB.TICKS = s.rf QTZ_TB.TICKS ∧
    t.fuse = s.fuse ∧ t.flash = s.flash ∧ t.cfg = s.cfg ∧ t.log = s.log ∧ t.recPend = s.recPend ∧ t.images = s.images ∧ t.pending = s.pending

/-- For a sensor of the module on a powered module: at 100 °C of a die (800 steps of 0.125 °C) or 95 °C of a stack (760) THERMAL_WARNING raises CORR 0xB3 with site and temperature and tells the board management controller; at 110 °C (880) or 105 °C (840) THERMAL_TRIP raises FATAL 0xB1, flushes the records, takes the rails off and latches. Below its level, or with the module off, either does nothing. Completion is stated of THERMAL_WARNING and THERMAL_TRIP. -/
def Obligations.ThermalLevelsWarnAndTrip : Prop :=
  ∀ (s : State) (sn : Sensor), s.siteExists sn.site = true → s.stackSite sn.site = sn.stack →
    (s.boot ≠ .off → (if sn.stack = true then 760 else 800) ≤ sn.temp → exec (.thermalWarning sn) s = .next (
      ((s.sensed sn).raise { unit := s.powerUnit, cls := .corr, code := 0xB3, part := none, synd := [(sn.site, 1), (sn.temp, 2)] }).platform
        (.thermal sn.site))) ∧
    (s.boot ≠ .off → (if sn.stack = true then 840 else 880) ≤ sn.temp → ∃ t, exec (.thermalTrip sn) s = .next t ∧
      t = { (((s.sensed sn).moduleFatal s.powerUnit 0xB1 [(sn.site, 1), (sn.temp, 2)]).flushRecords).railsOff with power := t.power } ∧
      t.power.thermLatch = true ∧ t.power.hot = true ∧ t.power.coreRail = false ∧ t.power.otherRails = false ∧ t.boot = .off) ∧
    ((s.boot = .off ∨ sn.temp < (if sn.stack = true then 760 else 800)) → exec (.thermalWarning sn) s = .next s) ∧
    ((s.boot = .off ∨ sn.temp < (if sn.stack = true then 840 else 880)) → exec (.thermalTrip sn) s = .next s)

/-- What each clock event does, as equations over the whole state. CRYSTAL_STABLE at start requests SW0 to the crystal; CRYSTAL_TIMEOUT marks the crystal dead; ROOT_PLL_LOCK sets LOCK and requests SW1 once SW0 is on the crystal. A request of SW0 (Bedrock or PF16; no Flint reaches the register) shows SEL, is BUSY unless SW0 is there already, and clears STUCK. CLOCK_SWITCH_DONE changes over a busy switch unless its old clock has stopped; CLOCK_SWITCH_STUCK sets STUCK, and for SW1 also forces the oscillator with MGMT_FB. SW0_FORCE changes over a busy SW0 only before the core rail is enabled, and draws a bus error afterwards. The monitor marks each dead source once, with FATAL 0xA1, and the root PLL coasts with 0xA2 when the crystal dies under SW0. TIMEBASE_DISCIPLINE shows offset and SYNCED and counts a rate correction. Completion is stated of CRYSTAL_STABLE, CRYSTAL_TIMEOUT, ROOT_PLL_LOCK, CLOCK_MONITOR_WINDOW, CLOCK_SWITCH_REQUEST, CLOCK_SWITCH_DONE, CLOCK_SWITCH_STUCK, SW0_FORCE and TIMEBASE_DISCIPLINE. -/
def Obligations.ClockEventsMoveSwitchesAndMarks : Prop :=
  (∀ (s : State) (v : Nat), s.requestSw0 v =
    ((s.wf QTZ_SW0.SEL v).wf QTZ_SW0.BUSY (if v % 2 = s.rf QTZ_SW0.CUR then 0 else 1)).wf QTZ_SW0.STUCK 0) ∧
  (∀ s : State, s.sw0Done = ((((s.wf QTZ_SW0.CUR (s.rf QTZ_SW0.SEL)).wf QTZ_SW0.BUSY 0).wf QTZ_SW0.STUCK 0).wf QTZ_STATUS.REF
      (s.rf QTZ_SW0.SEL)).requestSw1) ∧
  (∀ s : State, s.requestSw1 =
    if s.rf QTZ_STATUS.LOCK = 1 ∧ s.rf QTZ_SW0.CUR = 1 ∧ s.rf QTZ_SW1.SEL = 0 ∧ s.rf QTZ_STATUS.MGMT_FB = 0
    then (s.wf QTZ_SW1.SEL 1).wf QTZ_SW1.BUSY 1 else s) ∧
  (∀ s : State, exec .crystalStable s = .next (if s.boot = .started ∧ s.rf QTZ_MON.XTAL ≠ 1
    then { (s.wf QTZ_STATUS.XTAL_OK 1).requestSw0 1 with boot := .crystal } else s)) ∧
  (∀ s : State, s.boot = .started → s.rf QTZ_MON.XTAL ≠ 1 → exec .crystalTimeout s = .next (
    ((s.wf QTZ_MON.XTAL 1).wf QTZ_STATUS.XTAL_OK 0).moduleFatal (unitId s.primarySite 10 1) 0xA1
      [(((s.wf QTZ_MON.XTAL 1).wf QTZ_STATUS.XTAL_OK 0).monValue, 5)])) ∧
  (∀ s : State, (s.boot ≠ .started ∨ s.rf QTZ_MON.XTAL = 1) → exec .crystalTimeout s = .next s) ∧
  (∀ s : State, exec .rootPllLock s = .next (if s.boot = .crystal ∧ s.rf QTZ_STATUS.COAST ≠ 1
    then { (s.wf QTZ_STATUS.LOCK 1).requestSw1 with boot := .rootLocked } else s)) ∧
  (∀ (s : State) (dead : List ClockSource) (edges : Nat), dead.all s.hasSource = true → s.boot ≠ .off →
    exec (.clockMonitorWindow dead edges) s = .next ((dead.foldl State.markDead s).coastIf edges)) ∧
  (∀ (s : State) (dead : List ClockSource) (edges : Nat), dead.all s.hasSource = true → s.boot = .off →
    exec (.clockMonitorWindow dead edges) s = .next s) ∧
  (∀ (s : State) (c : ClockSource), s.markDead c = if s.isDead c = true then s
    else (s.setDead c).moduleFatal ((s.setDead c).sourceUnit c) 0xA1 [((s.setDead c).monValue, 5)]) ∧
  (∀ (s : State) (edges : Nat), s.coastIf edges =
    if s.rf QTZ_MON.XTAL = 1 ∧ s.rf QTZ_SW0.CUR = 1 ∧ s.rf QTZ_STATUS.COAST = 0
    then ((s.wf QTZ_STATUS.COAST 1).wf QTZ_STATUS.LOCK 0).moduleFatal (unitId s.primarySite 10 1) 0xA2 [(edges, 4)] else s) ∧
  (∀ (s : State) (a : Agent) (sel : Nat), exec (.clockSwitchRequest a sel) s =
    .next (if isFlint a = true ∨ s.boot = .off then s else s.requestSw0 sel)) ∧
  (∀ s : State, exec (.clockSwitchDone 0) s = .next (if s.rf QTZ_SW0.BUSY = 0 ∨ (s.rf QTZ_SW0.CUR = 1 ∧ s.rf QTZ_MON.XTAL = 1)
    then s else s.sw0Done)) ∧
  (∀ s : State, exec (.clockSwitchDone 1) s = .next (if s.rf QTZ_SW1.BUSY = 0 then s
    else (((s.wf QTZ_SW1.CUR 1).wf QTZ_SW1.BUSY 0).wf QTZ_SW1.STUCK 0).wf QTZ_STATUS.MGMT 1)) ∧
  (∀ s : State, exec (.clockSwitchStuck 0) s = .next (if s.rf QTZ_SW0.BUSY = 0 then s else s.wf QTZ_SW0.STUCK 1)) ∧
  (∀ s : State, exec (.clockSwitchStuck 1) s = .next (if s.rf QTZ_SW1.BUSY = 0 then s
    else { ((((((s.wf QTZ_SW1.STUCK 1).wf QTZ_SW1.SEL 0).wf QTZ_SW1.CUR 0).wf QTZ_SW1.BUSY 0).wf QTZ_STATUS.MGMT 0).wf
      QTZ_STATUS.MGMT_FB 1) with boot := .rootLocked })) ∧
  (∀ (s : State) (a : Agent), isFlint a = false → s.boot ≠ .off → exec (.sw0Force a) s = .next (
    if s.power.coreRail = true ∨ s.boot = .running ∨ s.boot = .maint then s.emit (.mgt "BUS_ERROR" 0x00200010)
    else if s.rf QTZ_SW0.BUSY = 1 then s.sw0Done else s)) ∧
  (∀ (s : State) (a : Agent), (isFlint a = true ∨ s.boot = .off) → exec (.sw0Force a) s = .next s) ∧
  (∀ (s : State) (offset ppm : Int) (synced : Bool), exec (.timebaseDiscipline offset ppm synced) s = .next (
    if s.boot ≠ .running then s
    else if ppm = 0 then (s.wf QTZ_TBSYNC.ERR (offset % 2 ^ 16).toNat).wf QTZ_TBSYNC.SYNCED (bit synced)
    else ((s.wf QTZ_TBSYNC.ERR (offset % 2 ^ 16).toNat).wf QTZ_TBSYNC.SYNCED (bit synced)).inc QTZ_TBSYNC.ADJUSTS))

/-- R469's table: with a committed record of schema v, the preferred slot is chosen if it reads v, else the other slot if that reads v (FALLBACK, SCHEMA_UNREAD when the preferred slot is bootable); when neither reads v but one is bootable the module enters maintenance with MCAUSE 1, when none is bootable with MCAUSE 2, and without a record with MCAUSE 3. BOOT_CHOICE takes effect with the root PLL locked and Bedrock on root ÷ 9 or its fall-back, or at start with a dead crystal; then the module runs with the core rail enabled if the choice is clean and the crystal alive, and is in maintenance mode with the core rail off otherwise (MCAUSE 4 for a dead crystal); PWRGD is asserted in both. Completion is stated of BOOT_CHOICE. -/
def Obligations.BootChoiceFollowsItsTable : Prop :=
  (∀ (s : State) (e : FlashEntry), s.flash.newest 1 = some e →
    let v := e.payload.schema
    let p := s.flash.preferred
    let run := if s.slotBoots p = true then p else 1 - p
    (s.slotReads p v = true → s.bootTable = ⟨p, false, false, 0⟩) ∧
    (s.slotReads p v = false → s.slotReads (1 - p) v = true → s.bootTable = ⟨1 - p, true, s.slotBoots p, 0⟩) ∧
    (s.slotReads p v = false → s.slotReads (1 - p) v = false → (s.slotBoots p = true ∨ s.slotBoots (1 - p) = true) →
      s.bootTable = ⟨run, false, false, 1⟩) ∧
    (s.slotReads p v = false → s.slotReads (1 - p) v = false → s.slotBoots p = false → s.slotBoots (1 - p) = false →
      s.bootTable = ⟨0, false, false, 2⟩)) ∧
  (∀ s : State, s.flash.newest 1 = none → s.bootTable.mcause = 3) ∧
  (∀ s : State, ((s.boot = .rootLocked ∧ (s.rf QTZ_STATUS.MGMT = 1 ∨ s.rf QTZ_STATUS.MGMT_FB = 1)) ∨
      (s.boot = .started ∧ s.rf QTZ_MON.XTAL = 1)) →
    Tbl.sortedFrom 0 s.flds = true → ∃ t, exec .bootChoice s = .next t ∧ t.flash.running = s.scanFlash.bootTable.slot ∧
      (s.scanFlash.bootTable.mcause = 0 → s.rf QTZ_MON.XTAL ≠ 1 →
        t.boot = .running ∧ t.power.coreRail = true ∧ t.power.pwrGd = true) ∧
      ((s.scanFlash.bootTable.mcause ≠ 0 ∨ s.rf QTZ_MON.XTAL = 1) →
        t.boot = .maint ∧ t.power.coreRail = s.power.coreRail ∧ t.power.pwrGd = true)) ∧
  (∀ s : State, s.boot ≠ .rootLocked → s.boot ≠ .started → exec .bootChoice s = .next s)

/-- LIMIT_EXCEEDED notes the limit, raises the die's K by 1 to at most 16 at once and shows the limits; LIMIT_CLEARED takes the limit away and, when none is left on the die, asks the governor to lower K by 1 as often as K stands above what is asked for already. GOVERNOR_GRANT (in the running slot, or in a new one) grants waiting requests in arrival order while charge and what the slot has granted come to at most 18 A: four arrays are charged 16 A, Mica and one step of K 2 A; a grant notes its wait in slots, an array group's grant begins the wake, Mica's clears GATED, K falls by 1. DIE_WAKE_GRANT wakes the die that asked first, at most two in 100 µs, and its partition may leave OFF. Completion is stated of LIMIT_EXCEEDED, LIMIT_CLEARED, GOVERNOR_GRANT and DIE_WAKE_GRANT. -/
def Obligations.GovernorLimitsAndGrants : Prop :=
  (∀ (s : State) (d : Nat) (k : LimitKind), d < 16 → s.boot = .running → exec (.limitExceeded d k) s = .next (
    let m := Nat.lor (s.gov.limits.get 0 d) (2 ^ limitBit k)
    let u := { s with gov := { s.gov with limits := s.gov.limits.set 0 d m } }
    (u.wf (PWR_SKIP.K d) (min 16 (s.rf (PWR_SKIP.K d) + 1))).showLimits d)) ∧
  (∀ (s : State) (d : Nat) (k : LimitKind), d < 16 → s.boot ≠ .running → exec (.limitExceeded d k) s = .next s) ∧
  (∀ (s : State) (d : Nat) (k : LimitKind), d < 16 → bitOf (s.gov.limits.get 0 d) (limitBit k) = true → exec (.limitCleared d k) s = .next (
    let m := s.gov.limits.get 0 d - 2 ^ limitBit k
    let u := { s with gov := { s.gov with limits := s.gov.limits.set 0 d m } }.showLimits d
    if m = 0 then u.govRequests (.lowerK d) (u.rf (PWR_SKIP.K d) - u.lowering d) else u)) ∧
  (∀ (s : State) (d : Nat) (k : LimitKind), d < 16 → bitOf (s.gov.limits.get 0 d) (limitBit k) = false →
    exec (.limitCleared d k) s = .next s) ∧
  (∀ s : State, s.boot = .running → exec (.governorGrant false) s = .next (s.grantWaiting s.gov.waiting)) ∧
  (∀ s : State, s.boot = .running → exec (.governorGrant true) s = .next (s.newSlot.grantWaiting s.newSlot.gov.waiting)) ∧
  (∀ (s : State) (n : Bool), s.boot ≠ .running → exec (.governorGrant n) s = .next s) ∧
  (∀ (s : State) (r : GovReq) (t : Nat) (rest : List (GovReq × Nat)), s.grantWaiting ((r, t) :: rest) =
    if s.gov.used + r.charge ≤ 18
    then (({ s with gov := { s.gov with used := s.gov.used + r.charge } }.noteWait (s.gov.slots - t)).governed r).grantWaiting rest
    else { s with gov := { s.gov with waiting := (r, t) :: rest } }) ∧
  (∀ (p c : Nat) (up : Bool) (d : Nat), GovReq.charge (.arrays p c up) = 16 ∧ GovReq.charge (.mica p c up) = 2 ∧ GovReq.charge (.lowerK d) = 2) ∧
  (∀ (s : State) (p c d : Nat), s.governed (.arrays p c true) = s.setGarnet p c { s.getGarnet p c with waking := true } ∧
    s.governed (.mica p c true) = s.wf (MCA_STATUS.GATED p c) 0 ∧ s.governed (.lowerK d) = s.wf (PWR_SKIP.K d) (s.rf (PWR_SKIP.K d) - 1)) ∧
  (∀ (s : State) (d t : Nat) (rest : List (Nat × Nat)), d < 16 → s.boot = .running → s.gov.dieWaiting = (d, t) :: rest →
    s.recentWakes.length < 2 → exec (.dieWakeGrant d) s = .next (
      let u := s.noteWait (s.gov.slots - t)
      { u with gov := { u.gov with dieWaiting := rest, wakes := u.now :: u.recentWakes, awake := d :: u.gov.awake } }.leaveOff d)) ∧
  (∀ (s : State) (d : Nat), d < 16 → (s.boot ≠ .running ∨ 2 ≤ s.recentWakes.length ∨ ∀ e ∈ s.gov.dieWaiting.head?, e.1 ≠ d) →
    exec (.dieWakeGrant d) s = .next s)

/-- A log entry goes through its four steps: header, payload, check, COMMIT. Steps 1 and 2 go on without a check; a good check of step 3 leads to step 4, and a good step 4 appends the committed entry (COMMIT 0x5A), counts QTZ_FLASH.WRITES and lets the next operation begin; a failed check abandons the entry, which is written once more, or not when this was its second writing. An erase of a sector is followed by its SECTOR entry with the erase count one higher; an erased slot holds no image; programming a slot only clears bits. Without an operation nothing happens. RECORD_FLUSH_TIMEOUT flushes the pending records unless a flush is under way. Completion is stated of FLASH_OPERATION_DONE and RECORD_FLUSH_TIMEOUT. -/
def Obligations.FlashOperationsAdvance : Prop :=
  (∀ (s : State) (ok : Bool), s.flash.op = none → exec (.flashOperationDone ok) s = .next s) ∧
  (∀ (s : State) (ok second : Bool) (e : FlashEntry) (st : Nat), s.flash.op = some (.entry e st second) → st < 3 →
    exec (.flashOperationDone ok) s = .next { s with flash := { s.flash with op := some (.entry e (st + 1) second) } }) ∧
  (∀ (s : State) (second : Bool) (e : FlashEntry), s.flash.op = some (.entry e 3 second) →
    exec (.flashOperationDone true) s = .next { s with flash := { s.flash with op := some (.entry e 4 second) } }) ∧
  (∀ (s : State) (second : Bool) (e : FlashEntry), s.flash.op = some (.entry e 4 second) → e.payload.kind ≠ 3 →
    exec (.flashOperationDone true) s = .next
      ({ s with flash := { s.flash with entries := s.flash.entries ++ [{ e with commit := 0x5A }] }.next }.inc QTZ_FLASH.WRITES)) ∧
  (∀ (s : State) (second : Bool) (e : FlashEntry), s.flash.op = some (.entry e 4 second) → e.payload.kind = 3 →
    exec (.flashOperationDone true) s = .next
      (({ s with flash := { s.flash with entries := s.flash.entries ++ [{ e with commit := 0x5A }] }.next }.inc QTZ_FLASH.WRITES).flushed e.payload.recs)) ∧
  (∀ (s : State) (second : Bool) (e : FlashEntry) (st : Nat), s.flash.op = some (.entry e st second) → 3 ≤ st →
    exec (.flashOperationDone false) s = .next (s.entryFails e st second)) ∧
  (∀ (s : State) (ok : Bool) (r : Region) (k : Nat), s.flash.op = some (.eraseSector r k) →
    exec (.flashOperationDone ok) s = .next { s with flash := s.flash.erased r k }) ∧
  (∀ (s : State) (ok : Bool) (k : Nat), s.flash.op = some (.eraseSlot k) → exec (.flashOperationDone ok) s = .next { s with flash :=
    (if k = 0 then { s.flash with slotA := none, bytesA := [] } else { s.flash with slotB := none, bytesB := [] }).next }) ∧
  (∀ (s : State) (ok : Bool) (k off : Nat) (bs : List Byte), s.flash.op = some (.programSlot k off bs) →
    exec (.flashOperationDone ok) s = .next { s with flash :=
      (if k = 0 then { s.flash with bytesA := programBytes s.flash.bytesA off bs }
       else { s.flash with bytesB := programBytes s.flash.bytesB off bs }).next }) ∧
  (∀ s : State, exec .recordFlushTimeout s = .next (if s.recFlush = [] then s.flushRecords else s))
end

