-- ==== Sys2Proof/Laws/Exec.lean ====
section
/-!
SUPPORT. What `exec` runs for each command, one lemma per constructor, and what a step runs.
-/
namespace Sys2Proof.Machine

@[simp] theorem exec_registerWrite {agent sp off size val} {s : State} :
    exec (.registerWrite agent sp off size val) s = execRegisterWrite agent sp off size val s := rfl
@[simp] theorem exec_clockEnableWrite {agent p val} {s : State} :
    exec (.clockEnableWrite agent p val) s = execClockEnableWrite agent p val s := rfl
@[simp] theorem exec_partitionResetWarm {agent p} {s : State} :
    exec (.partitionResetWarm agent p) s = execPartitionResetWarm agent p s := rfl
@[simp] theorem exec_partitionResetRetenant {agent p} {s : State} :
    exec (.partitionResetRetenant agent p) s = execPartitionResetRetenant agent p s := rfl
@[simp] theorem exec_resetStageDone {p} {s : State} :
    exec (.resetStageDone p) s = execResetStageDone p s := rfl
@[simp] theorem exec_resetStageWatchdog {p} {s : State} :
    exec (.resetStageWatchdog p) s = execResetStageWatchdog p s := rfl
@[simp] theorem exec_coldResetDone {p} {s : State} :
    exec (.coldResetDone p) s = execColdResetDone p s := rfl
@[simp] theorem exec_coldResetWatchdog {p} {s : State} :
    exec (.coldResetWatchdog p) s = execColdResetWatchdog p s := rfl
@[simp] theorem exec_contextWaitResume {n} {s : State} :
    exec (.contextWaitResume n) s = execContextWaitResume n s := rfl
@[simp] theorem exec_migrationDeferred {idx} {s : State} :
    exec (.migrationDeferred idx) s = execMigrationDeferred idx s := rfl
@[simp] theorem exec_flintBaseInstruction {p c cycles} {s : State} :
    exec (.flintBaseInstruction p c cycles) s = execFlintBaseInstruction p c cycles s := rfl
@[simp] theorem exec_flintLoad {p c cycles ecc} {s : State} :
    exec (.flintLoad p c cycles ecc) s = execFlintLoad p c cycles ecc s := rfl
@[simp] theorem exec_flintStore {p c cycles ecc} {s : State} :
    exec (.flintStore p c cycles ecc) s = execFlintStore p c cycles ecc s := rfl
@[simp] theorem exec_flintAccessComplete {p c cycles} {s : State} :
    exec (.flintAccessComplete p c cycles) s = execFlintAccessComplete p c cycles s := rfl
@[simp] theorem exec_ecall {p c} {s : State} :
    exec (.ecall p c) s = execEcall p c s := rfl
@[simp] theorem exec_ebreak {p c} {s : State} :
    exec (.ebreak p c) s = execEbreak p c s := rfl
@[simp] theorem exec_tque {p c} {s : State} :
    exec (.tque p c) s = execTque p c s := rfl
@[simp] theorem exec_tqueResume {p c stalled} {s : State} :
    exec (.tqueResume p c stalled) s = execTqueResume p c stalled s := rfl
@[simp] theorem exec_twait {p c} {s : State} :
    exec (.twait p c) s = execTwait p c s := rfl
@[simp] theorem exec_twaitResume {p c stalled} {s : State} :
    exec (.twaitResume p c stalled) s = execTwaitResume p c stalled s := rfl
@[simp] theorem exec_sumrd {p c} {s : State} :
    exec (.sumrd p c) s = execSumrd p c s := rfl
@[simp] theorem exec_sumrdResume {p c stalled} {s : State} :
    exec (.sumrdResume p c stalled) s = execSumrdResume p c stalled s := rfl
@[simp] theorem exec_mode {p c} {s : State} :
    exec (.mode p c) s = execMode p c s := rfl
@[simp] theorem exec_modeSwitch {p c stalled} {s : State} :
    exec (.modeSwitch p c stalled) s = execModeSwitch p c stalled s := rfl
@[simp] theorem exec_seedld {p c} {s : State} :
    exec (.seedld p c) s = execSeedld p c s := rfl
@[simp] theorem exec_stepb {p c} {s : State} :
    exec (.stepb p c) s = execStepb p c s := rfl
@[simp] theorem exec_stepbReport {p c stalled} {s : State} :
    exec (.stepbReport p c stalled) s = execStepbReport p c stalled s := rfl
@[simp] theorem exec_queueErrClear {agent p c eng} {s : State} :
    exec (.queueErrClear agent p c eng) s = execQueueErrClear agent p c eng s := rfl
@[simp] theorem exec_garnetPass {p c seq stalled ecc} {s : State} :
    exec (.garnetPass p c seq stalled ecc) s = execGarnetPass p c seq stalled ecc s := rfl
@[simp] theorem exec_checkGroupCommit {p c a res ecc} {s : State} :
    exec (.checkGroupCommit p c a res ecc) s = execCheckGroupCommit p c a res ecc s := rfl
@[simp] theorem exec_checkGroupRecompute {p c a res acc ecc} {s : State} :
    exec (.checkGroupRecompute p c a res acc ecc) s = execCheckGroupRecompute p c a res acc ecc s := rfl
@[simp] theorem exec_garnetStore {p c seq stalled order acc ecc} {s : State} :
    exec (.garnetStore p c seq stalled order acc ecc) s = execGarnetStore p c seq stalled order acc ecc s := rfl
@[simp] theorem exec_garnetStoreComplete {p c seq busy ecc} {s : State} :
    exec (.garnetStoreComplete p c seq busy ecc) s = execGarnetStoreComplete p c seq busy ecc s := rfl
@[simp] theorem exec_arrayIdleGate {p c a} {s : State} :
    exec (.arrayIdleGate p c a) s = execArrayIdleGate p c a s := rfl
@[simp] theorem exec_arrayWakeDone {p c waited} {s : State} :
    exec (.arrayWakeDone p c waited) s = execArrayWakeDone p c waited s := rfl
@[simp] theorem exec_add {p c} {s : State} :
    exec (.add p c) s = execAdd p c s := rfl
@[simp] theorem exec_sub {p c} {s : State} :
    exec (.sub p c) s = execSub p c s := rfl
@[simp] theorem exec_mul {p c} {s : State} :
    exec (.mul p c) s = execMul p c s := rfl
@[simp] theorem exec_fma {p c} {s : State} :
    exec (.fma p c) s = execFma p c s := rfl
@[simp] theorem exec_max {p c} {s : State} :
    exec (.max p c) s = execMax p c s := rfl
@[simp] theorem exec_min {p c} {s : State} :
    exec (.min p c) s = execMin p c s := rfl
@[simp] theorem exec_abs {p c} {s : State} :
    exec (.abs p c) s = execAbs p c s := rfl
@[simp] theorem exec_neg {p c} {s : State} :
    exec (.neg p c) s = execNeg p c s := rfl
@[simp] theorem exec_div {p c} {s : State} :
    exec (.div p c) s = execDiv p c s := rfl
@[simp] theorem exec_rcp {p c} {s : State} :
    exec (.rcp p c) s = execRcp p c s := rfl
@[simp] theorem exec_sqrt {p c} {s : State} :
    exec (.sqrt p c) s = execSqrt p c s := rfl
@[simp] theorem exec_cmplt {p c} {s : State} :
    exec (.cmplt p c) s = execCmplt p c s := rfl
@[simp] theorem exec_cmple {p c} {s : State} :
    exec (.cmple p c) s = execCmple p c s := rfl
@[simp] theorem exec_cmpeq {p c} {s : State} :
    exec (.cmpeq p c) s = execCmpeq p c s := rfl
@[simp] theorem exec_sel {p c} {s : State} :
    exec (.sel p c) s = execSel p c s := rfl
@[simp] theorem exec_exp {p c} {s : State} :
    exec (.exp p c) s = execExp p c s := rfl
@[simp] theorem exec_exps {p c} {s : State} :
    exec (.exps p c) s = execExps p c s := rfl
@[simp] theorem exec_log {p c} {s : State} :
    exec (.log p c) s = execLog p c s := rfl
@[simp] theorem exec_rsqrt {p c} {s : State} :
    exec (.rsqrt p c) s = execRsqrt p c s := rfl
@[simp] theorem exec_tanh {p c} {s : State} :
    exec (.tanh p c) s = execTanh p c s := rfl
@[simp] theorem exec_erf {p c} {s : State} :
    exec (.erf p c) s = execErf p c s := rfl
@[simp] theorem exec_sigmoid {p c} {s : State} :
    exec (.sigmoid p c) s = execSigmoid p c s := rfl
@[simp] theorem exec_cvt {p c} {s : State} :
    exec (.cvt p c) s = execCvt p c s := rfl
@[simp] theorem exec_widen {p c} {s : State} :
    exec (.widen p c) s = execWiden p c s := rfl
@[simp] theorem exec_rndu {p c} {s : State} :
    exec (.rndu p c) s = execRndu p c s := rfl
@[simp] theorem exec_rndb {p c} {s : State} :
    exec (.rndb p c) s = execRndb p c s := rfl
@[simp] theorem exec_rndn {p c} {s : State} :
    exec (.rndn p c) s = execRndn p c s := rfl
@[simp] theorem exec_gumbel {p c} {s : State} :
    exec (.gumbel p c) s = execGumbel p c s := rfl
@[simp] theorem exec_rawbits {p c} {s : State} :
    exec (.rawbits p c) s = execRawbits p c s := rfl
@[simp] theorem exec_rsum {p c} {s : State} :
    exec (.rsum p c) s = execRsum p c s := rfl
@[simp] theorem exec_rmax {p c} {s : State} :
    exec (.rmax p c) s = execRmax p c s := rfl
@[simp] theorem exec_rmin {p c} {s : State} :
    exec (.rmin p c) s = execRmin p c s := rfl
@[simp] theorem exec_rcnt {p c} {s : State} :
    exec (.rcnt p c) s = execRcnt p c s := rfl
@[simp] theorem exec_rargmax {p c} {s : State} :
    exec (.rargmax p c) s = execRargmax p c s := rfl
@[simp] theorem exec_csum {p c} {s : State} :
    exec (.csum p c) s = execCsum p c s := rfl
@[simp] theorem exec_cmax {p c} {s : State} :
    exec (.cmax p c) s = execCmax p c s := rfl
@[simp] theorem exec_cmin {p c} {s : State} :
    exec (.cmin p c) s = execCmin p c s := rfl
@[simp] theorem exec_ccnt {p c} {s : State} :
    exec (.ccnt p c) s = execCcnt p c s := rfl
@[simp] theorem exec_cargmax {p c} {s : State} :
    exec (.cargmax p c) s = execCargmax p c s := rfl
@[simp] theorem exec_tld {p c ecc} {s : State} :
    exec (.tld p c ecc) s = execTld p c ecc s := rfl
@[simp] theorem exec_tst {p c ecc} {s : State} :
    exec (.tst p c ecc) s = execTst p c ecc s := rfl
@[simp] theorem exec_trans {p c} {s : State} :
    exec (.trans p c) s = execTrans p c s := rfl
@[simp] theorem exec_micaCommit {p c waited res} {s : State} :
    exec (.micaCommit p c waited res) s = execMicaCommit p c waited res s := rfl
@[simp] theorem exec_micaRetry {p c res} {s : State} :
    exec (.micaRetry p c res) s = execMicaRetry p c res s := rfl
@[simp] theorem exec_micaIdleGate {p c} {s : State} :
    exec (.micaIdleGate p c) s = execMicaIdleGate p c s := rfl
@[simp] theorem exec_moverCopy {p c seq ecc} {s : State} :
    exec (.moverCopy p c seq ecc) s = execMoverCopy p c seq ecc s := rfl
@[simp] theorem exec_moverSegmentStart {p ecc} {s : State} :
    exec (.moverSegmentStart p ecc) s = execMoverSegmentStart p ecc s := rfl
@[simp] theorem exec_moverSegmentDone {p ch} {s : State} :
    exec (.moverSegmentDone p ch) s = execMoverSegmentDone p ch s := rfl
@[simp] theorem exec_dispatchRoundOpen {agent p} {s : State} :
    exec (.dispatchRoundOpen agent p) s = execDispatchRoundOpen agent p s := rfl
@[simp] theorem exec_returnRoundOpen {agent p} {s : State} :
    exec (.returnRoundOpen agent p) s = execReturnRoundOpen agent p s := rfl
@[simp] theorem exec_tokenSend {p} {s : State} :
    exec (.tokenSend p) s = execTokenSend p s := rfl
@[simp] theorem exec_tokenArrive {p m} {s : State} :
    exec (.tokenArrive p m) s = execTokenArrive p m s := rfl
@[simp] theorem exec_tokenDeliver {p entry} {s : State} :
    exec (.tokenDeliver p entry) s = execTokenDeliver p entry s := rfl
@[simp] theorem exec_endMarkerArrive {p m} {s : State} :
    exec (.endMarkerArrive p m) s = execEndMarkerArrive p m s := rfl
@[simp] theorem exec_spillEndMarkerArrive {p m} {s : State} :
    exec (.spillEndMarkerArrive p m) s = execSpillEndMarkerArrive p m s := rfl
@[simp] theorem exec_returnRowArrive {p m} {s : State} :
    exec (.returnRowArrive p m) s = execReturnRowArrive p m s := rfl
@[simp] theorem exec_memRequestGrant {p i0 arrived cycles ecc} {s : State} :
    exec (.memRequestGrant p i0 arrived cycles ecc) s = execMemRequestGrant p i0 arrived cycles ecc s := rfl
@[simp] theorem exec_patrolScrub {p i0 off onDie ecc} {s : State} :
    exec (.patrolScrub p i0 off onDie ecc) s = execPatrolScrub p i0 off onDie ecc s := rfl
@[simp] theorem exec_channelTrainingDone {stack chan repaired0 repaired1} {s : State} :
    exec (.channelTrainingDone stack chan repaired0 repaired1) s = execChannelTrainingDone stack chan repaired0 repaired1 s := rfl
@[simp] theorem exec_channelTrainingTimeout {stack chan} {s : State} :
    exec (.channelTrainingTimeout stack chan) s = execChannelTrainingTimeout stack chan s := rfl
@[simp] theorem exec_intervalCalibration {stack chan} {s : State} :
    exec (.intervalCalibration stack chan) s = execIntervalCalibration stack chan s := rfl
@[simp] theorem exec_parityError {stack chan half cmd reissueOk} {s : State} :
    exec (.parityError stack chan half cmd reissueOk) s = execParityError stack chan half cmd reissueOk s := rfl
@[simp] theorem exec_channelRetrainDone {stack chan ok} {s : State} :
    exec (.channelRetrainDone stack chan ok) s = execChannelRetrainDone stack chan ok s := rfl
@[simp] theorem exec_portEnable {i0} {s : State} :
    exec (.portEnable i0) s = execPortEnable i0 s := rfl
@[simp] theorem exec_pmdTrained {i0} {s : State} :
    exec (.pmdTrained i0) s = execPmdTrained i0 s := rfl
@[simp] theorem exec_identityReceive {i0 ident} {s : State} :
    exec (.identityReceive i0 ident) s = execIdentityReceive i0 ident s := rfl
@[simp] theorem exec_acceptReceive {i f} {s : State} :
    exec (.acceptReceive i f) s = execAcceptReceive i f s := rfl
@[simp] theorem exec_refuseReceive {i f} {s : State} :
    exec (.refuseReceive i f) s = execRefuseReceive i f s := rfl
@[simp] theorem exec_trainingTimeout {i0} {s : State} :
    exec (.trainingTimeout i0) s = execTrainingTimeout i0 s := rfl
@[simp] theorem exec_trainingRestart {i0} {s : State} :
    exec (.trainingRestart i0) s = execTrainingRestart i0 s := rfl
@[simp] theorem exec_zlkCtrlRetrain {agent i0} {s : State} :
    exec (.zlkCtrlRetrain agent i0) s = execZlkCtrlRetrain agent i0 s := rfl
@[simp] theorem exec_zlkCtrlDisable {agent i0 hold} {s : State} :
    exec (.zlkCtrlDisable agent i0 hold) s = execZlkCtrlDisable agent i0 hold s := rfl
@[simp] theorem exec_zlkCtrlUnretire {agent i0} {s : State} :
    exec (.zlkCtrlUnretire agent i0) s = execZlkCtrlUnretire agent i0 s := rfl
@[simp] theorem exec_flitReceive {i0 f} {s : State} :
    exec (.flitReceive i0 f) s = execFlitReceive i0 f s := rfl
@[simp] theorem exec_nakReceive {i0 ack} {s : State} :
    exec (.nakReceive i0 ack) s = execNakReceive i0 ack s := rfl
@[simp] theorem exec_retrainDone {i0 lane0Ok lane1Ok} {s : State} :
    exec (.retrainDone i0 lane0Ok lane1Ok) s = execRetrainDone i0 lane0Ok lane1Ok s := rfl
@[simp] theorem exec_frameReceive {i0 fr} {s : State} :
    exec (.frameReceive i0 fr) s = execFrameReceive i0 fr s := rfl
@[simp] theorem exec_messageSend {idx} {s : State} :
    exec (.messageSend idx) s = execMessageSend idx s := rfl
@[simp] theorem exec_dataMessageReceive {m} {s : State} :
    exec (.dataMessageReceive m) s = execDataMessageReceive m s := rfl
@[simp] theorem exec_grantReceive {m} {s : State} :
    exec (.grantReceive m) s = execGrantReceive m s := rfl
@[simp] theorem exec_ackReceive {m} {s : State} :
    exec (.ackReceive m) s = execAckReceive m s := rfl
@[simp] theorem exec_retransmitTimeout {idx seq} {s : State} :
    exec (.retransmitTimeout idx seq) s = execRetransmitTimeout idx seq s := rfl
@[simp] theorem exec_messageAckTimeout {idx} {s : State} :
    exec (.messageAckTimeout idx) s = execMessageAckTimeout idx s := rfl
@[simp] theorem exec_collectiveOpen {agent p q} {s : State} :
    exec (.collectiveOpen agent p q) s = execCollectiveOpen agent p q s := rfl
@[simp] theorem exec_collectiveClose {agent p q} {s : State} :
    exec (.collectiveClose agent p q) s = execCollectiveClose agent p q s := rfl
@[simp] theorem exec_joinBlockReceive {p q j} {s : State} :
    exec (.joinBlockReceive p q j) s = execJoinBlockReceive p q j s := rfl
@[simp] theorem exec_joinTimeout {p q} {s : State} :
    exec (.joinTimeout p q) s = execJoinTimeout p q s := rfl
@[simp] theorem exec_collectiveTailWrite {agent p q tail} {s : State} :
    exec (.collectiveTailWrite agent p q tail) s = execCollectiveTailWrite agent p q tail s := rfl
@[simp] theorem exec_allreduce {p q} {s : State} :
    exec (.allreduce p q) s = execAllreduce p q s := rfl
@[simp] theorem exec_reduce {p q} {s : State} :
    exec (.reduce p q) s = execReduce p q s := rfl
@[simp] theorem exec_broadcast {p q} {s : State} :
    exec (.broadcast p q) s = execBroadcast p q s := rfl
@[simp] theorem exec_reduceScatter {p q} {s : State} :
    exec (.reduceScatter p q) s = execReduceScatter p q s := rfl
@[simp] theorem exec_allgather {p q} {s : State} :
    exec (.allgather p q) s = execAllgather p q s := rfl
@[simp] theorem exec_barrier {p q} {s : State} :
    exec (.barrier p q) s = execBarrier p q s := rfl
@[simp] theorem exec_chunkCombine {p q seq level base chunk up addrs order dst res retry} {s : State} :
    exec (.chunkCombine p q seq level base chunk up addrs order dst res retry) s = execChunkCombine p q seq level base chunk up addrs order dst res retry s := rfl
@[simp] theorem exec_collectiveComplete {p q status} {s : State} :
    exec (.collectiveComplete p q status) s = execCollectiveComplete p q status s := rfl
@[simp] theorem exec_resultTag {agent p} {s : State} :
    exec (.resultTag agent p) s = execResultTag agent p s := rfl
@[simp] theorem exec_tagComplete {p} {s : State} :
    exec (.tagComplete p) s = execTagComplete p s := rfl
@[simp] theorem exec_updateTagComplete {p} {s : State} :
    exec (.updateTagComplete p) s = execUpdateTagComplete p s := rfl
@[simp] theorem exec_voteBlockReceive {p b} {s : State} :
    exec (.voteBlockReceive p b) s = execVoteBlockReceive p b s := rfl
@[simp] theorem exec_voteTimeout {p} {s : State} :
    exec (.voteTimeout p) s = execVoteTimeout p s := rfl
@[simp] theorem exec_recordFlushTimeout {s : State} :
    exec (.recordFlushTimeout) s = execRecordFlushTimeout s := rfl
@[simp] theorem exec_fieldTestStart {p} {s : State} :
    exec (.fieldTestStart p) s = execFieldTestStart p s := rfl
@[simp] theorem exec_fieldTestDone {p fails} {s : State} :
    exec (.fieldTestDone p fails) s = execFieldTestDone p fails s := rfl
@[simp] theorem exec_boundaryBarrierEnter {p} {s : State} :
    exec (.boundaryBarrierEnter p) s = execBoundaryBarrierEnter p s := rfl
@[simp] theorem exec_updateBegin {p c val} {s : State} :
    exec (.updateBegin p c val) s = execUpdateBegin p c val s := rfl
@[simp] theorem exec_updateDecision {p} {s : State} :
    exec (.updateDecision p) s = execUpdateDecision p s := rfl
@[simp] theorem exec_extentCopyDone {p ext} {s : State} :
    exec (.extentCopyDone p ext) s = execExtentCopyDone p ext s := rfl
@[simp] theorem exec_mirroredBarrierEnter {p} {s : State} :
    exec (.mirroredBarrierEnter p) s = execMirroredBarrierEnter p s := rfl
@[simp] theorem exec_localReplay {p ctxIdx seq} {s : State} :
    exec (.localReplay p ctxIdx seq) s = execLocalReplay p ctxIdx seq s := rfl
@[simp] theorem exec_snap {agent p} {s : State} :
    exec (.snap agent p) s = execSnap agent p s := rfl
@[simp] theorem exec_snapshotStart {p} {s : State} :
    exec (.snapshotStart p) s = execSnapshotStart p s := rfl
@[simp] theorem exec_snapshotDone {p} {s : State} :
    exec (.snapshotDone p) s = execSnapshotDone p s := rfl
@[simp] theorem exec_suspend {agent p stop} {s : State} :
    exec (.suspend agent p stop) s = execSuspend agent p stop s := rfl
@[simp] theorem exec_suspendImageStart {p} {s : State} :
    exec (.suspendImageStart p) s = execSuspendImageStart p s := rfl
@[simp] theorem exec_suspendImageDone {p} {s : State} :
    exec (.suspendImageDone p) s = execSuspendImageDone p s := rfl
@[simp] theorem exec_restore {p image header writer blocks checks tagOk} {s : State} :
    exec (.restore p image header writer blocks checks tagOk) s = execRestore p image header writer blocks checks tagOk s := rfl
@[simp] theorem exec_mirrorPullDone {p header blocks checks} {s : State} :
    exec (.mirrorPullDone p header blocks checks) s = execMirrorPullDone p header blocks checks s := rfl
@[simp] theorem exec_engineWatchdog {p unit queue seq} {s : State} :
    exec (.engineWatchdog p unit queue seq) s = execEngineWatchdog p unit queue seq s := rfl
@[simp] theorem exec_flintWatchdog {p c} {s : State} :
    exec (.flintWatchdog p c) s = execFlintWatchdog p c s := rfl
@[simp] theorem exec_stepWatchdog {p} {s : State} :
    exec (.stepWatchdog p) s = execStepWatchdog p s := rfl
@[simp] theorem exec_abortBlockReceive {b fromCellPeer sealed} {s : State} :
    exec (.abortBlockReceive b fromCellPeer sealed) s = execAbortBlockReceive b fromCellPeer sealed s := rfl
@[simp] theorem exec_livenessSend {s : State} :
    exec (.livenessSend) s = execLivenessSend s := rfl
@[simp] theorem exec_mgmtWatchdogExpire {s : State} :
    exec (.mgmtWatchdogExpire) s = execMgmtWatchdogExpire s := rfl
@[simp] theorem exec_certificateReceive {viaPf16 fromCellPeer sealed cert} {s : State} :
    exec (.certificateReceive viaPf16 fromCellPeer sealed cert) s = execCertificateReceive viaPf16 fromCellPeer sealed cert s := rfl
@[simp] theorem exec_getVersion {n} {s : State} :
    exec (.getVersion n) s = execGetVersion n s := rfl
@[simp] theorem exec_getCapabilities {n} {s : State} :
    exec (.getCapabilities n) s = execGetCapabilities n s := rfl
@[simp] theorem exec_negotiateAlgorithms {n supported} {s : State} :
    exec (.negotiateAlgorithms n supported) s = execNegotiateAlgorithms n supported s := rfl
@[simp] theorem exec_getDigests {n} {s : State} :
    exec (.getDigests n) s = execGetDigests n s := rfl
@[simp] theorem exec_getCertificate {n slot off len} {s : State} :
    exec (.getCertificate n slot off len) s = execGetCertificate n slot off len s := rfl
@[simp] theorem exec_challenge {n slot nonce} {s : State} :
    exec (.challenge n slot nonce) s = execChallenge n slot nonce s := rfl
@[simp] theorem exec_getMeasurements {n index} {s : State} :
    exec (.getMeasurements n index) s = execGetMeasurements n index s := rfl
@[simp] theorem exec_keyExchange {n slot} {s : State} :
    exec (.keyExchange n slot) s = execKeyExchange n slot s := rfl
@[simp] theorem exec_finish {n sess macOk} {s : State} :
    exec (.finish n sess macOk) s = execFinish n sess macOk s := rfl
@[simp] theorem exec_heartbeat {n sess} {s : State} :
    exec (.heartbeat n sess) s = execHeartbeat n sess s := rfl
@[simp] theorem exec_keyUpdate {n sess} {s : State} :
    exec (.keyUpdate n sess) s = execKeyUpdate n sess s := rfl
@[simp] theorem exec_endSession {n sess} {s : State} :
    exec (.endSession n sess) s = execEndSession n sess s := rfl
@[simp] theorem exec_spdmUnsupported {n code} {s : State} :
    exec (.spdmUnsupported n code) s = execSpdmUnsupported n code s := rfl
@[simp] theorem exec_heartbeatTimeout {n sess} {s : State} :
    exec (.heartbeatTimeout n sess) s = execHeartbeatTimeout n sess s := rfl
@[simp] theorem exec_claim {n key} {s : State} :
    exec (.claim n key) s = execClaim n key s := rfl
@[simp] theorem exec_claimProve {n sigOk} {s : State} :
    exec (.claimProve n sigOk) s = execClaimProve n sigOk s := rfl
@[simp] theorem exec_provision {n pv} {s : State} :
    exec (.provision n pv) s = execProvision n pv s := rfl
@[simp] theorem exec_release {n} {s : State} :
    exec (.release n) s = execRelease n s := rfl
@[simp] theorem exec_fwBegin {sess} {s : State} :
    exec (.fwBegin sess) s = execFwBegin sess s := rfl
@[simp] theorem exec_fwData {sess off data} {s : State} :
    exec (.fwData sess off data) s = execFwData sess off data s := rfl
@[simp] theorem exec_fwCommit {sess image} {s : State} :
    exec (.fwCommit sess image) s = execFwCommit sess image s := rfl
@[simp] theorem exec_cfgCommit {sess len rec} {s : State} :
    exec (.cfgCommit sess len rec) s = execCfgCommit sess len rec s := rfl
@[simp] theorem exec_logRead {sess region off len} {s : State} :
    exec (.logRead sess region off len) s = execLogRead sess region off len s := rfl
@[simp] theorem exec_entropyHealthFail {test} {s : State} :
    exec (.entropyHealthFail test) s = execEntropyHealthFail test s := rfl
@[simp] theorem exec_drbgReseed {s : State} :
    exec (.drbgReseed) s = execDrbgReseed s := rfl
@[simp] theorem exec_flr {n} {s : State} :
    exec (.flr n) s = execFlr n s := rfl
@[simp] theorem exec_linkReset {s : State} :
    exec (.linkReset) s = execLinkReset s := rfl
@[simp] theorem exec_perstDeassert {speed width} {s : State} :
    exec (.perstDeassert speed width) s = execPerstDeassert speed width s := rfl
@[simp] theorem exec_submissionDoorbell {n pos} {s : State} :
    exec (.submissionDoorbell n pos) s = execSubmissionDoorbell n pos s := rfl
@[simp] theorem exec_submissionFetch {n sub} {s : State} :
    exec (.submissionFetch n sub) s = execSubmissionFetch n sub s := rfl
@[simp] theorem exec_admitJob {n idx job} {s : State} :
    exec (.admitJob n idx job) s = execAdmitJob n idx job s := rfl
@[simp] theorem exec_write {n idx} {s : State} :
    exec (.write n idx) s = execWrite n idx s := rfl
@[simp] theorem exec_read {n idx} {s : State} :
    exec (.read n idx) s = execRead n idx s := rfl
@[simp] theorem exec_rebind {n idx} {s : State} :
    exec (.rebind n idx) s = execRebind n idx s := rfl
@[simp] theorem exec_abort {n idx} {s : State} :
    exec (.abort n idx) s = execAbort n idx s := rfl
@[simp] theorem exec_fieldTest {n idx} {s : State} :
    exec (.fieldTest n idx) s = execFieldTest n idx s := rfl
@[simp] theorem exec_unitTransfer {idx data checks sealOk} {s : State} :
    exec (.unitTransfer idx data checks sealOk) s = execUnitTransfer idx data checks sealOk s := rfl
@[simp] theorem exec_completionPost {n} {s : State} :
    exec (.completionPost n) s = execCompletionPost n s := rfl
@[simp] theorem exec_completionDoorbell {n pos} {s : State} :
    exec (.completionDoorbell n pos) s = execCompletionDoorbell n pos s := rfl
@[simp] theorem exec_rebindTimeout {idx} {s : State} :
    exec (.rebindTimeout idx) s = execRebindTimeout idx s := rfl
@[simp] theorem exec_mgmtWarmReset {p} {s : State} :
    exec (.mgmtWarmReset p) s = execMgmtWarmReset p s := rfl
@[simp] theorem exec_mgmtRetenantReset {p} {s : State} :
    exec (.mgmtRetenantReset p) s = execMgmtRetenantReset p s := rfl
@[simp] theorem exec_mgmtFieldTest {p} {s : State} :
    exec (.mgmtFieldTest p) s = execMgmtFieldTest p s := rfl
@[simp] theorem exec_mgmtCertificate {haddr cert} {s : State} :
    exec (.mgmtCertificate haddr cert) s = execMgmtCertificate haddr cert s := rfl
@[simp] theorem exec_i3cEntdaa {addr} {s : State} :
    exec (.i3cEntdaa addr) s = execI3cEntdaa addr s := rfl
@[simp] theorem exec_pldmBaseDiscovery {cmd} {s : State} :
    exec (.pldmBaseDiscovery cmd) s = execPldmBaseDiscovery cmd s := rfl
@[simp] theorem exec_pldmSensorRead {sensor value} {s : State} :
    exec (.pldmSensorRead sensor value) s = execPldmSensorRead sensor value s := rfl
@[simp] theorem exec_platformEventRead {s : State} :
    exec (.platformEventRead) s = execPlatformEventRead s := rfl
@[simp] theorem exec_powerCycleRepeat {s : State} :
    exec (.powerCycleRepeat) s = execPowerCycleRepeat s := rfl
@[simp] theorem exec_powerUp {vin} {s : State} :
    exec (.powerUp vin) s = execPowerUp vin s := rfl
@[simp] theorem exec_crystalStable {s : State} :
    exec (.crystalStable) s = execCrystalStable s := rfl
@[simp] theorem exec_crystalTimeout {s : State} :
    exec (.crystalTimeout) s = execCrystalTimeout s := rfl
@[simp] theorem exec_rootPllLock {s : State} :
    exec (.rootPllLock) s = execRootPllLock s := rfl
@[simp] theorem exec_bootChoice {s : State} :
    exec (.bootChoice) s = execBootChoice s := rfl
@[simp] theorem exec_clockMonitorWindow {dead edges} {s : State} :
    exec (.clockMonitorWindow dead edges) s = execClockMonitorWindow dead edges s := rfl
@[simp] theorem exec_clockSwitchRequest {agent sel} {s : State} :
    exec (.clockSwitchRequest agent sel) s = execClockSwitchRequest agent sel s := rfl
@[simp] theorem exec_clockSwitchDone {sw} {s : State} :
    exec (.clockSwitchDone sw) s = execClockSwitchDone sw s := rfl
@[simp] theorem exec_clockSwitchStuck {sw} {s : State} :
    exec (.clockSwitchStuck sw) s = execClockSwitchStuck sw s := rfl
@[simp] theorem exec_sw0Force {agent} {s : State} :
    exec (.sw0Force agent) s = execSw0Force agent s := rfl
@[simp] theorem exec_timebaseDiscipline {offset ppm synced} {s : State} :
    exec (.timebaseDiscipline offset ppm synced) s = execTimebaseDiscipline offset ppm synced s := rfl
@[simp] theorem exec_limitExceeded {d k} {s : State} :
    exec (.limitExceeded d k) s = execLimitExceeded d k s := rfl
@[simp] theorem exec_limitCleared {d k} {s : State} :
    exec (.limitCleared d k) s = execLimitCleared d k s := rfl
@[simp] theorem exec_governorGrant {newSlot} {s : State} :
    exec (.governorGrant newSlot) s = execGovernorGrant newSlot s := rfl
@[simp] theorem exec_dieWakeGrant {d} {s : State} :
    exec (.dieWakeGrant d) s = execDieWakeGrant d s := rfl
@[simp] theorem exec_flashOperationDone {ok} {s : State} :
    exec (.flashOperationDone ok) s = execFlashOperationDone ok s := rfl
@[simp] theorem exec_undervoltageTrip {vin} {s : State} :
    exec (.undervoltageTrip vin) s = execUndervoltageTrip vin s := rfl
@[simp] theorem exec_inputCutoff {vin} {s : State} :
    exec (.inputCutoff vin) s = execInputCutoff vin s := rfl
@[simp] theorem exec_holdupExpire {s : State} :
    exec (.holdupExpire) s = execHoldupExpire s := rfl
@[simp] theorem exec_thermalWarning {sn} {s : State} :
    exec (.thermalWarning sn) s = execThermalWarning sn s := rfl
@[simp] theorem exec_thermalTrip {sn} {s : State} :
    exec (.thermalTrip sn) s = execThermalTrip sn s := rfl
@[simp] theorem exec_powerDown {s : State} :
    exec (.powerDown) s = execPowerDown s := rfl
@[simp] theorem exec_moduleReset {s : State} :
    exec (.moduleReset) s = execModuleReset s := rfl
@[simp] theorem exec_mgtResetRelease {s : State} :
    exec (.mgtResetRelease) s = execMgtResetRelease s := rfl
@[simp] theorem exec_inputVoltageReturn {vin} {s : State} :
    exec (.inputVoltageReturn vin) s = execInputVoltageReturn vin s := rfl
@[simp] theorem exec_thermalTripUnlatch {s : State} :
    exec (.thermalTripUnlatch) s = execThermalTripUnlatch s := rfl
@[simp] theorem exec_sensorsBelow85c {s : State} :
    exec (.sensorsBelow85c) s = execSensorsBelow85c s := rfl
@[simp] theorem exec_ethernetLinkChange {i0 up} {s : State} :
    exec (.ethernetLinkChange i0 up) s = execEthernetLinkChange i0 up s := rfl
@[simp] theorem exec_doubledRefreshChange {stack temp} {s : State} :
    exec (.doubledRefreshChange stack temp) s = execDoubledRefreshChange stack temp s := rfl
@[simp] theorem exec_ideKmRequest {sess activate} {s : State} :
    exec (.ideKmRequest sess activate) s = execIdeKmRequest sess activate s := rfl
@[simp] theorem exec_mctpEidAssign {eid} {s : State} :
    exec (.mctpEidAssign eid) s = execMctpEidAssign eid s := rfl
@[simp] theorem exec_summaryCopyRefresh {s : State} :
    exec (.summaryCopyRefresh) s = execSummaryCopyRefresh s := rfl

/-- A step runs the command at the front of the queue. -/
theorem step_cons {s : State} {c : Instr} {rest : List Instr} (h : s.pending = c :: rest) :
    step s = exec c { s with pending := rest } := by
  unfold step; rw [h]

/-- A step on an empty queue is a tick. -/
theorem step_nil {s : State} (h : s.pending = []) : step s = .next s.tick := by
  unfold step; rw [h]

end Sys2Proof.Machine
end

