-- ==== Sys2Proof/Laws/Table.lean ====
section
/-!
SUPPORT. Laws of sparse tables: reading after writing, and that every operation keeps keys strictly rising and the canonical form.
-/
namespace Sys2Proof.Machine

/-- Keys strictly rising from 0. -/
theorem Tbl.sortedFrom_mono {α : Type} {a b : Nat} (h : a ≤ b) {t : Tbl α} (ht : Tbl.sortedFrom b t = true) :
    Tbl.sortedFrom a t = true := by
  cases t with
  | nil => rfl
  | cons e t =>
    simp only [Tbl.sortedFrom, Bool.and_eq_true, decide_eq_true_eq] at ht ⊢
    exact ⟨le_trans h ht.1, ht.2⟩

/-- A key below every listed one reads as unlisted. -/
theorem Tbl.get_below {α : Type} {d : α} {t : Tbl α} {k lo : Nat} (ht : Tbl.sortedFrom lo t = true) (h : k < lo) :
    Tbl.get d t k = d := by
  cases t with
  | nil => rfl
  | cons e t =>
    simp only [Tbl.sortedFrom, Bool.and_eq_true, decide_eq_true_eq] at ht
    have h1 : e.1 ≠ k := by omega
    have h2 : k < e.1 := by omega
    simp [Tbl.get, h1, h2]

/-- Writing keeps keys strictly rising. -/
theorem Tbl.sortedFrom_set {α : Type} [DecidableEq α] {d : α} {t : Tbl α} {lo k : Nat} (v : α)
    (ht : Tbl.sortedFrom lo t = true) (h : lo ≤ k) : Tbl.sortedFrom lo (Tbl.set d t k v) = true := by
  induction t generalizing lo with
  | nil =>
    by_cases hv : v = d <;> simp [Tbl.set, hv, Tbl.sortedFrom, h]
  | cons e t ih =>
    simp only [Tbl.sortedFrom, Bool.and_eq_true, decide_eq_true_eq] at ht
    obtain ⟨h1, h2⟩ := ht
    by_cases hk : e.1 = k
    · subst hk
      by_cases hv : v = d
      · simp only [Tbl.set, hv, if_true]
        exact Tbl.sortedFrom_mono (by omega) h2
      · simp [Tbl.set, hv, Tbl.sortedFrom, h1, h2]
    · by_cases hlt : k < e.1
      · by_cases hv : v = d
        · simp [Tbl.set, hk, hlt, hv, Tbl.sortedFrom, h1, h2]
        · have : k + 1 ≤ e.1 := hlt
          simp [Tbl.set, hk, hlt, hv, Tbl.sortedFrom, h, h2, this]
      · have : e.1 + 1 ≤ k := by omega
        simp [Tbl.set, hk, hlt, Tbl.sortedFrom, h1, ih h2 this]

/-- The written key reads the written value. -/
theorem Tbl.get_set_same {α : Type} [DecidableEq α] {d : α} {t : Tbl α} {lo : Nat} (k : Nat) (v : α)
    (ht : Tbl.sortedFrom lo t = true) : Tbl.get d (Tbl.set d t k v) k = v := by
  induction t generalizing lo with
  | nil => by_cases hv : v = d <;> simp [Tbl.set, hv, Tbl.get]
  | cons e t ih =>
    simp only [Tbl.sortedFrom, Bool.and_eq_true, decide_eq_true_eq] at ht
    obtain ⟨h1, h2⟩ := ht
    by_cases hk : e.1 = k
    · subst hk
      by_cases hv : v = d
      · simp only [Tbl.set, hv, if_true]
        exact Tbl.get_below h2 (Nat.lt_succ_self _)
      · simp [Tbl.set, hv, Tbl.get]
    · by_cases hlt : k < e.1
      · by_cases hv : v = d
        · simp [Tbl.set, hk, hlt, hv, Tbl.get]
        · simp [Tbl.set, hk, hlt, hv, Tbl.get]
      · simp [Tbl.set, hk, hlt, Tbl.get, ih h2]

/-- Every other key reads as before. -/
theorem Tbl.get_set_ne {α : Type} [DecidableEq α] {d : α} {t : Tbl α} {lo : Nat} {k j : Nat} (v : α)
    (ht : Tbl.sortedFrom lo t = true) (h : j ≠ k) : Tbl.get d (Tbl.set d t k v) j = Tbl.get d t j := by
  induction t generalizing lo with
  | nil =>
    by_cases hv : v = d
    · simp [Tbl.set, hv, Tbl.get]
    · simp [Tbl.set, hv, Tbl.get, Ne.symm h]
  | cons e t ih =>
    simp only [Tbl.sortedFrom, Bool.and_eq_true, decide_eq_true_eq] at ht
    obtain ⟨h1, h2⟩ := ht
    by_cases hk : e.1 = k
    · subst hk
      by_cases hv : v = d
      · simp only [Tbl.set, hv, if_true, Tbl.get, Ne.symm h, if_false]
        by_cases hj : j < e.1
        · rw [if_pos hj]; exact Tbl.get_below h2 (by omega)
        · rw [if_neg hj]
      · simp [Tbl.set, hv, Tbl.get, Ne.symm h]
    · by_cases hlt : k < e.1
      · by_cases hv : v = d
        · simp [Tbl.set, hk, hlt, hv]
        · simp only [Tbl.set, hk, hlt, hv, if_true, if_false, Tbl.get, Ne.symm h]
          by_cases hj : j < k
          · have h3 : ¬ e.1 = j := by omega
            have h4 : j < e.1 := by omega
            simp [hj, h3, h4]
          · simp [hj]
      · simp only [Tbl.set, hk, hlt, if_false, Tbl.get, ih h2]

/-- Every other key reads as before, whatever an unlisted key reads as. -/
theorem Tbl.get_set_ne_default {α : Type} [DecidableEq α] {d e : α} {t : Tbl α} {lo : Nat} {k j : Nat} {v : α}
    (ht : Tbl.sortedFrom lo t = true) (h : j ≠ k) : Tbl.get e (Tbl.set d t k v) j = Tbl.get e t j := by
  induction t generalizing lo with
  | nil =>
    by_cases hv : v = d
    · simp [Tbl.set, hv, Tbl.get]
    · simp [Tbl.set, hv, Tbl.get, Ne.symm h]
  | cons x t ih =>
    simp only [Tbl.sortedFrom, Bool.and_eq_true, decide_eq_true_eq] at ht
    obtain ⟨h1, h2⟩ := ht
    by_cases hk : x.1 = k
    · subst hk
      by_cases hv : v = d
      · simp only [Tbl.set, hv, if_true, Tbl.get, Ne.symm h, if_false]
        by_cases hj : j < x.1
        · rw [if_pos hj]; exact Tbl.get_below h2 (by omega)
        · rw [if_neg hj]
      · simp [Tbl.set, hv, Tbl.get, Ne.symm h]
    · by_cases hlt : k < x.1
      · by_cases hv : v = d
        · simp [Tbl.set, hk, hlt, hv]
        · simp only [Tbl.set, hk, hlt, hv, if_true, if_false, Tbl.get, Ne.symm h]
          by_cases hj : j < k
          · have h3 : ¬ x.1 = j := by omega
            have h4 : j < x.1 := by omega
            simp [hj, h3, h4]
          · simp [hj]
      · simp only [Tbl.set, hk, hlt, if_false, Tbl.get, ih h2]

/-- Dropping entries keeps keys strictly rising. -/
theorem Tbl.sortedFrom_drop {α : Type} {t : Tbl α} {lo : Nat} (f : Nat → Bool) (ht : Tbl.sortedFrom lo t = true) :
    Tbl.sortedFrom lo (Tbl.drop f t) = true := by
  induction t generalizing lo with
  | nil => rfl
  | cons e t ih =>
    simp only [Tbl.sortedFrom, Bool.and_eq_true, decide_eq_true_eq] at ht
    obtain ⟨h1, h2⟩ := ht
    by_cases hf : f e.1
    · have := ih (Tbl.sortedFrom_mono (Nat.le_succ_of_le h1) h2)
      simpa [Tbl.drop, hf] using this
    · have := ih h2
      simp only [Tbl.drop] at this
      simp [Tbl.drop, hf, Tbl.sortedFrom, h1, this]

/-- A dropped key reads as unlisted and every other as before. -/
theorem Tbl.get_drop {α : Type} {d : α} {t : Tbl α} {lo : Nat} (f : Nat → Bool) (k : Nat)
    (ht : Tbl.sortedFrom lo t = true) : Tbl.get d (Tbl.drop f t) k = if f k then d else Tbl.get d t k := by
  induction t generalizing lo with
  | nil => simp [Tbl.drop, Tbl.get]
  | cons e t ih =>
    simp only [Tbl.sortedFrom, Bool.and_eq_true, decide_eq_true_eq] at ht
    obtain ⟨h1, h2⟩ := ht
    have := ih h2
    simp only [Tbl.drop] at this
    by_cases hf : f e.1
    · by_cases hk : e.1 = k
      · subst hk
        simp only [Tbl.drop, hf, List.filter, Bool.not_true, this, if_true]
      · have hb : k < e.1 → Tbl.get d t k = d := fun h => Tbl.get_below h2 (by omega)
        by_cases hlt : k < e.1
        · simp [Tbl.drop, hf, Tbl.get, hk, hlt, this, hb hlt]
        · simp [Tbl.drop, hf, Tbl.get, hk, hlt, this]
    · by_cases hk : e.1 = k
      · subst hk; simp [Tbl.drop, hf, Tbl.get]
      · by_cases hlt : k < e.1
        · simp [Tbl.drop, hf, Tbl.get, hk, hlt]
        · simp [Tbl.drop, hf, Tbl.get, hk, hlt, this]

/-- Writing keeps the canonical form. -/
theorem Tbl.wf_set {α : Type} [DecidableEq α] {d : α} {t : Tbl α} (k : Nat) (v : α) (ht : Tbl.wf d t = true) :
    Tbl.wf d (Tbl.set d t k v) = true := by
  simp only [Tbl.wf, Bool.and_eq_true] at ht ⊢
  refine ⟨Tbl.sortedFrom_set v ht.1 (Nat.zero_le _), ?_⟩
  have h := ht.2
  clear ht
  induction t with
  | nil => by_cases hv : v = d <;> simp [Tbl.set, hv]
  | cons e t ih =>
    simp only [List.all_cons, Bool.and_eq_true, decide_eq_true_eq] at h
    obtain ⟨h1, h2⟩ := h
    by_cases hk : e.1 = k
    · by_cases hv : v = d <;> simp only [Tbl.set, hk, hv, if_true, if_false]
      · exact h2
      · simpa [hv] using h2
    · by_cases hlt : k < e.1
      · by_cases hv : v = d <;> simp only [Tbl.set, hk, hlt, hv, if_true, if_false]
        · simpa [h1] using h2
        · simpa [hv, h1] using h2
      · simp only [Tbl.set, hk, hlt, if_false]
        simpa [h1] using ih h2

/-- Dropping entries keeps the canonical form. -/
theorem Tbl.wf_drop {α : Type} [DecidableEq α] {d : α} {t : Tbl α} (f : Nat → Bool) (ht : Tbl.wf d t = true) :
    Tbl.wf d (Tbl.drop f t) = true := by
  simp only [Tbl.wf, Bool.and_eq_true] at ht ⊢
  refine ⟨Tbl.sortedFrom_drop f ht.1, ?_⟩
  have h := ht.2
  simp only [List.all_eq_true] at h ⊢
  intro x hx
  exact h x (List.mem_of_mem_filter hx)

end Sys2Proof.Machine
end

