-- ==== Sys2Proof/Laws/State.lean ====
section
/-!
SUPPORT. What each elementary update leaves of every field of the state: one lemma per field and update, true by definition, so that no
proof unfolds a record update.
-/
namespace Sys2Proof.Machine

@[simp] theorem State.wf_pending (s : State) (f : Fld) (v : Nat) : (s.wf f v).pending = s.pending := rfl
@[simp] theorem State.wf_fuse (s : State) (f : Fld) (v : Nat) : (s.wf f v).fuse = s.fuse := rfl
@[simp] theorem State.wf_cfg (s : State) (f : Fld) (v : Nat) : (s.wf f v).cfg = s.cfg := rfl
@[simp] theorem State.wf_log (s : State) (f : Fld) (v : Nat) : (s.wf f v).log = s.log := rfl
@[simp] theorem State.wf_flash (s : State) (f : Fld) (v : Nat) : (s.wf f v).flash = s.flash := rfl
@[simp] theorem State.wf_boot (s : State) (f : Fld) (v : Nat) : (s.wf f v).boot = s.boot := rfl
@[simp] theorem State.wf_power (s : State) (f : Fld) (v : Nat) : (s.wf f v).power = s.power := rfl
@[simp] theorem State.wf_gov (s : State) (f : Fld) (v : Nat) : (s.wf f v).gov = s.gov := rfl
@[simp] theorem State.wf_mem (s : State) (f : Fld) (v : Nat) : (s.wf f v).mem = s.mem := rfl
@[simp] theorem State.wf_tileChk (s : State) (f : Fld) (v : Nat) : (s.wf f v).tileChk = s.tileChk := rfl
@[simp] theorem State.wf_acc (s : State) (f : Fld) (v : Nat) : (s.wf f v).acc = s.acc := rfl
@[simp] theorem State.wf_treg (s : State) (f : Fld) (v : Nat) : (s.wf f v).treg = s.treg := rfl
@[simp] theorem State.wf_loaded (s : State) (f : Fld) (v : Nat) : (s.wf f v).loaded = s.loaded := rfl
@[simp] theorem State.wf_garnet (s : State) (f : Fld) (v : Nat) : (s.wf f v).garnet = s.garnet := rfl
@[simp] theorem State.wf_stage (s : State) (f : Fld) (v : Nat) : (s.wf f v).stage = s.stage := rfl
@[simp] theorem State.wf_flint (s : State) (f : Fld) (v : Nat) : (s.wf f v).flint = s.flint := rfl
@[simp] theorem State.wf_queue (s : State) (f : Fld) (v : Nat) : (s.wf f v).queue = s.queue := rfl
@[simp] theorem State.wf_mover (s : State) (f : Fld) (v : Nat) : (s.wf f v).mover = s.mover := rfl
@[simp] theorem State.wf_disp (s : State) (f : Fld) (v : Nat) : (s.wf f v).disp = s.disp := rfl
@[simp] theorem State.wf_pc (s : State) (f : Fld) (v : Nat) : (s.wf f v).pc = s.pc := rfl
@[simp] theorem State.wf_chan (s : State) (f : Fld) (v : Nat) : (s.wf f v).chan = s.chan := rfl
@[simp] theorem State.wf_port (s : State) (f : Fld) (v : Nat) : (s.wf f v).port = s.port := rfl
@[simp] theorem State.wf_noUp (s : State) (f : Fld) (v : Nat) : (s.wf f v).noUp = s.noUp := rfl
@[simp] theorem State.wf_ctx (s : State) (f : Fld) (v : Nat) : (s.wf f v).ctx = s.ctx := rfl
@[simp] theorem State.wf_aux (s : State) (f : Fld) (v : Nat) : (s.wf f v).aux = s.aux := rfl
@[simp] theorem State.wf_park (s : State) (f : Fld) (v : Nat) : (s.wf f v).park = s.park := rfl
@[simp] theorem State.wf_colq (s : State) (f : Fld) (v : Nat) : (s.wf f v).colq = s.colq := rfl
@[simp] theorem State.wf_assay (s : State) (f : Fld) (v : Nat) : (s.wf f v).assay = s.assay := rfl
@[simp] theorem State.wf_strata (s : State) (f : Fld) (v : Nat) : (s.wf f v).strata = s.strata := rfl
@[simp] theorem State.wf_images (s : State) (f : Fld) (v : Nat) : (s.wf f v).images = s.images := rfl
@[simp] theorem State.wf_resets (s : State) (f : Fld) (v : Nat) : (s.wf f v).resets = s.resets := rfl
@[simp] theorem State.wf_ftest (s : State) (f : Fld) (v : Nat) : (s.wf f v).ftest = s.ftest := rfl
@[simp] theorem State.wf_member (s : State) (f : Fld) (v : Nat) : (s.wf f v).member = s.member := rfl
@[simp] theorem State.wf_tenancy (s : State) (f : Fld) (v : Nat) : (s.wf f v).tenancy = s.tenancy := rfl
@[simp] theorem State.wf_sess (s : State) (f : Fld) (v : Nat) : (s.wf f v).sess = s.sess := rfl
@[simp] theorem State.wf_host (s : State) (f : Fld) (v : Nat) : (s.wf f v).host = s.host := rfl
@[simp] theorem State.wf_handles (s : State) (f : Fld) (v : Nat) : (s.wf f v).handles = s.handles := rfl
@[simp] theorem State.wf_mkey (s : State) (f : Fld) (v : Nat) : (s.wf f v).mkey = s.mkey := rfl
@[simp] theorem State.wf_mreq (s : State) (f : Fld) (v : Nat) : (s.wf f v).mreq = s.mreq := rfl
@[simp] theorem State.wf_anonces (s : State) (f : Fld) (v : Nat) : (s.wf f v).anonces = s.anonces := rfl
@[simp] theorem State.wf_drbgReqs (s : State) (f : Fld) (v : Nat) : (s.wf f v).drbgReqs = s.drbgReqs := rfl
@[simp] theorem State.wf_recSeq (s : State) (f : Fld) (v : Nat) : (s.wf f v).recSeq = s.recSeq := rfl
@[simp] theorem State.wf_recPend (s : State) (f : Fld) (v : Nat) : (s.wf f v).recPend = s.recPend := rfl
@[simp] theorem State.wf_recFlush (s : State) (f : Fld) (v : Nat) : (s.wf f v).recFlush = s.recFlush := rfl
@[simp] theorem State.wf_suppressed (s : State) (f : Fld) (v : Nat) : (s.wf f v).suppressed = s.suppressed := rfl
@[simp] theorem State.wf_corrSeen (s : State) (f : Fld) (v : Nat) : (s.wf f v).corrSeen = s.corrSeen := rfl
@[simp] theorem State.wf_elog (s : State) (f : Fld) (v : Nat) : (s.wf f v).elog = s.elog := rfl
@[simp] theorem State.wf_events (s : State) (f : Fld) (v : Nat) : (s.wf f v).events = s.events := rfl
@[simp] theorem State.wf_pwrCycle (s : State) (f : Fld) (v : Nat) : (s.wf f v).pwrCycle = s.pwrCycle := rfl
@[simp] theorem State.wf_i3cAddr (s : State) (f : Fld) (v : Nat) : (s.wf f v).i3cAddr = s.i3cAddr := rfl
@[simp] theorem State.wf_mctpEid (s : State) (f : Fld) (v : Nat) : (s.wf f v).mctpEid = s.mctpEid := rfl
@[simp] theorem State.wf_rotUplink (s : State) (f : Fld) (v : Nat) : (s.wf f v).rotUplink = s.rotUplink := rfl
@[simp] theorem State.wf_summ (s : State) (f : Fld) (v : Nat) : (s.wf f v).summ = s.summ := rfl
@[simp] theorem State.wf_freeCtr (s : State) (f : Fld) (v : Nat) : (s.wf f v).freeCtr = s.freeCtr := rfl
@[simp] theorem State.wf_out (s : State) (f : Fld) (v : Nat) : (s.wf f v).out = s.out := rfl

@[simp] theorem State.emit_pending (s : State) (o : Out) : (s.emit o).pending = s.pending := rfl
@[simp] theorem State.emit_fuse (s : State) (o : Out) : (s.emit o).fuse = s.fuse := rfl
@[simp] theorem State.emit_cfg (s : State) (o : Out) : (s.emit o).cfg = s.cfg := rfl
@[simp] theorem State.emit_log (s : State) (o : Out) : (s.emit o).log = s.log := rfl
@[simp] theorem State.emit_flash (s : State) (o : Out) : (s.emit o).flash = s.flash := rfl
@[simp] theorem State.emit_boot (s : State) (o : Out) : (s.emit o).boot = s.boot := rfl
@[simp] theorem State.emit_power (s : State) (o : Out) : (s.emit o).power = s.power := rfl
@[simp] theorem State.emit_gov (s : State) (o : Out) : (s.emit o).gov = s.gov := rfl
@[simp] theorem State.emit_flds (s : State) (o : Out) : (s.emit o).flds = s.flds := rfl
@[simp] theorem State.emit_mem (s : State) (o : Out) : (s.emit o).mem = s.mem := rfl
@[simp] theorem State.emit_tileChk (s : State) (o : Out) : (s.emit o).tileChk = s.tileChk := rfl
@[simp] theorem State.emit_acc (s : State) (o : Out) : (s.emit o).acc = s.acc := rfl
@[simp] theorem State.emit_treg (s : State) (o : Out) : (s.emit o).treg = s.treg := rfl
@[simp] theorem State.emit_loaded (s : State) (o : Out) : (s.emit o).loaded = s.loaded := rfl
@[simp] theorem State.emit_garnet (s : State) (o : Out) : (s.emit o).garnet = s.garnet := rfl
@[simp] theorem State.emit_stage (s : State) (o : Out) : (s.emit o).stage = s.stage := rfl
@[simp] theorem State.emit_flint (s : State) (o : Out) : (s.emit o).flint = s.flint := rfl
@[simp] theorem State.emit_queue (s : State) (o : Out) : (s.emit o).queue = s.queue := rfl
@[simp] theorem State.emit_mover (s : State) (o : Out) : (s.emit o).mover = s.mover := rfl
@[simp] theorem State.emit_disp (s : State) (o : Out) : (s.emit o).disp = s.disp := rfl
@[simp] theorem State.emit_pc (s : State) (o : Out) : (s.emit o).pc = s.pc := rfl
@[simp] theorem State.emit_chan (s : State) (o : Out) : (s.emit o).chan = s.chan := rfl
@[simp] theorem State.emit_port (s : State) (o : Out) : (s.emit o).port = s.port := rfl
@[simp] theorem State.emit_noUp (s : State) (o : Out) : (s.emit o).noUp = s.noUp := rfl
@[simp] theorem State.emit_ctx (s : State) (o : Out) : (s.emit o).ctx = s.ctx := rfl
@[simp] theorem State.emit_aux (s : State) (o : Out) : (s.emit o).aux = s.aux := rfl
@[simp] theorem State.emit_park (s : State) (o : Out) : (s.emit o).park = s.park := rfl
@[simp] theorem State.emit_colq (s : State) (o : Out) : (s.emit o).colq = s.colq := rfl
@[simp] theorem State.emit_assay (s : State) (o : Out) : (s.emit o).assay = s.assay := rfl
@[simp] theorem State.emit_strata (s : State) (o : Out) : (s.emit o).strata = s.strata := rfl
@[simp] theorem State.emit_images (s : State) (o : Out) : (s.emit o).images = s.images := rfl
@[simp] theorem State.emit_resets (s : State) (o : Out) : (s.emit o).resets = s.resets := rfl
@[simp] theorem State.emit_ftest (s : State) (o : Out) : (s.emit o).ftest = s.ftest := rfl
@[simp] theorem State.emit_member (s : State) (o : Out) : (s.emit o).member = s.member := rfl
@[simp] theorem State.emit_tenancy (s : State) (o : Out) : (s.emit o).tenancy = s.tenancy := rfl
@[simp] theorem State.emit_sess (s : State) (o : Out) : (s.emit o).sess = s.sess := rfl
@[simp] theorem State.emit_host (s : State) (o : Out) : (s.emit o).host = s.host := rfl
@[simp] theorem State.emit_handles (s : State) (o : Out) : (s.emit o).handles = s.handles := rfl
@[simp] theorem State.emit_mkey (s : State) (o : Out) : (s.emit o).mkey = s.mkey := rfl
@[simp] theorem State.emit_mreq (s : State) (o : Out) : (s.emit o).mreq = s.mreq := rfl
@[simp] theorem State.emit_anonces (s : State) (o : Out) : (s.emit o).anonces = s.anonces := rfl
@[simp] theorem State.emit_drbgReqs (s : State) (o : Out) : (s.emit o).drbgReqs = s.drbgReqs := rfl
@[simp] theorem State.emit_recSeq (s : State) (o : Out) : (s.emit o).recSeq = s.recSeq := rfl
@[simp] theorem State.emit_recPend (s : State) (o : Out) : (s.emit o).recPend = s.recPend := rfl
@[simp] theorem State.emit_recFlush (s : State) (o : Out) : (s.emit o).recFlush = s.recFlush := rfl
@[simp] theorem State.emit_suppressed (s : State) (o : Out) : (s.emit o).suppressed = s.suppressed := rfl
@[simp] theorem State.emit_corrSeen (s : State) (o : Out) : (s.emit o).corrSeen = s.corrSeen := rfl
@[simp] theorem State.emit_elog (s : State) (o : Out) : (s.emit o).elog = s.elog := rfl
@[simp] theorem State.emit_events (s : State) (o : Out) : (s.emit o).events = s.events := rfl
@[simp] theorem State.emit_pwrCycle (s : State) (o : Out) : (s.emit o).pwrCycle = s.pwrCycle := rfl
@[simp] theorem State.emit_i3cAddr (s : State) (o : Out) : (s.emit o).i3cAddr = s.i3cAddr := rfl
@[simp] theorem State.emit_mctpEid (s : State) (o : Out) : (s.emit o).mctpEid = s.mctpEid := rfl
@[simp] theorem State.emit_rotUplink (s : State) (o : Out) : (s.emit o).rotUplink = s.rotUplink := rfl
@[simp] theorem State.emit_summ (s : State) (o : Out) : (s.emit o).summ = s.summ := rfl
@[simp] theorem State.emit_freeCtr (s : State) (o : Out) : (s.emit o).freeCtr = s.freeCtr := rfl

@[simp] theorem State.setGarnet_pending (s : State) (p c : Nat) (g : Garnet) : (s.setGarnet p c g).pending = s.pending := rfl
@[simp] theorem State.setGarnet_fuse (s : State) (p c : Nat) (g : Garnet) : (s.setGarnet p c g).fuse = s.fuse := rfl
@[simp] theorem State.setGarnet_cfg (s : State) (p c : Nat) (g : Garnet) : (s.setGarnet p c g).cfg = s.cfg := rfl
@[simp] theorem State.setGarnet_log (s : State) (p c : Nat) (g : Garnet) : (s.setGarnet p c g).log = s.log := rfl
@[simp] theorem State.setGarnet_flash (s : State) (p c : Nat) (g : Garnet) : (s.setGarnet p c g).flash = s.flash := rfl
@[simp] theorem State.setGarnet_boot (s : State) (p c : Nat) (g : Garnet) : (s.setGarnet p c g).boot = s.boot := rfl
@[simp] theorem State.setGarnet_power (s : State) (p c : Nat) (g : Garnet) : (s.setGarnet p c g).power = s.power := rfl
@[simp] theorem State.setGarnet_gov (s : State) (p c : Nat) (g : Garnet) : (s.setGarnet p c g).gov = s.gov := rfl
@[simp] theorem State.setGarnet_flds (s : State) (p c : Nat) (g : Garnet) : (s.setGarnet p c g).flds = s.flds := rfl
@[simp] theorem State.setGarnet_mem (s : State) (p c : Nat) (g : Garnet) : (s.setGarnet p c g).mem = s.mem := rfl
@[simp] theorem State.setGarnet_tileChk (s : State) (p c : Nat) (g : Garnet) : (s.setGarnet p c g).tileChk = s.tileChk := rfl
@[simp] theorem State.setGarnet_acc (s : State) (p c : Nat) (g : Garnet) : (s.setGarnet p c g).acc = s.acc := rfl
@[simp] theorem State.setGarnet_treg (s : State) (p c : Nat) (g : Garnet) : (s.setGarnet p c g).treg = s.treg := rfl
@[simp] theorem State.setGarnet_loaded (s : State) (p c : Nat) (g : Garnet) : (s.setGarnet p c g).loaded = s.loaded := rfl
@[simp] theorem State.setGarnet_stage (s : State) (p c : Nat) (g : Garnet) : (s.setGarnet p c g).stage = s.stage := rfl
@[simp] theorem State.setGarnet_flint (s : State) (p c : Nat) (g : Garnet) : (s.setGarnet p c g).flint = s.flint := rfl
@[simp] theorem State.setGarnet_queue (s : State) (p c : Nat) (g : Garnet) : (s.setGarnet p c g).queue = s.queue := rfl
@[simp] theorem State.setGarnet_mover (s : State) (p c : Nat) (g : Garnet) : (s.setGarnet p c g).mover = s.mover := rfl
@[simp] theorem State.setGarnet_disp (s : State) (p c : Nat) (g : Garnet) : (s.setGarnet p c g).disp = s.disp := rfl
@[simp] theorem State.setGarnet_pc (s : State) (p c : Nat) (g : Garnet) : (s.setGarnet p c g).pc = s.pc := rfl
@[simp] theorem State.setGarnet_chan (s : State) (p c : Nat) (g : Garnet) : (s.setGarnet p c g).chan = s.chan := rfl
@[simp] theorem State.setGarnet_port (s : State) (p c : Nat) (g : Garnet) : (s.setGarnet p c g).port = s.port := rfl
@[simp] theorem State.setGarnet_noUp (s : State) (p c : Nat) (g : Garnet) : (s.setGarnet p c g).noUp = s.noUp := rfl
@[simp] theorem State.setGarnet_ctx (s : State) (p c : Nat) (g : Garnet) : (s.setGarnet p c g).ctx = s.ctx := rfl
@[simp] theorem State.setGarnet_aux (s : State) (p c : Nat) (g : Garnet) : (s.setGarnet p c g).aux = s.aux := rfl
@[simp] theorem State.setGarnet_park (s : State) (p c : Nat) (g : Garnet) : (s.setGarnet p c g).park = s.park := rfl
@[simp] theorem State.setGarnet_colq (s : State) (p c : Nat) (g : Garnet) : (s.setGarnet p c g).colq = s.colq := rfl
@[simp] theorem State.setGarnet_assay (s : State) (p c : Nat) (g : Garnet) : (s.setGarnet p c g).assay = s.assay := rfl
@[simp] theorem State.setGarnet_strata (s : State) (p c : Nat) (g : Garnet) : (s.setGarnet p c g).strata = s.strata := rfl
@[simp] theorem State.setGarnet_images (s : State) (p c : Nat) (g : Garnet) : (s.setGarnet p c g).images = s.images := rfl
@[simp] theorem State.setGarnet_resets (s : State) (p c : Nat) (g : Garnet) : (s.setGarnet p c g).resets = s.resets := rfl
@[simp] theorem State.setGarnet_ftest (s : State) (p c : Nat) (g : Garnet) : (s.setGarnet p c g).ftest = s.ftest := rfl
@[simp] theorem State.setGarnet_member (s : State) (p c : Nat) (g : Garnet) : (s.setGarnet p c g).member = s.member := rfl
@[simp] theorem State.setGarnet_tenancy (s : State) (p c : Nat) (g : Garnet) : (s.setGarnet p c g).tenancy = s.tenancy := rfl
@[simp] theorem State.setGarnet_sess (s : State) (p c : Nat) (g : Garnet) : (s.setGarnet p c g).sess = s.sess := rfl
@[simp] theorem State.setGarnet_host (s : State) (p c : Nat) (g : Garnet) : (s.setGarnet p c g).host = s.host := rfl
@[simp] theorem State.setGarnet_handles (s : State) (p c : Nat) (g : Garnet) : (s.setGarnet p c g).handles = s.handles := rfl
@[simp] theorem State.setGarnet_mkey (s : State) (p c : Nat) (g : Garnet) : (s.setGarnet p c g).mkey = s.mkey := rfl
@[simp] theorem State.setGarnet_mreq (s : State) (p c : Nat) (g : Garnet) : (s.setGarnet p c g).mreq = s.mreq := rfl
@[simp] theorem State.setGarnet_anonces (s : State) (p c : Nat) (g : Garnet) : (s.setGarnet p c g).anonces = s.anonces := rfl
@[simp] theorem State.setGarnet_drbgReqs (s : State) (p c : Nat) (g : Garnet) : (s.setGarnet p c g).drbgReqs = s.drbgReqs := rfl
@[simp] theorem State.setGarnet_recSeq (s : State) (p c : Nat) (g : Garnet) : (s.setGarnet p c g).recSeq = s.recSeq := rfl
@[simp] theorem State.setGarnet_recPend (s : State) (p c : Nat) (g : Garnet) : (s.setGarnet p c g).recPend = s.recPend := rfl
@[simp] theorem State.setGarnet_recFlush (s : State) (p c : Nat) (g : Garnet) : (s.setGarnet p c g).recFlush = s.recFlush := rfl
@[simp] theorem State.setGarnet_suppressed (s : State) (p c : Nat) (g : Garnet) : (s.setGarnet p c g).suppressed = s.suppressed := rfl
@[simp] theorem State.setGarnet_corrSeen (s : State) (p c : Nat) (g : Garnet) : (s.setGarnet p c g).corrSeen = s.corrSeen := rfl
@[simp] theorem State.setGarnet_elog (s : State) (p c : Nat) (g : Garnet) : (s.setGarnet p c g).elog = s.elog := rfl
@[simp] theorem State.setGarnet_events (s : State) (p c : Nat) (g : Garnet) : (s.setGarnet p c g).events = s.events := rfl
@[simp] theorem State.setGarnet_pwrCycle (s : State) (p c : Nat) (g : Garnet) : (s.setGarnet p c g).pwrCycle = s.pwrCycle := rfl
@[simp] theorem State.setGarnet_i3cAddr (s : State) (p c : Nat) (g : Garnet) : (s.setGarnet p c g).i3cAddr = s.i3cAddr := rfl
@[simp] theorem State.setGarnet_mctpEid (s : State) (p c : Nat) (g : Garnet) : (s.setGarnet p c g).mctpEid = s.mctpEid := rfl
@[simp] theorem State.setGarnet_rotUplink (s : State) (p c : Nat) (g : Garnet) : (s.setGarnet p c g).rotUplink = s.rotUplink := rfl
@[simp] theorem State.setGarnet_summ (s : State) (p c : Nat) (g : Garnet) : (s.setGarnet p c g).summ = s.summ := rfl
@[simp] theorem State.setGarnet_freeCtr (s : State) (p c : Nat) (g : Garnet) : (s.setGarnet p c g).freeCtr = s.freeCtr := rfl
@[simp] theorem State.setGarnet_out (s : State) (p c : Nat) (g : Garnet) : (s.setGarnet p c g).out = s.out := rfl

@[simp] theorem State.setFlint_pending (s : State) (p c : Nat) (f : Flint) : (s.setFlint p c f).pending = s.pending := rfl
@[simp] theorem State.setFlint_fuse (s : State) (p c : Nat) (f : Flint) : (s.setFlint p c f).fuse = s.fuse := rfl
@[simp] theorem State.setFlint_cfg (s : State) (p c : Nat) (f : Flint) : (s.setFlint p c f).cfg = s.cfg := rfl
@[simp] theorem State.setFlint_log (s : State) (p c : Nat) (f : Flint) : (s.setFlint p c f).log = s.log := rfl
@[simp] theorem State.setFlint_flash (s : State) (p c : Nat) (f : Flint) : (s.setFlint p c f).flash = s.flash := rfl
@[simp] theorem State.setFlint_boot (s : State) (p c : Nat) (f : Flint) : (s.setFlint p c f).boot = s.boot := rfl
@[simp] theorem State.setFlint_power (s : State) (p c : Nat) (f : Flint) : (s.setFlint p c f).power = s.power := rfl
@[simp] theorem State.setFlint_gov (s : State) (p c : Nat) (f : Flint) : (s.setFlint p c f).gov = s.gov := rfl
@[simp] theorem State.setFlint_flds (s : State) (p c : Nat) (f : Flint) : (s.setFlint p c f).flds = s.flds := rfl
@[simp] theorem State.setFlint_mem (s : State) (p c : Nat) (f : Flint) : (s.setFlint p c f).mem = s.mem := rfl
@[simp] theorem State.setFlint_tileChk (s : State) (p c : Nat) (f : Flint) : (s.setFlint p c f).tileChk = s.tileChk := rfl
@[simp] theorem State.setFlint_acc (s : State) (p c : Nat) (f : Flint) : (s.setFlint p c f).acc = s.acc := rfl
@[simp] theorem State.setFlint_treg (s : State) (p c : Nat) (f : Flint) : (s.setFlint p c f).treg = s.treg := rfl
@[simp] theorem State.setFlint_loaded (s : State) (p c : Nat) (f : Flint) : (s.setFlint p c f).loaded = s.loaded := rfl
@[simp] theorem State.setFlint_garnet (s : State) (p c : Nat) (f : Flint) : (s.setFlint p c f).garnet = s.garnet := rfl
@[simp] theorem State.setFlint_stage (s : State) (p c : Nat) (f : Flint) : (s.setFlint p c f).stage = s.stage := rfl
@[simp] theorem State.setFlint_queue (s : State) (p c : Nat) (f : Flint) : (s.setFlint p c f).queue = s.queue := rfl
@[simp] theorem State.setFlint_mover (s : State) (p c : Nat) (f : Flint) : (s.setFlint p c f).mover = s.mover := rfl
@[simp] theorem State.setFlint_disp (s : State) (p c : Nat) (f : Flint) : (s.setFlint p c f).disp = s.disp := rfl
@[simp] theorem State.setFlint_pc (s : State) (p c : Nat) (f : Flint) : (s.setFlint p c f).pc = s.pc := rfl
@[simp] theorem State.setFlint_chan (s : State) (p c : Nat) (f : Flint) : (s.setFlint p c f).chan = s.chan := rfl
@[simp] theorem State.setFlint_port (s : State) (p c : Nat) (f : Flint) : (s.setFlint p c f).port = s.port := rfl
@[simp] theorem State.setFlint_noUp (s : State) (p c : Nat) (f : Flint) : (s.setFlint p c f).noUp = s.noUp := rfl
@[simp] theorem State.setFlint_ctx (s : State) (p c : Nat) (f : Flint) : (s.setFlint p c f).ctx = s.ctx := rfl
@[simp] theorem State.setFlint_aux (s : State) (p c : Nat) (f : Flint) : (s.setFlint p c f).aux = s.aux := rfl
@[simp] theorem State.setFlint_park (s : State) (p c : Nat) (f : Flint) : (s.setFlint p c f).park = s.park := rfl
@[simp] theorem State.setFlint_colq (s : State) (p c : Nat) (f : Flint) : (s.setFlint p c f).colq = s.colq := rfl
@[simp] theorem State.setFlint_assay (s : State) (p c : Nat) (f : Flint) : (s.setFlint p c f).assay = s.assay := rfl
@[simp] theorem State.setFlint_strata (s : State) (p c : Nat) (f : Flint) : (s.setFlint p c f).strata = s.strata := rfl
@[simp] theorem State.setFlint_images (s : State) (p c : Nat) (f : Flint) : (s.setFlint p c f).images = s.images := rfl
@[simp] theorem State.setFlint_resets (s : State) (p c : Nat) (f : Flint) : (s.setFlint p c f).resets = s.resets := rfl
@[simp] theorem State.setFlint_ftest (s : State) (p c : Nat) (f : Flint) : (s.setFlint p c f).ftest = s.ftest := rfl
@[simp] theorem State.setFlint_member (s : State) (p c : Nat) (f : Flint) : (s.setFlint p c f).member = s.member := rfl
@[simp] theorem State.setFlint_tenancy (s : State) (p c : Nat) (f : Flint) : (s.setFlint p c f).tenancy = s.tenancy := rfl
@[simp] theorem State.setFlint_sess (s : State) (p c : Nat) (f : Flint) : (s.setFlint p c f).sess = s.sess := rfl
@[simp] theorem State.setFlint_host (s : State) (p c : Nat) (f : Flint) : (s.setFlint p c f).host = s.host := rfl
@[simp] theorem State.setFlint_handles (s : State) (p c : Nat) (f : Flint) : (s.setFlint p c f).handles = s.handles := rfl
@[simp] theorem State.setFlint_mkey (s : State) (p c : Nat) (f : Flint) : (s.setFlint p c f).mkey = s.mkey := rfl
@[simp] theorem State.setFlint_mreq (s : State) (p c : Nat) (f : Flint) : (s.setFlint p c f).mreq = s.mreq := rfl
@[simp] theorem State.setFlint_anonces (s : State) (p c : Nat) (f : Flint) : (s.setFlint p c f).anonces = s.anonces := rfl
@[simp] theorem State.setFlint_drbgReqs (s : State) (p c : Nat) (f : Flint) : (s.setFlint p c f).drbgReqs = s.drbgReqs := rfl
@[simp] theorem State.setFlint_recSeq (s : State) (p c : Nat) (f : Flint) : (s.setFlint p c f).recSeq = s.recSeq := rfl
@[simp] theorem State.setFlint_recPend (s : State) (p c : Nat) (f : Flint) : (s.setFlint p c f).recPend = s.recPend := rfl
@[simp] theorem State.setFlint_recFlush (s : State) (p c : Nat) (f : Flint) : (s.setFlint p c f).recFlush = s.recFlush := rfl
@[simp] theorem State.setFlint_suppressed (s : State) (p c : Nat) (f : Flint) : (s.setFlint p c f).suppressed = s.suppressed := rfl
@[simp] theorem State.setFlint_corrSeen (s : State) (p c : Nat) (f : Flint) : (s.setFlint p c f).corrSeen = s.corrSeen := rfl
@[simp] theorem State.setFlint_elog (s : State) (p c : Nat) (f : Flint) : (s.setFlint p c f).elog = s.elog := rfl
@[simp] theorem State.setFlint_events (s : State) (p c : Nat) (f : Flint) : (s.setFlint p c f).events = s.events := rfl
@[simp] theorem State.setFlint_pwrCycle (s : State) (p c : Nat) (f : Flint) : (s.setFlint p c f).pwrCycle = s.pwrCycle := rfl
@[simp] theorem State.setFlint_i3cAddr (s : State) (p c : Nat) (f : Flint) : (s.setFlint p c f).i3cAddr = s.i3cAddr := rfl
@[simp] theorem State.setFlint_mctpEid (s : State) (p c : Nat) (f : Flint) : (s.setFlint p c f).mctpEid = s.mctpEid := rfl
@[simp] theorem State.setFlint_rotUplink (s : State) (p c : Nat) (f : Flint) : (s.setFlint p c f).rotUplink = s.rotUplink := rfl
@[simp] theorem State.setFlint_summ (s : State) (p c : Nat) (f : Flint) : (s.setFlint p c f).summ = s.summ := rfl
@[simp] theorem State.setFlint_freeCtr (s : State) (p c : Nat) (f : Flint) : (s.setFlint p c f).freeCtr = s.freeCtr := rfl
@[simp] theorem State.setFlint_out (s : State) (p c : Nat) (f : Flint) : (s.setFlint p c f).out = s.out := rfl

@[simp] theorem State.setQueue_pending (s : State) (p c e : Nat) (q : Queue) : (s.setQueue p c e q).pending = s.pending := rfl
@[simp] theorem State.setQueue_fuse (s : State) (p c e : Nat) (q : Queue) : (s.setQueue p c e q).fuse = s.fuse := rfl
@[simp] theorem State.setQueue_cfg (s : State) (p c e : Nat) (q : Queue) : (s.setQueue p c e q).cfg = s.cfg := rfl
@[simp] theorem State.setQueue_log (s : State) (p c e : Nat) (q : Queue) : (s.setQueue p c e q).log = s.log := rfl
@[simp] theorem State.setQueue_flash (s : State) (p c e : Nat) (q : Queue) : (s.setQueue p c e q).flash = s.flash := rfl
@[simp] theorem State.setQueue_boot (s : State) (p c e : Nat) (q : Queue) : (s.setQueue p c e q).boot = s.boot := rfl
@[simp] theorem State.setQueue_power (s : State) (p c e : Nat) (q : Queue) : (s.setQueue p c e q).power = s.power := rfl
@[simp] theorem State.setQueue_gov (s : State) (p c e : Nat) (q : Queue) : (s.setQueue p c e q).gov = s.gov := rfl
@[simp] theorem State.setQueue_flds (s : State) (p c e : Nat) (q : Queue) : (s.setQueue p c e q).flds = s.flds := rfl
@[simp] theorem State.setQueue_mem (s : State) (p c e : Nat) (q : Queue) : (s.setQueue p c e q).mem = s.mem := rfl
@[simp] theorem State.setQueue_tileChk (s : State) (p c e : Nat) (q : Queue) : (s.setQueue p c e q).tileChk = s.tileChk := rfl
@[simp] theorem State.setQueue_acc (s : State) (p c e : Nat) (q : Queue) : (s.setQueue p c e q).acc = s.acc := rfl
@[simp] theorem State.setQueue_treg (s : State) (p c e : Nat) (q : Queue) : (s.setQueue p c e q).treg = s.treg := rfl
@[simp] theorem State.setQueue_loaded (s : State) (p c e : Nat) (q : Queue) : (s.setQueue p c e q).loaded = s.loaded := rfl
@[simp] theorem State.setQueue_garnet (s : State) (p c e : Nat) (q : Queue) : (s.setQueue p c e q).garnet = s.garnet := rfl
@[simp] theorem State.setQueue_stage (s : State) (p c e : Nat) (q : Queue) : (s.setQueue p c e q).stage = s.stage := rfl
@[simp] theorem State.setQueue_flint (s : State) (p c e : Nat) (q : Queue) : (s.setQueue p c e q).flint = s.flint := rfl
@[simp] theorem State.setQueue_mover (s : State) (p c e : Nat) (q : Queue) : (s.setQueue p c e q).mover = s.mover := rfl
@[simp] theorem State.setQueue_disp (s : State) (p c e : Nat) (q : Queue) : (s.setQueue p c e q).disp = s.disp := rfl
@[simp] theorem State.setQueue_pc (s : State) (p c e : Nat) (q : Queue) : (s.setQueue p c e q).pc = s.pc := rfl
@[simp] theorem State.setQueue_chan (s : State) (p c e : Nat) (q : Queue) : (s.setQueue p c e q).chan = s.chan := rfl
@[simp] theorem State.setQueue_port (s : State) (p c e : Nat) (q : Queue) : (s.setQueue p c e q).port = s.port := rfl
@[simp] theorem State.setQueue_noUp (s : State) (p c e : Nat) (q : Queue) : (s.setQueue p c e q).noUp = s.noUp := rfl
@[simp] theorem State.setQueue_ctx (s : State) (p c e : Nat) (q : Queue) : (s.setQueue p c e q).ctx = s.ctx := rfl
@[simp] theorem State.setQueue_aux (s : State) (p c e : Nat) (q : Queue) : (s.setQueue p c e q).aux = s.aux := rfl
@[simp] theorem State.setQueue_park (s : State) (p c e : Nat) (q : Queue) : (s.setQueue p c e q).park = s.park := rfl
@[simp] theorem State.setQueue_colq (s : State) (p c e : Nat) (q : Queue) : (s.setQueue p c e q).colq = s.colq := rfl
@[simp] theorem State.setQueue_assay (s : State) (p c e : Nat) (q : Queue) : (s.setQueue p c e q).assay = s.assay := rfl
@[simp] theorem State.setQueue_strata (s : State) (p c e : Nat) (q : Queue) : (s.setQueue p c e q).strata = s.strata := rfl
@[simp] theorem State.setQueue_images (s : State) (p c e : Nat) (q : Queue) : (s.setQueue p c e q).images = s.images := rfl
@[simp] theorem State.setQueue_resets (s : State) (p c e : Nat) (q : Queue) : (s.setQueue p c e q).resets = s.resets := rfl
@[simp] theorem State.setQueue_ftest (s : State) (p c e : Nat) (q : Queue) : (s.setQueue p c e q).ftest = s.ftest := rfl
@[simp] theorem State.setQueue_member (s : State) (p c e : Nat) (q : Queue) : (s.setQueue p c e q).member = s.member := rfl
@[simp] theorem State.setQueue_tenancy (s : State) (p c e : Nat) (q : Queue) : (s.setQueue p c e q).tenancy = s.tenancy := rfl
@[simp] theorem State.setQueue_sess (s : State) (p c e : Nat) (q : Queue) : (s.setQueue p c e q).sess = s.sess := rfl
@[simp] theorem State.setQueue_host (s : State) (p c e : Nat) (q : Queue) : (s.setQueue p c e q).host = s.host := rfl
@[simp] theorem State.setQueue_handles (s : State) (p c e : Nat) (q : Queue) : (s.setQueue p c e q).handles = s.handles := rfl
@[simp] theorem State.setQueue_mkey (s : State) (p c e : Nat) (q : Queue) : (s.setQueue p c e q).mkey = s.mkey := rfl
@[simp] theorem State.setQueue_mreq (s : State) (p c e : Nat) (q : Queue) : (s.setQueue p c e q).mreq = s.mreq := rfl
@[simp] theorem State.setQueue_anonces (s : State) (p c e : Nat) (q : Queue) : (s.setQueue p c e q).anonces = s.anonces := rfl
@[simp] theorem State.setQueue_drbgReqs (s : State) (p c e : Nat) (q : Queue) : (s.setQueue p c e q).drbgReqs = s.drbgReqs := rfl
@[simp] theorem State.setQueue_recSeq (s : State) (p c e : Nat) (q : Queue) : (s.setQueue p c e q).recSeq = s.recSeq := rfl
@[simp] theorem State.setQueue_recPend (s : State) (p c e : Nat) (q : Queue) : (s.setQueue p c e q).recPend = s.recPend := rfl
@[simp] theorem State.setQueue_recFlush (s : State) (p c e : Nat) (q : Queue) : (s.setQueue p c e q).recFlush = s.recFlush := rfl
@[simp] theorem State.setQueue_suppressed (s : State) (p c e : Nat) (q : Queue) : (s.setQueue p c e q).suppressed = s.suppressed := rfl
@[simp] theorem State.setQueue_corrSeen (s : State) (p c e : Nat) (q : Queue) : (s.setQueue p c e q).corrSeen = s.corrSeen := rfl
@[simp] theorem State.setQueue_elog (s : State) (p c e : Nat) (q : Queue) : (s.setQueue p c e q).elog = s.elog := rfl
@[simp] theorem State.setQueue_events (s : State) (p c e : Nat) (q : Queue) : (s.setQueue p c e q).events = s.events := rfl
@[simp] theorem State.setQueue_pwrCycle (s : State) (p c e : Nat) (q : Queue) : (s.setQueue p c e q).pwrCycle = s.pwrCycle := rfl
@[simp] theorem State.setQueue_i3cAddr (s : State) (p c e : Nat) (q : Queue) : (s.setQueue p c e q).i3cAddr = s.i3cAddr := rfl
@[simp] theorem State.setQueue_mctpEid (s : State) (p c e : Nat) (q : Queue) : (s.setQueue p c e q).mctpEid = s.mctpEid := rfl
@[simp] theorem State.setQueue_rotUplink (s : State) (p c e : Nat) (q : Queue) : (s.setQueue p c e q).rotUplink = s.rotUplink := rfl
@[simp] theorem State.setQueue_summ (s : State) (p c e : Nat) (q : Queue) : (s.setQueue p c e q).summ = s.summ := rfl
@[simp] theorem State.setQueue_freeCtr (s : State) (p c e : Nat) (q : Queue) : (s.setQueue p c e q).freeCtr = s.freeCtr := rfl
@[simp] theorem State.setQueue_out (s : State) (p c e : Nat) (q : Queue) : (s.setQueue p c e q).out = s.out := rfl

@[simp] theorem State.setStage_pending (s : State) (p c : Nat) (m : Option MicaStage) : (s.setStage p c m).pending = s.pending := rfl
@[simp] theorem State.setStage_fuse (s : State) (p c : Nat) (m : Option MicaStage) : (s.setStage p c m).fuse = s.fuse := rfl
@[simp] theorem State.setStage_cfg (s : State) (p c : Nat) (m : Option MicaStage) : (s.setStage p c m).cfg = s.cfg := rfl
@[simp] theorem State.setStage_log (s : State) (p c : Nat) (m : Option MicaStage) : (s.setStage p c m).log = s.log := rfl
@[simp] theorem State.setStage_flash (s : State) (p c : Nat) (m : Option MicaStage) : (s.setStage p c m).flash = s.flash := rfl
@[simp] theorem State.setStage_boot (s : State) (p c : Nat) (m : Option MicaStage) : (s.setStage p c m).boot = s.boot := rfl
@[simp] theorem State.setStage_power (s : State) (p c : Nat) (m : Option MicaStage) : (s.setStage p c m).power = s.power := rfl
@[simp] theorem State.setStage_gov (s : State) (p c : Nat) (m : Option MicaStage) : (s.setStage p c m).gov = s.gov := rfl
@[simp] theorem State.setStage_flds (s : State) (p c : Nat) (m : Option MicaStage) : (s.setStage p c m).flds = s.flds := rfl
@[simp] theorem State.setStage_mem (s : State) (p c : Nat) (m : Option MicaStage) : (s.setStage p c m).mem = s.mem := rfl
@[simp] theorem State.setStage_tileChk (s : State) (p c : Nat) (m : Option MicaStage) : (s.setStage p c m).tileChk = s.tileChk := rfl
@[simp] theorem State.setStage_acc (s : State) (p c : Nat) (m : Option MicaStage) : (s.setStage p c m).acc = s.acc := rfl
@[simp] theorem State.setStage_treg (s : State) (p c : Nat) (m : Option MicaStage) : (s.setStage p c m).treg = s.treg := rfl
@[simp] theorem State.setStage_loaded (s : State) (p c : Nat) (m : Option MicaStage) : (s.setStage p c m).loaded = s.loaded := rfl
@[simp] theorem State.setStage_garnet (s : State) (p c : Nat) (m : Option MicaStage) : (s.setStage p c m).garnet = s.garnet := rfl
@[simp] theorem State.setStage_flint (s : State) (p c : Nat) (m : Option MicaStage) : (s.setStage p c m).flint = s.flint := rfl
@[simp] theorem State.setStage_queue (s : State) (p c : Nat) (m : Option MicaStage) : (s.setStage p c m).queue = s.queue := rfl
@[simp] theorem State.setStage_mover (s : State) (p c : Nat) (m : Option MicaStage) : (s.setStage p c m).mover = s.mover := rfl
@[simp] theorem State.setStage_disp (s : State) (p c : Nat) (m : Option MicaStage) : (s.setStage p c m).disp = s.disp := rfl
@[simp] theorem State.setStage_pc (s : State) (p c : Nat) (m : Option MicaStage) : (s.setStage p c m).pc = s.pc := rfl
@[simp] theorem State.setStage_chan (s : State) (p c : Nat) (m : Option MicaStage) : (s.setStage p c m).chan = s.chan := rfl
@[simp] theorem State.setStage_port (s : State) (p c : Nat) (m : Option MicaStage) : (s.setStage p c m).port = s.port := rfl
@[simp] theorem State.setStage_noUp (s : State) (p c : Nat) (m : Option MicaStage) : (s.setStage p c m).noUp = s.noUp := rfl
@[simp] theorem State.setStage_ctx (s : State) (p c : Nat) (m : Option MicaStage) : (s.setStage p c m).ctx = s.ctx := rfl
@[simp] theorem State.setStage_aux (s : State) (p c : Nat) (m : Option MicaStage) : (s.setStage p c m).aux = s.aux := rfl
@[simp] theorem State.setStage_park (s : State) (p c : Nat) (m : Option MicaStage) : (s.setStage p c m).park = s.park := rfl
@[simp] theorem State.setStage_colq (s : State) (p c : Nat) (m : Option MicaStage) : (s.setStage p c m).colq = s.colq := rfl
@[simp] theorem State.setStage_assay (s : State) (p c : Nat) (m : Option MicaStage) : (s.setStage p c m).assay = s.assay := rfl
@[simp] theorem State.setStage_strata (s : State) (p c : Nat) (m : Option MicaStage) : (s.setStage p c m).strata = s.strata := rfl
@[simp] theorem State.setStage_images (s : State) (p c : Nat) (m : Option MicaStage) : (s.setStage p c m).images = s.images := rfl
@[simp] theorem State.setStage_resets (s : State) (p c : Nat) (m : Option MicaStage) : (s.setStage p c m).resets = s.resets := rfl
@[simp] theorem State.setStage_ftest (s : State) (p c : Nat) (m : Option MicaStage) : (s.setStage p c m).ftest = s.ftest := rfl
@[simp] theorem State.setStage_member (s : State) (p c : Nat) (m : Option MicaStage) : (s.setStage p c m).member = s.member := rfl
@[simp] theorem State.setStage_tenancy (s : State) (p c : Nat) (m : Option MicaStage) : (s.setStage p c m).tenancy = s.tenancy := rfl
@[simp] theorem State.setStage_sess (s : State) (p c : Nat) (m : Option MicaStage) : (s.setStage p c m).sess = s.sess := rfl
@[simp] theorem State.setStage_host (s : State) (p c : Nat) (m : Option MicaStage) : (s.setStage p c m).host = s.host := rfl
@[simp] theorem State.setStage_handles (s : State) (p c : Nat) (m : Option MicaStage) : (s.setStage p c m).handles = s.handles := rfl
@[simp] theorem State.setStage_mkey (s : State) (p c : Nat) (m : Option MicaStage) : (s.setStage p c m).mkey = s.mkey := rfl
@[simp] theorem State.setStage_mreq (s : State) (p c : Nat) (m : Option MicaStage) : (s.setStage p c m).mreq = s.mreq := rfl
@[simp] theorem State.setStage_anonces (s : State) (p c : Nat) (m : Option MicaStage) : (s.setStage p c m).anonces = s.anonces := rfl
@[simp] theorem State.setStage_drbgReqs (s : State) (p c : Nat) (m : Option MicaStage) : (s.setStage p c m).drbgReqs = s.drbgReqs := rfl
@[simp] theorem State.setStage_recSeq (s : State) (p c : Nat) (m : Option MicaStage) : (s.setStage p c m).recSeq = s.recSeq := rfl
@[simp] theorem State.setStage_recPend (s : State) (p c : Nat) (m : Option MicaStage) : (s.setStage p c m).recPend = s.recPend := rfl
@[simp] theorem State.setStage_recFlush (s : State) (p c : Nat) (m : Option MicaStage) : (s.setStage p c m).recFlush = s.recFlush := rfl
@[simp] theorem State.setStage_suppressed (s : State) (p c : Nat) (m : Option MicaStage) : (s.setStage p c m).suppressed = s.suppressed := rfl
@[simp] theorem State.setStage_corrSeen (s : State) (p c : Nat) (m : Option MicaStage) : (s.setStage p c m).corrSeen = s.corrSeen := rfl
@[simp] theorem State.setStage_elog (s : State) (p c : Nat) (m : Option MicaStage) : (s.setStage p c m).elog = s.elog := rfl
@[simp] theorem State.setStage_events (s : State) (p c : Nat) (m : Option MicaStage) : (s.setStage p c m).events = s.events := rfl
@[simp] theorem State.setStage_pwrCycle (s : State) (p c : Nat) (m : Option MicaStage) : (s.setStage p c m).pwrCycle = s.pwrCycle := rfl
@[simp] theorem State.setStage_i3cAddr (s : State) (p c : Nat) (m : Option MicaStage) : (s.setStage p c m).i3cAddr = s.i3cAddr := rfl
@[simp] theorem State.setStage_mctpEid (s : State) (p c : Nat) (m : Option MicaStage) : (s.setStage p c m).mctpEid = s.mctpEid := rfl
@[simp] theorem State.setStage_rotUplink (s : State) (p c : Nat) (m : Option MicaStage) : (s.setStage p c m).rotUplink = s.rotUplink := rfl
@[simp] theorem State.setStage_summ (s : State) (p c : Nat) (m : Option MicaStage) : (s.setStage p c m).summ = s.summ := rfl
@[simp] theorem State.setStage_freeCtr (s : State) (p c : Nat) (m : Option MicaStage) : (s.setStage p c m).freeCtr = s.freeCtr := rfl
@[simp] theorem State.setStage_out (s : State) (p c : Nat) (m : Option MicaStage) : (s.setStage p c m).out = s.out := rfl

@[simp] theorem State.setLoaded_pending (s : State) (p c a : Nat) (l : Option Loaded) : (s.setLoaded p c a l).pending = s.pending := rfl
@[simp] theorem State.setLoaded_fuse (s : State) (p c a : Nat) (l : Option Loaded) : (s.setLoaded p c a l).fuse = s.fuse := rfl
@[simp] theorem State.setLoaded_cfg (s : State) (p c a : Nat) (l : Option Loaded) : (s.setLoaded p c a l).cfg = s.cfg := rfl
@[simp] theorem State.setLoaded_log (s : State) (p c a : Nat) (l : Option Loaded) : (s.setLoaded p c a l).log = s.log := rfl
@[simp] theorem State.setLoaded_flash (s : State) (p c a : Nat) (l : Option Loaded) : (s.setLoaded p c a l).flash = s.flash := rfl
@[simp] theorem State.setLoaded_boot (s : State) (p c a : Nat) (l : Option Loaded) : (s.setLoaded p c a l).boot = s.boot := rfl
@[simp] theorem State.setLoaded_power (s : State) (p c a : Nat) (l : Option Loaded) : (s.setLoaded p c a l).power = s.power := rfl
@[simp] theorem State.setLoaded_gov (s : State) (p c a : Nat) (l : Option Loaded) : (s.setLoaded p c a l).gov = s.gov := rfl
@[simp] theorem State.setLoaded_flds (s : State) (p c a : Nat) (l : Option Loaded) : (s.setLoaded p c a l).flds = s.flds := rfl
@[simp] theorem State.setLoaded_mem (s : State) (p c a : Nat) (l : Option Loaded) : (s.setLoaded p c a l).mem = s.mem := rfl
@[simp] theorem State.setLoaded_tileChk (s : State) (p c a : Nat) (l : Option Loaded) : (s.setLoaded p c a l).tileChk = s.tileChk := rfl
@[simp] theorem State.setLoaded_acc (s : State) (p c a : Nat) (l : Option Loaded) : (s.setLoaded p c a l).acc = s.acc := rfl
@[simp] theorem State.setLoaded_treg (s : State) (p c a : Nat) (l : Option Loaded) : (s.setLoaded p c a l).treg = s.treg := rfl
@[simp] theorem State.setLoaded_garnet (s : State) (p c a : Nat) (l : Option Loaded) : (s.setLoaded p c a l).garnet = s.garnet := rfl
@[simp] theorem State.setLoaded_stage (s : State) (p c a : Nat) (l : Option Loaded) : (s.setLoaded p c a l).stage = s.stage := rfl
@[simp] theorem State.setLoaded_flint (s : State) (p c a : Nat) (l : Option Loaded) : (s.setLoaded p c a l).flint = s.flint := rfl
@[simp] theorem State.setLoaded_queue (s : State) (p c a : Nat) (l : Option Loaded) : (s.setLoaded p c a l).queue = s.queue := rfl
@[simp] theorem State.setLoaded_mover (s : State) (p c a : Nat) (l : Option Loaded) : (s.setLoaded p c a l).mover = s.mover := rfl
@[simp] theorem State.setLoaded_disp (s : State) (p c a : Nat) (l : Option Loaded) : (s.setLoaded p c a l).disp = s.disp := rfl
@[simp] theorem State.setLoaded_pc (s : State) (p c a : Nat) (l : Option Loaded) : (s.setLoaded p c a l).pc = s.pc := rfl
@[simp] theorem State.setLoaded_chan (s : State) (p c a : Nat) (l : Option Loaded) : (s.setLoaded p c a l).chan = s.chan := rfl
@[simp] theorem State.setLoaded_port (s : State) (p c a : Nat) (l : Option Loaded) : (s.setLoaded p c a l).port = s.port := rfl
@[simp] theorem State.setLoaded_noUp (s : State) (p c a : Nat) (l : Option Loaded) : (s.setLoaded p c a l).noUp = s.noUp := rfl
@[simp] theorem State.setLoaded_ctx (s : State) (p c a : Nat) (l : Option Loaded) : (s.setLoaded p c a l).ctx = s.ctx := rfl
@[simp] theorem State.setLoaded_aux (s : State) (p c a : Nat) (l : Option Loaded) : (s.setLoaded p c a l).aux = s.aux := rfl
@[simp] theorem State.setLoaded_park (s : State) (p c a : Nat) (l : Option Loaded) : (s.setLoaded p c a l).park = s.park := rfl
@[simp] theorem State.setLoaded_colq (s : State) (p c a : Nat) (l : Option Loaded) : (s.setLoaded p c a l).colq = s.colq := rfl
@[simp] theorem State.setLoaded_assay (s : State) (p c a : Nat) (l : Option Loaded) : (s.setLoaded p c a l).assay = s.assay := rfl
@[simp] theorem State.setLoaded_strata (s : State) (p c a : Nat) (l : Option Loaded) : (s.setLoaded p c a l).strata = s.strata := rfl
@[simp] theorem State.setLoaded_images (s : State) (p c a : Nat) (l : Option Loaded) : (s.setLoaded p c a l).images = s.images := rfl
@[simp] theorem State.setLoaded_resets (s : State) (p c a : Nat) (l : Option Loaded) : (s.setLoaded p c a l).resets = s.resets := rfl
@[simp] theorem State.setLoaded_ftest (s : State) (p c a : Nat) (l : Option Loaded) : (s.setLoaded p c a l).ftest = s.ftest := rfl
@[simp] theorem State.setLoaded_member (s : State) (p c a : Nat) (l : Option Loaded) : (s.setLoaded p c a l).member = s.member := rfl
@[simp] theorem State.setLoaded_tenancy (s : State) (p c a : Nat) (l : Option Loaded) : (s.setLoaded p c a l).tenancy = s.tenancy := rfl
@[simp] theorem State.setLoaded_sess (s : State) (p c a : Nat) (l : Option Loaded) : (s.setLoaded p c a l).sess = s.sess := rfl
@[simp] theorem State.setLoaded_host (s : State) (p c a : Nat) (l : Option Loaded) : (s.setLoaded p c a l).host = s.host := rfl
@[simp] theorem State.setLoaded_handles (s : State) (p c a : Nat) (l : Option Loaded) : (s.setLoaded p c a l).handles = s.handles := rfl
@[simp] theorem State.setLoaded_mkey (s : State) (p c a : Nat) (l : Option Loaded) : (s.setLoaded p c a l).mkey = s.mkey := rfl
@[simp] theorem State.setLoaded_mreq (s : State) (p c a : Nat) (l : Option Loaded) : (s.setLoaded p c a l).mreq = s.mreq := rfl
@[simp] theorem State.setLoaded_anonces (s : State) (p c a : Nat) (l : Option Loaded) : (s.setLoaded p c a l).anonces = s.anonces := rfl
@[simp] theorem State.setLoaded_drbgReqs (s : State) (p c a : Nat) (l : Option Loaded) : (s.setLoaded p c a l).drbgReqs = s.drbgReqs := rfl
@[simp] theorem State.setLoaded_recSeq (s : State) (p c a : Nat) (l : Option Loaded) : (s.setLoaded p c a l).recSeq = s.recSeq := rfl
@[simp] theorem State.setLoaded_recPend (s : State) (p c a : Nat) (l : Option Loaded) : (s.setLoaded p c a l).recPend = s.recPend := rfl
@[simp] theorem State.setLoaded_recFlush (s : State) (p c a : Nat) (l : Option Loaded) : (s.setLoaded p c a l).recFlush = s.recFlush := rfl
@[simp] theorem State.setLoaded_suppressed (s : State) (p c a : Nat) (l : Option Loaded) : (s.setLoaded p c a l).suppressed = s.suppressed := rfl
@[simp] theorem State.setLoaded_corrSeen (s : State) (p c a : Nat) (l : Option Loaded) : (s.setLoaded p c a l).corrSeen = s.corrSeen := rfl
@[simp] theorem State.setLoaded_elog (s : State) (p c a : Nat) (l : Option Loaded) : (s.setLoaded p c a l).elog = s.elog := rfl
@[simp] theorem State.setLoaded_events (s : State) (p c a : Nat) (l : Option Loaded) : (s.setLoaded p c a l).events = s.events := rfl
@[simp] theorem State.setLoaded_pwrCycle (s : State) (p c a : Nat) (l : Option Loaded) : (s.setLoaded p c a l).pwrCycle = s.pwrCycle := rfl
@[simp] theorem State.setLoaded_i3cAddr (s : State) (p c a : Nat) (l : Option Loaded) : (s.setLoaded p c a l).i3cAddr = s.i3cAddr := rfl
@[simp] theorem State.setLoaded_mctpEid (s : State) (p c a : Nat) (l : Option Loaded) : (s.setLoaded p c a l).mctpEid = s.mctpEid := rfl
@[simp] theorem State.setLoaded_rotUplink (s : State) (p c a : Nat) (l : Option Loaded) : (s.setLoaded p c a l).rotUplink = s.rotUplink := rfl
@[simp] theorem State.setLoaded_summ (s : State) (p c a : Nat) (l : Option Loaded) : (s.setLoaded p c a l).summ = s.summ := rfl
@[simp] theorem State.setLoaded_freeCtr (s : State) (p c a : Nat) (l : Option Loaded) : (s.setLoaded p c a l).freeCtr = s.freeCtr := rfl
@[simp] theorem State.setLoaded_out (s : State) (p c a : Nat) (l : Option Loaded) : (s.setLoaded p c a l).out = s.out := rfl

@[simp] theorem State.setMover_pending (s : State) (p : Nat) (m : Mover) : (s.setMover p m).pending = s.pending := rfl
@[simp] theorem State.setMover_fuse (s : State) (p : Nat) (m : Mover) : (s.setMover p m).fuse = s.fuse := rfl
@[simp] theorem State.setMover_cfg (s : State) (p : Nat) (m : Mover) : (s.setMover p m).cfg = s.cfg := rfl
@[simp] theorem State.setMover_log (s : State) (p : Nat) (m : Mover) : (s.setMover p m).log = s.log := rfl
@[simp] theorem State.setMover_flash (s : State) (p : Nat) (m : Mover) : (s.setMover p m).flash = s.flash := rfl
@[simp] theorem State.setMover_boot (s : State) (p : Nat) (m : Mover) : (s.setMover p m).boot = s.boot := rfl
@[simp] theorem State.setMover_power (s : State) (p : Nat) (m : Mover) : (s.setMover p m).power = s.power := rfl
@[simp] theorem State.setMover_gov (s : State) (p : Nat) (m : Mover) : (s.setMover p m).gov = s.gov := rfl
@[simp] theorem State.setMover_flds (s : State) (p : Nat) (m : Mover) : (s.setMover p m).flds = s.flds := rfl
@[simp] theorem State.setMover_mem (s : State) (p : Nat) (m : Mover) : (s.setMover p m).mem = s.mem := rfl
@[simp] theorem State.setMover_tileChk (s : State) (p : Nat) (m : Mover) : (s.setMover p m).tileChk = s.tileChk := rfl
@[simp] theorem State.setMover_acc (s : State) (p : Nat) (m : Mover) : (s.setMover p m).acc = s.acc := rfl
@[simp] theorem State.setMover_treg (s : State) (p : Nat) (m : Mover) : (s.setMover p m).treg = s.treg := rfl
@[simp] theorem State.setMover_loaded (s : State) (p : Nat) (m : Mover) : (s.setMover p m).loaded = s.loaded := rfl
@[simp] theorem State.setMover_garnet (s : State) (p : Nat) (m : Mover) : (s.setMover p m).garnet = s.garnet := rfl
@[simp] theorem State.setMover_stage (s : State) (p : Nat) (m : Mover) : (s.setMover p m).stage = s.stage := rfl
@[simp] theorem State.setMover_flint (s : State) (p : Nat) (m : Mover) : (s.setMover p m).flint = s.flint := rfl
@[simp] theorem State.setMover_queue (s : State) (p : Nat) (m : Mover) : (s.setMover p m).queue = s.queue := rfl
@[simp] theorem State.setMover_disp (s : State) (p : Nat) (m : Mover) : (s.setMover p m).disp = s.disp := rfl
@[simp] theorem State.setMover_pc (s : State) (p : Nat) (m : Mover) : (s.setMover p m).pc = s.pc := rfl
@[simp] theorem State.setMover_chan (s : State) (p : Nat) (m : Mover) : (s.setMover p m).chan = s.chan := rfl
@[simp] theorem State.setMover_port (s : State) (p : Nat) (m : Mover) : (s.setMover p m).port = s.port := rfl
@[simp] theorem State.setMover_noUp (s : State) (p : Nat) (m : Mover) : (s.setMover p m).noUp = s.noUp := rfl
@[simp] theorem State.setMover_ctx (s : State) (p : Nat) (m : Mover) : (s.setMover p m).ctx = s.ctx := rfl
@[simp] theorem State.setMover_aux (s : State) (p : Nat) (m : Mover) : (s.setMover p m).aux = s.aux := rfl
@[simp] theorem State.setMover_park (s : State) (p : Nat) (m : Mover) : (s.setMover p m).park = s.park := rfl
@[simp] theorem State.setMover_colq (s : State) (p : Nat) (m : Mover) : (s.setMover p m).colq = s.colq := rfl
@[simp] theorem State.setMover_assay (s : State) (p : Nat) (m : Mover) : (s.setMover p m).assay = s.assay := rfl
@[simp] theorem State.setMover_strata (s : State) (p : Nat) (m : Mover) : (s.setMover p m).strata = s.strata := rfl
@[simp] theorem State.setMover_images (s : State) (p : Nat) (m : Mover) : (s.setMover p m).images = s.images := rfl
@[simp] theorem State.setMover_resets (s : State) (p : Nat) (m : Mover) : (s.setMover p m).resets = s.resets := rfl
@[simp] theorem State.setMover_ftest (s : State) (p : Nat) (m : Mover) : (s.setMover p m).ftest = s.ftest := rfl
@[simp] theorem State.setMover_member (s : State) (p : Nat) (m : Mover) : (s.setMover p m).member = s.member := rfl
@[simp] theorem State.setMover_tenancy (s : State) (p : Nat) (m : Mover) : (s.setMover p m).tenancy = s.tenancy := rfl
@[simp] theorem State.setMover_sess (s : State) (p : Nat) (m : Mover) : (s.setMover p m).sess = s.sess := rfl
@[simp] theorem State.setMover_host (s : State) (p : Nat) (m : Mover) : (s.setMover p m).host = s.host := rfl
@[simp] theorem State.setMover_handles (s : State) (p : Nat) (m : Mover) : (s.setMover p m).handles = s.handles := rfl
@[simp] theorem State.setMover_mkey (s : State) (p : Nat) (m : Mover) : (s.setMover p m).mkey = s.mkey := rfl
@[simp] theorem State.setMover_mreq (s : State) (p : Nat) (m : Mover) : (s.setMover p m).mreq = s.mreq := rfl
@[simp] theorem State.setMover_anonces (s : State) (p : Nat) (m : Mover) : (s.setMover p m).anonces = s.anonces := rfl
@[simp] theorem State.setMover_drbgReqs (s : State) (p : Nat) (m : Mover) : (s.setMover p m).drbgReqs = s.drbgReqs := rfl
@[simp] theorem State.setMover_recSeq (s : State) (p : Nat) (m : Mover) : (s.setMover p m).recSeq = s.recSeq := rfl
@[simp] theorem State.setMover_recPend (s : State) (p : Nat) (m : Mover) : (s.setMover p m).recPend = s.recPend := rfl
@[simp] theorem State.setMover_recFlush (s : State) (p : Nat) (m : Mover) : (s.setMover p m).recFlush = s.recFlush := rfl
@[simp] theorem State.setMover_suppressed (s : State) (p : Nat) (m : Mover) : (s.setMover p m).suppressed = s.suppressed := rfl
@[simp] theorem State.setMover_corrSeen (s : State) (p : Nat) (m : Mover) : (s.setMover p m).corrSeen = s.corrSeen := rfl
@[simp] theorem State.setMover_elog (s : State) (p : Nat) (m : Mover) : (s.setMover p m).elog = s.elog := rfl
@[simp] theorem State.setMover_events (s : State) (p : Nat) (m : Mover) : (s.setMover p m).events = s.events := rfl
@[simp] theorem State.setMover_pwrCycle (s : State) (p : Nat) (m : Mover) : (s.setMover p m).pwrCycle = s.pwrCycle := rfl
@[simp] theorem State.setMover_i3cAddr (s : State) (p : Nat) (m : Mover) : (s.setMover p m).i3cAddr = s.i3cAddr := rfl
@[simp] theorem State.setMover_mctpEid (s : State) (p : Nat) (m : Mover) : (s.setMover p m).mctpEid = s.mctpEid := rfl
@[simp] theorem State.setMover_rotUplink (s : State) (p : Nat) (m : Mover) : (s.setMover p m).rotUplink = s.rotUplink := rfl
@[simp] theorem State.setMover_summ (s : State) (p : Nat) (m : Mover) : (s.setMover p m).summ = s.summ := rfl
@[simp] theorem State.setMover_freeCtr (s : State) (p : Nat) (m : Mover) : (s.setMover p m).freeCtr = s.freeCtr := rfl
@[simp] theorem State.setMover_out (s : State) (p : Nat) (m : Mover) : (s.setMover p m).out = s.out := rfl

@[simp] theorem State.setDisp_pending (s : State) (p : Nat) (d : Dispatch) : (s.setDisp p d).pending = s.pending := rfl
@[simp] theorem State.setDisp_fuse (s : State) (p : Nat) (d : Dispatch) : (s.setDisp p d).fuse = s.fuse := rfl
@[simp] theorem State.setDisp_cfg (s : State) (p : Nat) (d : Dispatch) : (s.setDisp p d).cfg = s.cfg := rfl
@[simp] theorem State.setDisp_log (s : State) (p : Nat) (d : Dispatch) : (s.setDisp p d).log = s.log := rfl
@[simp] theorem State.setDisp_flash (s : State) (p : Nat) (d : Dispatch) : (s.setDisp p d).flash = s.flash := rfl
@[simp] theorem State.setDisp_boot (s : State) (p : Nat) (d : Dispatch) : (s.setDisp p d).boot = s.boot := rfl
@[simp] theorem State.setDisp_power (s : State) (p : Nat) (d : Dispatch) : (s.setDisp p d).power = s.power := rfl
@[simp] theorem State.setDisp_gov (s : State) (p : Nat) (d : Dispatch) : (s.setDisp p d).gov = s.gov := rfl
@[simp] theorem State.setDisp_flds (s : State) (p : Nat) (d : Dispatch) : (s.setDisp p d).flds = s.flds := rfl
@[simp] theorem State.setDisp_mem (s : State) (p : Nat) (d : Dispatch) : (s.setDisp p d).mem = s.mem := rfl
@[simp] theorem State.setDisp_tileChk (s : State) (p : Nat) (d : Dispatch) : (s.setDisp p d).tileChk = s.tileChk := rfl
@[simp] theorem State.setDisp_acc (s : State) (p : Nat) (d : Dispatch) : (s.setDisp p d).acc = s.acc := rfl
@[simp] theorem State.setDisp_treg (s : State) (p : Nat) (d : Dispatch) : (s.setDisp p d).treg = s.treg := rfl
@[simp] theorem State.setDisp_loaded (s : State) (p : Nat) (d : Dispatch) : (s.setDisp p d).loaded = s.loaded := rfl
@[simp] theorem State.setDisp_garnet (s : State) (p : Nat) (d : Dispatch) : (s.setDisp p d).garnet = s.garnet := rfl
@[simp] theorem State.setDisp_stage (s : State) (p : Nat) (d : Dispatch) : (s.setDisp p d).stage = s.stage := rfl
@[simp] theorem State.setDisp_flint (s : State) (p : Nat) (d : Dispatch) : (s.setDisp p d).flint = s.flint := rfl
@[simp] theorem State.setDisp_queue (s : State) (p : Nat) (d : Dispatch) : (s.setDisp p d).queue = s.queue := rfl
@[simp] theorem State.setDisp_mover (s : State) (p : Nat) (d : Dispatch) : (s.setDisp p d).mover = s.mover := rfl
@[simp] theorem State.setDisp_pc (s : State) (p : Nat) (d : Dispatch) : (s.setDisp p d).pc = s.pc := rfl
@[simp] theorem State.setDisp_chan (s : State) (p : Nat) (d : Dispatch) : (s.setDisp p d).chan = s.chan := rfl
@[simp] theorem State.setDisp_port (s : State) (p : Nat) (d : Dispatch) : (s.setDisp p d).port = s.port := rfl
@[simp] theorem State.setDisp_noUp (s : State) (p : Nat) (d : Dispatch) : (s.setDisp p d).noUp = s.noUp := rfl
@[simp] theorem State.setDisp_ctx (s : State) (p : Nat) (d : Dispatch) : (s.setDisp p d).ctx = s.ctx := rfl
@[simp] theorem State.setDisp_aux (s : State) (p : Nat) (d : Dispatch) : (s.setDisp p d).aux = s.aux := rfl
@[simp] theorem State.setDisp_park (s : State) (p : Nat) (d : Dispatch) : (s.setDisp p d).park = s.park := rfl
@[simp] theorem State.setDisp_colq (s : State) (p : Nat) (d : Dispatch) : (s.setDisp p d).colq = s.colq := rfl
@[simp] theorem State.setDisp_assay (s : State) (p : Nat) (d : Dispatch) : (s.setDisp p d).assay = s.assay := rfl
@[simp] theorem State.setDisp_strata (s : State) (p : Nat) (d : Dispatch) : (s.setDisp p d).strata = s.strata := rfl
@[simp] theorem State.setDisp_images (s : State) (p : Nat) (d : Dispatch) : (s.setDisp p d).images = s.images := rfl
@[simp] theorem State.setDisp_resets (s : State) (p : Nat) (d : Dispatch) : (s.setDisp p d).resets = s.resets := rfl
@[simp] theorem State.setDisp_ftest (s : State) (p : Nat) (d : Dispatch) : (s.setDisp p d).ftest = s.ftest := rfl
@[simp] theorem State.setDisp_member (s : State) (p : Nat) (d : Dispatch) : (s.setDisp p d).member = s.member := rfl
@[simp] theorem State.setDisp_tenancy (s : State) (p : Nat) (d : Dispatch) : (s.setDisp p d).tenancy = s.tenancy := rfl
@[simp] theorem State.setDisp_sess (s : State) (p : Nat) (d : Dispatch) : (s.setDisp p d).sess = s.sess := rfl
@[simp] theorem State.setDisp_host (s : State) (p : Nat) (d : Dispatch) : (s.setDisp p d).host = s.host := rfl
@[simp] theorem State.setDisp_handles (s : State) (p : Nat) (d : Dispatch) : (s.setDisp p d).handles = s.handles := rfl
@[simp] theorem State.setDisp_mkey (s : State) (p : Nat) (d : Dispatch) : (s.setDisp p d).mkey = s.mkey := rfl
@[simp] theorem State.setDisp_mreq (s : State) (p : Nat) (d : Dispatch) : (s.setDisp p d).mreq = s.mreq := rfl
@[simp] theorem State.setDisp_anonces (s : State) (p : Nat) (d : Dispatch) : (s.setDisp p d).anonces = s.anonces := rfl
@[simp] theorem State.setDisp_drbgReqs (s : State) (p : Nat) (d : Dispatch) : (s.setDisp p d).drbgReqs = s.drbgReqs := rfl
@[simp] theorem State.setDisp_recSeq (s : State) (p : Nat) (d : Dispatch) : (s.setDisp p d).recSeq = s.recSeq := rfl
@[simp] theorem State.setDisp_recPend (s : State) (p : Nat) (d : Dispatch) : (s.setDisp p d).recPend = s.recPend := rfl
@[simp] theorem State.setDisp_recFlush (s : State) (p : Nat) (d : Dispatch) : (s.setDisp p d).recFlush = s.recFlush := rfl
@[simp] theorem State.setDisp_suppressed (s : State) (p : Nat) (d : Dispatch) : (s.setDisp p d).suppressed = s.suppressed := rfl
@[simp] theorem State.setDisp_corrSeen (s : State) (p : Nat) (d : Dispatch) : (s.setDisp p d).corrSeen = s.corrSeen := rfl
@[simp] theorem State.setDisp_elog (s : State) (p : Nat) (d : Dispatch) : (s.setDisp p d).elog = s.elog := rfl
@[simp] theorem State.setDisp_events (s : State) (p : Nat) (d : Dispatch) : (s.setDisp p d).events = s.events := rfl
@[simp] theorem State.setDisp_pwrCycle (s : State) (p : Nat) (d : Dispatch) : (s.setDisp p d).pwrCycle = s.pwrCycle := rfl
@[simp] theorem State.setDisp_i3cAddr (s : State) (p : Nat) (d : Dispatch) : (s.setDisp p d).i3cAddr = s.i3cAddr := rfl
@[simp] theorem State.setDisp_mctpEid (s : State) (p : Nat) (d : Dispatch) : (s.setDisp p d).mctpEid = s.mctpEid := rfl
@[simp] theorem State.setDisp_rotUplink (s : State) (p : Nat) (d : Dispatch) : (s.setDisp p d).rotUplink = s.rotUplink := rfl
@[simp] theorem State.setDisp_summ (s : State) (p : Nat) (d : Dispatch) : (s.setDisp p d).summ = s.summ := rfl
@[simp] theorem State.setDisp_freeCtr (s : State) (p : Nat) (d : Dispatch) : (s.setDisp p d).freeCtr = s.freeCtr := rfl
@[simp] theorem State.setDisp_out (s : State) (p : Nat) (d : Dispatch) : (s.setDisp p d).out = s.out := rfl

@[simp] theorem State.setPc_pending (s : State) (p i : Nat) (x : PseudoChan) : (s.setPc p i x).pending = s.pending := rfl
@[simp] theorem State.setPc_fuse (s : State) (p i : Nat) (x : PseudoChan) : (s.setPc p i x).fuse = s.fuse := rfl
@[simp] theorem State.setPc_cfg (s : State) (p i : Nat) (x : PseudoChan) : (s.setPc p i x).cfg = s.cfg := rfl
@[simp] theorem State.setPc_log (s : State) (p i : Nat) (x : PseudoChan) : (s.setPc p i x).log = s.log := rfl
@[simp] theorem State.setPc_flash (s : State) (p i : Nat) (x : PseudoChan) : (s.setPc p i x).flash = s.flash := rfl
@[simp] theorem State.setPc_boot (s : State) (p i : Nat) (x : PseudoChan) : (s.setPc p i x).boot = s.boot := rfl
@[simp] theorem State.setPc_power (s : State) (p i : Nat) (x : PseudoChan) : (s.setPc p i x).power = s.power := rfl
@[simp] theorem State.setPc_gov (s : State) (p i : Nat) (x : PseudoChan) : (s.setPc p i x).gov = s.gov := rfl
@[simp] theorem State.setPc_flds (s : State) (p i : Nat) (x : PseudoChan) : (s.setPc p i x).flds = s.flds := rfl
@[simp] theorem State.setPc_mem (s : State) (p i : Nat) (x : PseudoChan) : (s.setPc p i x).mem = s.mem := rfl
@[simp] theorem State.setPc_tileChk (s : State) (p i : Nat) (x : PseudoChan) : (s.setPc p i x).tileChk = s.tileChk := rfl
@[simp] theorem State.setPc_acc (s : State) (p i : Nat) (x : PseudoChan) : (s.setPc p i x).acc = s.acc := rfl
@[simp] theorem State.setPc_treg (s : State) (p i : Nat) (x : PseudoChan) : (s.setPc p i x).treg = s.treg := rfl
@[simp] theorem State.setPc_loaded (s : State) (p i : Nat) (x : PseudoChan) : (s.setPc p i x).loaded = s.loaded := rfl
@[simp] theorem State.setPc_garnet (s : State) (p i : Nat) (x : PseudoChan) : (s.setPc p i x).garnet = s.garnet := rfl
@[simp] theorem State.setPc_stage (s : State) (p i : Nat) (x : PseudoChan) : (s.setPc p i x).stage = s.stage := rfl
@[simp] theorem State.setPc_flint (s : State) (p i : Nat) (x : PseudoChan) : (s.setPc p i x).flint = s.flint := rfl
@[simp] theorem State.setPc_queue (s : State) (p i : Nat) (x : PseudoChan) : (s.setPc p i x).queue = s.queue := rfl
@[simp] theorem State.setPc_mover (s : State) (p i : Nat) (x : PseudoChan) : (s.setPc p i x).mover = s.mover := rfl
@[simp] theorem State.setPc_disp (s : State) (p i : Nat) (x : PseudoChan) : (s.setPc p i x).disp = s.disp := rfl
@[simp] theorem State.setPc_chan (s : State) (p i : Nat) (x : PseudoChan) : (s.setPc p i x).chan = s.chan := rfl
@[simp] theorem State.setPc_port (s : State) (p i : Nat) (x : PseudoChan) : (s.setPc p i x).port = s.port := rfl
@[simp] theorem State.setPc_noUp (s : State) (p i : Nat) (x : PseudoChan) : (s.setPc p i x).noUp = s.noUp := rfl
@[simp] theorem State.setPc_ctx (s : State) (p i : Nat) (x : PseudoChan) : (s.setPc p i x).ctx = s.ctx := rfl
@[simp] theorem State.setPc_aux (s : State) (p i : Nat) (x : PseudoChan) : (s.setPc p i x).aux = s.aux := rfl
@[simp] theorem State.setPc_park (s : State) (p i : Nat) (x : PseudoChan) : (s.setPc p i x).park = s.park := rfl
@[simp] theorem State.setPc_colq (s : State) (p i : Nat) (x : PseudoChan) : (s.setPc p i x).colq = s.colq := rfl
@[simp] theorem State.setPc_assay (s : State) (p i : Nat) (x : PseudoChan) : (s.setPc p i x).assay = s.assay := rfl
@[simp] theorem State.setPc_strata (s : State) (p i : Nat) (x : PseudoChan) : (s.setPc p i x).strata = s.strata := rfl
@[simp] theorem State.setPc_images (s : State) (p i : Nat) (x : PseudoChan) : (s.setPc p i x).images = s.images := rfl
@[simp] theorem State.setPc_resets (s : State) (p i : Nat) (x : PseudoChan) : (s.setPc p i x).resets = s.resets := rfl
@[simp] theorem State.setPc_ftest (s : State) (p i : Nat) (x : PseudoChan) : (s.setPc p i x).ftest = s.ftest := rfl
@[simp] theorem State.setPc_member (s : State) (p i : Nat) (x : PseudoChan) : (s.setPc p i x).member = s.member := rfl
@[simp] theorem State.setPc_tenancy (s : State) (p i : Nat) (x : PseudoChan) : (s.setPc p i x).tenancy = s.tenancy := rfl
@[simp] theorem State.setPc_sess (s : State) (p i : Nat) (x : PseudoChan) : (s.setPc p i x).sess = s.sess := rfl
@[simp] theorem State.setPc_host (s : State) (p i : Nat) (x : PseudoChan) : (s.setPc p i x).host = s.host := rfl
@[simp] theorem State.setPc_handles (s : State) (p i : Nat) (x : PseudoChan) : (s.setPc p i x).handles = s.handles := rfl
@[simp] theorem State.setPc_mkey (s : State) (p i : Nat) (x : PseudoChan) : (s.setPc p i x).mkey = s.mkey := rfl
@[simp] theorem State.setPc_mreq (s : State) (p i : Nat) (x : PseudoChan) : (s.setPc p i x).mreq = s.mreq := rfl
@[simp] theorem State.setPc_anonces (s : State) (p i : Nat) (x : PseudoChan) : (s.setPc p i x).anonces = s.anonces := rfl
@[simp] theorem State.setPc_drbgReqs (s : State) (p i : Nat) (x : PseudoChan) : (s.setPc p i x).drbgReqs = s.drbgReqs := rfl
@[simp] theorem State.setPc_recSeq (s : State) (p i : Nat) (x : PseudoChan) : (s.setPc p i x).recSeq = s.recSeq := rfl
@[simp] theorem State.setPc_recPend (s : State) (p i : Nat) (x : PseudoChan) : (s.setPc p i x).recPend = s.recPend := rfl
@[simp] theorem State.setPc_recFlush (s : State) (p i : Nat) (x : PseudoChan) : (s.setPc p i x).recFlush = s.recFlush := rfl
@[simp] theorem State.setPc_suppressed (s : State) (p i : Nat) (x : PseudoChan) : (s.setPc p i x).suppressed = s.suppressed := rfl
@[simp] theorem State.setPc_corrSeen (s : State) (p i : Nat) (x : PseudoChan) : (s.setPc p i x).corrSeen = s.corrSeen := rfl
@[simp] theorem State.setPc_elog (s : State) (p i : Nat) (x : PseudoChan) : (s.setPc p i x).elog = s.elog := rfl
@[simp] theorem State.setPc_events (s : State) (p i : Nat) (x : PseudoChan) : (s.setPc p i x).events = s.events := rfl
@[simp] theorem State.setPc_pwrCycle (s : State) (p i : Nat) (x : PseudoChan) : (s.setPc p i x).pwrCycle = s.pwrCycle := rfl
@[simp] theorem State.setPc_i3cAddr (s : State) (p i : Nat) (x : PseudoChan) : (s.setPc p i x).i3cAddr = s.i3cAddr := rfl
@[simp] theorem State.setPc_mctpEid (s : State) (p i : Nat) (x : PseudoChan) : (s.setPc p i x).mctpEid = s.mctpEid := rfl
@[simp] theorem State.setPc_rotUplink (s : State) (p i : Nat) (x : PseudoChan) : (s.setPc p i x).rotUplink = s.rotUplink := rfl
@[simp] theorem State.setPc_summ (s : State) (p i : Nat) (x : PseudoChan) : (s.setPc p i x).summ = s.summ := rfl
@[simp] theorem State.setPc_freeCtr (s : State) (p i : Nat) (x : PseudoChan) : (s.setPc p i x).freeCtr = s.freeCtr := rfl
@[simp] theorem State.setPc_out (s : State) (p i : Nat) (x : PseudoChan) : (s.setPc p i x).out = s.out := rfl

@[simp] theorem State.setChan_pending (s : State) (st ch : Nat) (x : Channel) : (s.setChan st ch x).pending = s.pending := rfl
@[simp] theorem State.setChan_fuse (s : State) (st ch : Nat) (x : Channel) : (s.setChan st ch x).fuse = s.fuse := rfl
@[simp] theorem State.setChan_cfg (s : State) (st ch : Nat) (x : Channel) : (s.setChan st ch x).cfg = s.cfg := rfl
@[simp] theorem State.setChan_log (s : State) (st ch : Nat) (x : Channel) : (s.setChan st ch x).log = s.log := rfl
@[simp] theorem State.setChan_flash (s : State) (st ch : Nat) (x : Channel) : (s.setChan st ch x).flash = s.flash := rfl
@[simp] theorem State.setChan_boot (s : State) (st ch : Nat) (x : Channel) : (s.setChan st ch x).boot = s.boot := rfl
@[simp] theorem State.setChan_power (s : State) (st ch : Nat) (x : Channel) : (s.setChan st ch x).power = s.power := rfl
@[simp] theorem State.setChan_gov (s : State) (st ch : Nat) (x : Channel) : (s.setChan st ch x).gov = s.gov := rfl
@[simp] theorem State.setChan_flds (s : State) (st ch : Nat) (x : Channel) : (s.setChan st ch x).flds = s.flds := rfl
@[simp] theorem State.setChan_mem (s : State) (st ch : Nat) (x : Channel) : (s.setChan st ch x).mem = s.mem := rfl
@[simp] theorem State.setChan_tileChk (s : State) (st ch : Nat) (x : Channel) : (s.setChan st ch x).tileChk = s.tileChk := rfl
@[simp] theorem State.setChan_acc (s : State) (st ch : Nat) (x : Channel) : (s.setChan st ch x).acc = s.acc := rfl
@[simp] theorem State.setChan_treg (s : State) (st ch : Nat) (x : Channel) : (s.setChan st ch x).treg = s.treg := rfl
@[simp] theorem State.setChan_loaded (s : State) (st ch : Nat) (x : Channel) : (s.setChan st ch x).loaded = s.loaded := rfl
@[simp] theorem State.setChan_garnet (s : State) (st ch : Nat) (x : Channel) : (s.setChan st ch x).garnet = s.garnet := rfl
@[simp] theorem State.setChan_stage (s : State) (st ch : Nat) (x : Channel) : (s.setChan st ch x).stage = s.stage := rfl
@[simp] theorem State.setChan_flint (s : State) (st ch : Nat) (x : Channel) : (s.setChan st ch x).flint = s.flint := rfl
@[simp] theorem State.setChan_queue (s : State) (st ch : Nat) (x : Channel) : (s.setChan st ch x).queue = s.queue := rfl
@[simp] theorem State.setChan_mover (s : State) (st ch : Nat) (x : Channel) : (s.setChan st ch x).mover = s.mover := rfl
@[simp] theorem State.setChan_disp (s : State) (st ch : Nat) (x : Channel) : (s.setChan st ch x).disp = s.disp := rfl
@[simp] theorem State.setChan_pc (s : State) (st ch : Nat) (x : Channel) : (s.setChan st ch x).pc = s.pc := rfl
@[simp] theorem State.setChan_port (s : State) (st ch : Nat) (x : Channel) : (s.setChan st ch x).port = s.port := rfl
@[simp] theorem State.setChan_noUp (s : State) (st ch : Nat) (x : Channel) : (s.setChan st ch x).noUp = s.noUp := rfl
@[simp] theorem State.setChan_ctx (s : State) (st ch : Nat) (x : Channel) : (s.setChan st ch x).ctx = s.ctx := rfl
@[simp] theorem State.setChan_aux (s : State) (st ch : Nat) (x : Channel) : (s.setChan st ch x).aux = s.aux := rfl
@[simp] theorem State.setChan_park (s : State) (st ch : Nat) (x : Channel) : (s.setChan st ch x).park = s.park := rfl
@[simp] theorem State.setChan_colq (s : State) (st ch : Nat) (x : Channel) : (s.setChan st ch x).colq = s.colq := rfl
@[simp] theorem State.setChan_assay (s : State) (st ch : Nat) (x : Channel) : (s.setChan st ch x).assay = s.assay := rfl
@[simp] theorem State.setChan_strata (s : State) (st ch : Nat) (x : Channel) : (s.setChan st ch x).strata = s.strata := rfl
@[simp] theorem State.setChan_images (s : State) (st ch : Nat) (x : Channel) : (s.setChan st ch x).images = s.images := rfl
@[simp] theorem State.setChan_resets (s : State) (st ch : Nat) (x : Channel) : (s.setChan st ch x).resets = s.resets := rfl
@[simp] theorem State.setChan_ftest (s : State) (st ch : Nat) (x : Channel) : (s.setChan st ch x).ftest = s.ftest := rfl
@[simp] theorem State.setChan_member (s : State) (st ch : Nat) (x : Channel) : (s.setChan st ch x).member = s.member := rfl
@[simp] theorem State.setChan_tenancy (s : State) (st ch : Nat) (x : Channel) : (s.setChan st ch x).tenancy = s.tenancy := rfl
@[simp] theorem State.setChan_sess (s : State) (st ch : Nat) (x : Channel) : (s.setChan st ch x).sess = s.sess := rfl
@[simp] theorem State.setChan_host (s : State) (st ch : Nat) (x : Channel) : (s.setChan st ch x).host = s.host := rfl
@[simp] theorem State.setChan_handles (s : State) (st ch : Nat) (x : Channel) : (s.setChan st ch x).handles = s.handles := rfl
@[simp] theorem State.setChan_mkey (s : State) (st ch : Nat) (x : Channel) : (s.setChan st ch x).mkey = s.mkey := rfl
@[simp] theorem State.setChan_mreq (s : State) (st ch : Nat) (x : Channel) : (s.setChan st ch x).mreq = s.mreq := rfl
@[simp] theorem State.setChan_anonces (s : State) (st ch : Nat) (x : Channel) : (s.setChan st ch x).anonces = s.anonces := rfl
@[simp] theorem State.setChan_drbgReqs (s : State) (st ch : Nat) (x : Channel) : (s.setChan st ch x).drbgReqs = s.drbgReqs := rfl
@[simp] theorem State.setChan_recSeq (s : State) (st ch : Nat) (x : Channel) : (s.setChan st ch x).recSeq = s.recSeq := rfl
@[simp] theorem State.setChan_recPend (s : State) (st ch : Nat) (x : Channel) : (s.setChan st ch x).recPend = s.recPend := rfl
@[simp] theorem State.setChan_recFlush (s : State) (st ch : Nat) (x : Channel) : (s.setChan st ch x).recFlush = s.recFlush := rfl
@[simp] theorem State.setChan_suppressed (s : State) (st ch : Nat) (x : Channel) : (s.setChan st ch x).suppressed = s.suppressed := rfl
@[simp] theorem State.setChan_corrSeen (s : State) (st ch : Nat) (x : Channel) : (s.setChan st ch x).corrSeen = s.corrSeen := rfl
@[simp] theorem State.setChan_elog (s : State) (st ch : Nat) (x : Channel) : (s.setChan st ch x).elog = s.elog := rfl
@[simp] theorem State.setChan_events (s : State) (st ch : Nat) (x : Channel) : (s.setChan st ch x).events = s.events := rfl
@[simp] theorem State.setChan_pwrCycle (s : State) (st ch : Nat) (x : Channel) : (s.setChan st ch x).pwrCycle = s.pwrCycle := rfl
@[simp] theorem State.setChan_i3cAddr (s : State) (st ch : Nat) (x : Channel) : (s.setChan st ch x).i3cAddr = s.i3cAddr := rfl
@[simp] theorem State.setChan_mctpEid (s : State) (st ch : Nat) (x : Channel) : (s.setChan st ch x).mctpEid = s.mctpEid := rfl
@[simp] theorem State.setChan_rotUplink (s : State) (st ch : Nat) (x : Channel) : (s.setChan st ch x).rotUplink = s.rotUplink := rfl
@[simp] theorem State.setChan_summ (s : State) (st ch : Nat) (x : Channel) : (s.setChan st ch x).summ = s.summ := rfl
@[simp] theorem State.setChan_freeCtr (s : State) (st ch : Nat) (x : Channel) : (s.setChan st ch x).freeCtr = s.freeCtr := rfl
@[simp] theorem State.setChan_out (s : State) (st ch : Nat) (x : Channel) : (s.setChan st ch x).out = s.out := rfl

@[simp] theorem State.setPort_pending (s : State) (i : Nat) (x : Port) : (s.setPort i x).pending = s.pending := rfl
@[simp] theorem State.setPort_fuse (s : State) (i : Nat) (x : Port) : (s.setPort i x).fuse = s.fuse := rfl
@[simp] theorem State.setPort_cfg (s : State) (i : Nat) (x : Port) : (s.setPort i x).cfg = s.cfg := rfl
@[simp] theorem State.setPort_log (s : State) (i : Nat) (x : Port) : (s.setPort i x).log = s.log := rfl
@[simp] theorem State.setPort_flash (s : State) (i : Nat) (x : Port) : (s.setPort i x).flash = s.flash := rfl
@[simp] theorem State.setPort_boot (s : State) (i : Nat) (x : Port) : (s.setPort i x).boot = s.boot := rfl
@[simp] theorem State.setPort_power (s : State) (i : Nat) (x : Port) : (s.setPort i x).power = s.power := rfl
@[simp] theorem State.setPort_gov (s : State) (i : Nat) (x : Port) : (s.setPort i x).gov = s.gov := rfl
@[simp] theorem State.setPort_flds (s : State) (i : Nat) (x : Port) : (s.setPort i x).flds = s.flds := rfl
@[simp] theorem State.setPort_mem (s : State) (i : Nat) (x : Port) : (s.setPort i x).mem = s.mem := rfl
@[simp] theorem State.setPort_tileChk (s : State) (i : Nat) (x : Port) : (s.setPort i x).tileChk = s.tileChk := rfl
@[simp] theorem State.setPort_acc (s : State) (i : Nat) (x : Port) : (s.setPort i x).acc = s.acc := rfl
@[simp] theorem State.setPort_treg (s : State) (i : Nat) (x : Port) : (s.setPort i x).treg = s.treg := rfl
@[simp] theorem State.setPort_loaded (s : State) (i : Nat) (x : Port) : (s.setPort i x).loaded = s.loaded := rfl
@[simp] theorem State.setPort_garnet (s : State) (i : Nat) (x : Port) : (s.setPort i x).garnet = s.garnet := rfl
@[simp] theorem State.setPort_stage (s : State) (i : Nat) (x : Port) : (s.setPort i x).stage = s.stage := rfl
@[simp] theorem State.setPort_flint (s : State) (i : Nat) (x : Port) : (s.setPort i x).flint = s.flint := rfl
@[simp] theorem State.setPort_queue (s : State) (i : Nat) (x : Port) : (s.setPort i x).queue = s.queue := rfl
@[simp] theorem State.setPort_mover (s : State) (i : Nat) (x : Port) : (s.setPort i x).mover = s.mover := rfl
@[simp] theorem State.setPort_disp (s : State) (i : Nat) (x : Port) : (s.setPort i x).disp = s.disp := rfl
@[simp] theorem State.setPort_pc (s : State) (i : Nat) (x : Port) : (s.setPort i x).pc = s.pc := rfl
@[simp] theorem State.setPort_chan (s : State) (i : Nat) (x : Port) : (s.setPort i x).chan = s.chan := rfl
@[simp] theorem State.setPort_noUp (s : State) (i : Nat) (x : Port) : (s.setPort i x).noUp = s.noUp := rfl
@[simp] theorem State.setPort_ctx (s : State) (i : Nat) (x : Port) : (s.setPort i x).ctx = s.ctx := rfl
@[simp] theorem State.setPort_aux (s : State) (i : Nat) (x : Port) : (s.setPort i x).aux = s.aux := rfl
@[simp] theorem State.setPort_park (s : State) (i : Nat) (x : Port) : (s.setPort i x).park = s.park := rfl
@[simp] theorem State.setPort_colq (s : State) (i : Nat) (x : Port) : (s.setPort i x).colq = s.colq := rfl
@[simp] theorem State.setPort_assay (s : State) (i : Nat) (x : Port) : (s.setPort i x).assay = s.assay := rfl
@[simp] theorem State.setPort_strata (s : State) (i : Nat) (x : Port) : (s.setPort i x).strata = s.strata := rfl
@[simp] theorem State.setPort_images (s : State) (i : Nat) (x : Port) : (s.setPort i x).images = s.images := rfl
@[simp] theorem State.setPort_resets (s : State) (i : Nat) (x : Port) : (s.setPort i x).resets = s.resets := rfl
@[simp] theorem State.setPort_ftest (s : State) (i : Nat) (x : Port) : (s.setPort i x).ftest = s.ftest := rfl
@[simp] theorem State.setPort_member (s : State) (i : Nat) (x : Port) : (s.setPort i x).member = s.member := rfl
@[simp] theorem State.setPort_tenancy (s : State) (i : Nat) (x : Port) : (s.setPort i x).tenancy = s.tenancy := rfl
@[simp] theorem State.setPort_sess (s : State) (i : Nat) (x : Port) : (s.setPort i x).sess = s.sess := rfl
@[simp] theorem State.setPort_host (s : State) (i : Nat) (x : Port) : (s.setPort i x).host = s.host := rfl
@[simp] theorem State.setPort_handles (s : State) (i : Nat) (x : Port) : (s.setPort i x).handles = s.handles := rfl
@[simp] theorem State.setPort_mkey (s : State) (i : Nat) (x : Port) : (s.setPort i x).mkey = s.mkey := rfl
@[simp] theorem State.setPort_mreq (s : State) (i : Nat) (x : Port) : (s.setPort i x).mreq = s.mreq := rfl
@[simp] theorem State.setPort_anonces (s : State) (i : Nat) (x : Port) : (s.setPort i x).anonces = s.anonces := rfl
@[simp] theorem State.setPort_drbgReqs (s : State) (i : Nat) (x : Port) : (s.setPort i x).drbgReqs = s.drbgReqs := rfl
@[simp] theorem State.setPort_recSeq (s : State) (i : Nat) (x : Port) : (s.setPort i x).recSeq = s.recSeq := rfl
@[simp] theorem State.setPort_recPend (s : State) (i : Nat) (x : Port) : (s.setPort i x).recPend = s.recPend := rfl
@[simp] theorem State.setPort_recFlush (s : State) (i : Nat) (x : Port) : (s.setPort i x).recFlush = s.recFlush := rfl
@[simp] theorem State.setPort_suppressed (s : State) (i : Nat) (x : Port) : (s.setPort i x).suppressed = s.suppressed := rfl
@[simp] theorem State.setPort_corrSeen (s : State) (i : Nat) (x : Port) : (s.setPort i x).corrSeen = s.corrSeen := rfl
@[simp] theorem State.setPort_elog (s : State) (i : Nat) (x : Port) : (s.setPort i x).elog = s.elog := rfl
@[simp] theorem State.setPort_events (s : State) (i : Nat) (x : Port) : (s.setPort i x).events = s.events := rfl
@[simp] theorem State.setPort_pwrCycle (s : State) (i : Nat) (x : Port) : (s.setPort i x).pwrCycle = s.pwrCycle := rfl
@[simp] theorem State.setPort_i3cAddr (s : State) (i : Nat) (x : Port) : (s.setPort i x).i3cAddr = s.i3cAddr := rfl
@[simp] theorem State.setPort_mctpEid (s : State) (i : Nat) (x : Port) : (s.setPort i x).mctpEid = s.mctpEid := rfl
@[simp] theorem State.setPort_rotUplink (s : State) (i : Nat) (x : Port) : (s.setPort i x).rotUplink = s.rotUplink := rfl
@[simp] theorem State.setPort_summ (s : State) (i : Nat) (x : Port) : (s.setPort i x).summ = s.summ := rfl
@[simp] theorem State.setPort_freeCtr (s : State) (i : Nat) (x : Port) : (s.setPort i x).freeCtr = s.freeCtr := rfl
@[simp] theorem State.setPort_out (s : State) (i : Nat) (x : Port) : (s.setPort i x).out = s.out := rfl

@[simp] theorem State.setCtx_pending (s : State) (i : Nat) (x : Ctx) : (s.setCtx i x).pending = s.pending := rfl
@[simp] theorem State.setCtx_fuse (s : State) (i : Nat) (x : Ctx) : (s.setCtx i x).fuse = s.fuse := rfl
@[simp] theorem State.setCtx_cfg (s : State) (i : Nat) (x : Ctx) : (s.setCtx i x).cfg = s.cfg := rfl
@[simp] theorem State.setCtx_log (s : State) (i : Nat) (x : Ctx) : (s.setCtx i x).log = s.log := rfl
@[simp] theorem State.setCtx_flash (s : State) (i : Nat) (x : Ctx) : (s.setCtx i x).flash = s.flash := rfl
@[simp] theorem State.setCtx_boot (s : State) (i : Nat) (x : Ctx) : (s.setCtx i x).boot = s.boot := rfl
@[simp] theorem State.setCtx_power (s : State) (i : Nat) (x : Ctx) : (s.setCtx i x).power = s.power := rfl
@[simp] theorem State.setCtx_gov (s : State) (i : Nat) (x : Ctx) : (s.setCtx i x).gov = s.gov := rfl
@[simp] theorem State.setCtx_flds (s : State) (i : Nat) (x : Ctx) : (s.setCtx i x).flds = s.flds := rfl
@[simp] theorem State.setCtx_mem (s : State) (i : Nat) (x : Ctx) : (s.setCtx i x).mem = s.mem := rfl
@[simp] theorem State.setCtx_tileChk (s : State) (i : Nat) (x : Ctx) : (s.setCtx i x).tileChk = s.tileChk := rfl
@[simp] theorem State.setCtx_acc (s : State) (i : Nat) (x : Ctx) : (s.setCtx i x).acc = s.acc := rfl
@[simp] theorem State.setCtx_treg (s : State) (i : Nat) (x : Ctx) : (s.setCtx i x).treg = s.treg := rfl
@[simp] theorem State.setCtx_loaded (s : State) (i : Nat) (x : Ctx) : (s.setCtx i x).loaded = s.loaded := rfl
@[simp] theorem State.setCtx_garnet (s : State) (i : Nat) (x : Ctx) : (s.setCtx i x).garnet = s.garnet := rfl
@[simp] theorem State.setCtx_stage (s : State) (i : Nat) (x : Ctx) : (s.setCtx i x).stage = s.stage := rfl
@[simp] theorem State.setCtx_flint (s : State) (i : Nat) (x : Ctx) : (s.setCtx i x).flint = s.flint := rfl
@[simp] theorem State.setCtx_queue (s : State) (i : Nat) (x : Ctx) : (s.setCtx i x).queue = s.queue := rfl
@[simp] theorem State.setCtx_mover (s : State) (i : Nat) (x : Ctx) : (s.setCtx i x).mover = s.mover := rfl
@[simp] theorem State.setCtx_disp (s : State) (i : Nat) (x : Ctx) : (s.setCtx i x).disp = s.disp := rfl
@[simp] theorem State.setCtx_pc (s : State) (i : Nat) (x : Ctx) : (s.setCtx i x).pc = s.pc := rfl
@[simp] theorem State.setCtx_chan (s : State) (i : Nat) (x : Ctx) : (s.setCtx i x).chan = s.chan := rfl
@[simp] theorem State.setCtx_port (s : State) (i : Nat) (x : Ctx) : (s.setCtx i x).port = s.port := rfl
@[simp] theorem State.setCtx_noUp (s : State) (i : Nat) (x : Ctx) : (s.setCtx i x).noUp = s.noUp := rfl
@[simp] theorem State.setCtx_aux (s : State) (i : Nat) (x : Ctx) : (s.setCtx i x).aux = s.aux := rfl
@[simp] theorem State.setCtx_park (s : State) (i : Nat) (x : Ctx) : (s.setCtx i x).park = s.park := rfl
@[simp] theorem State.setCtx_colq (s : State) (i : Nat) (x : Ctx) : (s.setCtx i x).colq = s.colq := rfl
@[simp] theorem State.setCtx_assay (s : State) (i : Nat) (x : Ctx) : (s.setCtx i x).assay = s.assay := rfl
@[simp] theorem State.setCtx_strata (s : State) (i : Nat) (x : Ctx) : (s.setCtx i x).strata = s.strata := rfl
@[simp] theorem State.setCtx_images (s : State) (i : Nat) (x : Ctx) : (s.setCtx i x).images = s.images := rfl
@[simp] theorem State.setCtx_resets (s : State) (i : Nat) (x : Ctx) : (s.setCtx i x).resets = s.resets := rfl
@[simp] theorem State.setCtx_ftest (s : State) (i : Nat) (x : Ctx) : (s.setCtx i x).ftest = s.ftest := rfl
@[simp] theorem State.setCtx_member (s : State) (i : Nat) (x : Ctx) : (s.setCtx i x).member = s.member := rfl
@[simp] theorem State.setCtx_tenancy (s : State) (i : Nat) (x : Ctx) : (s.setCtx i x).tenancy = s.tenancy := rfl
@[simp] theorem State.setCtx_sess (s : State) (i : Nat) (x : Ctx) : (s.setCtx i x).sess = s.sess := rfl
@[simp] theorem State.setCtx_host (s : State) (i : Nat) (x : Ctx) : (s.setCtx i x).host = s.host := rfl
@[simp] theorem State.setCtx_handles (s : State) (i : Nat) (x : Ctx) : (s.setCtx i x).handles = s.handles := rfl
@[simp] theorem State.setCtx_mkey (s : State) (i : Nat) (x : Ctx) : (s.setCtx i x).mkey = s.mkey := rfl
@[simp] theorem State.setCtx_mreq (s : State) (i : Nat) (x : Ctx) : (s.setCtx i x).mreq = s.mreq := rfl
@[simp] theorem State.setCtx_anonces (s : State) (i : Nat) (x : Ctx) : (s.setCtx i x).anonces = s.anonces := rfl
@[simp] theorem State.setCtx_drbgReqs (s : State) (i : Nat) (x : Ctx) : (s.setCtx i x).drbgReqs = s.drbgReqs := rfl
@[simp] theorem State.setCtx_recSeq (s : State) (i : Nat) (x : Ctx) : (s.setCtx i x).recSeq = s.recSeq := rfl
@[simp] theorem State.setCtx_recPend (s : State) (i : Nat) (x : Ctx) : (s.setCtx i x).recPend = s.recPend := rfl
@[simp] theorem State.setCtx_recFlush (s : State) (i : Nat) (x : Ctx) : (s.setCtx i x).recFlush = s.recFlush := rfl
@[simp] theorem State.setCtx_suppressed (s : State) (i : Nat) (x : Ctx) : (s.setCtx i x).suppressed = s.suppressed := rfl
@[simp] theorem State.setCtx_corrSeen (s : State) (i : Nat) (x : Ctx) : (s.setCtx i x).corrSeen = s.corrSeen := rfl
@[simp] theorem State.setCtx_elog (s : State) (i : Nat) (x : Ctx) : (s.setCtx i x).elog = s.elog := rfl
@[simp] theorem State.setCtx_events (s : State) (i : Nat) (x : Ctx) : (s.setCtx i x).events = s.events := rfl
@[simp] theorem State.setCtx_pwrCycle (s : State) (i : Nat) (x : Ctx) : (s.setCtx i x).pwrCycle = s.pwrCycle := rfl
@[simp] theorem State.setCtx_i3cAddr (s : State) (i : Nat) (x : Ctx) : (s.setCtx i x).i3cAddr = s.i3cAddr := rfl
@[simp] theorem State.setCtx_mctpEid (s : State) (i : Nat) (x : Ctx) : (s.setCtx i x).mctpEid = s.mctpEid := rfl
@[simp] theorem State.setCtx_rotUplink (s : State) (i : Nat) (x : Ctx) : (s.setCtx i x).rotUplink = s.rotUplink := rfl
@[simp] theorem State.setCtx_summ (s : State) (i : Nat) (x : Ctx) : (s.setCtx i x).summ = s.summ := rfl
@[simp] theorem State.setCtx_freeCtr (s : State) (i : Nat) (x : Ctx) : (s.setCtx i x).freeCtr = s.freeCtr := rfl
@[simp] theorem State.setCtx_out (s : State) (i : Nat) (x : Ctx) : (s.setCtx i x).out = s.out := rfl

@[simp] theorem State.setAux_pending (s : State) (i : Nat) (x : CtxAux) : (s.setAux i x).pending = s.pending := rfl
@[simp] theorem State.setAux_fuse (s : State) (i : Nat) (x : CtxAux) : (s.setAux i x).fuse = s.fuse := rfl
@[simp] theorem State.setAux_cfg (s : State) (i : Nat) (x : CtxAux) : (s.setAux i x).cfg = s.cfg := rfl
@[simp] theorem State.setAux_log (s : State) (i : Nat) (x : CtxAux) : (s.setAux i x).log = s.log := rfl
@[simp] theorem State.setAux_flash (s : State) (i : Nat) (x : CtxAux) : (s.setAux i x).flash = s.flash := rfl
@[simp] theorem State.setAux_boot (s : State) (i : Nat) (x : CtxAux) : (s.setAux i x).boot = s.boot := rfl
@[simp] theorem State.setAux_power (s : State) (i : Nat) (x : CtxAux) : (s.setAux i x).power = s.power := rfl
@[simp] theorem State.setAux_gov (s : State) (i : Nat) (x : CtxAux) : (s.setAux i x).gov = s.gov := rfl
@[simp] theorem State.setAux_flds (s : State) (i : Nat) (x : CtxAux) : (s.setAux i x).flds = s.flds := rfl
@[simp] theorem State.setAux_mem (s : State) (i : Nat) (x : CtxAux) : (s.setAux i x).mem = s.mem := rfl
@[simp] theorem State.setAux_tileChk (s : State) (i : Nat) (x : CtxAux) : (s.setAux i x).tileChk = s.tileChk := rfl
@[simp] theorem State.setAux_acc (s : State) (i : Nat) (x : CtxAux) : (s.setAux i x).acc = s.acc := rfl
@[simp] theorem State.setAux_treg (s : State) (i : Nat) (x : CtxAux) : (s.setAux i x).treg = s.treg := rfl
@[simp] theorem State.setAux_loaded (s : State) (i : Nat) (x : CtxAux) : (s.setAux i x).loaded = s.loaded := rfl
@[simp] theorem State.setAux_garnet (s : State) (i : Nat) (x : CtxAux) : (s.setAux i x).garnet = s.garnet := rfl
@[simp] theorem State.setAux_stage (s : State) (i : Nat) (x : CtxAux) : (s.setAux i x).stage = s.stage := rfl
@[simp] theorem State.setAux_flint (s : State) (i : Nat) (x : CtxAux) : (s.setAux i x).flint = s.flint := rfl
@[simp] theorem State.setAux_queue (s : State) (i : Nat) (x : CtxAux) : (s.setAux i x).queue = s.queue := rfl
@[simp] theorem State.setAux_mover (s : State) (i : Nat) (x : CtxAux) : (s.setAux i x).mover = s.mover := rfl
@[simp] theorem State.setAux_disp (s : State) (i : Nat) (x : CtxAux) : (s.setAux i x).disp = s.disp := rfl
@[simp] theorem State.setAux_pc (s : State) (i : Nat) (x : CtxAux) : (s.setAux i x).pc = s.pc := rfl
@[simp] theorem State.setAux_chan (s : State) (i : Nat) (x : CtxAux) : (s.setAux i x).chan = s.chan := rfl
@[simp] theorem State.setAux_port (s : State) (i : Nat) (x : CtxAux) : (s.setAux i x).port = s.port := rfl
@[simp] theorem State.setAux_noUp (s : State) (i : Nat) (x : CtxAux) : (s.setAux i x).noUp = s.noUp := rfl
@[simp] theorem State.setAux_ctx (s : State) (i : Nat) (x : CtxAux) : (s.setAux i x).ctx = s.ctx := rfl
@[simp] theorem State.setAux_park (s : State) (i : Nat) (x : CtxAux) : (s.setAux i x).park = s.park := rfl
@[simp] theorem State.setAux_colq (s : State) (i : Nat) (x : CtxAux) : (s.setAux i x).colq = s.colq := rfl
@[simp] theorem State.setAux_assay (s : State) (i : Nat) (x : CtxAux) : (s.setAux i x).assay = s.assay := rfl
@[simp] theorem State.setAux_strata (s : State) (i : Nat) (x : CtxAux) : (s.setAux i x).strata = s.strata := rfl
@[simp] theorem State.setAux_images (s : State) (i : Nat) (x : CtxAux) : (s.setAux i x).images = s.images := rfl
@[simp] theorem State.setAux_resets (s : State) (i : Nat) (x : CtxAux) : (s.setAux i x).resets = s.resets := rfl
@[simp] theorem State.setAux_ftest (s : State) (i : Nat) (x : CtxAux) : (s.setAux i x).ftest = s.ftest := rfl
@[simp] theorem State.setAux_member (s : State) (i : Nat) (x : CtxAux) : (s.setAux i x).member = s.member := rfl
@[simp] theorem State.setAux_tenancy (s : State) (i : Nat) (x : CtxAux) : (s.setAux i x).tenancy = s.tenancy := rfl
@[simp] theorem State.setAux_sess (s : State) (i : Nat) (x : CtxAux) : (s.setAux i x).sess = s.sess := rfl
@[simp] theorem State.setAux_host (s : State) (i : Nat) (x : CtxAux) : (s.setAux i x).host = s.host := rfl
@[simp] theorem State.setAux_handles (s : State) (i : Nat) (x : CtxAux) : (s.setAux i x).handles = s.handles := rfl
@[simp] theorem State.setAux_mkey (s : State) (i : Nat) (x : CtxAux) : (s.setAux i x).mkey = s.mkey := rfl
@[simp] theorem State.setAux_mreq (s : State) (i : Nat) (x : CtxAux) : (s.setAux i x).mreq = s.mreq := rfl
@[simp] theorem State.setAux_anonces (s : State) (i : Nat) (x : CtxAux) : (s.setAux i x).anonces = s.anonces := rfl
@[simp] theorem State.setAux_drbgReqs (s : State) (i : Nat) (x : CtxAux) : (s.setAux i x).drbgReqs = s.drbgReqs := rfl
@[simp] theorem State.setAux_recSeq (s : State) (i : Nat) (x : CtxAux) : (s.setAux i x).recSeq = s.recSeq := rfl
@[simp] theorem State.setAux_recPend (s : State) (i : Nat) (x : CtxAux) : (s.setAux i x).recPend = s.recPend := rfl
@[simp] theorem State.setAux_recFlush (s : State) (i : Nat) (x : CtxAux) : (s.setAux i x).recFlush = s.recFlush := rfl
@[simp] theorem State.setAux_suppressed (s : State) (i : Nat) (x : CtxAux) : (s.setAux i x).suppressed = s.suppressed := rfl
@[simp] theorem State.setAux_corrSeen (s : State) (i : Nat) (x : CtxAux) : (s.setAux i x).corrSeen = s.corrSeen := rfl
@[simp] theorem State.setAux_elog (s : State) (i : Nat) (x : CtxAux) : (s.setAux i x).elog = s.elog := rfl
@[simp] theorem State.setAux_events (s : State) (i : Nat) (x : CtxAux) : (s.setAux i x).events = s.events := rfl
@[simp] theorem State.setAux_pwrCycle (s : State) (i : Nat) (x : CtxAux) : (s.setAux i x).pwrCycle = s.pwrCycle := rfl
@[simp] theorem State.setAux_i3cAddr (s : State) (i : Nat) (x : CtxAux) : (s.setAux i x).i3cAddr = s.i3cAddr := rfl
@[simp] theorem State.setAux_mctpEid (s : State) (i : Nat) (x : CtxAux) : (s.setAux i x).mctpEid = s.mctpEid := rfl
@[simp] theorem State.setAux_rotUplink (s : State) (i : Nat) (x : CtxAux) : (s.setAux i x).rotUplink = s.rotUplink := rfl
@[simp] theorem State.setAux_summ (s : State) (i : Nat) (x : CtxAux) : (s.setAux i x).summ = s.summ := rfl
@[simp] theorem State.setAux_freeCtr (s : State) (i : Nat) (x : CtxAux) : (s.setAux i x).freeCtr = s.freeCtr := rfl
@[simp] theorem State.setAux_out (s : State) (i : Nat) (x : CtxAux) : (s.setAux i x).out = s.out := rfl

@[simp] theorem State.setColq_pending (s : State) (p q : Nat) (x : ColQueue) : (s.setColq p q x).pending = s.pending := rfl
@[simp] theorem State.setColq_fuse (s : State) (p q : Nat) (x : ColQueue) : (s.setColq p q x).fuse = s.fuse := rfl
@[simp] theorem State.setColq_cfg (s : State) (p q : Nat) (x : ColQueue) : (s.setColq p q x).cfg = s.cfg := rfl
@[simp] theorem State.setColq_log (s : State) (p q : Nat) (x : ColQueue) : (s.setColq p q x).log = s.log := rfl
@[simp] theorem State.setColq_flash (s : State) (p q : Nat) (x : ColQueue) : (s.setColq p q x).flash = s.flash := rfl
@[simp] theorem State.setColq_boot (s : State) (p q : Nat) (x : ColQueue) : (s.setColq p q x).boot = s.boot := rfl
@[simp] theorem State.setColq_power (s : State) (p q : Nat) (x : ColQueue) : (s.setColq p q x).power = s.power := rfl
@[simp] theorem State.setColq_gov (s : State) (p q : Nat) (x : ColQueue) : (s.setColq p q x).gov = s.gov := rfl
@[simp] theorem State.setColq_flds (s : State) (p q : Nat) (x : ColQueue) : (s.setColq p q x).flds = s.flds := rfl
@[simp] theorem State.setColq_mem (s : State) (p q : Nat) (x : ColQueue) : (s.setColq p q x).mem = s.mem := rfl
@[simp] theorem State.setColq_tileChk (s : State) (p q : Nat) (x : ColQueue) : (s.setColq p q x).tileChk = s.tileChk := rfl
@[simp] theorem State.setColq_acc (s : State) (p q : Nat) (x : ColQueue) : (s.setColq p q x).acc = s.acc := rfl
@[simp] theorem State.setColq_treg (s : State) (p q : Nat) (x : ColQueue) : (s.setColq p q x).treg = s.treg := rfl
@[simp] theorem State.setColq_loaded (s : State) (p q : Nat) (x : ColQueue) : (s.setColq p q x).loaded = s.loaded := rfl
@[simp] theorem State.setColq_garnet (s : State) (p q : Nat) (x : ColQueue) : (s.setColq p q x).garnet = s.garnet := rfl
@[simp] theorem State.setColq_stage (s : State) (p q : Nat) (x : ColQueue) : (s.setColq p q x).stage = s.stage := rfl
@[simp] theorem State.setColq_flint (s : State) (p q : Nat) (x : ColQueue) : (s.setColq p q x).flint = s.flint := rfl
@[simp] theorem State.setColq_queue (s : State) (p q : Nat) (x : ColQueue) : (s.setColq p q x).queue = s.queue := rfl
@[simp] theorem State.setColq_mover (s : State) (p q : Nat) (x : ColQueue) : (s.setColq p q x).mover = s.mover := rfl
@[simp] theorem State.setColq_disp (s : State) (p q : Nat) (x : ColQueue) : (s.setColq p q x).disp = s.disp := rfl
@[simp] theorem State.setColq_pc (s : State) (p q : Nat) (x : ColQueue) : (s.setColq p q x).pc = s.pc := rfl
@[simp] theorem State.setColq_chan (s : State) (p q : Nat) (x : ColQueue) : (s.setColq p q x).chan = s.chan := rfl
@[simp] theorem State.setColq_port (s : State) (p q : Nat) (x : ColQueue) : (s.setColq p q x).port = s.port := rfl
@[simp] theorem State.setColq_noUp (s : State) (p q : Nat) (x : ColQueue) : (s.setColq p q x).noUp = s.noUp := rfl
@[simp] theorem State.setColq_ctx (s : State) (p q : Nat) (x : ColQueue) : (s.setColq p q x).ctx = s.ctx := rfl
@[simp] theorem State.setColq_aux (s : State) (p q : Nat) (x : ColQueue) : (s.setColq p q x).aux = s.aux := rfl
@[simp] theorem State.setColq_park (s : State) (p q : Nat) (x : ColQueue) : (s.setColq p q x).park = s.park := rfl
@[simp] theorem State.setColq_assay (s : State) (p q : Nat) (x : ColQueue) : (s.setColq p q x).assay = s.assay := rfl
@[simp] theorem State.setColq_strata (s : State) (p q : Nat) (x : ColQueue) : (s.setColq p q x).strata = s.strata := rfl
@[simp] theorem State.setColq_images (s : State) (p q : Nat) (x : ColQueue) : (s.setColq p q x).images = s.images := rfl
@[simp] theorem State.setColq_resets (s : State) (p q : Nat) (x : ColQueue) : (s.setColq p q x).resets = s.resets := rfl
@[simp] theorem State.setColq_ftest (s : State) (p q : Nat) (x : ColQueue) : (s.setColq p q x).ftest = s.ftest := rfl
@[simp] theorem State.setColq_member (s : State) (p q : Nat) (x : ColQueue) : (s.setColq p q x).member = s.member := rfl
@[simp] theorem State.setColq_tenancy (s : State) (p q : Nat) (x : ColQueue) : (s.setColq p q x).tenancy = s.tenancy := rfl
@[simp] theorem State.setColq_sess (s : State) (p q : Nat) (x : ColQueue) : (s.setColq p q x).sess = s.sess := rfl
@[simp] theorem State.setColq_host (s : State) (p q : Nat) (x : ColQueue) : (s.setColq p q x).host = s.host := rfl
@[simp] theorem State.setColq_handles (s : State) (p q : Nat) (x : ColQueue) : (s.setColq p q x).handles = s.handles := rfl
@[simp] theorem State.setColq_mkey (s : State) (p q : Nat) (x : ColQueue) : (s.setColq p q x).mkey = s.mkey := rfl
@[simp] theorem State.setColq_mreq (s : State) (p q : Nat) (x : ColQueue) : (s.setColq p q x).mreq = s.mreq := rfl
@[simp] theorem State.setColq_anonces (s : State) (p q : Nat) (x : ColQueue) : (s.setColq p q x).anonces = s.anonces := rfl
@[simp] theorem State.setColq_drbgReqs (s : State) (p q : Nat) (x : ColQueue) : (s.setColq p q x).drbgReqs = s.drbgReqs := rfl
@[simp] theorem State.setColq_recSeq (s : State) (p q : Nat) (x : ColQueue) : (s.setColq p q x).recSeq = s.recSeq := rfl
@[simp] theorem State.setColq_recPend (s : State) (p q : Nat) (x : ColQueue) : (s.setColq p q x).recPend = s.recPend := rfl
@[simp] theorem State.setColq_recFlush (s : State) (p q : Nat) (x : ColQueue) : (s.setColq p q x).recFlush = s.recFlush := rfl
@[simp] theorem State.setColq_suppressed (s : State) (p q : Nat) (x : ColQueue) : (s.setColq p q x).suppressed = s.suppressed := rfl
@[simp] theorem State.setColq_corrSeen (s : State) (p q : Nat) (x : ColQueue) : (s.setColq p q x).corrSeen = s.corrSeen := rfl
@[simp] theorem State.setColq_elog (s : State) (p q : Nat) (x : ColQueue) : (s.setColq p q x).elog = s.elog := rfl
@[simp] theorem State.setColq_events (s : State) (p q : Nat) (x : ColQueue) : (s.setColq p q x).events = s.events := rfl
@[simp] theorem State.setColq_pwrCycle (s : State) (p q : Nat) (x : ColQueue) : (s.setColq p q x).pwrCycle = s.pwrCycle := rfl
@[simp] theorem State.setColq_i3cAddr (s : State) (p q : Nat) (x : ColQueue) : (s.setColq p q x).i3cAddr = s.i3cAddr := rfl
@[simp] theorem State.setColq_mctpEid (s : State) (p q : Nat) (x : ColQueue) : (s.setColq p q x).mctpEid = s.mctpEid := rfl
@[simp] theorem State.setColq_rotUplink (s : State) (p q : Nat) (x : ColQueue) : (s.setColq p q x).rotUplink = s.rotUplink := rfl
@[simp] theorem State.setColq_summ (s : State) (p q : Nat) (x : ColQueue) : (s.setColq p q x).summ = s.summ := rfl
@[simp] theorem State.setColq_freeCtr (s : State) (p q : Nat) (x : ColQueue) : (s.setColq p q x).freeCtr = s.freeCtr := rfl
@[simp] theorem State.setColq_out (s : State) (p q : Nat) (x : ColQueue) : (s.setColq p q x).out = s.out := rfl

@[simp] theorem State.setAssay_pending (s : State) (p : Nat) (x : Assay) : (s.setAssay p x).pending = s.pending := rfl
@[simp] theorem State.setAssay_fuse (s : State) (p : Nat) (x : Assay) : (s.setAssay p x).fuse = s.fuse := rfl
@[simp] theorem State.setAssay_cfg (s : State) (p : Nat) (x : Assay) : (s.setAssay p x).cfg = s.cfg := rfl
@[simp] theorem State.setAssay_log (s : State) (p : Nat) (x : Assay) : (s.setAssay p x).log = s.log := rfl
@[simp] theorem State.setAssay_flash (s : State) (p : Nat) (x : Assay) : (s.setAssay p x).flash = s.flash := rfl
@[simp] theorem State.setAssay_boot (s : State) (p : Nat) (x : Assay) : (s.setAssay p x).boot = s.boot := rfl
@[simp] theorem State.setAssay_power (s : State) (p : Nat) (x : Assay) : (s.setAssay p x).power = s.power := rfl
@[simp] theorem State.setAssay_gov (s : State) (p : Nat) (x : Assay) : (s.setAssay p x).gov = s.gov := rfl
@[simp] theorem State.setAssay_flds (s : State) (p : Nat) (x : Assay) : (s.setAssay p x).flds = s.flds := rfl
@[simp] theorem State.setAssay_mem (s : State) (p : Nat) (x : Assay) : (s.setAssay p x).mem = s.mem := rfl
@[simp] theorem State.setAssay_tileChk (s : State) (p : Nat) (x : Assay) : (s.setAssay p x).tileChk = s.tileChk := rfl
@[simp] theorem State.setAssay_acc (s : State) (p : Nat) (x : Assay) : (s.setAssay p x).acc = s.acc := rfl
@[simp] theorem State.setAssay_treg (s : State) (p : Nat) (x : Assay) : (s.setAssay p x).treg = s.treg := rfl
@[simp] theorem State.setAssay_loaded (s : State) (p : Nat) (x : Assay) : (s.setAssay p x).loaded = s.loaded := rfl
@[simp] theorem State.setAssay_garnet (s : State) (p : Nat) (x : Assay) : (s.setAssay p x).garnet = s.garnet := rfl
@[simp] theorem State.setAssay_stage (s : State) (p : Nat) (x : Assay) : (s.setAssay p x).stage = s.stage := rfl
@[simp] theorem State.setAssay_flint (s : State) (p : Nat) (x : Assay) : (s.setAssay p x).flint = s.flint := rfl
@[simp] theorem State.setAssay_queue (s : State) (p : Nat) (x : Assay) : (s.setAssay p x).queue = s.queue := rfl
@[simp] theorem State.setAssay_mover (s : State) (p : Nat) (x : Assay) : (s.setAssay p x).mover = s.mover := rfl
@[simp] theorem State.setAssay_disp (s : State) (p : Nat) (x : Assay) : (s.setAssay p x).disp = s.disp := rfl
@[simp] theorem State.setAssay_pc (s : State) (p : Nat) (x : Assay) : (s.setAssay p x).pc = s.pc := rfl
@[simp] theorem State.setAssay_chan (s : State) (p : Nat) (x : Assay) : (s.setAssay p x).chan = s.chan := rfl
@[simp] theorem State.setAssay_port (s : State) (p : Nat) (x : Assay) : (s.setAssay p x).port = s.port := rfl
@[simp] theorem State.setAssay_noUp (s : State) (p : Nat) (x : Assay) : (s.setAssay p x).noUp = s.noUp := rfl
@[simp] theorem State.setAssay_ctx (s : State) (p : Nat) (x : Assay) : (s.setAssay p x).ctx = s.ctx := rfl
@[simp] theorem State.setAssay_aux (s : State) (p : Nat) (x : Assay) : (s.setAssay p x).aux = s.aux := rfl
@[simp] theorem State.setAssay_park (s : State) (p : Nat) (x : Assay) : (s.setAssay p x).park = s.park := rfl
@[simp] theorem State.setAssay_colq (s : State) (p : Nat) (x : Assay) : (s.setAssay p x).colq = s.colq := rfl
@[simp] theorem State.setAssay_strata (s : State) (p : Nat) (x : Assay) : (s.setAssay p x).strata = s.strata := rfl
@[simp] theorem State.setAssay_images (s : State) (p : Nat) (x : Assay) : (s.setAssay p x).images = s.images := rfl
@[simp] theorem State.setAssay_resets (s : State) (p : Nat) (x : Assay) : (s.setAssay p x).resets = s.resets := rfl
@[simp] theorem State.setAssay_ftest (s : State) (p : Nat) (x : Assay) : (s.setAssay p x).ftest = s.ftest := rfl
@[simp] theorem State.setAssay_member (s : State) (p : Nat) (x : Assay) : (s.setAssay p x).member = s.member := rfl
@[simp] theorem State.setAssay_tenancy (s : State) (p : Nat) (x : Assay) : (s.setAssay p x).tenancy = s.tenancy := rfl
@[simp] theorem State.setAssay_sess (s : State) (p : Nat) (x : Assay) : (s.setAssay p x).sess = s.sess := rfl
@[simp] theorem State.setAssay_host (s : State) (p : Nat) (x : Assay) : (s.setAssay p x).host = s.host := rfl
@[simp] theorem State.setAssay_handles (s : State) (p : Nat) (x : Assay) : (s.setAssay p x).handles = s.handles := rfl
@[simp] theorem State.setAssay_mkey (s : State) (p : Nat) (x : Assay) : (s.setAssay p x).mkey = s.mkey := rfl
@[simp] theorem State.setAssay_mreq (s : State) (p : Nat) (x : Assay) : (s.setAssay p x).mreq = s.mreq := rfl
@[simp] theorem State.setAssay_anonces (s : State) (p : Nat) (x : Assay) : (s.setAssay p x).anonces = s.anonces := rfl
@[simp] theorem State.setAssay_drbgReqs (s : State) (p : Nat) (x : Assay) : (s.setAssay p x).drbgReqs = s.drbgReqs := rfl
@[simp] theorem State.setAssay_recSeq (s : State) (p : Nat) (x : Assay) : (s.setAssay p x).recSeq = s.recSeq := rfl
@[simp] theorem State.setAssay_recPend (s : State) (p : Nat) (x : Assay) : (s.setAssay p x).recPend = s.recPend := rfl
@[simp] theorem State.setAssay_recFlush (s : State) (p : Nat) (x : Assay) : (s.setAssay p x).recFlush = s.recFlush := rfl
@[simp] theorem State.setAssay_suppressed (s : State) (p : Nat) (x : Assay) : (s.setAssay p x).suppressed = s.suppressed := rfl
@[simp] theorem State.setAssay_corrSeen (s : State) (p : Nat) (x : Assay) : (s.setAssay p x).corrSeen = s.corrSeen := rfl
@[simp] theorem State.setAssay_elog (s : State) (p : Nat) (x : Assay) : (s.setAssay p x).elog = s.elog := rfl
@[simp] theorem State.setAssay_events (s : State) (p : Nat) (x : Assay) : (s.setAssay p x).events = s.events := rfl
@[simp] theorem State.setAssay_pwrCycle (s : State) (p : Nat) (x : Assay) : (s.setAssay p x).pwrCycle = s.pwrCycle := rfl
@[simp] theorem State.setAssay_i3cAddr (s : State) (p : Nat) (x : Assay) : (s.setAssay p x).i3cAddr = s.i3cAddr := rfl
@[simp] theorem State.setAssay_mctpEid (s : State) (p : Nat) (x : Assay) : (s.setAssay p x).mctpEid = s.mctpEid := rfl
@[simp] theorem State.setAssay_rotUplink (s : State) (p : Nat) (x : Assay) : (s.setAssay p x).rotUplink = s.rotUplink := rfl
@[simp] theorem State.setAssay_summ (s : State) (p : Nat) (x : Assay) : (s.setAssay p x).summ = s.summ := rfl
@[simp] theorem State.setAssay_freeCtr (s : State) (p : Nat) (x : Assay) : (s.setAssay p x).freeCtr = s.freeCtr := rfl
@[simp] theorem State.setAssay_out (s : State) (p : Nat) (x : Assay) : (s.setAssay p x).out = s.out := rfl

@[simp] theorem State.setStrata_pending (s : State) (p : Nat) (x : Strata) : (s.setStrata p x).pending = s.pending := rfl
@[simp] theorem State.setStrata_fuse (s : State) (p : Nat) (x : Strata) : (s.setStrata p x).fuse = s.fuse := rfl
@[simp] theorem State.setStrata_cfg (s : State) (p : Nat) (x : Strata) : (s.setStrata p x).cfg = s.cfg := rfl
@[simp] theorem State.setStrata_log (s : State) (p : Nat) (x : Strata) : (s.setStrata p x).log = s.log := rfl
@[simp] theorem State.setStrata_flash (s : State) (p : Nat) (x : Strata) : (s.setStrata p x).flash = s.flash := rfl
@[simp] theorem State.setStrata_boot (s : State) (p : Nat) (x : Strata) : (s.setStrata p x).boot = s.boot := rfl
@[simp] theorem State.setStrata_power (s : State) (p : Nat) (x : Strata) : (s.setStrata p x).power = s.power := rfl
@[simp] theorem State.setStrata_gov (s : State) (p : Nat) (x : Strata) : (s.setStrata p x).gov = s.gov := rfl
@[simp] theorem State.setStrata_flds (s : State) (p : Nat) (x : Strata) : (s.setStrata p x).flds = s.flds := rfl
@[simp] theorem State.setStrata_mem (s : State) (p : Nat) (x : Strata) : (s.setStrata p x).mem = s.mem := rfl
@[simp] theorem State.setStrata_tileChk (s : State) (p : Nat) (x : Strata) : (s.setStrata p x).tileChk = s.tileChk := rfl
@[simp] theorem State.setStrata_acc (s : State) (p : Nat) (x : Strata) : (s.setStrata p x).acc = s.acc := rfl
@[simp] theorem State.setStrata_treg (s : State) (p : Nat) (x : Strata) : (s.setStrata p x).treg = s.treg := rfl
@[simp] theorem State.setStrata_loaded (s : State) (p : Nat) (x : Strata) : (s.setStrata p x).loaded = s.loaded := rfl
@[simp] theorem State.setStrata_garnet (s : State) (p : Nat) (x : Strata) : (s.setStrata p x).garnet = s.garnet := rfl
@[simp] theorem State.setStrata_stage (s : State) (p : Nat) (x : Strata) : (s.setStrata p x).stage = s.stage := rfl
@[simp] theorem State.setStrata_flint (s : State) (p : Nat) (x : Strata) : (s.setStrata p x).flint = s.flint := rfl
@[simp] theorem State.setStrata_queue (s : State) (p : Nat) (x : Strata) : (s.setStrata p x).queue = s.queue := rfl
@[simp] theorem State.setStrata_mover (s : State) (p : Nat) (x : Strata) : (s.setStrata p x).mover = s.mover := rfl
@[simp] theorem State.setStrata_disp (s : State) (p : Nat) (x : Strata) : (s.setStrata p x).disp = s.disp := rfl
@[simp] theorem State.setStrata_pc (s : State) (p : Nat) (x : Strata) : (s.setStrata p x).pc = s.pc := rfl
@[simp] theorem State.setStrata_chan (s : State) (p : Nat) (x : Strata) : (s.setStrata p x).chan = s.chan := rfl
@[simp] theorem State.setStrata_port (s : State) (p : Nat) (x : Strata) : (s.setStrata p x).port = s.port := rfl
@[simp] theorem State.setStrata_noUp (s : State) (p : Nat) (x : Strata) : (s.setStrata p x).noUp = s.noUp := rfl
@[simp] theorem State.setStrata_ctx (s : State) (p : Nat) (x : Strata) : (s.setStrata p x).ctx = s.ctx := rfl
@[simp] theorem State.setStrata_aux (s : State) (p : Nat) (x : Strata) : (s.setStrata p x).aux = s.aux := rfl
@[simp] theorem State.setStrata_park (s : State) (p : Nat) (x : Strata) : (s.setStrata p x).park = s.park := rfl
@[simp] theorem State.setStrata_colq (s : State) (p : Nat) (x : Strata) : (s.setStrata p x).colq = s.colq := rfl
@[simp] theorem State.setStrata_assay (s : State) (p : Nat) (x : Strata) : (s.setStrata p x).assay = s.assay := rfl
@[simp] theorem State.setStrata_images (s : State) (p : Nat) (x : Strata) : (s.setStrata p x).images = s.images := rfl
@[simp] theorem State.setStrata_resets (s : State) (p : Nat) (x : Strata) : (s.setStrata p x).resets = s.resets := rfl
@[simp] theorem State.setStrata_ftest (s : State) (p : Nat) (x : Strata) : (s.setStrata p x).ftest = s.ftest := rfl
@[simp] theorem State.setStrata_member (s : State) (p : Nat) (x : Strata) : (s.setStrata p x).member = s.member := rfl
@[simp] theorem State.setStrata_tenancy (s : State) (p : Nat) (x : Strata) : (s.setStrata p x).tenancy = s.tenancy := rfl
@[simp] theorem State.setStrata_sess (s : State) (p : Nat) (x : Strata) : (s.setStrata p x).sess = s.sess := rfl
@[simp] theorem State.setStrata_host (s : State) (p : Nat) (x : Strata) : (s.setStrata p x).host = s.host := rfl
@[simp] theorem State.setStrata_handles (s : State) (p : Nat) (x : Strata) : (s.setStrata p x).handles = s.handles := rfl
@[simp] theorem State.setStrata_mkey (s : State) (p : Nat) (x : Strata) : (s.setStrata p x).mkey = s.mkey := rfl
@[simp] theorem State.setStrata_mreq (s : State) (p : Nat) (x : Strata) : (s.setStrata p x).mreq = s.mreq := rfl
@[simp] theorem State.setStrata_anonces (s : State) (p : Nat) (x : Strata) : (s.setStrata p x).anonces = s.anonces := rfl
@[simp] theorem State.setStrata_drbgReqs (s : State) (p : Nat) (x : Strata) : (s.setStrata p x).drbgReqs = s.drbgReqs := rfl
@[simp] theorem State.setStrata_recSeq (s : State) (p : Nat) (x : Strata) : (s.setStrata p x).recSeq = s.recSeq := rfl
@[simp] theorem State.setStrata_recPend (s : State) (p : Nat) (x : Strata) : (s.setStrata p x).recPend = s.recPend := rfl
@[simp] theorem State.setStrata_recFlush (s : State) (p : Nat) (x : Strata) : (s.setStrata p x).recFlush = s.recFlush := rfl
@[simp] theorem State.setStrata_suppressed (s : State) (p : Nat) (x : Strata) : (s.setStrata p x).suppressed = s.suppressed := rfl
@[simp] theorem State.setStrata_corrSeen (s : State) (p : Nat) (x : Strata) : (s.setStrata p x).corrSeen = s.corrSeen := rfl
@[simp] theorem State.setStrata_elog (s : State) (p : Nat) (x : Strata) : (s.setStrata p x).elog = s.elog := rfl
@[simp] theorem State.setStrata_events (s : State) (p : Nat) (x : Strata) : (s.setStrata p x).events = s.events := rfl
@[simp] theorem State.setStrata_pwrCycle (s : State) (p : Nat) (x : Strata) : (s.setStrata p x).pwrCycle = s.pwrCycle := rfl
@[simp] theorem State.setStrata_i3cAddr (s : State) (p : Nat) (x : Strata) : (s.setStrata p x).i3cAddr = s.i3cAddr := rfl
@[simp] theorem State.setStrata_mctpEid (s : State) (p : Nat) (x : Strata) : (s.setStrata p x).mctpEid = s.mctpEid := rfl
@[simp] theorem State.setStrata_rotUplink (s : State) (p : Nat) (x : Strata) : (s.setStrata p x).rotUplink = s.rotUplink := rfl
@[simp] theorem State.setStrata_summ (s : State) (p : Nat) (x : Strata) : (s.setStrata p x).summ = s.summ := rfl
@[simp] theorem State.setStrata_freeCtr (s : State) (p : Nat) (x : Strata) : (s.setStrata p x).freeCtr = s.freeCtr := rfl
@[simp] theorem State.setStrata_out (s : State) (p : Nat) (x : Strata) : (s.setStrata p x).out = s.out := rfl

@[simp] theorem State.setReset_pending (s : State) (p : Nat) (x : Option ResetRun) : (s.setReset p x).pending = s.pending := rfl
@[simp] theorem State.setReset_fuse (s : State) (p : Nat) (x : Option ResetRun) : (s.setReset p x).fuse = s.fuse := rfl
@[simp] theorem State.setReset_cfg (s : State) (p : Nat) (x : Option ResetRun) : (s.setReset p x).cfg = s.cfg := rfl
@[simp] theorem State.setReset_log (s : State) (p : Nat) (x : Option ResetRun) : (s.setReset p x).log = s.log := rfl
@[simp] theorem State.setReset_flash (s : State) (p : Nat) (x : Option ResetRun) : (s.setReset p x).flash = s.flash := rfl
@[simp] theorem State.setReset_boot (s : State) (p : Nat) (x : Option ResetRun) : (s.setReset p x).boot = s.boot := rfl
@[simp] theorem State.setReset_power (s : State) (p : Nat) (x : Option ResetRun) : (s.setReset p x).power = s.power := rfl
@[simp] theorem State.setReset_gov (s : State) (p : Nat) (x : Option ResetRun) : (s.setReset p x).gov = s.gov := rfl
@[simp] theorem State.setReset_flds (s : State) (p : Nat) (x : Option ResetRun) : (s.setReset p x).flds = s.flds := rfl
@[simp] theorem State.setReset_mem (s : State) (p : Nat) (x : Option ResetRun) : (s.setReset p x).mem = s.mem := rfl
@[simp] theorem State.setReset_tileChk (s : State) (p : Nat) (x : Option ResetRun) : (s.setReset p x).tileChk = s.tileChk := rfl
@[simp] theorem State.setReset_acc (s : State) (p : Nat) (x : Option ResetRun) : (s.setReset p x).acc = s.acc := rfl
@[simp] theorem State.setReset_treg (s : State) (p : Nat) (x : Option ResetRun) : (s.setReset p x).treg = s.treg := rfl
@[simp] theorem State.setReset_loaded (s : State) (p : Nat) (x : Option ResetRun) : (s.setReset p x).loaded = s.loaded := rfl
@[simp] theorem State.setReset_garnet (s : State) (p : Nat) (x : Option ResetRun) : (s.setReset p x).garnet = s.garnet := rfl
@[simp] theorem State.setReset_stage (s : State) (p : Nat) (x : Option ResetRun) : (s.setReset p x).stage = s.stage := rfl
@[simp] theorem State.setReset_flint (s : State) (p : Nat) (x : Option ResetRun) : (s.setReset p x).flint = s.flint := rfl
@[simp] theorem State.setReset_queue (s : State) (p : Nat) (x : Option ResetRun) : (s.setReset p x).queue = s.queue := rfl
@[simp] theorem State.setReset_mover (s : State) (p : Nat) (x : Option ResetRun) : (s.setReset p x).mover = s.mover := rfl
@[simp] theorem State.setReset_disp (s : State) (p : Nat) (x : Option ResetRun) : (s.setReset p x).disp = s.disp := rfl
@[simp] theorem State.setReset_pc (s : State) (p : Nat) (x : Option ResetRun) : (s.setReset p x).pc = s.pc := rfl
@[simp] theorem State.setReset_chan (s : State) (p : Nat) (x : Option ResetRun) : (s.setReset p x).chan = s.chan := rfl
@[simp] theorem State.setReset_port (s : State) (p : Nat) (x : Option ResetRun) : (s.setReset p x).port = s.port := rfl
@[simp] theorem State.setReset_noUp (s : State) (p : Nat) (x : Option ResetRun) : (s.setReset p x).noUp = s.noUp := rfl
@[simp] theorem State.setReset_ctx (s : State) (p : Nat) (x : Option ResetRun) : (s.setReset p x).ctx = s.ctx := rfl
@[simp] theorem State.setReset_aux (s : State) (p : Nat) (x : Option ResetRun) : (s.setReset p x).aux = s.aux := rfl
@[simp] theorem State.setReset_park (s : State) (p : Nat) (x : Option ResetRun) : (s.setReset p x).park = s.park := rfl
@[simp] theorem State.setReset_colq (s : State) (p : Nat) (x : Option ResetRun) : (s.setReset p x).colq = s.colq := rfl
@[simp] theorem State.setReset_assay (s : State) (p : Nat) (x : Option ResetRun) : (s.setReset p x).assay = s.assay := rfl
@[simp] theorem State.setReset_strata (s : State) (p : Nat) (x : Option ResetRun) : (s.setReset p x).strata = s.strata := rfl
@[simp] theorem State.setReset_images (s : State) (p : Nat) (x : Option ResetRun) : (s.setReset p x).images = s.images := rfl
@[simp] theorem State.setReset_ftest (s : State) (p : Nat) (x : Option ResetRun) : (s.setReset p x).ftest = s.ftest := rfl
@[simp] theorem State.setReset_member (s : State) (p : Nat) (x : Option ResetRun) : (s.setReset p x).member = s.member := rfl
@[simp] theorem State.setReset_tenancy (s : State) (p : Nat) (x : Option ResetRun) : (s.setReset p x).tenancy = s.tenancy := rfl
@[simp] theorem State.setReset_sess (s : State) (p : Nat) (x : Option ResetRun) : (s.setReset p x).sess = s.sess := rfl
@[simp] theorem State.setReset_host (s : State) (p : Nat) (x : Option ResetRun) : (s.setReset p x).host = s.host := rfl
@[simp] theorem State.setReset_handles (s : State) (p : Nat) (x : Option ResetRun) : (s.setReset p x).handles = s.handles := rfl
@[simp] theorem State.setReset_mkey (s : State) (p : Nat) (x : Option ResetRun) : (s.setReset p x).mkey = s.mkey := rfl
@[simp] theorem State.setReset_mreq (s : State) (p : Nat) (x : Option ResetRun) : (s.setReset p x).mreq = s.mreq := rfl
@[simp] theorem State.setReset_anonces (s : State) (p : Nat) (x : Option ResetRun) : (s.setReset p x).anonces = s.anonces := rfl
@[simp] theorem State.setReset_drbgReqs (s : State) (p : Nat) (x : Option ResetRun) : (s.setReset p x).drbgReqs = s.drbgReqs := rfl
@[simp] theorem State.setReset_recSeq (s : State) (p : Nat) (x : Option ResetRun) : (s.setReset p x).recSeq = s.recSeq := rfl
@[simp] theorem State.setReset_recPend (s : State) (p : Nat) (x : Option ResetRun) : (s.setReset p x).recPend = s.recPend := rfl
@[simp] theorem State.setReset_recFlush (s : State) (p : Nat) (x : Option ResetRun) : (s.setReset p x).recFlush = s.recFlush := rfl
@[simp] theorem State.setReset_suppressed (s : State) (p : Nat) (x : Option ResetRun) : (s.setReset p x).suppressed = s.suppressed := rfl
@[simp] theorem State.setReset_corrSeen (s : State) (p : Nat) (x : Option ResetRun) : (s.setReset p x).corrSeen = s.corrSeen := rfl
@[simp] theorem State.setReset_elog (s : State) (p : Nat) (x : Option ResetRun) : (s.setReset p x).elog = s.elog := rfl
@[simp] theorem State.setReset_events (s : State) (p : Nat) (x : Option ResetRun) : (s.setReset p x).events = s.events := rfl
@[simp] theorem State.setReset_pwrCycle (s : State) (p : Nat) (x : Option ResetRun) : (s.setReset p x).pwrCycle = s.pwrCycle := rfl
@[simp] theorem State.setReset_i3cAddr (s : State) (p : Nat) (x : Option ResetRun) : (s.setReset p x).i3cAddr = s.i3cAddr := rfl
@[simp] theorem State.setReset_mctpEid (s : State) (p : Nat) (x : Option ResetRun) : (s.setReset p x).mctpEid = s.mctpEid := rfl
@[simp] theorem State.setReset_rotUplink (s : State) (p : Nat) (x : Option ResetRun) : (s.setReset p x).rotUplink = s.rotUplink := rfl
@[simp] theorem State.setReset_summ (s : State) (p : Nat) (x : Option ResetRun) : (s.setReset p x).summ = s.summ := rfl
@[simp] theorem State.setReset_freeCtr (s : State) (p : Nat) (x : Option ResetRun) : (s.setReset p x).freeCtr = s.freeCtr := rfl
@[simp] theorem State.setReset_out (s : State) (p : Nat) (x : Option ResetRun) : (s.setReset p x).out = s.out := rfl

@[simp] theorem State.setFt_pending (s : State) (p : Nat) (x : FieldTest) : (s.setFt p x).pending = s.pending := rfl
@[simp] theorem State.setFt_fuse (s : State) (p : Nat) (x : FieldTest) : (s.setFt p x).fuse = s.fuse := rfl
@[simp] theorem State.setFt_cfg (s : State) (p : Nat) (x : FieldTest) : (s.setFt p x).cfg = s.cfg := rfl
@[simp] theorem State.setFt_log (s : State) (p : Nat) (x : FieldTest) : (s.setFt p x).log = s.log := rfl
@[simp] theorem State.setFt_flash (s : State) (p : Nat) (x : FieldTest) : (s.setFt p x).flash = s.flash := rfl
@[simp] theorem State.setFt_boot (s : State) (p : Nat) (x : FieldTest) : (s.setFt p x).boot = s.boot := rfl
@[simp] theorem State.setFt_power (s : State) (p : Nat) (x : FieldTest) : (s.setFt p x).power = s.power := rfl
@[simp] theorem State.setFt_gov (s : State) (p : Nat) (x : FieldTest) : (s.setFt p x).gov = s.gov := rfl
@[simp] theorem State.setFt_flds (s : State) (p : Nat) (x : FieldTest) : (s.setFt p x).flds = s.flds := rfl
@[simp] theorem State.setFt_mem (s : State) (p : Nat) (x : FieldTest) : (s.setFt p x).mem = s.mem := rfl
@[simp] theorem State.setFt_tileChk (s : State) (p : Nat) (x : FieldTest) : (s.setFt p x).tileChk = s.tileChk := rfl
@[simp] theorem State.setFt_acc (s : State) (p : Nat) (x : FieldTest) : (s.setFt p x).acc = s.acc := rfl
@[simp] theorem State.setFt_treg (s : State) (p : Nat) (x : FieldTest) : (s.setFt p x).treg = s.treg := rfl
@[simp] theorem State.setFt_loaded (s : State) (p : Nat) (x : FieldTest) : (s.setFt p x).loaded = s.loaded := rfl
@[simp] theorem State.setFt_garnet (s : State) (p : Nat) (x : FieldTest) : (s.setFt p x).garnet = s.garnet := rfl
@[simp] theorem State.setFt_stage (s : State) (p : Nat) (x : FieldTest) : (s.setFt p x).stage = s.stage := rfl
@[simp] theorem State.setFt_flint (s : State) (p : Nat) (x : FieldTest) : (s.setFt p x).flint = s.flint := rfl
@[simp] theorem State.setFt_queue (s : State) (p : Nat) (x : FieldTest) : (s.setFt p x).queue = s.queue := rfl
@[simp] theorem State.setFt_mover (s : State) (p : Nat) (x : FieldTest) : (s.setFt p x).mover = s.mover := rfl
@[simp] theorem State.setFt_disp (s : State) (p : Nat) (x : FieldTest) : (s.setFt p x).disp = s.disp := rfl
@[simp] theorem State.setFt_pc (s : State) (p : Nat) (x : FieldTest) : (s.setFt p x).pc = s.pc := rfl
@[simp] theorem State.setFt_chan (s : State) (p : Nat) (x : FieldTest) : (s.setFt p x).chan = s.chan := rfl
@[simp] theorem State.setFt_port (s : State) (p : Nat) (x : FieldTest) : (s.setFt p x).port = s.port := rfl
@[simp] theorem State.setFt_noUp (s : State) (p : Nat) (x : FieldTest) : (s.setFt p x).noUp = s.noUp := rfl
@[simp] theorem State.setFt_ctx (s : State) (p : Nat) (x : FieldTest) : (s.setFt p x).ctx = s.ctx := rfl
@[simp] theorem State.setFt_aux (s : State) (p : Nat) (x : FieldTest) : (s.setFt p x).aux = s.aux := rfl
@[simp] theorem State.setFt_park (s : State) (p : Nat) (x : FieldTest) : (s.setFt p x).park = s.park := rfl
@[simp] theorem State.setFt_colq (s : State) (p : Nat) (x : FieldTest) : (s.setFt p x).colq = s.colq := rfl
@[simp] theorem State.setFt_assay (s : State) (p : Nat) (x : FieldTest) : (s.setFt p x).assay = s.assay := rfl
@[simp] theorem State.setFt_strata (s : State) (p : Nat) (x : FieldTest) : (s.setFt p x).strata = s.strata := rfl
@[simp] theorem State.setFt_images (s : State) (p : Nat) (x : FieldTest) : (s.setFt p x).images = s.images := rfl
@[simp] theorem State.setFt_resets (s : State) (p : Nat) (x : FieldTest) : (s.setFt p x).resets = s.resets := rfl
@[simp] theorem State.setFt_member (s : State) (p : Nat) (x : FieldTest) : (s.setFt p x).member = s.member := rfl
@[simp] theorem State.setFt_tenancy (s : State) (p : Nat) (x : FieldTest) : (s.setFt p x).tenancy = s.tenancy := rfl
@[simp] theorem State.setFt_sess (s : State) (p : Nat) (x : FieldTest) : (s.setFt p x).sess = s.sess := rfl
@[simp] theorem State.setFt_host (s : State) (p : Nat) (x : FieldTest) : (s.setFt p x).host = s.host := rfl
@[simp] theorem State.setFt_handles (s : State) (p : Nat) (x : FieldTest) : (s.setFt p x).handles = s.handles := rfl
@[simp] theorem State.setFt_mkey (s : State) (p : Nat) (x : FieldTest) : (s.setFt p x).mkey = s.mkey := rfl
@[simp] theorem State.setFt_mreq (s : State) (p : Nat) (x : FieldTest) : (s.setFt p x).mreq = s.mreq := rfl
@[simp] theorem State.setFt_anonces (s : State) (p : Nat) (x : FieldTest) : (s.setFt p x).anonces = s.anonces := rfl
@[simp] theorem State.setFt_drbgReqs (s : State) (p : Nat) (x : FieldTest) : (s.setFt p x).drbgReqs = s.drbgReqs := rfl
@[simp] theorem State.setFt_recSeq (s : State) (p : Nat) (x : FieldTest) : (s.setFt p x).recSeq = s.recSeq := rfl
@[simp] theorem State.setFt_recPend (s : State) (p : Nat) (x : FieldTest) : (s.setFt p x).recPend = s.recPend := rfl
@[simp] theorem State.setFt_recFlush (s : State) (p : Nat) (x : FieldTest) : (s.setFt p x).recFlush = s.recFlush := rfl
@[simp] theorem State.setFt_suppressed (s : State) (p : Nat) (x : FieldTest) : (s.setFt p x).suppressed = s.suppressed := rfl
@[simp] theorem State.setFt_corrSeen (s : State) (p : Nat) (x : FieldTest) : (s.setFt p x).corrSeen = s.corrSeen := rfl
@[simp] theorem State.setFt_elog (s : State) (p : Nat) (x : FieldTest) : (s.setFt p x).elog = s.elog := rfl
@[simp] theorem State.setFt_events (s : State) (p : Nat) (x : FieldTest) : (s.setFt p x).events = s.events := rfl
@[simp] theorem State.setFt_pwrCycle (s : State) (p : Nat) (x : FieldTest) : (s.setFt p x).pwrCycle = s.pwrCycle := rfl
@[simp] theorem State.setFt_i3cAddr (s : State) (p : Nat) (x : FieldTest) : (s.setFt p x).i3cAddr = s.i3cAddr := rfl
@[simp] theorem State.setFt_mctpEid (s : State) (p : Nat) (x : FieldTest) : (s.setFt p x).mctpEid = s.mctpEid := rfl
@[simp] theorem State.setFt_rotUplink (s : State) (p : Nat) (x : FieldTest) : (s.setFt p x).rotUplink = s.rotUplink := rfl
@[simp] theorem State.setFt_summ (s : State) (p : Nat) (x : FieldTest) : (s.setFt p x).summ = s.summ := rfl
@[simp] theorem State.setFt_freeCtr (s : State) (p : Nat) (x : FieldTest) : (s.setFt p x).freeCtr = s.freeCtr := rfl
@[simp] theorem State.setFt_out (s : State) (p : Nat) (x : FieldTest) : (s.setFt p x).out = s.out := rfl

@[simp] theorem State.setMember_pending (s : State) (p : Nat) (x : Membership) : (s.setMember p x).pending = s.pending := rfl
@[simp] theorem State.setMember_fuse (s : State) (p : Nat) (x : Membership) : (s.setMember p x).fuse = s.fuse := rfl
@[simp] theorem State.setMember_cfg (s : State) (p : Nat) (x : Membership) : (s.setMember p x).cfg = s.cfg := rfl
@[simp] theorem State.setMember_log (s : State) (p : Nat) (x : Membership) : (s.setMember p x).log = s.log := rfl
@[simp] theorem State.setMember_flash (s : State) (p : Nat) (x : Membership) : (s.setMember p x).flash = s.flash := rfl
@[simp] theorem State.setMember_boot (s : State) (p : Nat) (x : Membership) : (s.setMember p x).boot = s.boot := rfl
@[simp] theorem State.setMember_power (s : State) (p : Nat) (x : Membership) : (s.setMember p x).power = s.power := rfl
@[simp] theorem State.setMember_gov (s : State) (p : Nat) (x : Membership) : (s.setMember p x).gov = s.gov := rfl
@[simp] theorem State.setMember_flds (s : State) (p : Nat) (x : Membership) : (s.setMember p x).flds = s.flds := rfl
@[simp] theorem State.setMember_mem (s : State) (p : Nat) (x : Membership) : (s.setMember p x).mem = s.mem := rfl
@[simp] theorem State.setMember_tileChk (s : State) (p : Nat) (x : Membership) : (s.setMember p x).tileChk = s.tileChk := rfl
@[simp] theorem State.setMember_acc (s : State) (p : Nat) (x : Membership) : (s.setMember p x).acc = s.acc := rfl
@[simp] theorem State.setMember_treg (s : State) (p : Nat) (x : Membership) : (s.setMember p x).treg = s.treg := rfl
@[simp] theorem State.setMember_loaded (s : State) (p : Nat) (x : Membership) : (s.setMember p x).loaded = s.loaded := rfl
@[simp] theorem State.setMember_garnet (s : State) (p : Nat) (x : Membership) : (s.setMember p x).garnet = s.garnet := rfl
@[simp] theorem State.setMember_stage (s : State) (p : Nat) (x : Membership) : (s.setMember p x).stage = s.stage := rfl
@[simp] theorem State.setMember_flint (s : State) (p : Nat) (x : Membership) : (s.setMember p x).flint = s.flint := rfl
@[simp] theorem State.setMember_queue (s : State) (p : Nat) (x : Membership) : (s.setMember p x).queue = s.queue := rfl
@[simp] theorem State.setMember_mover (s : State) (p : Nat) (x : Membership) : (s.setMember p x).mover = s.mover := rfl
@[simp] theorem State.setMember_disp (s : State) (p : Nat) (x : Membership) : (s.setMember p x).disp = s.disp := rfl
@[simp] theorem State.setMember_pc (s : State) (p : Nat) (x : Membership) : (s.setMember p x).pc = s.pc := rfl
@[simp] theorem State.setMember_chan (s : State) (p : Nat) (x : Membership) : (s.setMember p x).chan = s.chan := rfl
@[simp] theorem State.setMember_port (s : State) (p : Nat) (x : Membership) : (s.setMember p x).port = s.port := rfl
@[simp] theorem State.setMember_noUp (s : State) (p : Nat) (x : Membership) : (s.setMember p x).noUp = s.noUp := rfl
@[simp] theorem State.setMember_ctx (s : State) (p : Nat) (x : Membership) : (s.setMember p x).ctx = s.ctx := rfl
@[simp] theorem State.setMember_aux (s : State) (p : Nat) (x : Membership) : (s.setMember p x).aux = s.aux := rfl
@[simp] theorem State.setMember_park (s : State) (p : Nat) (x : Membership) : (s.setMember p x).park = s.park := rfl
@[simp] theorem State.setMember_colq (s : State) (p : Nat) (x : Membership) : (s.setMember p x).colq = s.colq := rfl
@[simp] theorem State.setMember_assay (s : State) (p : Nat) (x : Membership) : (s.setMember p x).assay = s.assay := rfl
@[simp] theorem State.setMember_strata (s : State) (p : Nat) (x : Membership) : (s.setMember p x).strata = s.strata := rfl
@[simp] theorem State.setMember_images (s : State) (p : Nat) (x : Membership) : (s.setMember p x).images = s.images := rfl
@[simp] theorem State.setMember_resets (s : State) (p : Nat) (x : Membership) : (s.setMember p x).resets = s.resets := rfl
@[simp] theorem State.setMember_ftest (s : State) (p : Nat) (x : Membership) : (s.setMember p x).ftest = s.ftest := rfl
@[simp] theorem State.setMember_tenancy (s : State) (p : Nat) (x : Membership) : (s.setMember p x).tenancy = s.tenancy := rfl
@[simp] theorem State.setMember_sess (s : State) (p : Nat) (x : Membership) : (s.setMember p x).sess = s.sess := rfl
@[simp] theorem State.setMember_host (s : State) (p : Nat) (x : Membership) : (s.setMember p x).host = s.host := rfl
@[simp] theorem State.setMember_handles (s : State) (p : Nat) (x : Membership) : (s.setMember p x).handles = s.handles := rfl
@[simp] theorem State.setMember_mkey (s : State) (p : Nat) (x : Membership) : (s.setMember p x).mkey = s.mkey := rfl
@[simp] theorem State.setMember_mreq (s : State) (p : Nat) (x : Membership) : (s.setMember p x).mreq = s.mreq := rfl
@[simp] theorem State.setMember_anonces (s : State) (p : Nat) (x : Membership) : (s.setMember p x).anonces = s.anonces := rfl
@[simp] theorem State.setMember_drbgReqs (s : State) (p : Nat) (x : Membership) : (s.setMember p x).drbgReqs = s.drbgReqs := rfl
@[simp] theorem State.setMember_recSeq (s : State) (p : Nat) (x : Membership) : (s.setMember p x).recSeq = s.recSeq := rfl
@[simp] theorem State.setMember_recPend (s : State) (p : Nat) (x : Membership) : (s.setMember p x).recPend = s.recPend := rfl
@[simp] theorem State.setMember_recFlush (s : State) (p : Nat) (x : Membership) : (s.setMember p x).recFlush = s.recFlush := rfl
@[simp] theorem State.setMember_suppressed (s : State) (p : Nat) (x : Membership) : (s.setMember p x).suppressed = s.suppressed := rfl
@[simp] theorem State.setMember_corrSeen (s : State) (p : Nat) (x : Membership) : (s.setMember p x).corrSeen = s.corrSeen := rfl
@[simp] theorem State.setMember_elog (s : State) (p : Nat) (x : Membership) : (s.setMember p x).elog = s.elog := rfl
@[simp] theorem State.setMember_events (s : State) (p : Nat) (x : Membership) : (s.setMember p x).events = s.events := rfl
@[simp] theorem State.setMember_pwrCycle (s : State) (p : Nat) (x : Membership) : (s.setMember p x).pwrCycle = s.pwrCycle := rfl
@[simp] theorem State.setMember_i3cAddr (s : State) (p : Nat) (x : Membership) : (s.setMember p x).i3cAddr = s.i3cAddr := rfl
@[simp] theorem State.setMember_mctpEid (s : State) (p : Nat) (x : Membership) : (s.setMember p x).mctpEid = s.mctpEid := rfl
@[simp] theorem State.setMember_rotUplink (s : State) (p : Nat) (x : Membership) : (s.setMember p x).rotUplink = s.rotUplink := rfl
@[simp] theorem State.setMember_summ (s : State) (p : Nat) (x : Membership) : (s.setMember p x).summ = s.summ := rfl
@[simp] theorem State.setMember_freeCtr (s : State) (p : Nat) (x : Membership) : (s.setMember p x).freeCtr = s.freeCtr := rfl
@[simp] theorem State.setMember_out (s : State) (p : Nat) (x : Membership) : (s.setMember p x).out = s.out := rfl

@[simp] theorem State.setTen_pending (s : State) (p : Nat) (x : Tenancy) : (s.setTen p x).pending = s.pending := rfl
@[simp] theorem State.setTen_fuse (s : State) (p : Nat) (x : Tenancy) : (s.setTen p x).fuse = s.fuse := rfl
@[simp] theorem State.setTen_cfg (s : State) (p : Nat) (x : Tenancy) : (s.setTen p x).cfg = s.cfg := rfl
@[simp] theorem State.setTen_log (s : State) (p : Nat) (x : Tenancy) : (s.setTen p x).log = s.log := rfl
@[simp] theorem State.setTen_flash (s : State) (p : Nat) (x : Tenancy) : (s.setTen p x).flash = s.flash := rfl
@[simp] theorem State.setTen_boot (s : State) (p : Nat) (x : Tenancy) : (s.setTen p x).boot = s.boot := rfl
@[simp] theorem State.setTen_power (s : State) (p : Nat) (x : Tenancy) : (s.setTen p x).power = s.power := rfl
@[simp] theorem State.setTen_gov (s : State) (p : Nat) (x : Tenancy) : (s.setTen p x).gov = s.gov := rfl
@[simp] theorem State.setTen_flds (s : State) (p : Nat) (x : Tenancy) : (s.setTen p x).flds = s.flds := rfl
@[simp] theorem State.setTen_mem (s : State) (p : Nat) (x : Tenancy) : (s.setTen p x).mem = s.mem := rfl
@[simp] theorem State.setTen_tileChk (s : State) (p : Nat) (x : Tenancy) : (s.setTen p x).tileChk = s.tileChk := rfl
@[simp] theorem State.setTen_acc (s : State) (p : Nat) (x : Tenancy) : (s.setTen p x).acc = s.acc := rfl
@[simp] theorem State.setTen_treg (s : State) (p : Nat) (x : Tenancy) : (s.setTen p x).treg = s.treg := rfl
@[simp] theorem State.setTen_loaded (s : State) (p : Nat) (x : Tenancy) : (s.setTen p x).loaded = s.loaded := rfl
@[simp] theorem State.setTen_garnet (s : State) (p : Nat) (x : Tenancy) : (s.setTen p x).garnet = s.garnet := rfl
@[simp] theorem State.setTen_stage (s : State) (p : Nat) (x : Tenancy) : (s.setTen p x).stage = s.stage := rfl
@[simp] theorem State.setTen_flint (s : State) (p : Nat) (x : Tenancy) : (s.setTen p x).flint = s.flint := rfl
@[simp] theorem State.setTen_queue (s : State) (p : Nat) (x : Tenancy) : (s.setTen p x).queue = s.queue := rfl
@[simp] theorem State.setTen_mover (s : State) (p : Nat) (x : Tenancy) : (s.setTen p x).mover = s.mover := rfl
@[simp] theorem State.setTen_disp (s : State) (p : Nat) (x : Tenancy) : (s.setTen p x).disp = s.disp := rfl
@[simp] theorem State.setTen_pc (s : State) (p : Nat) (x : Tenancy) : (s.setTen p x).pc = s.pc := rfl
@[simp] theorem State.setTen_chan (s : State) (p : Nat) (x : Tenancy) : (s.setTen p x).chan = s.chan := rfl
@[simp] theorem State.setTen_port (s : State) (p : Nat) (x : Tenancy) : (s.setTen p x).port = s.port := rfl
@[simp] theorem State.setTen_noUp (s : State) (p : Nat) (x : Tenancy) : (s.setTen p x).noUp = s.noUp := rfl
@[simp] theorem State.setTen_ctx (s : State) (p : Nat) (x : Tenancy) : (s.setTen p x).ctx = s.ctx := rfl
@[simp] theorem State.setTen_aux (s : State) (p : Nat) (x : Tenancy) : (s.setTen p x).aux = s.aux := rfl
@[simp] theorem State.setTen_park (s : State) (p : Nat) (x : Tenancy) : (s.setTen p x).park = s.park := rfl
@[simp] theorem State.setTen_colq (s : State) (p : Nat) (x : Tenancy) : (s.setTen p x).colq = s.colq := rfl
@[simp] theorem State.setTen_assay (s : State) (p : Nat) (x : Tenancy) : (s.setTen p x).assay = s.assay := rfl
@[simp] theorem State.setTen_strata (s : State) (p : Nat) (x : Tenancy) : (s.setTen p x).strata = s.strata := rfl
@[simp] theorem State.setTen_images (s : State) (p : Nat) (x : Tenancy) : (s.setTen p x).images = s.images := rfl
@[simp] theorem State.setTen_resets (s : State) (p : Nat) (x : Tenancy) : (s.setTen p x).resets = s.resets := rfl
@[simp] theorem State.setTen_ftest (s : State) (p : Nat) (x : Tenancy) : (s.setTen p x).ftest = s.ftest := rfl
@[simp] theorem State.setTen_member (s : State) (p : Nat) (x : Tenancy) : (s.setTen p x).member = s.member := rfl
@[simp] theorem State.setTen_sess (s : State) (p : Nat) (x : Tenancy) : (s.setTen p x).sess = s.sess := rfl
@[simp] theorem State.setTen_host (s : State) (p : Nat) (x : Tenancy) : (s.setTen p x).host = s.host := rfl
@[simp] theorem State.setTen_handles (s : State) (p : Nat) (x : Tenancy) : (s.setTen p x).handles = s.handles := rfl
@[simp] theorem State.setTen_mkey (s : State) (p : Nat) (x : Tenancy) : (s.setTen p x).mkey = s.mkey := rfl
@[simp] theorem State.setTen_mreq (s : State) (p : Nat) (x : Tenancy) : (s.setTen p x).mreq = s.mreq := rfl
@[simp] theorem State.setTen_anonces (s : State) (p : Nat) (x : Tenancy) : (s.setTen p x).anonces = s.anonces := rfl
@[simp] theorem State.setTen_drbgReqs (s : State) (p : Nat) (x : Tenancy) : (s.setTen p x).drbgReqs = s.drbgReqs := rfl
@[simp] theorem State.setTen_recSeq (s : State) (p : Nat) (x : Tenancy) : (s.setTen p x).recSeq = s.recSeq := rfl
@[simp] theorem State.setTen_recPend (s : State) (p : Nat) (x : Tenancy) : (s.setTen p x).recPend = s.recPend := rfl
@[simp] theorem State.setTen_recFlush (s : State) (p : Nat) (x : Tenancy) : (s.setTen p x).recFlush = s.recFlush := rfl
@[simp] theorem State.setTen_suppressed (s : State) (p : Nat) (x : Tenancy) : (s.setTen p x).suppressed = s.suppressed := rfl
@[simp] theorem State.setTen_corrSeen (s : State) (p : Nat) (x : Tenancy) : (s.setTen p x).corrSeen = s.corrSeen := rfl
@[simp] theorem State.setTen_elog (s : State) (p : Nat) (x : Tenancy) : (s.setTen p x).elog = s.elog := rfl
@[simp] theorem State.setTen_events (s : State) (p : Nat) (x : Tenancy) : (s.setTen p x).events = s.events := rfl
@[simp] theorem State.setTen_pwrCycle (s : State) (p : Nat) (x : Tenancy) : (s.setTen p x).pwrCycle = s.pwrCycle := rfl
@[simp] theorem State.setTen_i3cAddr (s : State) (p : Nat) (x : Tenancy) : (s.setTen p x).i3cAddr = s.i3cAddr := rfl
@[simp] theorem State.setTen_mctpEid (s : State) (p : Nat) (x : Tenancy) : (s.setTen p x).mctpEid = s.mctpEid := rfl
@[simp] theorem State.setTen_rotUplink (s : State) (p : Nat) (x : Tenancy) : (s.setTen p x).rotUplink = s.rotUplink := rfl
@[simp] theorem State.setTen_summ (s : State) (p : Nat) (x : Tenancy) : (s.setTen p x).summ = s.summ := rfl
@[simp] theorem State.setTen_freeCtr (s : State) (p : Nat) (x : Tenancy) : (s.setTen p x).freeCtr = s.freeCtr := rfl
@[simp] theorem State.setTen_out (s : State) (p : Nat) (x : Tenancy) : (s.setTen p x).out = s.out := rfl

@[simp] theorem State.setHost_pending (s : State) (n : Nat) (x : HostFn) : (s.setHost n x).pending = s.pending := rfl
@[simp] theorem State.setHost_fuse (s : State) (n : Nat) (x : HostFn) : (s.setHost n x).fuse = s.fuse := rfl
@[simp] theorem State.setHost_cfg (s : State) (n : Nat) (x : HostFn) : (s.setHost n x).cfg = s.cfg := rfl
@[simp] theorem State.setHost_log (s : State) (n : Nat) (x : HostFn) : (s.setHost n x).log = s.log := rfl
@[simp] theorem State.setHost_flash (s : State) (n : Nat) (x : HostFn) : (s.setHost n x).flash = s.flash := rfl
@[simp] theorem State.setHost_boot (s : State) (n : Nat) (x : HostFn) : (s.setHost n x).boot = s.boot := rfl
@[simp] theorem State.setHost_power (s : State) (n : Nat) (x : HostFn) : (s.setHost n x).power = s.power := rfl
@[simp] theorem State.setHost_gov (s : State) (n : Nat) (x : HostFn) : (s.setHost n x).gov = s.gov := rfl
@[simp] theorem State.setHost_flds (s : State) (n : Nat) (x : HostFn) : (s.setHost n x).flds = s.flds := rfl
@[simp] theorem State.setHost_mem (s : State) (n : Nat) (x : HostFn) : (s.setHost n x).mem = s.mem := rfl
@[simp] theorem State.setHost_tileChk (s : State) (n : Nat) (x : HostFn) : (s.setHost n x).tileChk = s.tileChk := rfl
@[simp] theorem State.setHost_acc (s : State) (n : Nat) (x : HostFn) : (s.setHost n x).acc = s.acc := rfl
@[simp] theorem State.setHost_treg (s : State) (n : Nat) (x : HostFn) : (s.setHost n x).treg = s.treg := rfl
@[simp] theorem State.setHost_loaded (s : State) (n : Nat) (x : HostFn) : (s.setHost n x).loaded = s.loaded := rfl
@[simp] theorem State.setHost_garnet (s : State) (n : Nat) (x : HostFn) : (s.setHost n x).garnet = s.garnet := rfl
@[simp] theorem State.setHost_stage (s : State) (n : Nat) (x : HostFn) : (s.setHost n x).stage = s.stage := rfl
@[simp] theorem State.setHost_flint (s : State) (n : Nat) (x : HostFn) : (s.setHost n x).flint = s.flint := rfl
@[simp] theorem State.setHost_queue (s : State) (n : Nat) (x : HostFn) : (s.setHost n x).queue = s.queue := rfl
@[simp] theorem State.setHost_mover (s : State) (n : Nat) (x : HostFn) : (s.setHost n x).mover = s.mover := rfl
@[simp] theorem State.setHost_disp (s : State) (n : Nat) (x : HostFn) : (s.setHost n x).disp = s.disp := rfl
@[simp] theorem State.setHost_pc (s : State) (n : Nat) (x : HostFn) : (s.setHost n x).pc = s.pc := rfl
@[simp] theorem State.setHost_chan (s : State) (n : Nat) (x : HostFn) : (s.setHost n x).chan = s.chan := rfl
@[simp] theorem State.setHost_port (s : State) (n : Nat) (x : HostFn) : (s.setHost n x).port = s.port := rfl
@[simp] theorem State.setHost_noUp (s : State) (n : Nat) (x : HostFn) : (s.setHost n x).noUp = s.noUp := rfl
@[simp] theorem State.setHost_ctx (s : State) (n : Nat) (x : HostFn) : (s.setHost n x).ctx = s.ctx := rfl
@[simp] theorem State.setHost_aux (s : State) (n : Nat) (x : HostFn) : (s.setHost n x).aux = s.aux := rfl
@[simp] theorem State.setHost_park (s : State) (n : Nat) (x : HostFn) : (s.setHost n x).park = s.park := rfl
@[simp] theorem State.setHost_colq (s : State) (n : Nat) (x : HostFn) : (s.setHost n x).colq = s.colq := rfl
@[simp] theorem State.setHost_assay (s : State) (n : Nat) (x : HostFn) : (s.setHost n x).assay = s.assay := rfl
@[simp] theorem State.setHost_strata (s : State) (n : Nat) (x : HostFn) : (s.setHost n x).strata = s.strata := rfl
@[simp] theorem State.setHost_images (s : State) (n : Nat) (x : HostFn) : (s.setHost n x).images = s.images := rfl
@[simp] theorem State.setHost_resets (s : State) (n : Nat) (x : HostFn) : (s.setHost n x).resets = s.resets := rfl
@[simp] theorem State.setHost_ftest (s : State) (n : Nat) (x : HostFn) : (s.setHost n x).ftest = s.ftest := rfl
@[simp] theorem State.setHost_member (s : State) (n : Nat) (x : HostFn) : (s.setHost n x).member = s.member := rfl
@[simp] theorem State.setHost_tenancy (s : State) (n : Nat) (x : HostFn) : (s.setHost n x).tenancy = s.tenancy := rfl
@[simp] theorem State.setHost_sess (s : State) (n : Nat) (x : HostFn) : (s.setHost n x).sess = s.sess := rfl
@[simp] theorem State.setHost_handles (s : State) (n : Nat) (x : HostFn) : (s.setHost n x).handles = s.handles := rfl
@[simp] theorem State.setHost_mkey (s : State) (n : Nat) (x : HostFn) : (s.setHost n x).mkey = s.mkey := rfl
@[simp] theorem State.setHost_mreq (s : State) (n : Nat) (x : HostFn) : (s.setHost n x).mreq = s.mreq := rfl
@[simp] theorem State.setHost_anonces (s : State) (n : Nat) (x : HostFn) : (s.setHost n x).anonces = s.anonces := rfl
@[simp] theorem State.setHost_drbgReqs (s : State) (n : Nat) (x : HostFn) : (s.setHost n x).drbgReqs = s.drbgReqs := rfl
@[simp] theorem State.setHost_recSeq (s : State) (n : Nat) (x : HostFn) : (s.setHost n x).recSeq = s.recSeq := rfl
@[simp] theorem State.setHost_recPend (s : State) (n : Nat) (x : HostFn) : (s.setHost n x).recPend = s.recPend := rfl
@[simp] theorem State.setHost_recFlush (s : State) (n : Nat) (x : HostFn) : (s.setHost n x).recFlush = s.recFlush := rfl
@[simp] theorem State.setHost_suppressed (s : State) (n : Nat) (x : HostFn) : (s.setHost n x).suppressed = s.suppressed := rfl
@[simp] theorem State.setHost_corrSeen (s : State) (n : Nat) (x : HostFn) : (s.setHost n x).corrSeen = s.corrSeen := rfl
@[simp] theorem State.setHost_elog (s : State) (n : Nat) (x : HostFn) : (s.setHost n x).elog = s.elog := rfl
@[simp] theorem State.setHost_events (s : State) (n : Nat) (x : HostFn) : (s.setHost n x).events = s.events := rfl
@[simp] theorem State.setHost_pwrCycle (s : State) (n : Nat) (x : HostFn) : (s.setHost n x).pwrCycle = s.pwrCycle := rfl
@[simp] theorem State.setHost_i3cAddr (s : State) (n : Nat) (x : HostFn) : (s.setHost n x).i3cAddr = s.i3cAddr := rfl
@[simp] theorem State.setHost_mctpEid (s : State) (n : Nat) (x : HostFn) : (s.setHost n x).mctpEid = s.mctpEid := rfl
@[simp] theorem State.setHost_rotUplink (s : State) (n : Nat) (x : HostFn) : (s.setHost n x).rotUplink = s.rotUplink := rfl
@[simp] theorem State.setHost_summ (s : State) (n : Nat) (x : HostFn) : (s.setHost n x).summ = s.summ := rfl
@[simp] theorem State.setHost_freeCtr (s : State) (n : Nat) (x : HostFn) : (s.setHost n x).freeCtr = s.freeCtr := rfl
@[simp] theorem State.setHost_out (s : State) (n : Nat) (x : HostFn) : (s.setHost n x).out = s.out := rfl

@[simp] theorem State.setHandle_pending (s : State) (i : Nat) (x : Option HostHandle) : (s.setHandle i x).pending = s.pending := rfl
@[simp] theorem State.setHandle_fuse (s : State) (i : Nat) (x : Option HostHandle) : (s.setHandle i x).fuse = s.fuse := rfl
@[simp] theorem State.setHandle_cfg (s : State) (i : Nat) (x : Option HostHandle) : (s.setHandle i x).cfg = s.cfg := rfl
@[simp] theorem State.setHandle_log (s : State) (i : Nat) (x : Option HostHandle) : (s.setHandle i x).log = s.log := rfl
@[simp] theorem State.setHandle_flash (s : State) (i : Nat) (x : Option HostHandle) : (s.setHandle i x).flash = s.flash := rfl
@[simp] theorem State.setHandle_boot (s : State) (i : Nat) (x : Option HostHandle) : (s.setHandle i x).boot = s.boot := rfl
@[simp] theorem State.setHandle_power (s : State) (i : Nat) (x : Option HostHandle) : (s.setHandle i x).power = s.power := rfl
@[simp] theorem State.setHandle_gov (s : State) (i : Nat) (x : Option HostHandle) : (s.setHandle i x).gov = s.gov := rfl
@[simp] theorem State.setHandle_flds (s : State) (i : Nat) (x : Option HostHandle) : (s.setHandle i x).flds = s.flds := rfl
@[simp] theorem State.setHandle_mem (s : State) (i : Nat) (x : Option HostHandle) : (s.setHandle i x).mem = s.mem := rfl
@[simp] theorem State.setHandle_tileChk (s : State) (i : Nat) (x : Option HostHandle) : (s.setHandle i x).tileChk = s.tileChk := rfl
@[simp] theorem State.setHandle_acc (s : State) (i : Nat) (x : Option HostHandle) : (s.setHandle i x).acc = s.acc := rfl
@[simp] theorem State.setHandle_treg (s : State) (i : Nat) (x : Option HostHandle) : (s.setHandle i x).treg = s.treg := rfl
@[simp] theorem State.setHandle_loaded (s : State) (i : Nat) (x : Option HostHandle) : (s.setHandle i x).loaded = s.loaded := rfl
@[simp] theorem State.setHandle_garnet (s : State) (i : Nat) (x : Option HostHandle) : (s.setHandle i x).garnet = s.garnet := rfl
@[simp] theorem State.setHandle_stage (s : State) (i : Nat) (x : Option HostHandle) : (s.setHandle i x).stage = s.stage := rfl
@[simp] theorem State.setHandle_flint (s : State) (i : Nat) (x : Option HostHandle) : (s.setHandle i x).flint = s.flint := rfl
@[simp] theorem State.setHandle_queue (s : State) (i : Nat) (x : Option HostHandle) : (s.setHandle i x).queue = s.queue := rfl
@[simp] theorem State.setHandle_mover (s : State) (i : Nat) (x : Option HostHandle) : (s.setHandle i x).mover = s.mover := rfl
@[simp] theorem State.setHandle_disp (s : State) (i : Nat) (x : Option HostHandle) : (s.setHandle i x).disp = s.disp := rfl
@[simp] theorem State.setHandle_pc (s : State) (i : Nat) (x : Option HostHandle) : (s.setHandle i x).pc = s.pc := rfl
@[simp] theorem State.setHandle_chan (s : State) (i : Nat) (x : Option HostHandle) : (s.setHandle i x).chan = s.chan := rfl
@[simp] theorem State.setHandle_port (s : State) (i : Nat) (x : Option HostHandle) : (s.setHandle i x).port = s.port := rfl
@[simp] theorem State.setHandle_noUp (s : State) (i : Nat) (x : Option HostHandle) : (s.setHandle i x).noUp = s.noUp := rfl
@[simp] theorem State.setHandle_ctx (s : State) (i : Nat) (x : Option HostHandle) : (s.setHandle i x).ctx = s.ctx := rfl
@[simp] theorem State.setHandle_aux (s : State) (i : Nat) (x : Option HostHandle) : (s.setHandle i x).aux = s.aux := rfl
@[simp] theorem State.setHandle_park (s : State) (i : Nat) (x : Option HostHandle) : (s.setHandle i x).park = s.park := rfl
@[simp] theorem State.setHandle_colq (s : State) (i : Nat) (x : Option HostHandle) : (s.setHandle i x).colq = s.colq := rfl
@[simp] theorem State.setHandle_assay (s : State) (i : Nat) (x : Option HostHandle) : (s.setHandle i x).assay = s.assay := rfl
@[simp] theorem State.setHandle_strata (s : State) (i : Nat) (x : Option HostHandle) : (s.setHandle i x).strata = s.strata := rfl
@[simp] theorem State.setHandle_images (s : State) (i : Nat) (x : Option HostHandle) : (s.setHandle i x).images = s.images := rfl
@[simp] theorem State.setHandle_resets (s : State) (i : Nat) (x : Option HostHandle) : (s.setHandle i x).resets = s.resets := rfl
@[simp] theorem State.setHandle_ftest (s : State) (i : Nat) (x : Option HostHandle) : (s.setHandle i x).ftest = s.ftest := rfl
@[simp] theorem State.setHandle_member (s : State) (i : Nat) (x : Option HostHandle) : (s.setHandle i x).member = s.member := rfl
@[simp] theorem State.setHandle_tenancy (s : State) (i : Nat) (x : Option HostHandle) : (s.setHandle i x).tenancy = s.tenancy := rfl
@[simp] theorem State.setHandle_sess (s : State) (i : Nat) (x : Option HostHandle) : (s.setHandle i x).sess = s.sess := rfl
@[simp] theorem State.setHandle_host (s : State) (i : Nat) (x : Option HostHandle) : (s.setHandle i x).host = s.host := rfl
@[simp] theorem State.setHandle_mkey (s : State) (i : Nat) (x : Option HostHandle) : (s.setHandle i x).mkey = s.mkey := rfl
@[simp] theorem State.setHandle_mreq (s : State) (i : Nat) (x : Option HostHandle) : (s.setHandle i x).mreq = s.mreq := rfl
@[simp] theorem State.setHandle_anonces (s : State) (i : Nat) (x : Option HostHandle) : (s.setHandle i x).anonces = s.anonces := rfl
@[simp] theorem State.setHandle_drbgReqs (s : State) (i : Nat) (x : Option HostHandle) : (s.setHandle i x).drbgReqs = s.drbgReqs := rfl
@[simp] theorem State.setHandle_recSeq (s : State) (i : Nat) (x : Option HostHandle) : (s.setHandle i x).recSeq = s.recSeq := rfl
@[simp] theorem State.setHandle_recPend (s : State) (i : Nat) (x : Option HostHandle) : (s.setHandle i x).recPend = s.recPend := rfl
@[simp] theorem State.setHandle_recFlush (s : State) (i : Nat) (x : Option HostHandle) : (s.setHandle i x).recFlush = s.recFlush := rfl
@[simp] theorem State.setHandle_suppressed (s : State) (i : Nat) (x : Option HostHandle) : (s.setHandle i x).suppressed = s.suppressed := rfl
@[simp] theorem State.setHandle_corrSeen (s : State) (i : Nat) (x : Option HostHandle) : (s.setHandle i x).corrSeen = s.corrSeen := rfl
@[simp] theorem State.setHandle_elog (s : State) (i : Nat) (x : Option HostHandle) : (s.setHandle i x).elog = s.elog := rfl
@[simp] theorem State.setHandle_events (s : State) (i : Nat) (x : Option HostHandle) : (s.setHandle i x).events = s.events := rfl
@[simp] theorem State.setHandle_pwrCycle (s : State) (i : Nat) (x : Option HostHandle) : (s.setHandle i x).pwrCycle = s.pwrCycle := rfl
@[simp] theorem State.setHandle_i3cAddr (s : State) (i : Nat) (x : Option HostHandle) : (s.setHandle i x).i3cAddr = s.i3cAddr := rfl
@[simp] theorem State.setHandle_mctpEid (s : State) (i : Nat) (x : Option HostHandle) : (s.setHandle i x).mctpEid = s.mctpEid := rfl
@[simp] theorem State.setHandle_rotUplink (s : State) (i : Nat) (x : Option HostHandle) : (s.setHandle i x).rotUplink = s.rotUplink := rfl
@[simp] theorem State.setHandle_summ (s : State) (i : Nat) (x : Option HostHandle) : (s.setHandle i x).summ = s.summ := rfl
@[simp] theorem State.setHandle_freeCtr (s : State) (i : Nat) (x : Option HostHandle) : (s.setHandle i x).freeCtr = s.freeCtr := rfl
@[simp] theorem State.setHandle_out (s : State) (i : Nat) (x : Option HostHandle) : (s.setHandle i x).out = s.out := rfl

@[simp] theorem State.setSess_pending (s : State) (k : Nat) (x : Session) : (s.setSess k x).pending = s.pending := rfl
@[simp] theorem State.setSess_fuse (s : State) (k : Nat) (x : Session) : (s.setSess k x).fuse = s.fuse := rfl
@[simp] theorem State.setSess_cfg (s : State) (k : Nat) (x : Session) : (s.setSess k x).cfg = s.cfg := rfl
@[simp] theorem State.setSess_log (s : State) (k : Nat) (x : Session) : (s.setSess k x).log = s.log := rfl
@[simp] theorem State.setSess_flash (s : State) (k : Nat) (x : Session) : (s.setSess k x).flash = s.flash := rfl
@[simp] theorem State.setSess_boot (s : State) (k : Nat) (x : Session) : (s.setSess k x).boot = s.boot := rfl
@[simp] theorem State.setSess_power (s : State) (k : Nat) (x : Session) : (s.setSess k x).power = s.power := rfl
@[simp] theorem State.setSess_gov (s : State) (k : Nat) (x : Session) : (s.setSess k x).gov = s.gov := rfl
@[simp] theorem State.setSess_flds (s : State) (k : Nat) (x : Session) : (s.setSess k x).flds = s.flds := rfl
@[simp] theorem State.setSess_mem (s : State) (k : Nat) (x : Session) : (s.setSess k x).mem = s.mem := rfl
@[simp] theorem State.setSess_tileChk (s : State) (k : Nat) (x : Session) : (s.setSess k x).tileChk = s.tileChk := rfl
@[simp] theorem State.setSess_acc (s : State) (k : Nat) (x : Session) : (s.setSess k x).acc = s.acc := rfl
@[simp] theorem State.setSess_treg (s : State) (k : Nat) (x : Session) : (s.setSess k x).treg = s.treg := rfl
@[simp] theorem State.setSess_loaded (s : State) (k : Nat) (x : Session) : (s.setSess k x).loaded = s.loaded := rfl
@[simp] theorem State.setSess_garnet (s : State) (k : Nat) (x : Session) : (s.setSess k x).garnet = s.garnet := rfl
@[simp] theorem State.setSess_stage (s : State) (k : Nat) (x : Session) : (s.setSess k x).stage = s.stage := rfl
@[simp] theorem State.setSess_flint (s : State) (k : Nat) (x : Session) : (s.setSess k x).flint = s.flint := rfl
@[simp] theorem State.setSess_queue (s : State) (k : Nat) (x : Session) : (s.setSess k x).queue = s.queue := rfl
@[simp] theorem State.setSess_mover (s : State) (k : Nat) (x : Session) : (s.setSess k x).mover = s.mover := rfl
@[simp] theorem State.setSess_disp (s : State) (k : Nat) (x : Session) : (s.setSess k x).disp = s.disp := rfl
@[simp] theorem State.setSess_pc (s : State) (k : Nat) (x : Session) : (s.setSess k x).pc = s.pc := rfl
@[simp] theorem State.setSess_chan (s : State) (k : Nat) (x : Session) : (s.setSess k x).chan = s.chan := rfl
@[simp] theorem State.setSess_port (s : State) (k : Nat) (x : Session) : (s.setSess k x).port = s.port := rfl
@[simp] theorem State.setSess_noUp (s : State) (k : Nat) (x : Session) : (s.setSess k x).noUp = s.noUp := rfl
@[simp] theorem State.setSess_ctx (s : State) (k : Nat) (x : Session) : (s.setSess k x).ctx = s.ctx := rfl
@[simp] theorem State.setSess_aux (s : State) (k : Nat) (x : Session) : (s.setSess k x).aux = s.aux := rfl
@[simp] theorem State.setSess_park (s : State) (k : Nat) (x : Session) : (s.setSess k x).park = s.park := rfl
@[simp] theorem State.setSess_colq (s : State) (k : Nat) (x : Session) : (s.setSess k x).colq = s.colq := rfl
@[simp] theorem State.setSess_assay (s : State) (k : Nat) (x : Session) : (s.setSess k x).assay = s.assay := rfl
@[simp] theorem State.setSess_strata (s : State) (k : Nat) (x : Session) : (s.setSess k x).strata = s.strata := rfl
@[simp] theorem State.setSess_images (s : State) (k : Nat) (x : Session) : (s.setSess k x).images = s.images := rfl
@[simp] theorem State.setSess_resets (s : State) (k : Nat) (x : Session) : (s.setSess k x).resets = s.resets := rfl
@[simp] theorem State.setSess_ftest (s : State) (k : Nat) (x : Session) : (s.setSess k x).ftest = s.ftest := rfl
@[simp] theorem State.setSess_member (s : State) (k : Nat) (x : Session) : (s.setSess k x).member = s.member := rfl
@[simp] theorem State.setSess_tenancy (s : State) (k : Nat) (x : Session) : (s.setSess k x).tenancy = s.tenancy := rfl
@[simp] theorem State.setSess_host (s : State) (k : Nat) (x : Session) : (s.setSess k x).host = s.host := rfl
@[simp] theorem State.setSess_handles (s : State) (k : Nat) (x : Session) : (s.setSess k x).handles = s.handles := rfl
@[simp] theorem State.setSess_mkey (s : State) (k : Nat) (x : Session) : (s.setSess k x).mkey = s.mkey := rfl
@[simp] theorem State.setSess_mreq (s : State) (k : Nat) (x : Session) : (s.setSess k x).mreq = s.mreq := rfl
@[simp] theorem State.setSess_anonces (s : State) (k : Nat) (x : Session) : (s.setSess k x).anonces = s.anonces := rfl
@[simp] theorem State.setSess_drbgReqs (s : State) (k : Nat) (x : Session) : (s.setSess k x).drbgReqs = s.drbgReqs := rfl
@[simp] theorem State.setSess_recSeq (s : State) (k : Nat) (x : Session) : (s.setSess k x).recSeq = s.recSeq := rfl
@[simp] theorem State.setSess_recPend (s : State) (k : Nat) (x : Session) : (s.setSess k x).recPend = s.recPend := rfl
@[simp] theorem State.setSess_recFlush (s : State) (k : Nat) (x : Session) : (s.setSess k x).recFlush = s.recFlush := rfl
@[simp] theorem State.setSess_suppressed (s : State) (k : Nat) (x : Session) : (s.setSess k x).suppressed = s.suppressed := rfl
@[simp] theorem State.setSess_corrSeen (s : State) (k : Nat) (x : Session) : (s.setSess k x).corrSeen = s.corrSeen := rfl
@[simp] theorem State.setSess_elog (s : State) (k : Nat) (x : Session) : (s.setSess k x).elog = s.elog := rfl
@[simp] theorem State.setSess_events (s : State) (k : Nat) (x : Session) : (s.setSess k x).events = s.events := rfl
@[simp] theorem State.setSess_pwrCycle (s : State) (k : Nat) (x : Session) : (s.setSess k x).pwrCycle = s.pwrCycle := rfl
@[simp] theorem State.setSess_i3cAddr (s : State) (k : Nat) (x : Session) : (s.setSess k x).i3cAddr = s.i3cAddr := rfl
@[simp] theorem State.setSess_mctpEid (s : State) (k : Nat) (x : Session) : (s.setSess k x).mctpEid = s.mctpEid := rfl
@[simp] theorem State.setSess_rotUplink (s : State) (k : Nat) (x : Session) : (s.setSess k x).rotUplink = s.rotUplink := rfl
@[simp] theorem State.setSess_summ (s : State) (k : Nat) (x : Session) : (s.setSess k x).summ = s.summ := rfl
@[simp] theorem State.setSess_freeCtr (s : State) (k : Nat) (x : Session) : (s.setSess k x).freeCtr = s.freeCtr := rfl
@[simp] theorem State.setSess_out (s : State) (k : Nat) (x : Session) : (s.setSess k x).out = s.out := rfl

@[simp] theorem State.setPark_pending (s : State) (p : Nat) (x : List (Nat × TxReq)) : (s.setPark p x).pending = s.pending := rfl
@[simp] theorem State.setPark_fuse (s : State) (p : Nat) (x : List (Nat × TxReq)) : (s.setPark p x).fuse = s.fuse := rfl
@[simp] theorem State.setPark_cfg (s : State) (p : Nat) (x : List (Nat × TxReq)) : (s.setPark p x).cfg = s.cfg := rfl
@[simp] theorem State.setPark_log (s : State) (p : Nat) (x : List (Nat × TxReq)) : (s.setPark p x).log = s.log := rfl
@[simp] theorem State.setPark_flash (s : State) (p : Nat) (x : List (Nat × TxReq)) : (s.setPark p x).flash = s.flash := rfl
@[simp] theorem State.setPark_boot (s : State) (p : Nat) (x : List (Nat × TxReq)) : (s.setPark p x).boot = s.boot := rfl
@[simp] theorem State.setPark_power (s : State) (p : Nat) (x : List (Nat × TxReq)) : (s.setPark p x).power = s.power := rfl
@[simp] theorem State.setPark_gov (s : State) (p : Nat) (x : List (Nat × TxReq)) : (s.setPark p x).gov = s.gov := rfl
@[simp] theorem State.setPark_flds (s : State) (p : Nat) (x : List (Nat × TxReq)) : (s.setPark p x).flds = s.flds := rfl
@[simp] theorem State.setPark_mem (s : State) (p : Nat) (x : List (Nat × TxReq)) : (s.setPark p x).mem = s.mem := rfl
@[simp] theorem State.setPark_tileChk (s : State) (p : Nat) (x : List (Nat × TxReq)) : (s.setPark p x).tileChk = s.tileChk := rfl
@[simp] theorem State.setPark_acc (s : State) (p : Nat) (x : List (Nat × TxReq)) : (s.setPark p x).acc = s.acc := rfl
@[simp] theorem State.setPark_treg (s : State) (p : Nat) (x : List (Nat × TxReq)) : (s.setPark p x).treg = s.treg := rfl
@[simp] theorem State.setPark_loaded (s : State) (p : Nat) (x : List (Nat × TxReq)) : (s.setPark p x).loaded = s.loaded := rfl
@[simp] theorem State.setPark_garnet (s : State) (p : Nat) (x : List (Nat × TxReq)) : (s.setPark p x).garnet = s.garnet := rfl
@[simp] theorem State.setPark_stage (s : State) (p : Nat) (x : List (Nat × TxReq)) : (s.setPark p x).stage = s.stage := rfl
@[simp] theorem State.setPark_flint (s : State) (p : Nat) (x : List (Nat × TxReq)) : (s.setPark p x).flint = s.flint := rfl
@[simp] theorem State.setPark_queue (s : State) (p : Nat) (x : List (Nat × TxReq)) : (s.setPark p x).queue = s.queue := rfl
@[simp] theorem State.setPark_mover (s : State) (p : Nat) (x : List (Nat × TxReq)) : (s.setPark p x).mover = s.mover := rfl
@[simp] theorem State.setPark_disp (s : State) (p : Nat) (x : List (Nat × TxReq)) : (s.setPark p x).disp = s.disp := rfl
@[simp] theorem State.setPark_pc (s : State) (p : Nat) (x : List (Nat × TxReq)) : (s.setPark p x).pc = s.pc := rfl
@[simp] theorem State.setPark_chan (s : State) (p : Nat) (x : List (Nat × TxReq)) : (s.setPark p x).chan = s.chan := rfl
@[simp] theorem State.setPark_port (s : State) (p : Nat) (x : List (Nat × TxReq)) : (s.setPark p x).port = s.port := rfl
@[simp] theorem State.setPark_noUp (s : State) (p : Nat) (x : List (Nat × TxReq)) : (s.setPark p x).noUp = s.noUp := rfl
@[simp] theorem State.setPark_ctx (s : State) (p : Nat) (x : List (Nat × TxReq)) : (s.setPark p x).ctx = s.ctx := rfl
@[simp] theorem State.setPark_aux (s : State) (p : Nat) (x : List (Nat × TxReq)) : (s.setPark p x).aux = s.aux := rfl
@[simp] theorem State.setPark_colq (s : State) (p : Nat) (x : List (Nat × TxReq)) : (s.setPark p x).colq = s.colq := rfl
@[simp] theorem State.setPark_assay (s : State) (p : Nat) (x : List (Nat × TxReq)) : (s.setPark p x).assay = s.assay := rfl
@[simp] theorem State.setPark_strata (s : State) (p : Nat) (x : List (Nat × TxReq)) : (s.setPark p x).strata = s.strata := rfl
@[simp] theorem State.setPark_images (s : State) (p : Nat) (x : List (Nat × TxReq)) : (s.setPark p x).images = s.images := rfl
@[simp] theorem State.setPark_resets (s : State) (p : Nat) (x : List (Nat × TxReq)) : (s.setPark p x).resets = s.resets := rfl
@[simp] theorem State.setPark_ftest (s : State) (p : Nat) (x : List (Nat × TxReq)) : (s.setPark p x).ftest = s.ftest := rfl
@[simp] theorem State.setPark_member (s : State) (p : Nat) (x : List (Nat × TxReq)) : (s.setPark p x).member = s.member := rfl
@[simp] theorem State.setPark_tenancy (s : State) (p : Nat) (x : List (Nat × TxReq)) : (s.setPark p x).tenancy = s.tenancy := rfl
@[simp] theorem State.setPark_sess (s : State) (p : Nat) (x : List (Nat × TxReq)) : (s.setPark p x).sess = s.sess := rfl
@[simp] theorem State.setPark_host (s : State) (p : Nat) (x : List (Nat × TxReq)) : (s.setPark p x).host = s.host := rfl
@[simp] theorem State.setPark_handles (s : State) (p : Nat) (x : List (Nat × TxReq)) : (s.setPark p x).handles = s.handles := rfl
@[simp] theorem State.setPark_mkey (s : State) (p : Nat) (x : List (Nat × TxReq)) : (s.setPark p x).mkey = s.mkey := rfl
@[simp] theorem State.setPark_mreq (s : State) (p : Nat) (x : List (Nat × TxReq)) : (s.setPark p x).mreq = s.mreq := rfl
@[simp] theorem State.setPark_anonces (s : State) (p : Nat) (x : List (Nat × TxReq)) : (s.setPark p x).anonces = s.anonces := rfl
@[simp] theorem State.setPark_drbgReqs (s : State) (p : Nat) (x : List (Nat × TxReq)) : (s.setPark p x).drbgReqs = s.drbgReqs := rfl
@[simp] theorem State.setPark_recSeq (s : State) (p : Nat) (x : List (Nat × TxReq)) : (s.setPark p x).recSeq = s.recSeq := rfl
@[simp] theorem State.setPark_recPend (s : State) (p : Nat) (x : List (Nat × TxReq)) : (s.setPark p x).recPend = s.recPend := rfl
@[simp] theorem State.setPark_recFlush (s : State) (p : Nat) (x : List (Nat × TxReq)) : (s.setPark p x).recFlush = s.recFlush := rfl
@[simp] theorem State.setPark_suppressed (s : State) (p : Nat) (x : List (Nat × TxReq)) : (s.setPark p x).suppressed = s.suppressed := rfl
@[simp] theorem State.setPark_corrSeen (s : State) (p : Nat) (x : List (Nat × TxReq)) : (s.setPark p x).corrSeen = s.corrSeen := rfl
@[simp] theorem State.setPark_elog (s : State) (p : Nat) (x : List (Nat × TxReq)) : (s.setPark p x).elog = s.elog := rfl
@[simp] theorem State.setPark_events (s : State) (p : Nat) (x : List (Nat × TxReq)) : (s.setPark p x).events = s.events := rfl
@[simp] theorem State.setPark_pwrCycle (s : State) (p : Nat) (x : List (Nat × TxReq)) : (s.setPark p x).pwrCycle = s.pwrCycle := rfl
@[simp] theorem State.setPark_i3cAddr (s : State) (p : Nat) (x : List (Nat × TxReq)) : (s.setPark p x).i3cAddr = s.i3cAddr := rfl
@[simp] theorem State.setPark_mctpEid (s : State) (p : Nat) (x : List (Nat × TxReq)) : (s.setPark p x).mctpEid = s.mctpEid := rfl
@[simp] theorem State.setPark_rotUplink (s : State) (p : Nat) (x : List (Nat × TxReq)) : (s.setPark p x).rotUplink = s.rotUplink := rfl
@[simp] theorem State.setPark_summ (s : State) (p : Nat) (x : List (Nat × TxReq)) : (s.setPark p x).summ = s.summ := rfl
@[simp] theorem State.setPark_freeCtr (s : State) (p : Nat) (x : List (Nat × TxReq)) : (s.setPark p x).freeCtr = s.freeCtr := rfl
@[simp] theorem State.setPark_out (s : State) (p : Nat) (x : List (Nat × TxReq)) : (s.setPark p x).out = s.out := rfl

@[simp] theorem State.setByte_pending (s : State) (k : Nat) (b : Byte) : (s.setByte k b).pending = s.pending := rfl
@[simp] theorem State.setByte_fuse (s : State) (k : Nat) (b : Byte) : (s.setByte k b).fuse = s.fuse := rfl
@[simp] theorem State.setByte_cfg (s : State) (k : Nat) (b : Byte) : (s.setByte k b).cfg = s.cfg := rfl
@[simp] theorem State.setByte_log (s : State) (k : Nat) (b : Byte) : (s.setByte k b).log = s.log := rfl
@[simp] theorem State.setByte_flash (s : State) (k : Nat) (b : Byte) : (s.setByte k b).flash = s.flash := rfl
@[simp] theorem State.setByte_boot (s : State) (k : Nat) (b : Byte) : (s.setByte k b).boot = s.boot := rfl
@[simp] theorem State.setByte_power (s : State) (k : Nat) (b : Byte) : (s.setByte k b).power = s.power := rfl
@[simp] theorem State.setByte_gov (s : State) (k : Nat) (b : Byte) : (s.setByte k b).gov = s.gov := rfl
@[simp] theorem State.setByte_flds (s : State) (k : Nat) (b : Byte) : (s.setByte k b).flds = s.flds := rfl
@[simp] theorem State.setByte_tileChk (s : State) (k : Nat) (b : Byte) : (s.setByte k b).tileChk = s.tileChk := rfl
@[simp] theorem State.setByte_acc (s : State) (k : Nat) (b : Byte) : (s.setByte k b).acc = s.acc := rfl
@[simp] theorem State.setByte_treg (s : State) (k : Nat) (b : Byte) : (s.setByte k b).treg = s.treg := rfl
@[simp] theorem State.setByte_loaded (s : State) (k : Nat) (b : Byte) : (s.setByte k b).loaded = s.loaded := rfl
@[simp] theorem State.setByte_garnet (s : State) (k : Nat) (b : Byte) : (s.setByte k b).garnet = s.garnet := rfl
@[simp] theorem State.setByte_stage (s : State) (k : Nat) (b : Byte) : (s.setByte k b).stage = s.stage := rfl
@[simp] theorem State.setByte_flint (s : State) (k : Nat) (b : Byte) : (s.setByte k b).flint = s.flint := rfl
@[simp] theorem State.setByte_queue (s : State) (k : Nat) (b : Byte) : (s.setByte k b).queue = s.queue := rfl
@[simp] theorem State.setByte_mover (s : State) (k : Nat) (b : Byte) : (s.setByte k b).mover = s.mover := rfl
@[simp] theorem State.setByte_disp (s : State) (k : Nat) (b : Byte) : (s.setByte k b).disp = s.disp := rfl
@[simp] theorem State.setByte_pc (s : State) (k : Nat) (b : Byte) : (s.setByte k b).pc = s.pc := rfl
@[simp] theorem State.setByte_chan (s : State) (k : Nat) (b : Byte) : (s.setByte k b).chan = s.chan := rfl
@[simp] theorem State.setByte_port (s : State) (k : Nat) (b : Byte) : (s.setByte k b).port = s.port := rfl
@[simp] theorem State.setByte_noUp (s : State) (k : Nat) (b : Byte) : (s.setByte k b).noUp = s.noUp := rfl
@[simp] theorem State.setByte_ctx (s : State) (k : Nat) (b : Byte) : (s.setByte k b).ctx = s.ctx := rfl
@[simp] theorem State.setByte_aux (s : State) (k : Nat) (b : Byte) : (s.setByte k b).aux = s.aux := rfl
@[simp] theorem State.setByte_park (s : State) (k : Nat) (b : Byte) : (s.setByte k b).park = s.park := rfl
@[simp] theorem State.setByte_colq (s : State) (k : Nat) (b : Byte) : (s.setByte k b).colq = s.colq := rfl
@[simp] theorem State.setByte_assay (s : State) (k : Nat) (b : Byte) : (s.setByte k b).assay = s.assay := rfl
@[simp] theorem State.setByte_strata (s : State) (k : Nat) (b : Byte) : (s.setByte k b).strata = s.strata := rfl
@[simp] theorem State.setByte_images (s : State) (k : Nat) (b : Byte) : (s.setByte k b).images = s.images := rfl
@[simp] theorem State.setByte_resets (s : State) (k : Nat) (b : Byte) : (s.setByte k b).resets = s.resets := rfl
@[simp] theorem State.setByte_ftest (s : State) (k : Nat) (b : Byte) : (s.setByte k b).ftest = s.ftest := rfl
@[simp] theorem State.setByte_member (s : State) (k : Nat) (b : Byte) : (s.setByte k b).member = s.member := rfl
@[simp] theorem State.setByte_tenancy (s : State) (k : Nat) (b : Byte) : (s.setByte k b).tenancy = s.tenancy := rfl
@[simp] theorem State.setByte_sess (s : State) (k : Nat) (b : Byte) : (s.setByte k b).sess = s.sess := rfl
@[simp] theorem State.setByte_host (s : State) (k : Nat) (b : Byte) : (s.setByte k b).host = s.host := rfl
@[simp] theorem State.setByte_handles (s : State) (k : Nat) (b : Byte) : (s.setByte k b).handles = s.handles := rfl
@[simp] theorem State.setByte_mkey (s : State) (k : Nat) (b : Byte) : (s.setByte k b).mkey = s.mkey := rfl
@[simp] theorem State.setByte_mreq (s : State) (k : Nat) (b : Byte) : (s.setByte k b).mreq = s.mreq := rfl
@[simp] theorem State.setByte_anonces (s : State) (k : Nat) (b : Byte) : (s.setByte k b).anonces = s.anonces := rfl
@[simp] theorem State.setByte_drbgReqs (s : State) (k : Nat) (b : Byte) : (s.setByte k b).drbgReqs = s.drbgReqs := rfl
@[simp] theorem State.setByte_recSeq (s : State) (k : Nat) (b : Byte) : (s.setByte k b).recSeq = s.recSeq := rfl
@[simp] theorem State.setByte_recPend (s : State) (k : Nat) (b : Byte) : (s.setByte k b).recPend = s.recPend := rfl
@[simp] theorem State.setByte_recFlush (s : State) (k : Nat) (b : Byte) : (s.setByte k b).recFlush = s.recFlush := rfl
@[simp] theorem State.setByte_suppressed (s : State) (k : Nat) (b : Byte) : (s.setByte k b).suppressed = s.suppressed := rfl
@[simp] theorem State.setByte_corrSeen (s : State) (k : Nat) (b : Byte) : (s.setByte k b).corrSeen = s.corrSeen := rfl
@[simp] theorem State.setByte_elog (s : State) (k : Nat) (b : Byte) : (s.setByte k b).elog = s.elog := rfl
@[simp] theorem State.setByte_events (s : State) (k : Nat) (b : Byte) : (s.setByte k b).events = s.events := rfl
@[simp] theorem State.setByte_pwrCycle (s : State) (k : Nat) (b : Byte) : (s.setByte k b).pwrCycle = s.pwrCycle := rfl
@[simp] theorem State.setByte_i3cAddr (s : State) (k : Nat) (b : Byte) : (s.setByte k b).i3cAddr = s.i3cAddr := rfl
@[simp] theorem State.setByte_mctpEid (s : State) (k : Nat) (b : Byte) : (s.setByte k b).mctpEid = s.mctpEid := rfl
@[simp] theorem State.setByte_rotUplink (s : State) (k : Nat) (b : Byte) : (s.setByte k b).rotUplink = s.rotUplink := rfl
@[simp] theorem State.setByte_summ (s : State) (k : Nat) (b : Byte) : (s.setByte k b).summ = s.summ := rfl
@[simp] theorem State.setByte_freeCtr (s : State) (k : Nat) (b : Byte) : (s.setByte k b).freeCtr = s.freeCtr := rfl
@[simp] theorem State.setByte_out (s : State) (k : Nat) (b : Byte) : (s.setByte k b).out = s.out := rfl

end Sys2Proof.Machine
end

