-- ==== Sys2Proof/Laws/Fields.lean ====
section
/-!
SUPPORT. Reading register fields, memory and table entries after elementary updates.
-/
namespace Sys2Proof.Machine

/-- A written field reads the value reduced to its width. -/
theorem State.rf_wf_same {s : State} (f : Fld) (v : Nat) (h : Tbl.sortedFrom 0 s.flds = true) : (s.wf f v).rf f = v % 2 ^ f.w := by
  simp only [State.rf, State.wf]; exact Tbl.get_set_same _ _ h

/-- A field of another cell reads as before. -/
theorem State.rf_wf_ne {s : State} {f g : Fld} (v : Nat) (h : Tbl.sortedFrom 0 s.flds = true) (hc : g.cell ≠ f.cell) :
    (s.wf f v).rf g = s.rf g := by
  simp only [State.rf, State.wf]; by_cases hr : g.rst = f.rst
  · rw [hr]; exact Tbl.get_set_ne _ h hc
  · rw [Tbl.get_set_ne_default h hc]

/-- Writing a field keeps the register file in order. -/
theorem State.sorted_wf {s : State} (f : Fld) (v : Nat) (h : Tbl.sortedFrom 0 s.flds = true) :
    Tbl.sortedFrom 0 (s.wf f v).flds = true := Tbl.sortedFrom_set _ h (Nat.zero_le _)

end Sys2Proof.Machine
end

