-- ==== Sys2Proof/Laws/Memory.lean ====
section
/-!
SUPPORT. Memory: every operation that writes it keeps the canonical form, a read after a write gives what was written and
every other byte reads as before; and the same operations, with the register writes, keep the block's invariant.
-/
namespace Sys2Proof.Machine

/-- Memory in canonical form lists its bytes in order. -/
theorem Memory.sorted_of_wf {m : List Host.Cell} (h : Memory.wf m = true) : Tbl.sortedFrom 0 m = true := by
  simp only [Memory.wf, Tbl.wf, Bool.and_eq_true] at h
  exact h.1

/-! ## One byte and a run of bytes -/

/-- Writing a byte keeps the canonical form. -/
theorem Memory.wf_setByte {s : State} (k : Nat) (b : Byte) (h : Memory.wf s.mem = true) : Memory.wf (s.setByte k b).mem = true :=
  Tbl.wf_set k b h

/-- A written byte reads back. -/
theorem State.byte_setByte_same {s : State} (k : Nat) (b : Byte) (h : Memory.wf s.mem = true) : (s.setByte k b).byte k = b :=
  Tbl.get_set_same k b (Memory.sorted_of_wf h)

/-- Every other byte reads as before. -/
theorem State.byte_setByte_ne {s : State} {k j : Nat} (b : Byte) (h : Memory.wf s.mem = true) (hj : j ≠ k) :
    (s.setByte k b).byte j = s.byte j := Tbl.get_set_ne b (Memory.sorted_of_wf h) hj

/-- Writing a run of bytes keeps the canonical form. -/
theorem Memory.wf_setBytes {s : State} (k : Nat) (bs : List Byte) (h : Memory.wf s.mem = true) :
    Memory.wf (s.setBytes k bs).mem = true := by
  induction bs generalizing s k with
  | nil => exact h
  | cons b bs ih => exact ih (k + 1) (Memory.wf_setByte k b h)

/-- A byte outside a written run reads as before. -/
theorem State.byte_setBytes_outside {s : State} {k j : Nat} {bs : List Byte} (h : Memory.wf s.mem = true)
    (hj : j < k ∨ k + bs.length ≤ j) : (s.setBytes k bs).byte j = s.byte j := by
  induction bs generalizing s k with
  | nil => rfl
  | cons b bs ih =>
    simp only [List.length_cons] at hj
    rw [State.setBytes, ih (Memory.wf_setByte k b h) (by omega), State.byte_setByte_ne b h (by omega)]

/-- A byte of a written run reads as what was written there. -/
theorem State.byte_setBytes_inside {s : State} {k i : Nat} {bs : List Byte} (h : Memory.wf s.mem = true) (hi : i < bs.length) :
    (s.setBytes k bs).byte (k + i) = bs[i] := by
  induction bs generalizing s k i with
  | nil => cases hi
  | cons b bs ih =>
    cases i with
    | zero =>
      rw [State.setBytes, State.byte_setBytes_outside (Memory.wf_setByte k b h) (by omega), Nat.add_zero,
        State.byte_setByte_same k b h]
      rfl
    | succ i =>
      have h2 := ih (k := k + 1) (i := i) (Memory.wf_setByte k b h) (by simpa using hi)
      rw [State.setBytes, show k + (i + 1) = k + 1 + i by omega, h2]
      rfl

/-- Reading a run of bytes is reading each of them. -/
theorem State.bytes_congr {s t : State} {k n : Nat} (h : ∀ j, k ≤ j → j < k + n → s.byte j = t.byte j) :
    s.bytes k n = t.bytes k n := by
  induction n generalizing k with
  | zero => rfl
  | succ n ih =>
    rw [State.bytes, State.bytes, h k (Nat.le_refl k) (by omega), ih (fun j h1 h2 => h j (by omega) (by omega))]

/-- `State.bytes` gives as many bytes as asked. -/
@[simp] theorem State.length_bytes (s : State) (k n : Nat) : (s.bytes k n).length = n := by
  induction n generalizing k with
  | zero => rfl
  | succ n ih => simp [State.bytes, ih]

/-- A written run reads back whole. -/
theorem State.bytes_setBytes_same {s : State} (k : Nat) (bs : List Byte) (h : Memory.wf s.mem = true) :
    (s.setBytes k bs).bytes k bs.length = bs := by
  induction bs generalizing s k with
  | nil => rfl
  | cons b bs ih =>
    rw [State.setBytes, List.length_cons, State.bytes, ih (k + 1) (Memory.wf_setByte k b h),
      State.byte_setBytes_outside (Memory.wf_setByte k b h) (by omega), State.byte_setByte_same k b h]

/-! ## Whole tables: what a reset, a restore and the rails drop or put back -/

/-- Dropping a region keeps the canonical form. -/
theorem Memory.wf_drop {m : List Host.Cell} (f : Nat → Bool) (h : Memory.wf m = true) : Memory.wf (Tbl.drop f m) = true :=
  Tbl.wf_drop f h

/-- Putting back the bytes of an image keeps the canonical form. -/
theorem Memory.wf_setAll {m : List Host.Cell} (l : List Host.Cell) (h : Memory.wf m = true) :
    Memory.wf (Tbl.setAll 0#8 m l) = true := by
  unfold Tbl.setAll
  induction l generalizing m with
  | nil => exact h
  | cons e l ih => exact ih (Tbl.wf_set e.1 e.2 h)

/-- Putting back the fields of an image keeps the register file in order. -/
theorem Tbl.sorted_putAll {t : Tbl Nat} (l : Tbl Nat) (h : Tbl.sortedFrom 0 t = true) : Tbl.sortedFrom 0 (Tbl.putAll t l) = true := by
  unfold Tbl.putAll
  induction l generalizing t with
  | nil => exact h
  | cons e l ih => exact ih (t := t.set (e.2 + 1) e.1 e.2) (Tbl.sortedFrom_set e.2 h (Nat.zero_le e.1))

/-! ## The invariant through the shared operations -/

/-- An update that touches neither memory nor the register file keeps the invariant. -/
theorem State.Inv.congr {s t : State} (h : s.Inv) (hm : t.mem = s.mem) (hf : t.flds = s.flds) : t.Inv := by
  unfold State.Inv at *
  rw [hm, hf]
  exact h

theorem State.Inv.wf {s : State} (h : s.Inv) (f : Fld) (v : Nat) : (s.wf f v).Inv := ⟨h.1, State.sorted_wf f v h.2⟩
theorem State.Inv.addf {s : State} (h : s.Inv) (f : Fld) (n : Nat) : (s.addf f n).Inv := h.wf f _
theorem State.Inv.inc {s : State} (h : s.Inv) (f : Fld) : (s.inc f).Inv := h.addf f 1
theorem State.Inv.satAdd {s : State} (h : s.Inv) (f : Fld) (n : Nat) : (s.satAdd f n).Inv := h.wf f _
theorem State.Inv.emit {s : State} (h : s.Inv) (o : Out) : (s.emit o).Inv := h.congr rfl rfl
theorem State.Inv.setByte {s : State} (h : s.Inv) (k : Nat) (b : Byte) : (s.setByte k b).Inv := ⟨Memory.wf_setByte k b h.1, h.2⟩

theorem State.Inv.setBytes {s : State} (h : s.Inv) (k : Nat) (bs : List Byte) : (s.setBytes k bs).Inv := by
  induction bs generalizing s k with
  | nil => exact h
  | cons b bs ih => exact ih (h.setByte k b) (k + 1)

theorem State.Inv.setCheck {s : State} (h : s.Inv) (p addr : Nat) (w : Word32) : (s.setCheck p addr w).Inv := by
  unfold State.setCheck
  split
  · exact h.setBytes _ _
  · exact h.congr rfl rfl

theorem State.Inv.pairsGood {s : State} (h : s.Inv) (p addr : Nat) : (s.pairsGood p addr).Inv := by
  unfold State.pairsGood
  split
  · exact h.congr rfl rfl
  · exact h

theorem State.Inv.queueTx {s : State} (h : s.Inv) (idx : Nat) (l : List TxReq) : (s.queueTx idx l).Inv := h.congr rfl rfl

theorem State.Inv.copyExtent {s : State} (h : s.Inv) (p ext : Nat) : (s.copyExtent p ext).Inv := by
  unfold State.copyExtent
  dsimp only
  split
  · exact h
  · have h2 := ((h.queueTx (s.rf (STR_BUDDY.HANDLE p) % 2 ^ 18)
      (s.blockMsgs p (1 + ext * 4096) (rangeBlocks (s.getStrata p).ranges (ext * 4096) 4096) none)).congr (t := State.setStrata _ p
        { s.getStrata p with clean := ext :: (s.getStrata p).clean.filter (· != ext)
                             copying := (s.getStrata p).copying.filter (· != ext) }) rfl rfl).addf
      (STR_MBYTES.COUNT p) (256 * (rangeBlocks (s.getStrata p).ranges (ext * 4096) 4096).length)
    split
    · exact h2.congr rfl rfl
    · exact h2

theorem State.Inv.touch {s : State} (h : s.Inv) (p a : Nat) (es : List Nat) : (s.touch p a es).Inv := by
  induction es generalizing s with
  | nil => exact h
  | cons e es ih =>
    unfold State.touch
    dsimp only
    apply ih
    split
    · exact ((h.copyExtent p e).inc _).congr rfl rfl
    · exact h.congr rfl rfl

theorem State.Inv.checkWriteWaits {s : State} (h : s.Inv) (p a : Nat) (who : Requester) : (s.checkWriteWaits p a who).Inv :=
  h.congr rfl rfl

theorem State.Inv.writeBlock {s : State} (h : s.Inv) (p addr : Nat) (bs : List Byte) (w : Word32) (who : Requester) :
    (s.writeBlock p addr bs w who).1.Inv := by
  unfold State.writeBlock
  dsimp only
  have h1 : State.Inv (if addr / 256 * 256 < s.fuse.variant.dataBytes then
      s.touch p (addr / 256 * 256) (extentsOf (addr / 256 * 256) 0 (s.getStrata p).ranges) else s) := by
    split
    · exact h.touch _ _ _
    · exact h
  generalize (if addr / 256 * 256 < s.fuse.variant.dataBytes then
      s.touch p (addr / 256 * 256) (extentsOf (addr / 256 * 256) 0 (s.getStrata p).ranges) else s) = t at h1
  split
  · exact ((h1.setBytes _ _).pairsGood _ _).checkWriteWaits _ _ _
  · exact ((h1.setBytes _ _).pairsGood _ _).setCheck _ _ _

theorem State.Inv.busErr {s : State} (h : s.Inv) (p addr : Nat) : (s.busErr p addr).Inv := by
  unfold State.busErr
  split
  · exact h
  · exact (h.wf _ _).wf _ _

theorem State.Inv.countCheckFail {s : State} (h : s.Inv) (p addr : Nat) : (s.countCheckFail p addr).Inv := by
  unfold State.countCheckFail
  split <;> dsimp only <;> split
  · exact h.inc _
  · exact ((h.inc _).wf _ _).wf _ _
  · exact h.inc _
  · exact ((h.inc _).wf _ _).wf _ _

theorem State.Inv.platform {s : State} (h : s.Inv) (e : PlatformEvent) : (s.platform e).Inv := h.congr rfl rfl

theorem State.Inv.elogCopy {s : State} (h : s.Inv) (w : Rec) : (s.elogCopy w).Inv := by
  unfold State.elogCopy
  dsimp only
  have h1 : State.Inv (if (s.rf HST_ELOG.PROD + 1) % 1024 = s.rf HST_ELOG.CONS then s.inc HST_ELOG.LOST
      else State.inc { s with elog := s.elog.set [] (s.rf HST_ELOG.PROD) w } HST_ELOG.PROD) := by
    split
    · exact h.inc _
    · exact State.Inv.inc (h.congr rfl rfl) _
  generalize (if (s.rf HST_ELOG.PROD + 1) % 1024 = s.rf HST_ELOG.CONS then s.inc HST_ELOG.LOST
      else State.inc { s with elog := s.elog.set [] (s.rf HST_ELOG.PROD) w } HST_ELOG.PROD) = t at h1
  split
  · exact h1.emit _
  · exact h1

theorem State.Inv.flashEntry {s : State} (h : s.Inv) (r : Region) (x : Payload) : (s.flashEntry r x).Inv := h.congr rfl rfl

theorem State.Inv.flushRecords {s : State} (h : s.Inv) : s.flushRecords.Inv := by
  unfold State.flushRecords
  split
  · exact h
  · split
    · apply State.Inv.flashEntry
      exact State.Inv.congr (s := s) h rfl rfl
    · dsimp only
      split
      · apply State.Inv.flashEntry
        apply State.Inv.elogCopy
        exact State.Inv.congr (s := s) h rfl rfl
      · apply State.Inv.flashEntry
        apply State.Inv.flashEntry
        apply State.Inv.elogCopy
        exact State.Inv.congr (s := s) h rfl rfl

theorem State.Inv.bedrockTake {s : State} (h : s.Inv) (unit code : Nat) (w : Rec) : (s.bedrockTake unit code w).Inv := by
  unfold State.bedrockTake
  dsimp only
  split
  · exact h.congr rfl rfl
  · split
    · exact h.congr rfl rfl
    · split
      · exact State.Inv.flushRecords (h.congr rfl rfl)
      · exact h.congr rfl rfl

theorem State.Inv.ringWrite {s : State} (h : s.Inv) (p : Nat) (w : Rec) : (s.ringWrite p w).1.Inv := by
  unfold State.ringWrite
  dsimp only
  split
  · exact h.inc _
  · exact (h.writeBlock _ _ _ _ _).inc _

/-- Raising a record without following a failed ring block keeps the invariant. -/
theorem State.Inv.raise1 {s : State} (h : s.Inv) (r : Report) : (s.raise1 r).1.Inv := by
  have h0 : State.Inv { s with recSeq := (s.recSeq + 1) % 2 ^ 32, freeCtr := s.freeCtr + 1 } := h.congr rfl rfl
  unfold State.raise1
  cases hp : r.part with
  | none =>
    dsimp only
    have h1 := (h0.bedrockTake r.unit r.code (s.recordOf r)).elogCopy (s.recordOf r)
    split
    · exact h1.platform _
    · exact h1
  | some p =>
    dsimp only
    have h1 := ((h0.ringWrite p (s.recordOf r)).bedrockTake r.unit r.code (hideRec (s.recordOf r))).elogCopy (hideRec (s.recordOf r))
    split
    · exact h1.platform _
    · exact h1

/-- Raising a record, and those that the ring blocks it fails on owe, keeps the invariant. -/
theorem State.Inv.raiseN {s : State} (h : s.Inv) (n : Nat) (r : Report) : (raiseN n s r).Inv := by
  induction n generalizing s r with
  | zero => exact h.raise1 r
  | succ n ih =>
    have h1 := h.raise1 r
    unfold Machine.raiseN
    generalize s.raise1 r = x at h1
    obtain ⟨t, o⟩ := x
    cases o with
    | none => exact h1
    | some a => exact ih (State.Inv.countCheckFail h1 _ _) _

/-- Raising a record keeps the invariant. -/
theorem State.Inv.raise {s : State} (h : s.Inv) (r : Report) : (s.raise r).Inv := h.raiseN 1024 r

/-- The record of a block that failed verification keeps the invariant. -/
theorem State.Inv.checkFailRec {s : State} (h : s.Inv) (p unit addr handle : Nat) : (s.checkFailRec p unit addr handle).Inv :=
  State.Inv.raise (h.countCheckFail _ _) _

end Sys2Proof.Machine
end

