-- ==== Sys2Proof/Laws/Frames.lean ====
section
/-!
SUPPORT. What writing blocks and raising records may change, said once: `State.quiet` blanks those fields, and every shared
operation leaves the rest of the state as it was. `congrArg` gives any one field of it.
-/
namespace Sys2Proof.Machine

/-- The state without what block writes and records may change: the register file, memory with its check words and bad
pairs, the stream queues and extents of Strata, and all that keeps and delivers records. -/
def State.quiet (s : State) : State :=
  { s with flds := [], mem := [], tileChk := [], pc := [], aux := [], strata := [], recSeq := 0, freeCtr := 0, flash := {}
           recPend := [], recFlush := [], suppressed := [], corrSeen := [], elog := [], out := [], events := []
           power := {} }

theorem State.quiet_wf (s : State) (f : Fld) (v : Nat) : (s.wf f v).quiet = s.quiet := rfl
theorem State.quiet_inc (s : State) (f : Fld) : (s.inc f).quiet = s.quiet := rfl
theorem State.quiet_addf (s : State) (f : Fld) (n : Nat) : (s.addf f n).quiet = s.quiet := rfl
theorem State.quiet_emit (s : State) (o : Out) : (s.emit o).quiet = s.quiet := rfl
theorem State.quiet_queueTx (s : State) (idx : Nat) (l : List TxReq) : (s.queueTx idx l).quiet = s.quiet := rfl
theorem State.quiet_setStrata (s : State) (p : Nat) (x : Strata) : (s.setStrata p x).quiet = s.quiet := rfl

theorem State.quiet_setBytes (s : State) (k : Nat) (bs : List Byte) : (s.setBytes k bs).quiet = s.quiet := by
  induction bs generalizing s k with
  | nil => rfl
  | cons b bs ih => exact ih (s.setByte k b) (k + 1)

theorem State.quiet_setCheck (s : State) (p addr : Nat) (w : Word32) : (s.setCheck p addr w).quiet = s.quiet := by
  unfold State.setCheck
  split
  · exact s.quiet_setBytes _ _
  · rfl

theorem State.quiet_pairsGood (s : State) (p addr : Nat) : (s.pairsGood p addr).quiet = s.quiet := by
  unfold State.pairsGood
  split <;> rfl

theorem State.quiet_copyExtent (s : State) (p ext : Nat) : (s.copyExtent p ext).quiet = s.quiet := by
  unfold State.copyExtent
  dsimp only
  split
  · rfl
  · split
    · rw [State.sendMirrorHeader, State.quiet_queueTx, State.quiet_addf, State.quiet_setStrata, State.quiet_queueTx]
    · rw [State.quiet_addf, State.quiet_setStrata, State.quiet_queueTx]

theorem State.quiet_touch (s : State) (p a : Nat) (es : List Nat) : (s.touch p a es).quiet = s.quiet := by
  induction es generalizing s with
  | nil => rfl
  | cons e es ih =>
    have h : State.quiet (if (s.getStrata p).copying.contains e then (s.copyExtent p e).inc (STR_MWAIT.COUNT p) else s) = s.quiet := by
      split
      · rw [State.quiet_inc, State.quiet_copyExtent]
      · rfl
    rw [State.touch]
    generalize (if (s.getStrata p).copying.contains e then (s.copyExtent p e).inc (STR_MWAIT.COUNT p) else s) = t at h
    exact (ih _).trans ((t.quiet_setStrata p _).trans h)

theorem State.quiet_checkWriteWaits (s : State) (p a : Nat) (who : Requester) : (s.checkWriteWaits p a who).quiet = s.quiet := rfl

/-- Writing a block changes memory, check words, the pseudo-channels' bad pairs and requests and what Strata has still to copy, and
nothing else. -/
theorem State.quiet_writeBlock (s : State) (p addr : Nat) (bs : List Byte) (w : Word32) (who : Requester) :
    (s.writeBlock p addr bs w who).1.quiet = s.quiet := by
  unfold State.writeBlock
  dsimp only
  have h1 : State.quiet (if addr / 256 * 256 < s.fuse.variant.dataBytes then
      s.touch p (addr / 256 * 256) (extentsOf (addr / 256 * 256) 0 (s.getStrata p).ranges) else s) = s.quiet := by
    split
    · exact s.quiet_touch _ _ _
    · rfl
  generalize (if addr / 256 * 256 < s.fuse.variant.dataBytes then
      s.touch p (addr / 256 * 256) (extentsOf (addr / 256 * 256) 0 (s.getStrata p).ranges) else s) = t at h1
  split
  · rw [State.quiet_checkWriteWaits, State.quiet_pairsGood, State.quiet_setBytes, h1]
  · rw [State.quiet_setCheck, State.quiet_pairsGood, State.quiet_setBytes, h1]

theorem State.quiet_busErr (s : State) (p addr : Nat) : (s.busErr p addr).quiet = s.quiet := by
  unfold State.busErr
  split <;> rfl

theorem State.quiet_countCheckFail (s : State) (p addr : Nat) : (s.countCheckFail p addr).quiet = s.quiet := by
  unfold State.countCheckFail
  split <;> dsimp only <;> split <;> rfl

theorem State.quiet_platform (s : State) (e : PlatformEvent) : (s.platform e).quiet = s.quiet := rfl

theorem State.quiet_elogCopy (s : State) (w : Rec) : (s.elogCopy w).quiet = s.quiet := by
  unfold State.elogCopy
  dsimp only
  split <;> split <;> rfl

theorem State.quiet_flashEntry (s : State) (r : Region) (x : Payload) : (s.flashEntry r x).quiet = s.quiet := rfl

theorem State.quiet_flushRecords (s : State) : s.flushRecords.quiet = s.quiet := by
  unfold State.flushRecords
  split
  · rfl
  · split
    · rfl
    · dsimp only
      split
      · rw [State.quiet_flashEntry, State.quiet_elogCopy]; rfl
      · rw [State.quiet_flashEntry, State.quiet_flashEntry, State.quiet_elogCopy]; rfl

theorem State.quiet_bedrockTake (s : State) (unit code : Nat) (w : Rec) : (s.bedrockTake unit code w).quiet = s.quiet := by
  unfold State.bedrockTake
  dsimp only
  split
  · rfl
  · split
    · rfl
    · split
      · rw [State.quiet_flushRecords]; rfl
      · rfl

theorem State.quiet_ringWrite (s : State) (p : Nat) (w : Rec) : (s.ringWrite p w).1.quiet = s.quiet := by
  unfold State.ringWrite
  dsimp only
  split
  · rfl
  · exact (State.quiet_inc _ _).trans (State.quiet_writeBlock _ _ _ _ _ _)

theorem State.quiet_raise1 (s : State) (r : Report) : (s.raise1 r).1.quiet = s.quiet := by
  have h0 : State.quiet { s with recSeq := (s.recSeq + 1) % 2 ^ 32, freeCtr := s.freeCtr + 1 } = s.quiet := rfl
  generalize hw : ({ s with recSeq := (s.recSeq + 1) % 2 ^ 32, freeCtr := s.freeCtr + 1 } : State) = t at h0
  unfold State.raise1
  rw [hw]
  cases hp : r.part with
  | none =>
    dsimp only
    split <;> rw [← h0]
    · rw [State.quiet_platform, State.quiet_elogCopy, State.quiet_bedrockTake]
    · rw [State.quiet_elogCopy, State.quiet_bedrockTake]
  | some p =>
    dsimp only
    split <;> rw [← h0]
    · rw [State.quiet_platform, State.quiet_elogCopy, State.quiet_bedrockTake, State.quiet_ringWrite]
    · rw [State.quiet_elogCopy, State.quiet_bedrockTake, State.quiet_ringWrite]

theorem State.quiet_raiseN (s : State) (n : Nat) (r : Report) : (raiseN n s r).quiet = s.quiet := by
  induction n generalizing s r with
  | zero => exact s.quiet_raise1 r
  | succ n ih =>
    have h1 := s.quiet_raise1 r
    unfold raiseN
    generalize s.raise1 r = x at h1
    obtain ⟨t, o⟩ := x
    cases o with
    | none => exact h1
    | some a => exact (ih _ _).trans ((State.quiet_countCheckFail _ _ _).trans h1)

/-- Raising a record changes what records are kept and delivered in, and nothing else. -/
theorem State.quiet_raise (s : State) (r : Report) : (s.raise r).quiet = s.quiet := s.quiet_raiseN 1024 r

/-- The record of a block that failed verification changes nothing else either. -/
theorem State.quiet_checkFailRec (s : State) (p unit addr handle : Nat) : (s.checkFailRec p unit addr handle).quiet = s.quiet :=
  (State.quiet_raise _ _).trans (State.quiet_countCheckFail _ _ _)

end Sys2Proof.Machine
end

