-- ==== Sys2Proof/Tests/Slice0.lean ====
section
/-!
SUPPORT. Tests: commands that are not well-formed, words and numbers whose meaning the spec gives (each cites its example), one step of
a few commands, and for each statement a state and operands that meet its hypotheses (`witness_<statement>`).
-/
namespace Sys2Proof.Tests
set_option Elab.async false
open Sys2Proof.Machine

/-! ## Small states -/

/-- Give register fields values. -/
def put (s : State) (l : List (Fld × Nat)) : State := l.foldl (fun s e => s.wf e.1 e.2) s

/-- A running module: P0 READY with eight logical cores, P1 RUNNING with one. -/
def up : State :=
  put { State.reset with boot := .running, power := { mgmt := true, otherRails := true } }
    [(PRT_STATE.STATE 0, 3), (PRT_CORES.LCORES 0, 8), (PRT_CORES.MAP 0, 0xFAC688), (PRT_STATE.STATE 1, 4), (PRT_CORES.LCORES 1, 1),
     (BDR_SEC.DRBG_OK, 1), (PRT_CLK_EN.MOV 0, 1), (MCA_STATUS.GATED 0 0, 0)]

/-! ## Commands that are not well-formed -/

theorem test_wf_partition : Instr.wf (.clockEnableWrite .bedrock 16 0) = false := by decide
theorem test_wf_core : Instr.wf (.ecall 0 8) = false := by decide
theorem test_wf_engine : Instr.wf (.queueErrClear .bedrock 0 0 3) = false := by decide
theorem test_wf_channel : Instr.wf (.channelTrainingTimeout 0 32) = false := by decide
theorem test_wf_stack : Instr.wf (.doubledRefreshChange 20 0) = false := by decide
theorem test_wf_pseudochannel : Instr.wf (.patrolScrub 0 80 0 0 []) = false := by decide
theorem test_wf_port : Instr.wf (.portEnable 192) = false := by decide
theorem test_wf_context : Instr.wf (.messageSend (2 ^ 18)) = false := by decide
theorem test_wf_queue : Instr.wf (.allreduce 0 256) = false := by decide
theorem test_wf_function : Instr.wf (.getVersion 17) = false := by decide
theorem test_wf_clock_switch : Instr.wf (.clockSwitchDone 2) = false := by decide
theorem test_wf_sensor : Instr.wf (.thermalWarning ⟨40, false, 0⟩) = false := by decide
theorem test_wf_clock_source : Instr.wf (.clockMonitorWindow [.ioPll 12] 0) = false := by decide
theorem test_wf_window : Instr.wf (.registerWrite .bedrock (.pfWin 16) 0 8 0) = false := by decide

/-! ## Examples of the spec -/

/-- Chapter 5: TQUE a5, a0, mica is 0x0205_078B. -/
theorem test_decode_tque : decode32 0x0205078B = some (.ext (.tque 1) 15 10) := by decide +kernel
/-- RV64I: addi x1, x2, -1 is imm 0xFFF, rs1 2, funct3 0, rd 1, opcode 0x13. -/
theorem test_decode_addi : decode32 0xFFF10093 = some (.aluI .add false 1 2 (BitVec.allOnes 64)) := by decide +kernel
/-- Chapter 1: C5 with physical core 3 disabled maps logical cores 0 to 6 to 0, 1, 2, 4, 5, 6, 7; its Mica is 0x1444. -/
theorem test_unit_id : unitId 5 1 4 = 0x1444 := by decide
/-- Chapter 1: P5 of an N12 shares stack 3 with P4 and stack 4 with P6. -/
theorem test_partner : (State.reset.fuse.variant = .a16) ∧ ({ State.reset with fuse := { variant := .n12 } } : State).partner 5 15 = 4 ∧
    ({ State.reset with fuse := { variant := .n12 } } : State).partner 5 16 = 6 := by decide +kernel
/-- Chapter 2: 2^24 + 1 + 2^-20 rounds once to 2^24 + 2. -/
theorem test_round_once : toF32 ((f32 0x4B800000#32).add (exactColumn
    [((decodeFmt 7 2).scaled 7 0x7F).mul ((decodeFmt 7 2).scaled 7 0x7F), ((decodeFmt 7 1).scaled 7 0x75).mul ((decodeFmt 7 1).scaled 7 0x77)]))
    = 0x4B800001#32 := by decide +kernel
/-- Chapter 6: the sharded MXFP4 tensor of the partition at rank 37. -/
def mxfp4 : Opnd :=
  ⟨0, 0, 37, { fmt := 7, ndim := 3, tile := false, orient := 0, sparse := false, index := false, base := 0x40000000, sbase := 0, mbase := 0
               pitchF := 0
               dims := [⟨64, 0, 1, 1, 0, 1, false, 1, 1⟩, ⟨4100, 2, 4, 256, 0, 1, false, 16, 1⟩, ⟨22500, 1, 16, 1, 0, 1, false, 1, 32⟩] }, 0, []⟩
theorem test_shards : mxfp4.d.exts 37 = [64, 1024, 1408] ∧ mxfp4.d.pitch 37 = 704 ∧ mxfp4.d.scalePitch 37 = 44 := by decide +kernel
theorem test_element : mxfp4.locals [3, 1600, 7100] = some [3, 320, 60] ∧ mxfp4.bitAt [3, 320, 60] = 8 * (0x40000000 + 2387968 + 30) ∧
    mxfp4.scaleAt [3, 320, 60] = 3392 * 44 + 1 := by decide +kernel
/-- Chapters 6 and 8: the check word of that element's block, its pseudo-channel, row and bank. -/
theorem test_check_word_place : State.reset.checkAddr (0x40000000 + 9328 * 256) = 0xFC10091C0 ∧ State.reset.pcOf 0xFC10091C0 = (19, 0x3F0402C0) ∧
    rowAt 0x3F0402C0 = 16132 ∧ bankOf 0x3F0402C0 = 0 := by decide +kernel
/-- Chapter 9: port 84 of an A16 is at ordinal 37 and, with 68 and 100, in the bundle of peer slot 12. -/
theorem test_default_bundle : Variant.a16.ordinal 84 = 37 ∧ Variant.a16.defaultRole 31 84 = (rolePEER, 12) ∧
    Variant.a16.defaultRole 31 68 = (rolePEER, 12) ∧ Variant.a16.defaultRole 31 100 = (rolePEER, 12) := by decide +kernel
/-- Chapter 10: 262,144 members with radix 32 and 245,760 with radix 30 both have four levels. -/
theorem test_levels : levels 262144 32 = 4 ∧ levels 245760 30 = 4 := by decide +kernel
/-- RFC 3720's polynomial: the CRC-32C of "123456789" is 0xE3069283. -/
theorem test_crc32c : crc32c [0x31, 0x32, 0x33, 0x34, 0x35, 0x36, 0x37, 0x38, 0x39] = 0xE3069283#32 := by decide +kernel

/-! ## Witnesses: the block, chapters 1, 13 and 5 -/

theorem witness_StepRunsTheFrontCommand : ({ up with pending := [.linkReset] } : State).pending = .linkReset :: [] := rfl
theorem witness_EmptyQueueTicksTheTimeBase : up.pending = [] ∧ up.power.mgmt = true ∧ State.reset.power.mgmt = false ∧
    Tbl.sortedFrom 0 up.flds = true := by decide +kernel
theorem witness_EveryStepKeepsTheInvariant : State.reset.Inv ∧ ∃ t, step State.reset = .next t := ⟨⟨rfl, rfl⟩, _, rfl⟩
theorem witness_StepConsumesOneCommandAndKeepsFuses : ∃ t, step { up with pending := [.pldmBaseDiscovery 1] } = .next t := ⟨_, rfl⟩
theorem witness_EveryCommandOfPresentUnitsCompletes : present up (.ecall 0 7) = true ∧ present up (.ecall 1 1) = false := by decide +kernel
theorem witness_PresentCommandsAreWellFormed : (∀ p, State.reset.lcores p ≤ 8) ∧ present State.reset (.portEnable 127) = true := by
  refine ⟨fun p => ?_, by decide +kernel⟩
  show (0 : Nat) ≤ 8; decide
theorem witness_FieldWriteChangesOneField : Tbl.sortedFrom 0 up.flds = true ∧ (PRT_STATE.CAUSE 0).cell ≠ (PRT_STATE.STATE 0).cell := by
  decide +kernel
theorem witness_ByteWriteChangesThoseBytes : Memory.wf up.mem = true ∧ (0 : Nat) < [1#8].length := by decide
theorem witness_RegisterWritesFollowAccessTypes : up.agentOk 0 (.flint 7) = true ∧ sizeOk 0x38 8 = true ∧ sizeOk 0x3C 8 = false ∧
    up.regAt 0 0x00FFFFF8 = none ∧ (∃ h, up.regAt 0 0x30 = some h) := by
  refine ⟨by decide +kernel, by decide +kernel, by decide +kernel, by decide +kernel, Option.isSome_iff_exists.mp (by decide +kernel)⟩
theorem witness_DescriptorAndClockEnableWrites : up.agentOk 0 .bedrock = true ∧ up.rf (PRT_CLK_EN.MOV 0) = 1 ∧
    up.rf (MOV_DESC.D 0 4095 31) < 2 ^ 64 := by decide +kernel
/-- P0 in a WARM reset at QUIESCE, P1 in a cold reset whose die is awake, P2 in an escalated one. -/
def resetting : State :=
  { up with resets := [(0, some ⟨1, 0, false, false, false, false⟩), (1, some ⟨2, 6, false, true, true, false⟩),
                       (2, some ⟨2, 5, false, false, true, false⟩)]
            gov := { up.gov with awake := [1] } }
theorem witness_ResetRequestsStartOrMerge : up.pstate 0 ≠ 0 ∧ up.getReset 0 = none ∧ up.pstate 0 ≠ 4 ∧
    resetting.getReset 0 = some ⟨1, 0, false, false, false, false⟩ ∧ (up.getFt 0).running = false ∧
    (put up [(PRT_STATE.STATE 0, 0)]).pstate 0 = 0 := by decide +kernel
theorem witness_ResetStagesFollowInOrder : resetting.getReset 0 = some ⟨1, 0, false, false, false, false⟩ ∧
    resetting.getReset 1 = some ⟨2, 6, false, true, true, false⟩ ∧ resetting.gov.awake.contains 1 = true ∧
    resetting.getReset 2 = some ⟨2, 5, false, false, true, false⟩ ∧ resetting.getReset 3 = none ∧ resetting.gov.awake.contains 2 = false ∧
    resetting.rf BDR_SEC.DRBG_OK = 1 ∧ (put up [(BDR_SEC.DRBG_OK, 0)]).rf BDR_SEC.DRBG_OK ≠ 1 ∧ resetting.heldOff 0 = none ∧ resetting.offlineCause 0 = none ∧
    ({ resetting with log := { resetting.log with retiredCores := [(0, 3)] } } : State).offlineCause 0 = some 5 ∧
    ({ resetting with log := { resetting.log with suspect := [(0, 2)] } } : State).heldOff 0 = some 8 := by decide +kernel
theorem witness_ZeroStagesClearStackedMemory : Memory.wf up.mem = true ∧ 0 < up.fuse.variant.stackedBytes := by decide +kernel
/-- A state with context 5 open for P0 (its last generation) and one migration waiting on it. -/
def ctxUp : State :=
  { up with ctx := [(5, { ({} : Ctx) with gen := 16383, state := 1, part := 0 })], aux := [(5, { ({} : CtxAux) with migrWait := 8, lastMigr := some 0 })] }
theorem witness_FreedContextTakesTheNextGeneration : (ctxUp.getCtx 5).state ≠ 0 ∧ (ctxUp.getCtx 5).gen = 16383 ∧
    Tbl.sortedFrom 0 ctxUp.ctx = true ∧ Tbl.sortedFrom 0 ctxUp.flds = true := by decide +kernel
theorem witness_WaitingCommandsResume : (ctxUp.getAux 5).migrWait ≠ 0 ∧ (ctxUp.getAux 5).lastMigr = some 0 ∧ ctxUp.now < 0 + 200 ∧
    200 ≤ (put ctxUp [(QTZ_TB.TICKS, 200)]).now ∧ (up.getHost 0).wait = none ∧
    (up.colQueues 0).find? (fun q => (up.getColq 0 q).waiting) = none ∧ (ctxUp.getAux 6).migrWait = 0 ∧ up.hostRoom 0 = false ∧
    (∃ w, (({ up with host := [(0, { wait := some ⟨⟨0, true, 2, 0, 0, 0, 0, 1, true⟩, true⟩ })] } : State).getHost 0).wait = some w) ∧
    (({ up with colq := [(3, { opening := true, waiting := true })] } : State).colQueues 0).find?
      (fun q => (({ up with colq := [(3, { opening := true, waiting := true })] } : State).getColq 0 q).waiting) = some 3 := by
  refine ⟨by decide +kernel, by decide +kernel, by decide +kernel, by decide +kernel, by decide +kernel, by decide +kernel, by decide +kernel, by decide +kernel, ⟨_, rfl⟩, by decide +kernel⟩
/-- Core 0 of P0 runs the instruction word `w` at the start of IMEM, with `v` in a0, and `m` as its memory. -/
def flintRuns (w : Nat) (v : Word64) (m : List Host.Cell) : State :=
  { put up [(FLT_STATUS.STATE 0 0, 1), (PRT_CLK_EN.FLT 0, 1)] with
    mem := m
    flint := [(0, { ({} : Flint) with pc := 0x8000000000000000, x := [(10, v)], imem := bytesTbl 0 (leBytes 4 w) })] }
/-- The same core stalled. -/
def flintStalls (st : Stall) : State :=
  { put up [(FLT_STATUS.STATE 0 0, 2), (PRT_CLK_EN.FLT 0, 1)] with flint := [(0, { ({} : Flint) with stall := st })] }
/-- A block of zeros with check word 0 verifies. -/
theorem zero_block : checkWord (List.replicate 256 0#8) = 0#32 := BitVec.xor_self

theorem witness_WrittenBlockVerifies : Memory.wf up.mem = true ∧ Tbl.sortedFrom 0 up.tileChk = true ∧ Tbl.sortedFrom 0 up.pc = true ∧
    (List.replicate 256 0#8).length = 256 ∧ 0 < up.fuse.variant.dataBytes ∧ up.fuse.variant.dataBytes % 256 = 0 := by decide +kernel
theorem witness_FlintBaseInstructionExecutes :
    up.issues 0 0 = false ∧ (flintRuns 0xFFF10093 0 []).issues 0 0 = true ∧
    fetchAt ((flintRuns 0xFFF10093 0 []).getFlint 0 0) = .instr (.aluI .add false 1 2 (BitVec.allOnes 64)) 4 ∧
    isBase ((flintRuns 0xFFF10093 0 []).getFlint 0 0) (.aluI .add false 1 2 (BitVec.allOnes 64)) = true ∧
    isBase ((flintRuns 0x0205078B 0 []).getFlint 0 0) (.ext (.tque 1) 15 10) = false ∧
    fetchAt ((flintRuns 0 0 []).getFlint 0 0) = .illegal ∧ fetchAt {} ≠ .fault ∧ fetchAt { pc := 0 } = .fault ∧
    dmemBase ≤ (xreg ((flintRuns 0 0x800000000001FFF8 []).getFlint 0 0) 10 + 0#64).toNat ∧
    (xreg ((flintRuns 0 0x800000000001FFF8 []).getFlint 0 0) 10 + 0#64).toNat < dmemBase + 0x10000 := by decide +kernel
/-- ld a1, 0(a0) is 0x00053583 and sd a1, 0(a0) is 0x00B53023. -/
theorem witness_FlintPartitionAccesses :
    (flintRuns 0x00053583 8 []).nextInstr 0 0 = some (.load 3 true 11 10 0#64, 4) ∧
    (flintRuns 0x00B53023 8 []).nextInstr 0 0 = some (.store 3 10 11 0#64, 4) ∧
    (flintRuns 0x00053583 8 []).place 0 8 = .data ∧ (flintRuns 0x00053583 8 []).lost 0 8 = false ∧ (flintRuns 0x00053583 8 []).rtProtected 0 8 = false ∧
    (flintRuns 0x00053583 8 []).place 0 0xF00000000008 = .tile 0 8 ∧ (flintRuns 0x00053583 8 []).place 0 0xFF0000000008 = .regs 8 ∧
    (flintRuns 0x00053583 8 []).readReg 0 8 8 ≠ none ∧ (flintRuns 0x00053583 8 []).readReg 0 0x00FFFFF8 8 = none ∧
    (flintRuns 0x00053583 8 []).place 0 0xEFFFFFFFFFF8 = .nowhere ∧ (flintRuns 0x00053583 8 []).pairBad 0 (up.checkAddr 0) = false ∧
    ({ pc := 0, access := [⟨true, 1, 0#64, false, 5, 0⟩] } : Flint).access = ⟨true, 1, 0#64, false, 5, 0⟩ :: [] := by decide +kernel
theorem witness_zero_block_verifies : up.blockOk 0 0 = true := by
  have h : up.block 0 (0 / 256 * 256) = List.replicate 256 0#8 := by decide +kernel
  have g : up.checkOf 0 (0 / 256 * 256) = 0#32 := by decide +kernel
  have d : 0 / 256 * 256 < up.fuse.variant.dataBytes := by decide +kernel
  have b : up.blockBad 0 (0 / 256 * 256) = false := by decide +kernel
  have q : up.pairBad 0 (up.checkAddr (0 / 256 * 256)) = false := by decide +kernel
  simp only [State.blockOk, h, g, zero_block, b, q]
  decide
theorem witness_FlintHalts : (flintRuns 0x00000073 0 []).nextInstr 0 0 = some (.ecall, 4) ∧
    (flintRuns 0x00100073 0 []).nextInstr 0 0 = some (.ebreak, 4) ∧ up.nextInstr 0 0 = none := by decide +kernel
theorem witness_SequenceNumbersComplete : Tbl.sortedFrom 0 up.flds = true ∧ (up.getQueue 0 0 0).entries = [] ∧
    (({ up with queue := [(0, { entries := [⟨1, .mode 1, false, false, 0, false⟩] })] } : State).getQueue 0 0 0).entries =
      ⟨1, .mode 1, false, false, 0, false⟩ :: [] := by decide +kernel
theorem witness_ExtensionEncodingRoundTrips : (Ext.tque 2).ok = true ∧ decode32 0x0205078B = some (.ext (.tque 1) 15 10) ∧
    decode32 (0x0205078B + 2 ^ 20) = none ∧ (0x0205078B + 2 ^ 20) % 128 = 0x0B := by decide +kernel
/-- A core whose Garnet queue is full. -/
def fullQueue : State :=
  { flintRuns 0x0000148B 0 [] with
    queue := [(0, { entries := (List.range 64).map (fun i => ⟨i + 1, .mode 0, false, false, 0, false⟩) }),
              (1, { entries := (List.range 64).map (fun i => ⟨i + 1, .seed 0, false, false, 0, false⟩) })] }
theorem witness_EnqueuingReturnsTheSequenceNumber :
    (flintRuns 0x0205078B 0x800000000001FFC0 []).nextExt 0 0 = some (.tque 1, 15, 0x800000000001FFC0) ∧
    (flintRuns 0x0205078B 0x800000000001FFC0 []).mayEnqueue 0 0 1 0 = true ∧ fullQueue.hasRoom 0 0 0 = false ∧ fullQueue.hasRoom 0 0 1 = false ∧
    up.hasRoom 0 0 0 = true ∧ up.hasRoom 0 0 1 = true ∧ fullQueue.mayEnqueue 0 0 0 0 = false ∧
    (flintRuns (encodeExt (.mode 1) 5 0) 0 []).nextExt 0 0 = some (.mode 1, 5, 0) ∧
    (flintRuns (encodeExt .seedld 5 10) 7 []).nextExt 0 0 = some (.seedld, 5, 7) ∧
    ((flintStalls (.enqueue 0 0 [] 1)).getFlint 0 0).stall = .enqueue 0 0 [] 1 ∧ (flintStalls (.enqueue 0 0 [] 1)).mayEnqueue 0 0 0 0 = true ∧
    Tbl.sortedFrom 0 ((flintRuns 0 0 []).getFlint 0 0).x = true := by decide +kernel
theorem witness_WaitingInstructionsReturn :
    (flintRuns (encodeExt (.twait 0) 5 10) 0 []).nextExt 0 0 = some (.twait 0, 5, 0) ∧ (flintRuns (encodeExt (.twait 0) 5 10) 0 []).seqDone 0 0 0 0 = true ∧
    up.seqDone 0 0 0 1 = false ∧ ((flintStalls (.twait 0 1 5)).getFlint 0 0).stall = .twait 0 1 5 ∧
    (flintRuns (encodeExt (.sumrd 3) 5 10) 0x800000000001FFE8 []).nextExt 0 0 = some (.sumrd 3, 5, 0x800000000001FFE8) ∧
    ((flintStalls (.sumrd 3 dmemBase 5 0)).getQueue 0 0 1).entries.all (fun x => !namesSlot 3 x.kind || !seqCovers 0 x.seq) = true ∧
    (flintRuns (encodeExt .stepb 5 10) 1 []).nextExt 0 0 = some (.stepb, 5, 1) ∧
    (flintStalls (.stepb 1 5 false 0)).queuesEmpty 0 0 = true ∧ (flintStalls (.stepb 1 5 false 0)).errQueue 0 0 = none ∧
    (flintStalls (.stepb 1 5 false 0)).stepOk 0 0 1 = true ∧ fullQueue.queuesEmpty 0 0 = false ∧
    (put (flintStalls (.stepb 1 5 false 0)) [(qErr 0 0 2, 1)]).errQueue 0 0 = some 2 ∧ (flintStalls (.stepb 1 5 false 0)).rf (PRT_CLK_EN.FLT 0) = 1 := by
  decide +kernel

/-! ## Witnesses: Garnet and Mica -/

/-- P0 with a 1 × 1 E4M3 tensor in tile memory at descriptor 0, its arrays awake, and a command at the head of an engine's queue. -/
def cmdUp (e : Nat) (ws : List Word64) : State :=
  { put up [(GRN_STATUS.GATED 0 0, 0), (MOV_DESC.D 0 0 0, 583), (PRT_CLK_EN.TLM 0, 1)] with
    queue := [(e, { entries := [⟨1, .cmd ws, false, false, 0, false⟩] })] }
/-- A pass of one vector with every row masked: W0 is OP 1, W1 NVEC 1. -/
def passWs : List Word64 := [1, 0x400000000000, 0, 0, 0, 0, 0, 0]
/-- A store of 64 rows of array 0, transposed, into the tensor at descriptor 0. -/
def storeWs : List Word64 := [2, 0x00020000FFFF0000, 0, 0, 0xFFFF0103, 0, 0, 0]
/-- A pass that computed its only group. -/
def onePass : Pass := ⟨1, 2, true, 0, 1, 64, 3, 3, 0, 0, [], 0, 1, [], [], [⟨0, [[]], true⟩], false, 0, 0⟩
/-- P0 with that pass at the head of array 2. -/
def passUp (recomp : Bool) : State := { up with garnet := [(0, { passes := [{ onePass with recomp := recomp }] })] }
theorem witness_ModeSwitchAndGating :
    (({ up with queue := [(0, { entries := [⟨1, .mode 1, false, false, 0, false⟩] })] } : State).getQueue 0 0 0).entries =
      ⟨1, .mode 1, false, false, 0, false⟩ :: [] ∧ (1 : Nat) ≠ up.rf (GRN_MODE.MODE 0 0) ∧
    Tbl.sortedFrom 0 up.acc = true ∧ Tbl.sortedFrom 0 up.loaded = true ∧
    (put up [(GRN_CFG.IDLE_OFF 0 0, 1), (GRN_STATUS.GATED 0 0, 7)]).rf (GRN_CFG.IDLE_OFF 0 0) ≠ 0 ∧
    bitOf ((put up [(GRN_STATUS.GATED 0 0, 7)]).rf (GRN_STATUS.GATED 0 0)) 3 = false ∧ up.arrayBusy 0 0 3 = false := by decide +kernel
/-- What loading a pass of no cells, and streaming its vectors, answer. -/
def loadsTo (r : LoadAns) (cells : List (Nat × Option Held)) : Bool := match r with
  | .ok _ c => c == cells
  | .fail _ _ => false
theorem witness_GarnetPassStarts : up.garnetEntry 0 0 1 1 = none ∧
    (cmdUp 0 passWs).garnetEntry 0 0 1 1 = some (⟨1, .cmd passWs, false, false, 0, false⟩, passWs) ∧
    (cmdUp 0 passWs).passOk 0 0 (passCmd passWs) = true ∧ (passCmd passWs).reuse = false ∧ (passCmd passWs).accum = false ∧
    (cmdUp 0 passWs).passOk 0 0 { passCmd passWs with nvec := 0 } = false ∧
    (let x := (cmdUp 0 passWs).planOf 0 0 (passCmd passWs)
     (x.smaps ++ x.vmaps).any ((cmdUp 0 passWs).interlocked 0) = false ∧ x.cells = some [] ∧ x.vecs = some [] ∧ x.skipped = false ∧
     x.reuseOk false = false ∧ (cmdUp 0 passWs).passKv x = true ∧ loadsTo ((cmdUp 0 passWs).loadCells 0 0 x.so [] []) [] = true ∧
     ((cmdUp 0 passWs).streamAll 0 0 32 0 0 x.rm x.vo [] 16 0 1).2 = (0, [⟨0, [List.replicate 32 none], true⟩])) ∧
    ({ cmdUp 0 passWs with loaded := [(0, some ⟨3, false, true, 0, 0, []⟩)] } : State).accumOk 0 0 0 64 0 1 1 = false ∧
    (let t : State := { cmdUp 0 passWs with loaded := [(0, some ⟨3, false, true, 0, 0, []⟩)] }
     (t.planOf 0 0 { passCmd passWs with reuse := true }).reuseOk false = true ∧
     (t.planOf 0 0 { passCmd passWs with reuse := true }).skipped = true) := by decide +kernel
/-- The accumulator word the pass adds to, corrected or not. -/
def accBad (fixed : Bool) : EccWord := ⟨2 * 32768, 1, fixed⟩
theorem witness_CheckGroupCommitsItsElements : Tbl.sortedFrom 0 up.acc = true ∧ (∀ j ∈ bitsSet 256 onePass.cmask, j < onePass.width) ∧
    (passUp false).headPass 0 0 2 = some onePass ∧ up.headPass 0 0 2 = none ∧
    onePass.reads ⟨0, [[]], true⟩ (accPlace ((passUp false).fused 0 0) (accBad false).pos).1 (accPlace ((passUp false).fused 0 0) (accBad false).pos).2 =
      true := by decide +kernel
theorem witness_ResidueMismatchRecomputes : (passUp false).headPass 0 0 2 = some onePass ∧
    (passUp true).headPass 0 0 2 = some { onePass with recomp := true } ∧ onePass.groups = ⟨0, [[]], true⟩ :: [] ∧
    (match (passUp true).streamGroup 0 0 32 0 0 0 0 1 { (passUp true).opndOf 0 0 [] 0 with snap := [] } [] with
     | .ok _ g => g == ⟨0, [List.replicate 32 none], true⟩
     | .fail _ _ => false) = true := by decide +kernel
def store0 : Store := ⟨1, storeWs, [0], [], [], [], [], [], 0⟩
def storing : State := { cmdUp 0 storeWs with garnet := [(0, { stores := [store0] })] }
theorem witness_GarnetStoreCombinesAndWrites : (cmdUp 0 storeWs).garnetEntry 0 0 1 2 = some (⟨1, .cmd storeWs, false, false, 0, false⟩, storeWs) ∧
    (cmdUp 0 storeWs).rowsPending 0 0 64 64 ((cmdUp 0 storeWs).partialsOf 0 0 (storeCmd storeWs) storeWs) = false ∧
    (cmdUp 0 storeWs).storeOk 0 0 (storeCmd storeWs) storeWs = true ∧
    (cmdUp 0 storeWs).storeOk 0 0 { storeCmd storeWs with tperm := 6 } storeWs = false ∧
    ((storeCmd storeWs).blocks 0 64 ((cmdUp 0 storeWs).partialsOf 0 0 (storeCmd storeWs) storeWs) ++
      blocksOfAddrs ((cmdUp 0 storeWs).storeMaps 0 0 (storeCmd storeWs) 64) = [] ∧ ((cmdUp 0 storeWs).verify 0 0 [] []).2 = 0) ∧
    storeReads 64 64 ((cmdUp 0 storeWs).partialsOf 0 0 (storeCmd storeWs) storeWs) 0 0 = true ∧
    isIntFmt (storeCmd storeWs).fmt = false ∧ Tbl.sortedFrom 0 storing.flds = true ∧
    (storing.getGarnet 0 0).stores.find? (fun x => x.seq == 1) = some store0 ∧ store0.bdesc = [] ∧ store0.idesc = [] ∧
    (storing.getGarnet 0 0).stores.find? (fun x => x.seq == 2) = none := by decide +kernel
/-- Mica commands of one row and one column: ADD, CVT to E4M3, RNDU, RSUM, TLD and TST with descriptor 0. -/
def micaWs (mop sub : Nat) : List Word64 := [0, BitVec.ofNat 64 (mop + 256 * sub), 0x0081, 0, 0, 0, 3, 0]
theorem witness_ElementwiseCommandsStage : (cmdUp 1 (micaWs 1 0)).micaHead 0 0 = some (⟨1, .cmd (micaWs 1 0), false, false, 0, false⟩, micaWs 1 0) ∧
    (micaCmd (micaWs 1 0)).mop = 1 ∧ (micaCmd (micaWs 1 0)).subop = 0 ∧ (micaCmd (micaWs 1 0)).ok true = true ∧ (micaCmd (micaWs 0x62 0)).ok false = true ∧
    (micaCmd (micaWs 1 0)).view = 0 ∧ (micaCmd (micaWs 1 0)).vrows = 1 ∧ (micaCmd (micaWs 1 0)).vcols = 1 := by decide +kernel
theorem witness_ConversionsRandomReductionsAndTileAccess :
    ((micaCmd (micaWs 0x30 0)).mop = 0x30 ∧ (micaCmd (micaWs 0x30 0)).ok true = true ∧ (micaCmd (micaWs 0x30 0)).fmt = 3) ∧
    (cmdUp 1 (micaWs 0x40 0)).idxOk 0 0 0 = true ∧ (cmdUp 1 (micaWs 0x40 0)).idxOk 0 0 1 = false ∧
    (((cmdUp 1 (micaWs 0x40 0)).opnd 0 0 0).d).rows < 2 ^ 40 ∧ (((cmdUp 1 (micaWs 0x40 0)).opnd 0 0 0).d).cols < 2 ^ 30 ∧
    (cmdUp 1 (micaWs 0x60 0)).tileDescOk 0 0 (micaCmd (micaWs 0x60 0)) = true ∧
    (((cmdUp 1 (micaWs 0x60 1)).opnd 0 0 0).d).mx = false ∧ up.micaHead 0 0 = none := by decide +kernel
theorem witness_MicaCommitsAndRetries :
    (({ up with stage := [(0, some { seq := 1, mop := 1, cost := 4 })] } : State).getStage 0 0 = some { seq := 1, mop := 1, cost := 4 }) ∧
    up.getStage 0 0 = none ∧ Tbl.sortedFrom 0 up.treg = true ∧ Tbl.sortedFrom 0 up.stage = true ∧
    (put up [(MCA_CFG.IDLE_OFF 0 0, 1)]).rf (MCA_CFG.IDLE_OFF 0 0) ≠ 0 ∧ up.rf (MCA_STATUS.GATED 0 0) ≠ 1 ∧ (up.getQueue 0 0 1).entries = [] := by
  decide +kernel

/-! ## Witnesses: the mover, dispatch and stacked memory -/

/-- A copy of the element at (0, 0) of the tile tensor at descriptor 0 to the one at descriptor 1. -/
def copyWs : List Word64 := [0x220, 0x500010000, 0, 0, 0x100000001, 0, 0, 0]
/-- A copy from tile memory to the stream of handle `h`. -/
def streamWs (h : Nat) : List Word64 := [0x220, 0x900000000, 0, 0, 0x100000001, BitVec.ofNat 64 h, 0, 0]
/-- P0 with that copy at the head of its mover queue. -/
def copyUp : State := put (cmdUp 2 copyWs) [(MOV_DESC.D 0 1 0, 583), (MOV_DESC.D 0 1 1, 4096), (MOV_CFG.QCHAN 0, 1)]
/-- P0 with the copy started and its segment waiting. -/
def copyRuns : State := match exec (.moverCopy 0 0 1 []) copyUp with
  | .next s => s
  | _ => copyUp
/-- P0 with its segment, of tile-memory block 1030792151056, on channel 0. -/
def copyOnChannel : State := { copyUp with mover := [(0, {
  copies := [⟨0, 1, copyWs, [], [], false, 1, []⟩], chans := [(0, some ⟨⟨0, 1, [1030792151056], 0, true⟩, [(1030792151056, 255, 0)], 0, 1, []⟩)] })] }
/-- P0 with a grant of one block on context 5. -/
def streamUp : State := { copyUp with ctx := ctxUp.ctx, aux := [(5, { ({} : CtxAux) with grants := [1] })] }
theorem witness_MoverCopiesRunInSegments :
    (copyUp.nextEntry 0 0 2 = some ⟨1, .cmd copyWs, false, false, 0, false⟩ ∧ w0Ok 2 copyWs = true ∧
      copyUp.canStart 0 0 ⟨1, .cmd copyWs, false, false, 0, false⟩ = true ∧ (moverCmd copyWs).rsv = true ∧
      (copyUp.start 0 0 2 1).copyOk 0 0 (moverCmd copyWs) = true ∧
      (copyUp.start 0 0 2 1).copyShape 0 0 { moverCmd copyWs with sdesc := 2 } = false) ∧
    ((moverCmd (streamWs 5)).dkind = 2 ∧ (moverCmd (streamWs 5)).skind = 1 ∧ up.handleOk 0 5 = false ∧
      ctxUp.handleOk 0 (16383 * 2 ^ 18 + 5) = true ∧ (ctxUp.getCtx 5).state = 1) ∧
    (copyRuns.nextEntry 0 0 2 = none ∧ copyRuns.nextCore 0 = some 0 ∧ copyRuns.freeChannel 0 = some 0 ∧ up.nextCore 0 = none) ∧
    copyUp.copyWaits 0 0 (moverCmd copyWs) = false ∧ copyUp.protectedDst 0 0 (moverCmd copyWs) = none ∧
    ((streamUp.opnd 0 0 0).windowBlocks (moverCmd (streamWs 5)) = [1030792151040] ∧
      streamUp.streamOk (streamUp.opnd 0 0 0) 0 1 (moverCmd (streamWs 5)) = true ∧ (streamUp.getAux 5).posted = none ∧
      (streamUp.getAux 5).sends = [] ∧ (streamUp.getAux 5).grants = [1]) ∧
    (∃ g ∈ (copyRuns.getMover 0).waiting, (copyRuns.getMover 0).copy 0 g.seq ≠ none) ∧
    ((copyOnChannel.getMover 0).chans.get none 0).isSome = true ∧ ((copyOnChannel.getMover 0).copy 0 1).isSome = true ∧
    (up.getMover 0).chans.get none 0 = none := by decide +kernel
/-- A token of round 7 for expert 3, which spills to expert 4. -/
def token : TokenMsg := ⟨7, 1, 0, 2, 0#32, 3, false, 4, [0#8]⟩
/-- A receive-table entry of expert 3 with one slot of descriptor 1, one source and spilling, and that token staged at address 256. -/
def hosting : Hosting := ⟨[0x0000000100030003, 1, 1, 0x20000, 0, 0, 0, 0], [], 0, false, false⟩
def staged0 : Staged := ⟨token, 2, 0, 0, 256, 1⟩
/-- P0 in round 7: send and receive sides open, the token staged, one routing entry to send, rows of one E4M3 element at descriptor 1. -/
def roundUp : State :=
  { put up [(DSP_STATUS.CUR_RID 0, 7), (DSP_STATUS.SEND_OPEN 0, 1), (DSP_STATUS.RECV_OPEN 0, 1), (DSP_TXT.ENTRY 0 0 4, 2 ^ 32 + 16383 * 2 ^ 18 + 5),
            (PRT_CLK_EN.DSP 0, 1), (PRT_CLK_EN.DSP 1, 1), (PRT_CLK_EN.MEM 0, 1), (MOV_DESC.D 0 1 0, 71), (MOV_DESC.D 0 1 1, 512),
            (DSP_RND.XDESC 0, 1), (DSP_RND2.RDESC 0, 0xFFFF)] with
    ctx := [(5, { ({} : Ctx) with gen := 16383, state := 1, part := 0, kind := 2 })]
    disp := [(0, { opened := true, list := [⟨1, 2, 0, 0, [3, 4], []⟩], hosts := [hosting], staged := [staged0] })] }
def sentFirst : State := { roundUp with disp := [(0, { roundUp.getDisp 0 with sent := [0] })] }
/-- A message of the stream: a part of the token, or an end marker of kind `k` for round `r`. -/
def tokenIn (ret : Bool) : Msg :=
  ⟨16383 * 2 ^ 18 + 5, 0, 0, 0, 1, 0, 0, 0, 0, 0, 0, 0, 0, (tokenMsgs token ret).flatMap (·.blocks), (tokenMsgs token ret).flatMap (·.checks), true⟩
def markerIn (r k : Nat) : Msg := ⟨16383 * 2 ^ 18 + 5, 0, 3, 0, 0, 256 * r + 2 ^ 40 * k, 0, 0, 0, 0, 0, 0, 0, [], [], true⟩
theorem witness_DispatchRoundsSendAndDeliver :
    (roundUp.rf (PRT_CLK_EN.DSP 0) ≠ 0 ∧ roundUp.goRefused 0 = true ∧ roundUp.goRefused 1 = false ∧ roundUp.rf (PRT_CLK_EN.DSP 1) ≠ 0 ∧
      roundUp.roundsOpen 0 = true) ∧
    up.rf (DSP_STATUS.SEND_OPEN 0) = 0 ∧
    ((choicesOf (roundUp.getDisp 0).list)[0]? = some (⟨1, 2, 0, 0, [3, 4], []⟩, 0) ∧ roundUp.sendEntry 0 3 = none ∧
      roundUp.nextChoice 0 = some 0 ∧ sentFirst.nextChoice 0 = some 1 ∧
      (choicesOf (sentFirst.getDisp 0).list)[1]? = some (⟨1, 2, 0, 0, [3, 4], []⟩, 1) ∧ (sentFirst.takeTurn 0 (sentFirst.dspTurn 0)).isSome = true ∧
      sentFirst.rowWaits 0 1 0 = false ∧ (sentFirst.getCtx 5).state = 1 ∧
      roundUp.sendEntry 0 4 = some (16383 * 2 ^ 18 + 5) ∧ roundUp.handleOk 0 (16383 * 2 ^ 18 + 5) = true ∧ roundUp.handleOk 0 5 = false) ∧
    choicesOf (up.getDisp 0).list = [] ∧
    ((tokenPart (tokenIn false).blocks.flatten).ret = false ∧ (tokenPart (tokenIn true).blocks.flatten).ret = true ∧
      markerKind (markerIn 7 1) = 1 ∧ markerKind (markerIn 7 2) = 2 ∧ markerKind (markerIn 7 0) = 0 ∧ markerRid (markerIn 7 2) = 7 ∧
      (roundUp.arrive (markerIn 7 0)).2 = some 0 ∧ (roundUp.arrive { markerIn 7 0 with dhandle := 5 }).2 = none ∧
      (tokenPart (tokenIn false).blocks.flatten).off = 0 ∧ (tokenPart (tokenIn false).blocks.flatten).len = 1 ∧
      (tokenPart (tokenIn false).blocks.flatten).tok = token) ∧
    (roundUp.ridStale 0 6 = true ∧ roundUp.ridStale 0 8 = false ∧ roundUp.ridNow 0 8 = false ∧ roundUp.ridStale 0 7 = false ∧
      roundUp.ridNow 0 7 = true ∧ roundUp.rf (DSP_STATUS.RECV_OPEN 0) = 1 ∧ (roundUp.getDisp 0).spillEnds.contains 2 = false ∧
      (put roundUp [(DSP_STATUS.RET_OPEN 0, 1)]).rf (DSP_STATUS.RET_OPEN 0) = 1) ∧
    ((roundUp.getDisp 0).hosts[0]? = some hosting ∧ roundUp.nextToken 0 hosting = some (staged0, true) ∧ hosting.filled < rxCap hosting.words ∧
      roundUp.stagedWaits 0 staged0 = false ∧ roundUp.spillFree 0 hosting token true = true ∧ (roundUp.takeTurn 0 (roundUp.dspTurn 0)).isSome = true ∧
      rxCap hosting.words ≤ { hosting with filled := 1 }.filled ∧ roundUp.nextToken 0 { hosting with finished := true } = none) ∧
    rxSpill hosting.words = true ∧ token.spillx ≠ 0xFFFF ∧ token.spillx ≠ rxExpert hosting.words ∧ roundUp.rf (DSP_RND2.RDESC 0) = 0xFFFF ∧
    roundUp.rowDescOk 0 1 = true ∧ roundUp.rowDescOk 0 2 = false := by decide +kernel
/-- A read of one whole pair by mover channel 16, and P0 with channel 0 of every stack ready and that read waiting. -/
def memReq : MemReq := ⟨.channel 16, 0x3FFFFFC0, 2, false⟩
def memUp : State := { put up [(MEM_REG.TOKENS 0 0 2, 1000), (MEM_REG.BURST 0 0 2, 100), (MEM_CFG.SCRUB_EN 0 0, 1)] with
  pc := [(0, { reqs := [memReq], bad := [5] })], chan := [(0, { st := 1 })] }
theorem witness_MemoryGrantsAndScrubs : (0 : Nat) < up.fuse.variant.chans ∧ up.fuse.variant.stackedBytes - 1 < up.fuse.variant.stackedBytes ∧
    (memUp.chooseReq 0 0 (memUp.getPc 0 0)).isSome = true ∧ memUp.chooseReq 0 1 (memUp.getPc 0 1) = none ∧
    memUp.slotToOther 0 0 true = false ∧ ({ memUp with pc := [(32, { reqs := [memReq], writing := true })], flds := (put memUp [(MEM_REG.TOKENS 0 32 2, 10000)]).flds } : State).slotToOther 0 0 false = true ∧
    (memUp.getChan (memUp.chanOf 0 0).1 (memUp.chanOf 0 0).2.1).st = 1 ∧ memPort memReq = 2 ∧ readPairs { memReq with write := true, sectors := 1 } = [0xFFFFFF] ∧
    Tbl.sortedFrom 0 memUp.pc = true ∧ 5 ∈ (memUp.getPc 0 0).bad ∧ 6 ∉ (memUp.getPc 0 0).bad ∧
    memUp.rf (MEM_ECC_ADDR.VALID 0 0) ≠ 1 ∧
    Tbl.sortedFrom 0 memUp.flds = true ∧ memUp.rf (MEM_CFG.SCRUB_EN 0 0) ≠ 0 ∧ (put memUp [(MEM_CFG.SCRUB_EN 0 0, 0)]).rf (MEM_CFG.SCRUB_EN 0 0) = 0 := by decide +kernel
/-- A wrong check symbol is corrected, whichever field and roots the code has. -/
theorem witness_one_symbol_is_corrected : ∃ pos, symbolFinding [(64, 1#8)] = .corrected pos := by
  have one (f : Byte) : gfMul f 1#8 1#8 = 1#8 := by simp [gfMul, gfMulN]
  have syn (j : Nat) : rsSyndrome symbolField 2#8 Config.rsFirst j [(0, 1#8)] = 1#8 := by simp [rsSyndrome, gfPow, one]
  have h : ((List.range 67).find? (fun k => (List.range 256).any (fun v =>
      [rsSyndrome symbolField 2#8 Config.rsFirst 0 [(codePlace k, BitVec.ofNat 8 v)], rsSyndrome symbolField 2#8 Config.rsFirst 1 [(codePlace k, BitVec.ofNat 8 v)],
       rsSyndrome symbolField 2#8 Config.rsFirst 2 [(codePlace k, BitVec.ofNat 8 v)]] == [1#8, 1#8, 1#8]))).isSome = true := by
    rw [List.find?_isSome]
    refine ⟨64, by decide, ?_⟩
    rw [List.any_eq_true]
    exact ⟨1, by decide, by simp [codePlace, syn]⟩
  obtain ⟨k, hk⟩ := Option.isSome_iff_exists.mp h
  refine ⟨k, ?_⟩
  have e : ([(64, 1#8)] : List (Nat × Byte)).filter (fun e => decide (e.1 < 67)) = [(64, 1#8)] := rfl
  have c : codePlace 64 = 0 := rfl
  unfold symbolFinding
  simp only [e, List.map, c, syn]
  rw [if_neg (by decide), hk]
theorem witness_ChannelsTrainRetrainAndFail : (up.getChan 15 31).st = 0 ∧ (memUp.getChan 0 0).st = 1 ∧ (memUp.getChan 0 0).reissues.get 0 7 = 0 ∧
    (({ up with chan := [(0, { st := 2, reissues := [(7, 2)], fails := 1 })] } : State).getChan 0 0).st = 2 ∧
    (({ up with chan := [(0, { st := 1, reissues := [(7, 2)] })] } : State).getChan 0 0).reissues.get 0 7 = 2 ∧ 680 < 2 ^ 11 ∧
    up.fuse.variant.stacks = 16 ∧ Tbl.sortedFrom 0 up.chan = true ∧ Tbl.sortedFrom 0 up.flds = true := by decide +kernel

/-! ## Witnesses: links and transport -/

/-- Ports 0 to 5 are peer ports in state 0 to 5, port 6 an UP uplink; context 5 of P0 is open with credit, and context 6 has a message unacknowledged. -/
def msg0 : Msg := ⟨16383 * 2 ^ 18 + 5, 0, 0, 0, 0, 0, 0, 0, 0, 0, 0, 0, 0, [], [], true⟩
def flit0 : Flit := ⟨1, 0, 4095, false, false, true, true, 0, 1, 1, [], true, 0, 0#32⟩
def tx0 : TxReq := ⟨0, 0, [[0#8]], [0#32], none, false⟩
def linkUp : State :=
  { put up [(ZLK_STATE.STATE 0, 0), (ZLK_STATE.STATE 1, 1), (ZLK_STATE.STATE 2, 2), (ZLK_STATE.STATE 3, 3), (ZLK_STATE.STATE 4, 4),
            (ZLK_STATE.STATE 5, 5), (ZLK_STATE.STATE 6, 3), (ZLK_STATE.ROLE 6, 1), (ZLK_STATE.ROLE 0, 0), (ZLK_STATE.ROLE 1, 0),
            (ZLK_STATE.ROLE 2, 0), (ZLK_STATE.ROLE 3, 0), (ZLK_STATE.ROLE 4, 0), (ZLK_STATE.ROLE 5, 0), (ZTP_RT_BASE.BASE 0, 2 ^ 47)] with
    port := [(0, { enabled := true }), (3, { replay := [{ flit0 with seq := 4095 }], queue := [⟨1029, false, flit0⟩] })]
    log := { State.reset.log with retiredLanes := [(4, 1)] }
    ctx := [(5, { ({} : Ctx) with gen := 16383, state := 1, part := 0, credit := 1 }), (6, { ({} : Ctx) with state := 1, part := 0, peerKind := 1 })]
    aux := [(5, { ({} : CtxAux) with txq := [tx0] }), (6, { ({} : CtxAux) with unacked := [⟨msg0, 0, 0, none, 7, false⟩], sends := [(0, 1, 2)] })] }
theorem witness_PortsTrainIdentifyAndRetrain : linkUp.boot = .running ∧ linkUp.zrole 0 = 0 ∧ linkUp.held 0 = false ∧
    (linkUp.getPort 0).enabled = true ∧ (linkUp.log.retiredLanes.get 0 4 ≠ 0 ∧ linkUp.isGlobal 4 = false) ∧
    (linkUp.log.retiredLanes.get 0 5 = 0 ∧ (linkUp.getPort 5).sentAccept = false ∧ linkUp.rf (ZLK_STATE.LANES_RET 5) = 0) ∧
    (List.range 7).map linkUp.zstate = [0, 1, 2, 3, 4, 5, 3] ∧ linkUp.isGlobal 6 = true := by decide +kernel
theorem witness_PortsTrainIdentity : (linkUp.showPeer 2 ⟨0, 0, 0, 0, 2, 0, 0, 0⟩).refusal 2 ⟨0, 0, 0, 0, 2, 0, 0, 0⟩ ≠ 0 := by decide +kernel
/-- In every state without recorded peer serials a port has an identity that it does not refuse. -/
theorem witness_accepted_identity (u : State) (i : Nat) (h : u.cfg.peerSerials = []) : ∃ d, u.refusal i d = 0 :=
  ⟨⟨0, u.ownCell, u.ztarget i, u.expectedPort i, u.cfg.protoMajor, 0, u.fabricDigest, 0⟩, by simp [State.refusal, h]⟩
/-- The link CRC does not cover the CRC field, so that every flit has a twin whose CRC is right and one whose CRC is wrong. -/
theorem flitCrc_crc (f : Flit) (c : Word32) : flitCrc { f with crc := c } = flitCrc f := rfl
theorem witness_FlitsAreAcknowledgedOrReplayed : (linkUp.zstate 3 = 3 ∧ linkUp.zrole 3 = 0 ∧ linkUp.zrole 6 ≠ 0 ∧ linkUp.zstate 2 ≠ 3) ∧
    (flit0.typ = 1 ∧ ∀ c, flitCrc { flit0 with crc := c } = flitCrc flit0) ∧
    ((linkUp.linkAck 3 4095).zstate 3 = 3 ∧ (linkUp.getPort 3).rxSeq = flit0.seq ∧ (linkUp.getPort 3).again = 0 ∧
      (linkUp.getPort 3).replay.findIdx? (fun f => f.seq == 4095 % 4096) = some 0 ∧
      (linkUp.getPort 3).replay.findIdx? (fun f => f.seq == 7 % 4096) = none ∧ ((linkUp.linkAck 3 7).getPort 3).replay ≠ []) ∧
    ((linkUp.getPort 3).nextFlit = some ⟨1029, false, flit0⟩ ∧ (linkUp.getPort 3).replay.length < 64 ∧ (linkUp.getPort 0).nextFlit = none ∧
      (linkUp.getPort 3).lastTrans ≠ some (linkUp.now / 1000000) ∧ Tbl.sortedFrom 0 linkUp.port = true) ∧
    linkUp.isGlobal 6 = true ∧ linkUp.isGlobal 3 = false := by
  refine ⟨by decide +kernel, ⟨by decide, flitCrc_crc flit0⟩, by decide +kernel, by decide +kernel, by decide +kernel⟩
/-- P0 whose second route table copy knows rank 0 and whose first does not (both in tile memory), with a stream to that rank. -/
def routeBlock : List Byte := 0#8 :: 0#8 :: 64#8 :: List.replicate 253 0#8
def parkUp : State :=
  { put up [(PRT_CLK_EN.TLM 0, 1), (ZTP_RT_BASE.BASE 0, 0xF00000000000)] with
    mem := [(0xF00002000002, 64#8)], tileChk := [(0xF00002000000 / 256, checkWord routeBlock)]
    ctx := [(6, { ({} : Ctx) with state := 1, part := 0, peerKind := 1, credit := 1 })], park := [(0, [(6, tx0)])] }
theorem witness_parked_route : parkUp.routeOf 6 = .park ∧ (parkUp.getPark 0).length < 256 := by
  have a : parkUp.routeIn 0 0 0 = none := by
    simp only [State.routeIn]
    split
    · exact if_neg (by decide +kernel)
    · rfl
  have b : parkUp.goodBlock 0 0xF00002000000 = true := by
    have h : parkUp.block 0 0xF00002000000 = routeBlock := by decide +kernel
    have g : parkUp.checkOf 0 0xF00002000000 = checkWord routeBlock := rfl
    have r : parkUp.reach 0 0xF00002000000 = true := by decide +kernel
    have q : parkUp.fuse.variant.dataBytes ≤ 0xF00002000000 := by decide +kernel
    have k : (0xF00002000000 : Nat) / 256 * 256 = 0xF00002000000 := by decide
    simp only [State.goodBlock, State.blockOk, k, h, g, r, q]
    simp
  have c : (parkUp.routeIn 0 1 0).isSome = true := by
    have e : parkUp.rf (ZTP_RT_BASE.BASE 0) + 1 * 0x02000000 + 8 * 0 = 0xF00002000000 := by decide +kernel
    simp only [State.routeIn, e, b]
    decide +kernel
  have x : parkUp.getCtx 6 = { ({} : Ctx) with state := 1, part := 0, peerKind := 1, credit := 1 } := by decide +kernel
  have y : (parkUp.getAux 6).dest = none := by decide +kernel
  have z : parkUp.rf (ZTP_RT_CTRL.ACTIVE 0) = 0 := by decide +kernel
  exact ⟨by simp [State.routeOf, x, y, z, a, c], by decide +kernel⟩
theorem witness_MessagesAreSentAndRetransmitted : (linkUp.getAux 6).txq = [] ∧ (linkUp.getAux 5).txq = tx0 :: [] ∧
    ((linkUp.getCtx 5).state = 1 ∧ (linkUp.getCtx 5).credit = 1 ∧ (linkUp.getCtx 5).part < 16 ∧ (linkUp.getStrata 0).suspRun = false ∧
      (linkUp.getStrata 0).replay = none ∧ linkUp.routeOf 5 = .to linkUp.ownCell linkUp.ownPos 0 ∧ linkUp.routeOf 6 = .none ∧
      ({ linkUp with ctx := [(5, { (linkUp.getCtx 5) with peerKind := 2 })] } : State).routeOf 5 = .external ∧
      ((linkUp.popTx 5).trySend 5 tx0).isSome = true ∧ (({ linkUp with ctx := ctxUp.ctx } : State).popTx 5).trySend 5 tx0 = none ∧
      (({ linkUp with strata := [(0, { suspRun := true })] } : State).getStrata 0).suspRun = true ∧
      (({ linkUp with strata := [(0, { replay := some 1 })] } : State).getStrata 0).replay.isSome = true ∧ (linkUp.getCtx 5).kind ≠ 4) ∧
    (linkUp.portsFor 5 msg0 = [] ∧ linkUp.portsFor 6 { msg0 with dcell := 1 } = [6]) ∧
    (parkUp.getPark 0 = [(6, tx0)] ∧ (parkUp.getAux 6).txq.any TxReq.parked = false) ∧
    ((linkUp.getAux 6).unacked.find? (fun u => u.msg.seq == 0) = some ⟨msg0, 0, 0, none, 7, false⟩ ∧ (linkUp.getAux 5).unacked = [] ∧
      linkUp.zrole 6 = 1 ∧ linkUp.nextUplink 6 = some 6) ∧
    Tbl.sortedFrom 0 linkUp.ctx = true := by decide +kernel
theorem witness_ReceivedMessagesPassAndTakeEffect : (linkUp.liveHandle 5 = false ∧ linkUp.liveHandle (16383 * 2 ^ 18 + 5) = true ∧
      (put linkUp [(PRT_STATE.STATE 0, 1)]).pstate 0 ∈ [0, 1, 2] ∧ linkUp.pstate 0 ∉ [0, 1, 2] ∧ (linkUp.getCtx 5).peerKind ≠ 2 ∧
      linkUp.tooOld 0 = false ∧ (1 : Nat) % 65536 ≠ (linkUp.getCtx 5).epoch) ∧
    (linkUp.admitMsg msg0 = (linkUp, true) ∧ linkUp.admitMsg { msg0 with dhandle := 5 } = (linkUp, false)) ∧
    ((linkUp.arrive msg0).2 = some 0 ∧ (linkUp.arrive { msg0 with seq := 40 }).2 = none ∧ (linkUp.arrive { msg0 with seq := 2 ^ 48 - 1 }).2 = none ∧
      (linkUp.arrive { msg0 with mtype := 4 }).2 = some 0 ∧ (linkUp.arrive { msg0 with mtype := 1 }).2 = some 0 ∧
      (linkUp.getCtx 5).kind ≠ 2 ∧ (linkUp.getCtx 5).rxMap = 0 ∧ (linkUp.getAux 5).posted = none) ∧
    (linkUp.windowAddrs 5 0 1 = none ∧ linkUp.isVote 5 = false ∧
      (({ linkUp with ctx := [(5, { ({} : Ctx) with gen := 16383, state := 1, part := 0, standing := true, winBase := 256, winLen := 1 })] } : State).windowAddrs 5 0 1).isSome = true) ∧
    ((linkUp.getAux 5).sends = [] ∧ (linkUp.getAux 6).sends = (0, 1, 2) :: [] ∧ (linkUp.getAux 6).unacked.all (fun u => u.owner.isNone) = true ∧
      linkUp.liveHandle (2 ^ 18 + 6) = true) := by decide +kernel

/-! ## Witnesses: collectives, Assay, Strata and recovery -/

/-- P0: queue 0 closed, queue 1 joining rank 1, queue 2 with an ALLREDUCE issued, queue 3 with a BARRIER started, queue 255 ready to open. -/
def barrierOp : ColOp := { seq := 1, words := barrierWords true, started := true }
def sumWords : List Word64 := [0#64, 0#64, 0#64, 0#64, 64#64, 0#64, 0#64, 0#64]
def colUp : State :=
  { put up [(COL_Q_RANK.N 0 255, 1), (COL_Q_CFG.RADIX 0 255, 64), (COL_Q_CFG.CHUNK 0 255, 4), (COL_Q_RANK.N 0 3, 4), (COL_Q_CFG.RADIX 0 3, 2), (COL_Q_CFG.CHUNK 0 3, 4),
            (COL_Q_SEQ.TAIL 0 2, 1)] with
    colq := [(1, { opening := true, peers := [1], awaited := [1] }), (2, { opened := true, ops := [{ seq := 1, words := [] }] }),
             (3, { opened := true, ops := [barrierOp, { seq := 2, words := sumWords, started := true }] })] }
/-- Queue 3 with the sum's inputs of node (1, 0) arrived, with its top node formed, and with the barrier done. -/
def sumOp (l : List ColNode) : ColOp := { seq := 2, words := sumWords, started := true, nodes := l }
def sumUp (l : List ColNode) : State :=
  { colUp with colq := [(3, { opened := true, peers := [1, 2], ctxs := [4, 5, 6], ops := [sumOp l] })], aux := [(5, { ({} : CtxAux) with fresh := [512] })] }
def doneOp : ColOp := { barrierOp with settled := true, nodes := [{ lev := 0, base := 0, chunk := 0, up := false }, { lev := 1, base := 0, chunk := 0, up := true },
  { lev := 1, base := 0, chunk := 0, up := false }, { lev := 2, base := 0, chunk := 0, up := true }, { lev := 2, base := 0, chunk := 0, up := false }] }
theorem witness_CollectivesOpenRunAndComplete :
    ((colUp.getColq 0 0).opening = false ∧ (colUp.getColq 0 0).opened = false ∧ colUp.openOk 0 0 = false ∧ colUp.openOk 0 255 = true ∧
      queuesUp colUp.colq < 4096 ∧ queuesUp (colUp.colq.filter (fun e => decide (e.1 / 256 = 0))) < 256 ∧
      256 ≤ queuesUp ((List.replicate 256 (5, { ({} : ColQueue) with opened := true })).filter (fun e => decide (e.1 / 256 = 0)))) ∧
    ((colUp.getColq 0 1).opening = true ∧ (colUp.getColq 0 1).peers.contains 1 = true ∧ (colUp.getColq 0 1).waiting = false ∧
      (colUp.getColq 0 1).awaited.all (colUp.getColq 0 1).joined.contains = false ∧ [1].all [1].contains = true ∧
      ({ rank := colUp.rf (COL_Q_RANK.RANK 0 1), group := 0, epoch := 0, n := 1, radix := 0 } : JoinBlock) ≠ colUp.ownJoin 0 1) ∧
    (colUp.tailOk 0 2 65 = false ∧ colUp.tailOk 0 2 64 = true ∧ (colUp.getColq 0 2).opened = true ∧
      (colUp.getColq 0 2).next = some { seq := 1, words := [] } ∧ Tbl.sortedFrom 0 colUp.colq = true ∧ (colUp.takeTurn 0 (colUp.colTurn 0)).isSome = true) ∧
    (colUp.colCmdOk 1 (colCmd (barrierWords true)) = true ∧ colUp.colCmdOk 1 (colCmd [6#64]) = false) ∧
    ((colUp.getColq 0 2).peers = [] ∧ (colUp.getColq 0 1).peers = [1]) ∧
    ((colUp.getColq 0 3).ops.find? (fun o => o.seq == 2 && o.started && o.status.isNone) = some (sumOp []) ∧
      (let t := colUp.colTree 0 3
       let m := colCmd sumWords
       t.chunks m = 1 ∧ [(1, 0, 0, true), (1, 0, 1, true), (2, 0, 0, false), (0, 0, 1, false)].map (t.duties m).contains = [true, false, true, true] ∧
       childrenOf t.n t.r 1 0 = [0, 1] ∧ (sumOp []).node 1 0 0 true = none ∧ (sumOp []).settled = false ∧
       [0, 1].map (fun i => colUp.inReady 0 t m (m.width 0) 0 (colUp.childIn 0 3 t (sumOp []) 1 i 0 512, t.upIn m 0 i 0)) = [true, false] ∧
       [0, 1].map (fun i => (sumUp []).inReady 0 t m (m.width 0) 0 ((sumUp []).childIn 0 3 t (sumOp []) 1 i 0 512, t.upIn m 0 i 0)) = [true, true] ∧
       (let top : List ColNode := [{ lev := 2, base := 0, chunk := 0, up := true }]
        (sumUp top).inReady 0 t m 1 0 ((sumUp top).resultIn 0 3 t (sumOp top) 2 0 0 512, t.downIn m 2 0 0) = true))) ∧
    ((colUp.getColq 0 3).ops.find? (fun o => o.started && o.status.isNone) = some barrierOp ∧
      (let t := colUp.colTree 0 3
       let m := colCmd (barrierWords true)
       t.chunks m = 0 ∧ (t.duties m).contains (1, 0, 0, true) = true ∧
       ((List.range (childrenOf t.n t.r 1 0).length).mapM (fun i => barrierOp.statusIn t (executor t.n t.r 0 ((childrenOf t.n t.r 1 0).getD i 0) 0)
         (some m.nf) ([statusOf 1 m true, statusOf 1 m false] : List StatusBlock)[i]?)).isSome = true) ∧
      executor 4 2 2 0 1 ≠ 0 ∧ baseOf 2 2 0 = 0 ∧ 2 ≤ levels 4 2 ∧ (colCmd [0#64]).op ≠ 5) ∧
    (colUp.opDone 0 3 barrierOp = false ∧ colUp.opDone 0 3 doneOp = true) ∧
    ([] : List StatusBlock).all (statusAgrees (statusOf 1 (colCmd (barrierWords true)) true)) = true ∧
    [(⟨2, 5, 0, 0, 0, false, false⟩ : StatusBlock)].all (statusAgrees (statusOf 1 (colCmd (barrierWords true)) true)) = false := by decide +kernel
/-- A join block that agrees with the own one. -/
theorem witness_join_agrees : ∃ j : JoinBlock, j.rank = 1 ∧ ({ j with rank := colUp.rf (COL_Q_RANK.RANK 0 1) } : JoinBlock) = colUp.ownJoin 0 1 :=
  ⟨{ colUp.ownJoin 0 1 with rank := 1 }, rfl, rfl⟩
/-- P0 whose queue 2 has its ring in tile memory, the entry of sequence 1 being a command of operation `n`. -/
def ringBlock (n : Byte) : List Byte := List.replicate 64 0#8 ++ n :: List.replicate 191 0#8
def ringOf (n : Byte) : State :=
  { put colUp [(PRT_CLK_EN.TLM 0, 1), (COL_Q_RING.BASE 0 2, 0xF00000000000)] with
    mem := if n = 0#8 then [] else [(0xF00000000040, n)], tileChk := [(0xF00000000000 / 256, checkWord (ringBlock n))] }
theorem witness_ring_entry (n : Byte) (h : n = 0#8 ∨ n = 1#8 ∨ n = 2#8 ∨ n = 3#8 ∨ n = 4#8 ∨ n = 5#8) :
    ∃ ws, (ringOf n).ringEntry 0 2 1 = some ws ∧ (colCmd ws).op = n.toNat := by
  have r : (ringOf n).rf (COL_Q_RING.BASE 0 2) + 64 * (1 % 64) = 0xF00000000040 := by
    rcases h with h | h | h | h | h | h <;> subst h <;> decide +kernel
  have b : (ringOf n).block 0 0xF00000000000 = ringBlock n := by
    rcases h with h | h | h | h | h | h <;> subst h <;> decide +kernel
  have d : (ringOf n).fuse.variant.dataBytes ≤ 0xF00000000000 := by
    rcases h with h | h | h | h | h | h <;> subst h <;> decide +kernel
  have c : (ringOf n).checkOf 0 0xF00000000000 = checkWord (ringBlock n) := by
    simp only [State.checkOf, if_neg (Nat.not_lt.mpr d)]
    rfl
  have l : (ringOf n).reach 0 0xF00000000040 = true := by
    rcases h with h | h | h | h | h | h <;> subst h <;> decide +kernel
  have k : (0xF00000000040 : Nat) / 256 * 256 = 0xF00000000000 := by decide
  have g : (ringOf n).goodBlock 0 0xF00000000040 = true := by
    simp only [State.goodBlock, State.blockOk, k, b, c, l, d]
    simp
  refine ⟨_, by simp only [State.ringEntry, r, g]; rfl, ?_⟩
  rcases h with h | h | h | h | h | h <;> subst h <;> decide +kernel
/-- P0 with a tag under way on each list and the vote of step 1 open for three replicas, of which the own tag and one other are there. -/
def voteTag (rank tag : Nat) : VoteTag := ⟨1, 1, rank, false, tag⟩
def assayUp : State :=
  { put up [(ASY_VCFG.REPL 0, 3), (ASY_VPEER.RANK 0 1, 1), (ASY_VPEER.RANK 0 2, 2)] with
    assay := [(0, { tagR := some ⟨1, [], [], [], 0⟩, tagU := some ⟨1, [], [], [], 0⟩, tags := [voteTag 0 7, voteTag 1 7], step := 1
                    decided := false, ownDone := true })]
    ftest := [(0, { running := true }), (2, { pending := true })] }
theorem witness_TagsVotesAndFieldTests :
    ((assayUp.getAssay 0).tagR = some ⟨1, [], [], [], 0⟩ ∧ (assayUp.getAssay 0).tagU = some ⟨1, [], [], [], 0⟩ ∧ (assayUp.getAssay 1).tagR = none ∧
      (put assayUp [(ASY_VCFG.REPL 0, 1)]).rf (ASY_VCFG.REPL 0) = 1 ∧ assayUp.rf (ASY_VCFG.OWN 0) = 0 ∧ Tbl.sortedFrom 0 assayUp.flds = true) ∧
    (outcomeOf [voteTag 0 7, voteTag 1 7, voteTag 2 9] = (3, 4) ∧ outcomeOf [voteTag 0 7, voteTag 1 9] = (4, 0) ∧
      [voteTag 0 7, voteTag 1 7, voteTag 2 9].length < 2 * agreeing [voteTag 0 7, voteTag 1 7, voteTag 2 9] 7) ∧
    ((assayUp.getAssay 0).decided = false ∧ (assayUp.getAssay 0).ownDone = true ∧ assayUp.allTags 0 = none ∧
      (put assayUp [(ASY_VCFG.REPL 0, 2)]).allTags 0 = some [voteTag 0 7, voteTag 1 7] ∧
      (List.range (assayUp.rf (ASY_VCFG.REPL 0))).find? (fun k => (assayUp.repTag 0 k).isNone) = some 2) ∧
    (1 < assayUp.rf (ASY_VCFG.REPL 0) ∧ assayUp.rf (ASY_VPEER.RANK 0 1) = 1) ∧
    (assayUp.getFt 0).running = true ∧ (assayUp.getFt 1).running = false ∧ (assayUp.getFt 2).pending = true := by decide +kernel
/-- P1, running, with a step reported by its core, a deciding collective, extent 3 to be copied and a replay of step 1. -/
def strataUp : State :=
  { put up [(PRT_CLK_EN.STR 1, 1), (COL_Q_SEQ.DONE 1 2, 5)] with
    strata := [(1, { reports := [0], phase := 7, deciding := some (2, 5), copying := [3], snapDue := true, suspReq := true })] }
def replayUp : State :=
  { strataUp with strata := [(1, { reports := [0], replay := some 1, slot1 := [⟨5, 9, 0, [], [], false⟩], suspRun := false })] }
theorem witness_StrataStepsMirrorsAndReplays :
    (strataUp.runs 0 = false ∧ strataUp.runs 1 = true ∧ strataUp.stepDone 1 = true ∧ strataUp.stepDone 2 = true ∧ replayUp.stepDone 1 = true ∧
      (replayUp.getStrata 1).replay = some 1 ∧ (strataUp.getStrata 1).phase = 7 ∧ (strataUp.getAssay 1).decided = true) ∧
    (strataUp.rf (PRT_CLK_EN.STR 1) ≠ 0 ∧ up.rf (PRT_CLK_EN.STR 0) = 0 ∧ fieldOf 0x1FF#64 0 0 ≠ 0 ∧ fieldOf 0x1FF#64 8 1 = 255 ∧
      fieldOf 0x1FD#64 8 1 ≠ 255 ∧ (strataUp.getFlint 1 0).upd = false) ∧
    ((strataUp.getStrata 1).deciding = some (2, 5) ∧ (strataUp.getStrata 1).decided = false ∧ seqCovers (strataUp.rf (COL_Q_SEQ.DONE 1 2)) 5 = true ∧
      seqCovers (strataUp.rf (COL_Q_SEQ.DONE 1 2)) 6 = false ∧ (strataUp.getStrata 1).copying.contains 3 = true ∧
      (rangeBlocks (strataUp.getStrata 1).ranges (3 * 4096) 4096).find? (fun a => !strataUp.blockOk 1 a) = none) ∧
    (((replayUp.getStrata 1).slot (1 % 2)).filter (fun m => m.idx == 5) = [⟨5, 9, 0, [], [], false⟩] ∧
      ((replayUp.getStrata 1).slot (1 % 2)).filter (fun m => m.idx == 6) = [] ∧ (replayUp.getAux 5).posted = none) ∧
    (strataUp.stateBlocks 1 = [] ∧ hdrField (List.replicate 8 0#8 ++ [2#8]) 8 1 = 2 ∧ hdrField (List.replicate 8 0#8 ++ [2#8]) 12 4 = 0 ∧
      hdrField [] 8 1 ≠ 2 ∧ bitOf (strataUp.getAssay 1).redo 0 = false) := by decide +kernel
/-- P1 after its admission to a restarted job, P1 at a step whose update phase is over or under a vote, P1 with extent 3 in a block that a mover
segment is writing, and P1 replaying a message into the window where it was. -/
def pullUp : State := { strataUp with strata := [(1, { restart := true })] }
def pullRedo : State := { pullUp with assay := [(1, { redo := 1 })] }
def mirrorUp (f : Bool) : State := { strataUp with strata := [(1, { reports := [0], phase := 5, suspRun := f, decided := true })] }
def extentUp (busy : Bool) : State :=
  { put strataUp [(PRT_CLK_EN.MEM 1, 1)] with
    strata := [(1, { copying := [0], ranges := [(0, 16)] })]
    mover := if busy then [(1, { chans := [(0, some ⟨⟨0, 1, [0], 0, true⟩, [(0, 0, 0)], 0, 1, []⟩)] })] else [] }
def windowUp (w : Posted) : State :=
  { replayUp with aux := [(5, { ({} : CtxAux) with posted := some w })], ctx := [(5, { ({} : Ctx) with kind := 1 })] }
theorem witness_replays_pulls_and_mirrors :
    (pullUp.runs 1 = true ∧ (pullUp.getStrata 1).restart = true ∧ pullUp.roundsOpen 1 = false ∧ (strataUp.getStrata 1).restart = false ∧
      pullUp.stateBlocks 1 = [] ∧
      bitOf (pullUp.getAssay 1).redo (pullUp.rf (ASY_VCFG.OWN 1)) = false ∧ bitOf (pullRedo.getAssay 1).redo (pullRedo.rf (ASY_VCFG.OWN 1)) = true) ∧
    (((mirrorUp false).getStrata 1).phase = 5 ∧ (mirrorUp false).copiesDone 1 = true ∧ ((mirrorUp false).getStrata 1).suspRun = false ∧
      ((mirrorUp true).getStrata 1).suspRun = true ∧ ((mirrorUp false).getStrata 1).decided = true ∧ (mirrorUp false).stepDone 1 = true) ∧
    ((rangeBlocks ((extentUp true).getStrata 1).ranges (0 * 4096) 4096).any ((extentUp true).interlocked 1) = true ∧
      (rangeBlocks ((extentUp false).getStrata 1).ranges (0 * 4096) 4096).any ((extentUp false).interlocked 1) = false ∧
      (rangeBlocks ((extentUp false).getStrata 1).ranges (0 * 4096) 4096).length = 16) ∧
    (((windowUp ⟨0, 1, [], []⟩).getAux 5).posted = some ⟨0, 1, [], []⟩ ∧ ((windowUp ⟨0, 1, [], []⟩).getCtx 5).kind = 1 ∧ (replayUp.getCtx 5).kind = 0) := by
  decide +kernel
/-- P1, which holds a complete mirror of no blocks for a live endpoint, and P1 while an image is taken. -/
def snapUp : State :=
  { put strataUp [(PRT_CLK_EN.MEM 1, 1), (STR_MHELD.BASE 1, 4096), (STR_STATUS.HELD 1, 2), (STR_CKPT_EP.HELD 1, 2 ^ 18 + 6)] with
    ctx := [(6, { ({} : Ctx) with state := 1, part := 1 })] }
def imageUp : State := { strataUp with strata := [(1, { suspRun := true })] }
def imageStop : State := { strataUp with strata := [(1, { suspRun := true, suspStop := true })] }
def ownHeader : List Byte := imageUp.ckptHeader 1 ⟨0, 0, 0, 0, 0, List.replicate 32 0#8, 0, 0, 0, 0⟩
theorem witness_snapshot_block_verifies : snapUp.goodBlock 1 4096 = true := by
  have h : snapUp.block 1 (4096 / 256 * 256) = List.replicate 256 0#8 := by decide +kernel
  have g : snapUp.checkOf 1 (4096 / 256 * 256) = 0#32 := by decide +kernel
  have b : snapUp.blockBad 1 (4096 / 256 * 256) = false := by decide +kernel
  have q : snapUp.pairBad 1 (snapUp.checkAddr (4096 / 256 * 256)) = false := by decide +kernel
  have r : snapUp.reach 1 4096 = true := by decide +kernel
  simp only [State.goodBlock, State.blockOk, h, g, zero_block, b, q, r]
  decide
theorem witness_restore_blocks : ([(List.replicate 256 0#8, 0#32)] : List (List Byte × Word32)).findIdx? (fun e => checkWord e.1 != e.2) = none ∧
    ([(List.replicate 256 0#8, 1#32)] : List (List Byte × Word32)).findIdx? (fun e => checkWord e.1 != e.2) = some 0 := by
  constructor <;> simp only [List.findIdx?_cons, List.findIdx?_nil, zero_block] <;> decide
theorem witness_images_stop_and_restore :
    (imageStop.getStrata 1).suspStop = true ∧ imageStop.imageReady 1 = true ∧ imageStop.runs 1 = true ∧
    (put snapUp [(PRT_CLK_EN.MEM 1, 0)]).goodBlock 1 4096 = false := by decide +kernel
theorem witness_SnapshotsImagesAndRestores :
    (up.rf (PRT_CLK_EN.STR 0) = 0 ∧ snapUp.rf (PRT_CLK_EN.STR 1) ≠ 0 ∧ (snapUp.getStrata 0).snapDue = false ∧ (snapUp.getStrata 1).phase = 7 ∧
      (snapUp.getStrata 1).snapDue = true ∧ strataUp.holdsMirror 1 = false ∧ snapUp.holdsMirror 1 = true ∧ snapUp.rf (STR_STATUS.HELD 1) = 2 ∧
      snapUp.handleOk 1 (snapUp.rf (STR_CKPT_EP.HELD 1)) = true ∧ strataUp.handleOk 1 (strataUp.rf (STR_CKPT_EP.HELD 1)) = false ∧
      snapUp.snapFrom 1 true 0 (snapUp.getStrata 1).tsl = []) ∧
    ((imageUp.getStrata 1).suspRun = true ∧ imageUp.imageReady 1 = true ∧ (imageUp.getStrata 1).suspStop = false ∧
      Tbl.sortedFrom 0 imageUp.images = true ∧ Tbl.sortedFrom 0 imageUp.flds = true ∧ (imageUp.getStrata 0).suspRun = false) ∧
    imageUp.runs 1 = true ∧ imageUp.runs 0 = false ∧ (imageUp.restoreMismatch 1 false [] []).isSome = true := by decide +kernel
/-- P1 in job 3 of two modules, with the watchdogs on, and a liveness stream. -/
def jobUp : State :=
  { put up [(PRT_JOB.JOB 1, 3), (PRT_WDT_CFG.ENG_MS 1, 10), (PRT_WDT_CFG.FLT_MS 1, 10), (PRT_WDT_CFG.STEP_S 1, 10), (FLT_STATUS.STATE 1 0, 1)] with
    member := [(1, { modules := [(10, 0, 0), (11, 0, 1)] })], cfg := { State.reset.cfg with quorumN := 3 }
    ctx := [(6, { ({} : Ctx) with state := 1, part := 16 })], aux := [(6, { ({} : CtxAux) with dest := some (0, 1) })] }
def expel1 (rm : Nat) : Cert := ⟨certMagic, 1, 1, 2, 3, 0, [⟨11, 0, 1, false, 0, 0⟩], rm, [0, 2], [true, true], true⟩
theorem witness_WatchdogsWavesAndCertificates :
    (jobUp.runs 1 = true ∧ jobUp.rf (PRT_WDT_CFG.ENG_MS 1) ≠ 0 ∧ jobUp.rf (PRT_WDT_CFG.FLT_MS 1) ≠ 0 ∧ jobUp.rf (FLT_STATUS.STATE 1 0) = 1 ∧
      jobUp.rf (PRT_WDT_CFG.STEP_S 1) ≠ 0) ∧
    (1 ∈ jobUp.jobParts 3 ∧ jobUp.jobParts 4 = [] ∧ jobUp.rf (PRT_JOB2.MEPOCH 1) = 0 ∧ jobUp.rf (PRT_JOB2.AWAVE 1) < 1) ∧
    (up.liveness = [] ∧ jobUp.liveness = [(6, (0, 1))]) ∧
    (jobUp.memberParts 3 = [1] ∧ (jobUp.getMember 1).accepted = none ∧ sameBody (expel1 0) (expel1 0) = true ∧ sameBody (expel1 0) (expel1 1) = false ∧
      jobUp.certReason 3 0 0 (jobUp.getMember 1).modules (expel1 0) = 0 ∧ jobUp.certReason 3 0 0 (jobUp.getMember 1).modules (expel1 1) = 2 ∧
      jobUp.certForm { expel1 0 with version := 2 } = false ∧ jobUp.certReason 3 0 0 [] (expel1 0) = 4) ∧
    (⟨11, 0, 1, false, 0, 0⟩ : CertEntry) ∈ (expel1 0).entries := by decide +kernel
/-- P1 whose module has accepted a certificate of this epoch: the same one again, another body that is in order, and one that is not. -/
def certUp : State := { jobUp with member := [(1, { modules := [(10, 0, 0)], before := [(10, 0, 0), (11, 0, 1)], accepted := some (expel1 0) })] }
def other1 : Cert := { expel1 0 with entries := [⟨10, 0, 0, false, 0, 0⟩], signers := [1, 2] }
theorem witness_second_certificates :
    certUp.memberParts 3 = [1] ∧ certUp.memberParts 4 = [] ∧ (certUp.getMember 1).accepted = some (expel1 0) ∧ (expel1 0).mepoch = other1.mepoch ∧
    sameBody (expel1 0) other1 = false ∧ certUp.certReason 3 other1.mepoch (certUp.getMember 1).rmap (certUp.getMember 1).before other1 = 0 ∧
    certUp.certReason 3 1 (certUp.getMember 1).rmap (certUp.getMember 1).before (expel1 1) = 2 := by decide +kernel

/-! ## Witnesses: attestation, tenancy, the host interface, numbers and records -/

/-- Sessions: PF0 open and proven, PF1 answered KEY_EXCHANGE, PF2 open and unproven, PF16's first open, PF3 with algorithms agreed; P0 claimed. -/
def provision0 : Provision := ⟨3, 0, 1, 0, 0, 9, 0, 1, 2, true⟩
def secUp : State :=
  { put up [(BDR_PSEC.CLAIMED 0, 1), (PRT_STATE.STATE 3, 3), (PRT_JOB.JOB 0, 3)] with
    sess := [(0, { stage := 2, proven := true, phase := 3 }), (2, { stage := 1, phase := 3 }), (4, { stage := 2, fails := 3, missed := 2 }),
             (6, { stage := 2, proven := true, phase := 3 }), (32, { stage := 2, phase := 3 })]
    tenancy := [(3, { lastRetenant := true })], anonces := [(3, 8)] }
theorem witness_SpdmMessagesAndSessions :
    (secUp.boot = .running ∧ ({ secUp with boot := .maint } : State).boot = .maint ∧ State.reset.boot ≠ .maint ∧ State.reset.boot ≠ .running) ∧
    ((secUp.getSess (sessKey 0 0)).phase = 3 ∧ (secUp.getSess (sessKey 5 0)).phase = 0 ∧ (secUp.getSess (sessKey 5 0)).stage = 0 ∧
      (secUp.getSess (sessKey 16 0)).stage ≠ 0 ∧ (secUp.getSess (sessKey 16 1)).stage = 0 ∧ secUp.rf BDR_SEC.DRBG_OK ≠ 0 ∧
      (put up [(BDR_SEC.DRBG_OK, 0)]).rf BDR_SEC.DRBG_OK = 0) ∧
    ((secUp.getSess (sessKey 1 0)).stage = 1 ∧ (secUp.getSess (sessKey 0 0)).stage = 2 ∧ 0 < sessLimit 0 ∧ 1 < sessLimit 16 ∧
      2 ≤ (secUp.getSess (sessKey 2 0)).missed) ∧
    Tbl.sortedFrom 0 secUp.flds = true ∧ Tbl.sortedFrom 0 secUp.sess = true := by decide +kernel
theorem witness_TenancyFlashRequestsAndEntropy :
    ((secUp.getSess (sessKey 2 0)).stage = 2 ∧ (secUp.getSess (sessKey 2 0)).proven = false ∧ (secUp.getSess (sessKey 0 0)).proven = true ∧
      (secUp.getSess (sessKey 7 0)).stage ≠ 2) ∧
    ((secUp.getSess (sessKey 3 0)).proven = true ∧ secUp.pstate 3 = psREADY ∧ secUp.rf (BDR_PSEC.CLAIMED 3) ≠ 1 ∧
      (secUp.getTen 3).claimedSinceReset = false ∧ (secUp.getTen 3).lastRetenant = true) ∧
    (secUp.pstate 0 = psREADY ∧ secUp.rf (BDR_PSEC.CLAIMED 0) = 1 ∧ provision0.othersZero = true ∧
      secUp.anonces.contains (provision0.job, provision0.anonce) = false ∧ secUp.anonces.contains (3, 8) = true ∧
      secUp.rf (PRT_JOB.JOB 0) = provision0.job ∧ Tbl.sortedFrom 0 secUp.flds = true) ∧
    ((secUp.getSess (sessKey 16 0)).stage = 2 ∧ secUp.flash.hasRoom .config (Payload.config {} 65216).pages = true ∧
      (secUp.getSess (sessKey 16 1)).stage ≠ 2) := by decide +kernel
/-- P0's function with its queues on: an entry to fetch, a completion to post and one posted, and a command of each OP open; P1 has an ABORT open. -/
def hostHandle (n op : Nat) : HostHandle := ⟨n, op, 7, 0, 0, 1, 0, .accepted, 0, [], false⟩
def done0 : Completion := ⟨2 ^ 18 + 4, 0, 0, true, 7, 1⟩
def hostUp : State :=
  { put up [(HST_QCFG.EN 0, 1), (BDR_PSEC.SESSION 0, 1), (PRT_CTX.QUOTA 0, 4), (HST_QSTAT.CQ_TAIL 0, 1), (QTZ_TB.TICKS, 1000)] with
    power := { mgmt := true, otherRails := true, perst := true }
    sess := [(0, { stage := 2, proven := true, phase := 3 })]
    host := [(0, { sqTail := 1, produced := [done0], ring := [done0] })]
    ctx := [(4, { ({} : Ctx) with state := 1 }), (8, { ({} : Ctx) with state := 1 })]
    aux := [(8, { ({} : CtxAux) with lastMigr := some 900 })]
    handles := [(1, some { hostHandle 0 1 with doneUnits := 1 }), (2, some (hostHandle 0 2)), (3, some (hostHandle 0 3)),
                (4, some { hostHandle 0 4 with target := 2 ^ 18 + 8 }), (5, some (hostHandle 0 5)), (6, some (hostHandle 0 6)),
                (7, some (hostHandle 1 5)), (9, some { hostHandle 0 2 with st := .running }), (10, some { hostHandle 0 3 with st := .stopped }),
                (11, some (hostHandle 0 1))] }
def sub0 : Submission := ⟨0, true, 2, 7, 0, 4096, 256, 1, true⟩
theorem witness_SubmissionsCompletionsAndFunctionResets :
    (hostUp.rf (HST_QCFG.EN 0) = 1 ∧ hostUp.rf (BDR_PSEC.SESSION 0) = 1 ∧ (hostUp.getSess (sessKey 0 0)).proven = true ∧
      (up.getSess (sessKey 1 0)).proven = false ∧ (hostUp.getHost 0).wait = none ∧
      hostUp.rf (HST_QSTAT.SQ_HEAD 0) ≠ (hostUp.getHost 0).sqTail ∧ sub0.seq = (hostUp.getHost 0).sqSeq ∧ hostUp.hostRoom 0 = true ∧
      up.hostRoom 1 = false ∧ up.rf (HST_QCFG.EN 0) ≠ 1) ∧
    (subOk sub0 = true ∧ subOk { sub0 with op := 0 } = false ∧ subOk { sub0 with op := 4, handle := 5 } = true) ∧
    ((hostUp.getHost 0).produced = done0 :: [] ∧ (hostUp.rf (HST_QSTAT.CQ_TAIL 0) + 1) % (64 * 2 ^ hostUp.rf (HST_CQ_BASE.SIZE 0)) ≠
      (hostUp.getHost 0).cqHead ∧ (hostUp.getHost 1).produced = []) ∧
    (hostUp.handleOk 0 done0.handle = true ∧ (hostUp.getCtx 4).epoch = done0.epoch ∧ (hostUp.getHandle 4).isSome = true) ∧
    Tbl.sortedFrom 0 hostUp.host = true ∧ Tbl.sortedFrom 0 hostUp.flds = true := by decide +kernel
/-- An image of 64 bytes: VERSION 1, no code, data or table, its list at address 0, where NT is 1. -/
def image0 : List Byte := 1#8 :: List.replicate 63 0#8
def job0 : JobMap := ⟨[(0, 0, 0)], 1, [0], 0, 0, 0, 256, 0, []⟩
def admitUp (q : Nat) : State :=
  { put hostUp [(PRT_CTX.QUOTA 0, q)] with
    mem := [(memKey 0 0, 1#8)], tenancy := [(0, { prov := some provision0 })]
    handles := [(1, some { hostHandle 0 1 with doneUnits := 1, image := image0 })] }
theorem witness_HostCommandsTransferRebindAbortAndAdmit :
    (hostUp.getHandle 2 = some (hostHandle 0 2) ∧ hostUp.getHandle 3 = some (hostHandle 0 3) ∧ (∀ h, hostUp.getHandle 12 = some h → h.op ≠ 2)) ∧
    (hostUp.getHandle 9 = some { hostHandle 0 2 with st := .running } ∧ hostUp.getHandle 11 = some (hostHandle 0 1) ∧
      (List.replicate 4096 0#8).length = 4096 ∧ Tbl.sortedFrom 0 hostUp.handles = true) ∧
    (hostUp.lost 0 0 = false ∧ hostUp.rtProtected 0 0 = false ∧ hostUp.lost 0 (2 ^ 40) = false) ∧
    (hostUp.handleAs 0 4 4 = some { hostHandle 0 4 with target := 2 ^ 18 + 8 } ∧ hostUp.handleOk 0 (2 ^ 18 + 8) = true ∧
      (hostUp.getAux 8).migrWait = 0 ∧ hostUp.now < 900 + 200 ∧ hostUp.handleOk 0 9 = false) ∧
    hostUp.getHandle 10 = some { hostHandle 0 3 with st := .stopped } ∧
    (hostUp.handleAs 1 7 5 = some (hostHandle 1 5) ∧ hostUp.runs 1 = true ∧ hostUp.handleAs 0 5 5 = some (hostHandle 0 5) ∧ hostUp.runs 0 = false) ∧
    (hostUp.handleAs 0 6 6 = some (hostHandle 0 6) ∧ hostUp.pstate 0 = psREADY ∧ hostUp.pstate 2 ≠ psREADY ∧ hostUp.pstate 2 ≠ psFAULT ∧
      hostUp.pstate 2 ≠ psRUNNING) ∧
    ((admitUp 20).handleAs 0 1 1 = some { hostHandle 0 1 with doneUnits := 1, image := image0 } ∧ (admitUp 20).rf QTZ_STATUS.COAST ≠ 1 ∧
      ((admitUp 20).getFt 0).running = false ∧ ((admitUp 20).getTen 0).prov = some provision0 ∧ (hostUp.getTen 0).prov = none ∧
      (admitUp 20).mapOk job0 0 = true ∧ (admitUp 20).quotaFor 0 ((admitUp 20).ctxNeed 0 job0 0) = true ∧
      (admitUp 0).quotaFor 0 ((admitUp 0).ctxNeed 0 job0 0) = false ∧
      (admitUp 20).headerOk 0 64 (imageHeaderOf image0) = true ∧ (admitUp 20).headerOk 0 63 (imageHeaderOf image0) = false ∧
      (admitUp 20).ntAt 0 (imageHeaderOf image0).tsl = 1) := by
  refine ⟨by decide +kernel, by decide +kernel, by decide +kernel, by decide +kernel, by decide +kernel, by decide +kernel, by decide +kernel, by decide +kernel⟩
/-- P0 with a READ running, one that waits for a block being written, an ADMIT under way, a stopped READ and a handle that a migration may move. -/
def unitUp : State :=
  { hostUp with
    handles := [(1, some { hostHandle 0 1 with units := 2 }), (2, some { hostHandle 0 3 with st := .running, paddr := 4096 }),
                (3, some { hostHandle 0 3 with st := .running }), (4, some { hostHandle 0 4 with target := 2 ^ 18 + 9 })]
    mover := [(0, { chans := [(0, some ⟨⟨0, 1, [0], 0, true⟩, [(3, 0, 0)], 0, 1, []⟩)] })]
    ctx := [(9, { ({} : Ctx) with state := 1 })] }
theorem witness_units_read_and_admit :
    (unitUp.getHandle 2 = some { hostHandle 0 3 with st := .running, paddr := 4096 } ∧ unitUp.getHandle 1 = some { hostHandle 0 1 with units := 2 }) ∧
    ((blocksFrom 4096 16).any (unitUp.interlocked 0) = false ∧ (blocksFrom 0 16).any (unitUp.interlocked 0) = true) ∧
    (unitUp.handleOk 0 (2 ^ 18 + 9) = true ∧ (unitUp.getAux 9).migrWait = 0 ∧ (unitUp.getAux 9).lastMigr = none) ∧
    (hostUp.rtProtected 1 0 = true ∧ hostUp.rtProtected 1 0x4000000 = false ∧ (4095 : Nat) % 4096 ≠ 0 ∧ (8192 : Nat) % 4096 = 0) := by decide +kernel
theorem witness_unit_checks : (∀ e ∈ unitBlocks 0 (List.replicate 4096 0#8) (List.replicate 16 0#32), checkWord e.2.1 = e.2.2) ∧
    (∃ e ∈ unitBlocks 0 (List.replicate 4096 0#8) (List.replicate 16 1#32), checkWord e.2.1 ≠ e.2.2) := by
  have h : unitBlocks 0 (List.replicate 4096 0#8) (List.replicate 16 0#32) =
      (List.range 16).map (fun i => (256 * i, List.replicate 256 0#8, 0#32)) := by decide +kernel
  have g : (0, List.replicate 256 0#8, 1#32) ∈ unitBlocks 0 (List.replicate 4096 0#8) (List.replicate 16 1#32) := by decide +kernel
  refine ⟨fun e he => ?_, _, g, ?_⟩
  · rw [h] at he
    obtain ⟨i, -, rfl⟩ := List.mem_map.mp he
    exact zero_block
  · simp only [zero_block]
    decide
theorem witness_ModuleRequestsManagementAndSummaries :
    (State.reset.boot ≠ .running ∧ State.reset.boot ≠ .maint ∧ up.boot = .running ∧ up.rf HST_MREQ_STAT.BUSY ≠ 1 ∧
      (put up [(HST_MREQ_STAT.BUSY, 1)]).rf HST_MREQ_STAT.BUSY = 1) ∧
    ((put up [(PRT_STATE.STATE 2, 0)]).pstate 2 = psOFF ∧ up.pstate 0 ≠ psOFF ∧ up.pwrCycle = false ∧ up.getReset 0 = none ∧ (resetting.getReset 0).isSome = true ∧
      resetting.pstate 0 ≠ psOFF) ∧
    ((assayUp.getFt 0).running = true ∧ (up.getFt 0).running = false ∧ up.pstate 0 = psREADY) ∧
    Tbl.sortedFrom 0 up.summ = true ∧ (up.regAt 15 0x0B000008).isSome = true := by decide +kernel
theorem witness_NarrowingAndExactColumnSums : 0x7E < 2 ^ fmtBits 3 ∧ (decodeFmt 3 0x7E).isNan = false ∧ 0 < 1 ∧ 2 * (3 % 2 ^ 1) = 2 ^ 1 ∧
    (exactColumn [.fin false 1 0, .fin true 1 0]).isZero = true ∧ [Val.nan, .fin true 1 0].Perm [.fin true 1 0, .nan] :=
  ⟨by decide +kernel, by decide +kernel, by decide, by decide, by decide +kernel, List.Perm.swap _ _ _⟩
/-- A PERM report without partition and a ring of P0 whose channel works. -/
def ringUp : State := put up [(ASY_RING_BASE.BASE 0, 65536), (ASY_RING.PROD 0, 1022)]
theorem witness_ErrorRecordsAreSealedNumberedAndDelivered :
    (0xFFFF < 2 ^ 16 ∧ 255 < 256 ∧ up.recPend.length < 15 ∧ Cls.perm ≠ Cls.corr) ∧ up.rf (ASY_RING_BASE.BASE 0) = 0 ∧
    ringUp.rf (ASY_RING_BASE.BASE 0) ≠ 0 ∧ (ringUp.rf (ASY_RING.PROD 0) + 1) % 1024 ≠ ringUp.rf (ASY_RING.CONS 0) ∧
    (put ringUp [(ASY_RING.PROD 0, 1023)]).rf (ASY_RING.PROD 0) = 1023 ∧
    ringUp.chanFailed 0 (ringUp.rf (ASY_RING_BASE.BASE 0) + 64 * ringUp.rf (ASY_RING.PROD 0)) = false ∧
    ringUp.rf (ASY_RING_BASE.BASE 0) % 256 = 0 := by decide +kernel
/-- One and sixteen pending records, with and without suppressed ones. -/
def pendUp (n : Nat) (l : List Nat) : State := { up with recPend := List.replicate n [], suppressed := l }
theorem witness_records_pending : (pendUp 1 [0, 0, 0, 0]).recPend = [] :: [] ∧ (pendUp 1 [0, 0, 0, 0]).suppressed = [0, 0, 0, 0] ∧
    (pendUp 16 [0, 1, 0, 0]).recPend = [] :: List.replicate 15 [] ∧ (pendUp 16 [0, 1, 0, 0]).suppressed ≠ [0, 0, 0, 0] ∧
    ¬ (List.replicate 15 ([] : Rec)).length < 15 ∧ (List.replicate 14 ([] : Rec)).length < 15 := by decide +kernel
/-- A record of a partition without a ring brings no other. -/
def report0 : Report := { unit := 0, cls := .perm, code := 0x32, part := some 0, synd := [] }
theorem witness_one_record : ∃ t, up.raise1 report0 = (t, none) := by
  have h : ∀ w, ({ up with recSeq := (up.recSeq + 1) % 2 ^ 32, freeCtr := up.freeCtr + 1 }.ringWrite 0 w).2 = none := fun w => by
    have b : ({ up with recSeq := (up.recSeq + 1) % 2 ^ 32, freeCtr := up.freeCtr + 1 } : State).rf (ASY_RING_BASE.BASE 0) = 0 := by decide +kernel
    simp only [State.ringWrite, b, true_or, if_true]
  exact ⟨_, Prod.ext rfl (h (up.recordOf report0))⟩

/-! ## Witnesses: supplies, clocks, boot, governor, flash -/

/-- A module off whose enable is asserted, one whose crystal died at start, and one with the root PLL locked and Bedrock on it. -/
def offUp : State := { State.reset with power := { pwrEn := true } }
def startDead : State := { put State.reset [(QTZ_MON.XTAL, 1)] with boot := .started }
def lockedUp : State := { put State.reset [(QTZ_STATUS.MGMT, 1), (QTZ_SW0.BUSY, 1), (QTZ_SW1.BUSY, 1)] with boot := .rootLocked }
theorem witness_SupplyEventsStartAndStopTheModule : (1680 : Nat) ≤ 1680 ∧ (1679 : Nat) < 1680 ∧ offUp.boot = .off ∧ offUp.power.pwrEn = true ∧
    offUp.power.resetHeld = false ∧ offUp.power.thermLatch = false ∧ offUp.power.hot = false ∧ offUp.power.cutLatch = false ∧
    State.reset.power.pwrEn = false ∧ up.boot ≠ .off := by decide +kernel
theorem witness_RailsOffLosesVolatileState : Tbl.sortedFrom 0 secUp.flds = true := by decide +kernel
theorem witness_ThermalLevelsWarnAndTrip : up.siteExists 0 = true ∧ up.stackSite 0 = false ∧ up.siteExists 16 = true ∧ up.stackSite 16 = true ∧
    up.boot ≠ .off ∧ (if false = true then 760 else 800) ≤ 800 ∧ (839 : Nat) < (if true = true then 840 else 880) := by decide +kernel
theorem witness_ClockEventsMoveSwitchesAndMarks : startDead.boot = .started ∧ startDead.rf QTZ_MON.XTAL = 1 ∧
    ({ State.reset with boot := .started } : State).rf QTZ_MON.XTAL ≠ 1 ∧ [ClockSource.crystal, .root].all up.hasSource = true ∧ up.boot ≠ .off ∧
    State.reset.boot = .off ∧ isFlint .bedrock = false ∧ isFlint (.flint 0) = true ∧ lockedUp.rf QTZ_SW0.BUSY = 1 := by decide +kernel
theorem witness_BootChoiceFollowsItsTable :
    (∃ e, State.reset.flash.newest 1 = some e) ∧ ({ State.reset.flash with entries := [] } : Flash).newest 1 = none ∧
    State.reset.slotReads State.reset.flash.preferred 1 = true ∧ State.reset.slotReads (1 - State.reset.flash.preferred) 1 = false ∧
    (lockedUp.boot = .rootLocked ∧ lockedUp.rf QTZ_STATUS.MGMT = 1 ∧ lockedUp.scanFlash.bootTable.mcause = 0 ∧ lockedUp.rf QTZ_MON.XTAL ≠ 1 ∧
      Tbl.sortedFrom 0 lockedUp.flds = true) ∧ startDead.boot = .started ∧ startDead.rf QTZ_MON.XTAL = 1 := by
  refine ⟨Option.isSome_iff_exists.mp (by decide +kernel), by decide +kernel⟩
/-- P0's die with two limits in force, one request waiting and a die asleep. -/
def govUp : State := { up with gov := { limits := [(0, 3)], waiting := [(.arrays 0 0 true, 0)], dieWaiting := [(5, 0)] } }
theorem witness_GovernorLimitsAndGrants : govUp.boot = .running ∧ bitOf (govUp.gov.limits.get 0 0) (limitBit .power) = true ∧
    bitOf (govUp.gov.limits.get 0 1) (limitBit .power) = false ∧ govUp.gov.waiting = (.arrays 0 0 true, 0) :: [] ∧
    govUp.gov.used + GovReq.charge (.arrays 0 0 true) ≤ 18 ∧ govUp.gov.dieWaiting = (5, 0) :: [] ∧ govUp.recentWakes.length < 2 := by decide +kernel
/-- The flash at a step of writing a CONFIG entry, and at the other operations. -/
def flashAt (o : FlashOp) : State := { up with flash := { up.flash with op := some o } }
def entry0 (p : Payload) : FlashEntry := ⟨.config, 0, 2, 0xFF, 2, true, true, p⟩
theorem witness_FlashOperationsAdvance : up.flash.op = none ∧
    (flashAt (.entry (entry0 (.config {} 0)) 2 false)).flash.op = some (.entry (entry0 (.config {} 0)) 2 false) ∧
    (entry0 (.config {} 0)).payload.kind ≠ 3 ∧ (entry0 (.errlog [])).payload.kind = 3 ∧
    (flashAt (.eraseSector .config 1)).flash.op = some (.eraseSector .config 1) ∧ (flashAt (.eraseSlot 1)).flash.op = some (.eraseSlot 1) ∧
    (flashAt (.programSlot 1 0 [])).flash.op = some (.programSlot 1 0 []) := by decide +kernel

end Sys2Proof.Tests
end

section
namespace Sys2Proof.Machine

/-! ## Reset, and the commands of present units -/

/-- An empty register file reads every field's reset value. -/
theorem State.rf_of_flds_nil {s : State} (h : s.flds = []) (f : Fld) : s.rf f = f.rst := by
  rw [State.rf, h]
  rfl

theorem State.rf_reset (f : Fld) : State.reset.rf f = f.rst := State.rf_of_flds_nil rfl f

theorem Variant.ioDies_le (v : Variant) : v.ioDies ≤ 12 := by cases v <;> decide
theorem Variant.stacks_le (v : Variant) : v.stacks ≤ 20 := by cases v <;> decide
theorem Variant.chans_le (v : Variant) : v.chans ≤ 80 := by cases v <;> decide
theorem Variant.ports_le (v : Variant) : v.ports ≤ 192 := by cases v <;> decide
/-- No package has a flexible site beyond number 39 (R22). -/
theorem Variant.sites_le (v : Variant) : 16 + v.stacks + v.ioDies ≤ 40 := by cases v <;> decide

theorem decide_lt_mono {i m n : Nat} (hmn : m ≤ n) (h : decide (i < m) = true) : decide (i < n) = true :=
  decide_eq_true (Nat.lt_of_lt_of_le (of_decide_eq_true h) hmn)

theorem and_imp_right {a b c : Bool} (hbc : b = true → c = true) (h : (a && b) = true) : (a && c) = true := by
  rw [Bool.and_eq_true] at h ⊢
  exact h.imp_right hbc

theorem and_imp_left {a b c : Bool} (hab : a = true → b = true) (h : (a && c) = true) : (b && c) = true := by
  rw [Bool.and_eq_true] at h ⊢
  exact h.imp_left hab

theorem State.hasSource_wf {s : State} {c : ClockSource} (h : s.hasSource c = true) : c.wf = true := by
  cases c with
  | ioPll k => exact decide_lt_mono s.fuse.variant.ioDies_le h
  | stackPll k => exact decide_lt_mono s.fuse.variant.stacks_le h
  | crystal | root | refclk | flash => rfl

theorem State.siteExists_wf {s : State} {sn : Sensor} {b : Bool} (h : (s.siteExists sn.site && b) = true) : sn.wf = true :=
  decide_lt_mono s.fuse.variant.sites_le (Bool.and_eq_true_iff.mp h).1

theorem wf_of_present {i : Instr} {s : State} (hl : ∀ p, s.lcores p ≤ 8) (h : present s i = true) : i.wf = true := by
  cases i
  case registerWrite => exact (Bool.and_eq_true_iff.mp h).1
  case queueErrClear => exact and_imp_left (and_imp_right (decide_lt_mono (hl _))) h
  case flintBaseInstruction | flintLoad | flintStore | flintAccessComplete | ecall | ebreak | tque | tqueResume | twait |
      twaitResume | sumrd | sumrdResume | mode | modeSwitch | seedld | stepb | stepbReport | garnetPass | checkGroupCommit |
      checkGroupRecompute | garnetStore | garnetStoreComplete | arrayIdleGate | arrayWakeDone | add | sub | mul | fma | max | min
      | abs | neg | div | rcp | sqrt | cmplt | cmple | cmpeq | sel | exp | exps | log | rsqrt | tanh | erf | sigmoid | cvt | widen
      | rndu | rndb | rndn | gumbel | rawbits | rsum | rmax | rmin | rcnt | rargmax | csum | cmax | cmin | ccnt | cargmax | tld |
      tst | trans | micaCommit | micaRetry | micaIdleGate | moverCopy | updateBegin | flintWatchdog =>
    exact and_imp_right (decide_lt_mono (hl _)) h
  case memRequestGrant | patrolScrub =>
    exact and_imp_right (decide_lt_mono (Variant.chans_le _)) h
  case channelTrainingDone | channelTrainingTimeout | intervalCalibration | parityError | channelRetrainDone =>
    exact and_imp_left (decide_lt_mono (Variant.stacks_le _)) h
  case doubledRefreshChange => exact decide_lt_mono (Variant.stacks_le _) h
  case portEnable | pmdTrained | identityReceive | acceptReceive | refuseReceive | trainingTimeout | trainingRestart |
      zlkCtrlRetrain | zlkCtrlDisable | zlkCtrlUnretire | flitReceive | nakReceive | retrainDone | frameReceive |
      ethernetLinkChange =>
    exact decide_lt_mono (Variant.ports_le _) h
  case clockMonitorWindow => exact List.all_eq_true.mpr fun c hc => State.hasSource_wf (List.all_eq_true.mp h c hc)
  case thermalWarning | thermalTrip => exact State.siteExists_wf h
  all_goals exact h

end Sys2Proof.Machine

open Sys2Proof Sys2Proof.Machine

/-- Settles O3: the register file of the reset state is empty, so each field reads its reset value. -/
theorem resetValues : Obligations.ResetValues := by
  unfold Obligations.ResetValues
  simp only [State.rf_reset]
  exact ⟨fun _ => trivial, fun _ => ⟨rfl, rfl, rfl, rfl, rfl, rfl⟩, fun _ _ => ⟨rfl, rfl⟩, fun _ _ => rfl, fun _ => rfl, fun _ => rfl, rfl,
    rfl⟩

/-- Settles O4: memory and register file of the reset state list nothing. -/
theorem invariantAtReset : Obligations.InvariantAtReset := ⟨rfl, rfl⟩

/-- Settles O8, command by command: the units that a package has lie within the bounds of the largest one. -/
theorem presentCommandsAreWellFormed : Obligations.PresentCommandsAreWellFormed := fun _ _ => wf_of_present

/-- Settles O9 by the rules of a table that is written at one key and read at the same or another. -/
theorem fieldWriteChangesOneField : Obligations.FieldWriteChangesOneField := fun _ f v h =>
  ⟨State.rf_wf_same f v h, fun _ hg => State.rf_wf_ne v h hg, fun _ => rfl, rfl⟩

end

section
namespace Sys2Proof.Machine

/-!
## What every operation of the block keeps

`s.Keeps t` says what a state `t` that some updates made of `s` has of it. There is one lemma per function of the model that gives a
state, `State.Keeps.f` for the function `f` (`.1` where it gives a pair), and its proof has the shape of the function: updates in turn
are lemmas in turn, `ite` is an if, `foldl` a sweep, `split` a match. A command's lemma `State.Keeps.exec_c` ends with the guard that
looks whether the command's units are there (`onPart`, `onCore` …).
-/

/-- What an update of the state keeps, whatever it is for: the invariant, the queue of commands, the fuses, and that no free value is
used again. -/
structure State.Keeps (s t : State) : Prop where
  inv : s.Inv → t.Inv
  pending : t.pending = s.pending
  fuse : t.fuse = s.fuse
  freeCtr : s.freeCtr ≤ t.freeCtr

/-- Every state that may be there is kept by `s`. -/
def State.KeepsOpt (s : State) (o : Option State) : Prop := ∀ u, o = some u → s.Keeps u

/-- The state of a channel that may be taken is kept by `s`. -/
def State.KeepsTurn (s : State) (o : Option (Nat × State)) : Prop := ∀ k u, o = some (k, u) → s.Keeps u

/-- The state that an answer carries is kept by `s`. -/
def ReadAns.Kept (s : State) : ReadAns → Prop
  | .fail u _ => s.Keeps u
  | .ok u _ => s.Keeps u
/-- The state that an answer carries is kept by `s`. -/
def BuildAns.Kept (s : State) : BuildAns → Prop
  | .fail u _ => s.Keeps u
  | .ok u _ => s.Keeps u
/-- The state that an answer carries, if it carries one, is kept by `s`. -/
def SegAns.Kept (s : State) : SegAns → Prop
  | .wait => True
  | .fail u _ => s.Keeps u
  | .run u _ => s.Keeps u
/-- The state that an answer carries is kept by `s`. -/
def LoadAns.Kept (s : State) : LoadAns → Prop
  | .fail u _ => s.Keeps u
  | .ok u _ => s.Keeps u
/-- The state that an answer carries is kept by `s`. -/
def GroupAns.Kept (s : State) : GroupAns → Prop
  | .fail u _ => s.Keeps u
  | .ok u _ => s.Keeps u
/-- The state that an answer carries is kept by `s`. -/
def MAns.Kept (s : State) : MAns → Prop
  | .fail u _ => s.Keeps u
  | .staged u _ _ _ _ _ => s.Keeps u

/-- What a command answers: the next state, kept by `s`, where its units are there (`b`), and the stop noSuchUnit where one is not. -/
def Answers (s : State) (b : Bool) (a : Answer) : Prop := ∃ t, s.Keeps t ∧ a = if b then .next t else .fault .noSuchUnit

section
variable {s t u : State} {α β γ δ : Type}

theorem State.Keeps.refl (s : State) : s.Keeps s := ⟨id, rfl, rfl, Nat.le_refl _⟩

/-! ### The shapes that the model's functions are made of -/

theorem State.Keeps.ite {a b : State} {c : Prop} {_ : Decidable c} (ha : s.Keeps a) (hb : s.Keeps b) :
    s.Keeps (if c then a else b) := by
  split
  · exact ha
  · exact hb
theorem State.Keeps.ite_fst {a b : State × α} {c : Prop} {_ : Decidable c} (ha : s.Keeps a.1) (hb : s.Keeps b.1) :
    s.Keeps (if c then a else b).1 := by
  split
  · exact ha
  · exact hb
theorem State.Keeps.ite_opt {a b : Option State} {c : Prop} {_ : Decidable c} (ha : s.KeepsOpt a) (hb : s.KeepsOpt b) :
    s.KeepsOpt (if c then a else b) := by
  split
  · exact ha
  · exact hb

theorem State.Keeps.of_fst {x : State × α} {a : α} (h : s.Keeps x.1) (e : x = (u, a)) : s.Keeps u := by
  subst e
  exact h

theorem State.Keeps.foldl {l : List α} {f : State → α → State} (h : s.Keeps t) (hf : ∀ u x, s.Keeps u → s.Keeps (f u x)) :
    s.Keeps (l.foldl f t) := by
  induction l generalizing t with
  | nil => exact h
  | cons x l ih => exact ih (hf t x h)
theorem State.Keeps.foldl_fst {l : List α} {f : State × β → α → State × β} {x : State × β} (h : s.Keeps x.1)
    (hf : ∀ u x, s.Keeps u.1 → s.Keeps (f u x).1) : s.Keeps (l.foldl f x).1 := by
  induction l generalizing x with
  | nil => exact h
  | cons y l ih => exact ih (hf x y h)

/-! ### States that may be there -/

theorem State.Keeps.there (h : s.Keeps t) : s.KeepsOpt (some t) := fun _ e => Option.some.inj e ▸ h
theorem State.Keeps.none_opt : s.KeepsOpt none := fun _ e => nomatch e
theorem State.Keeps.getD {o : Option State} (ho : s.KeepsOpt o) (h : s.Keeps t) : s.Keeps (o.getD t) := by
  cases o with
  | none => exact h
  | some u => exact ho u rfl
theorem State.KeepsOpt.map {o : Option State} {f : State → State} (ho : s.KeepsOpt o) (hf : ∀ u, s.Keeps u → s.Keeps (f u)) :
    s.KeepsOpt (o.map f) := by
  cases o with
  | none => exact .none_opt
  | some u => exact (hf u (ho u rfl)).there
theorem State.Keeps.map_opt {o : Option α} {f : α → State} (hf : ∀ x, s.Keeps (f x)) : s.KeepsOpt (o.map f) := by
  cases o with
  | none => exact .none_opt
  | some x => exact (hf x).there
/-! ### Answers that carry a state -/

theorem ReadAns.Kept.ite {a b : ReadAns} {c : Prop} {_ : Decidable c} (ha : a.Kept s) (hb : b.Kept s) : (if c then a else b).Kept s := by
  split
  · exact ha
  · exact hb
theorem ReadAns.Kept.of_fail {x : ReadAns} {n} (h : x.Kept s) (e : x = .fail u n) : s.Keeps u := by
  subst e
  exact h
theorem ReadAns.Kept.of_ok {x : ReadAns} {l} (h : x.Kept s) (e : x = .ok u l) : s.Keeps u := by
  subst e
  exact h
theorem BuildAns.Kept.ite {a b : BuildAns} {c : Prop} {_ : Decidable c} (ha : a.Kept s) (hb : b.Kept s) : (if c then a else b).Kept s := by
  split
  · exact ha
  · exact hb
theorem BuildAns.Kept.of_fail {x : BuildAns} {n} (h : x.Kept s) (e : x = .fail u n) : s.Keeps u := by
  subst e
  exact h
theorem BuildAns.Kept.of_ok {x : BuildAns} {l} (h : x.Kept s) (e : x = .ok u l) : s.Keeps u := by
  subst e
  exact h
theorem SegAns.Kept.ite {a b : SegAns} {c : Prop} {_ : Decidable c} (ha : a.Kept s) (hb : b.Kept s) : (if c then a else b).Kept s := by
  split
  · exact ha
  · exact hb
theorem SegAns.Kept.of_fail {x : SegAns} {n} (h : x.Kept s) (e : x = .fail u n) : s.Keeps u := by
  subst e
  exact h
theorem SegAns.Kept.of_ok {x : SegAns} {l} (h : x.Kept s) (e : x = .run u l) : s.Keeps u := by
  subst e
  exact h
theorem LoadAns.Kept.ite {a b : LoadAns} {c : Prop} {_ : Decidable c} (ha : a.Kept s) (hb : b.Kept s) : (if c then a else b).Kept s := by
  split
  · exact ha
  · exact hb
theorem LoadAns.Kept.of_fail {x : LoadAns} {n} (h : x.Kept s) (e : x = .fail u n) : s.Keeps u := by
  subst e
  exact h
theorem LoadAns.Kept.of_ok {x : LoadAns} {l} (h : x.Kept s) (e : x = .ok u l) : s.Keeps u := by
  subst e
  exact h
theorem GroupAns.Kept.ite {a b : GroupAns} {c : Prop} {_ : Decidable c} (ha : a.Kept s) (hb : b.Kept s) : (if c then a else b).Kept s := by
  split
  · exact ha
  · exact hb
theorem GroupAns.Kept.of_fail {x : GroupAns} {n} (h : x.Kept s) (e : x = .fail u n) : s.Keeps u := by
  subst e
  exact h
theorem GroupAns.Kept.of_ok {x : GroupAns} {l} (h : x.Kept s) (e : x = .ok u l) : s.Keeps u := by
  subst e
  exact h
theorem MAns.Kept.ite {a b : MAns} {c : Prop} {_ : Decidable c} (ha : a.Kept s) (hb : b.Kept s) : (if c then a else b).Kept s := by
  split
  · exact ha
  · exact hb
theorem MAns.Kept.of_fail {x : MAns} {n} (h : x.Kept s) (e : x = .fail u n) : s.Keeps u := by
  subst e
  exact h
theorem MAns.Kept.of_ok {x : MAns} {r m w v c} (h : x.Kept s) (e : x = .staged u r m w v c) : s.Keeps u := by
  subst e
  exact h

theorem State.Keeps.load_ok {l} (h : s.Keeps t) : (LoadAns.ok t l).Kept s := h
theorem State.Keeps.group_ok {g} (h : s.Keeps t) : (GroupAns.ok t g).Kept s := h

/-! ### What a command answers -/

theorem State.Keeps.next (h : s.Keeps t) : Answers s true (.next t) := ⟨t, h, rfl⟩
theorem State.Keeps.answerIf {b : Bool} {c : Prop} {_ : Decidable c} (h : s.Keeps t) (hb : b = true ↔ c) :
    Answers s b (if c then .next t else .fault .noSuchUnit) := ⟨t, h, by simp only [hb]⟩
theorem State.Keeps.answerUnless {b : Bool} {c : Prop} {_ : Decidable c} (h : s.Keeps t) (hb : b = true ↔ ¬ c) :
    Answers s b (if c then .fault .noSuchUnit else .next t) := ⟨t, h, by simp only [hb, ite_not]⟩
theorem eq_true_iff_not {b : Bool} : b = true ↔ ¬ (!b) = true := by rw [Bool.not_eq_true', Bool.not_eq_false]
theorem decide_lt_iff {i n : Nat} : decide (i < n) = true ↔ ¬ n ≤ i := decide_eq_true_iff.trans Nat.not_le.symm
theorem decide_lt_and_iff {i j m n : Nat} : (decide (i < m) && decide (j < n)) = true ↔ ¬ (m ≤ i ∨ n ≤ j) := by
  simp only [Bool.and_eq_true, decide_eq_true_eq, not_or, Nat.not_le]
/-- A meaning that a larger one runs: where it stops, the larger one goes on from the state it began with. -/
theorem Answers.stateOr {b : Bool} {a : Answer} (ha : Answers s b a) (h : s.Keeps t) : s.Keeps (a.stateOr t) := by
  obtain ⟨u, hu, rfl⟩ := ha
  cases b with
  | false => exact h
  | true => exact hu

/-! ### Elementary updates -/

/-- A record update that names none of what the block keeps. -/
theorem State.Keeps.upd (h : s.Keeps t) {cfg log flash boot power gov tileChk acc treg loaded garnet stage flint queue mover disp pc chan
    port noUp ctx aux park colq assay strata images resets ftest member tenancy sess host handles mkey mreq anonces drbgReqs recSeq
    recPend recFlush suppressed corrSeen elog events pwrCycle i3cAddr mctpEid rotUplink summ out} :
    s.Keeps ⟨t.pending, t.fuse, cfg, log, flash, boot, power, gov, t.flds, t.mem, tileChk, acc, treg, loaded, garnet, stage, flint,
      queue, mover, disp, pc, chan, port, noUp, ctx, aux, park, colq, assay, strata, images, resets, ftest, member, tenancy, sess, host,
      handles, mkey, mreq, anonces, drbgReqs, recSeq, recPend, recFlush, suppressed, corrSeen, elog, events, pwrCycle, i3cAddr, mctpEid,
      rotUplink, summ, t.freeCtr, out⟩ :=
  ⟨h.inv, h.pending, h.fuse, h.freeCtr⟩
/-- A record update that uses a free value. -/
theorem State.Keeps.drawn (h : s.Keeps t) {cfg log flash boot power gov tileChk acc treg loaded garnet stage flint queue mover disp pc
    chan port noUp ctx aux park colq assay strata images resets ftest member tenancy sess host handles mkey mreq anonces drbgReqs recSeq
    recPend recFlush suppressed corrSeen elog events pwrCycle i3cAddr mctpEid rotUplink summ out} :
    s.Keeps ⟨t.pending, t.fuse, cfg, log, flash, boot, power, gov, t.flds, t.mem, tileChk, acc, treg, loaded, garnet, stage, flint,
      queue, mover, disp, pc, chan, port, noUp, ctx, aux, park, colq, assay, strata, images, resets, ftest, member, tenancy, sess, host,
      handles, mkey, mreq, anonces, drbgReqs, recSeq, recPend, recFlush, suppressed, corrSeen, elog, events, pwrCycle, i3cAddr, mctpEid,
      rotUplink, summ, t.freeCtr + 1, out⟩ :=
  ⟨h.inv, h.pending, h.fuse, Nat.le_succ_of_le h.freeCtr⟩

/-! ### Fields, bytes, blocks and error records (Machine/Ops.lean) -/

theorem State.Keeps.wf {f v} (h : s.Keeps t) : s.Keeps (t.wf f v) := ⟨fun hs => (h.inv hs).wf f v, h.pending, h.fuse, h.freeCtr⟩

theorem State.Keeps.addf {f n} (h : s.Keeps t) : s.Keeps (t.addf f n) :=
  h.wf

theorem State.Keeps.inc {f} (h : s.Keeps t) : s.Keeps (t.inc f) :=
  h.addf

theorem State.Keeps.satAdd {f n} (h : s.Keeps t) : s.Keeps (t.satAdd f n) :=
  h.wf

theorem State.Keeps.emit {o} (h : s.Keeps t) : s.Keeps (t.emit o) :=
  h.upd

theorem State.Keeps.setGarnet {p c g} (h : s.Keeps t) : s.Keeps (t.setGarnet p c g) :=
  h.upd

theorem State.Keeps.setFlint {p c f} (h : s.Keeps t) : s.Keeps (t.setFlint p c f) :=
  h.upd

theorem State.Keeps.setQueue {p c e q} (h : s.Keeps t) : s.Keeps (t.setQueue p c e q) :=
  h.upd

theorem State.Keeps.setStage {p c m} (h : s.Keeps t) : s.Keeps (t.setStage p c m) :=
  h.upd

theorem State.Keeps.setLoaded {p c a l} (h : s.Keeps t) : s.Keeps (t.setLoaded p c a l) :=
  h.upd

theorem State.Keeps.setMover {p m} (h : s.Keeps t) : s.Keeps (t.setMover p m) :=
  h.upd

theorem State.Keeps.setDisp {p d} (h : s.Keeps t) : s.Keeps (t.setDisp p d) :=
  h.upd

theorem State.Keeps.setPc {p i x} (h : s.Keeps t) : s.Keeps (t.setPc p i x) :=
  h.upd

theorem State.Keeps.setChan {st ch x} (h : s.Keeps t) : s.Keeps (t.setChan st ch x) :=
  h.upd

theorem State.Keeps.setPort {i x} (h : s.Keeps t) : s.Keeps (t.setPort i x) :=
  h.upd

theorem State.Keeps.setCtx {i x} (h : s.Keeps t) : s.Keeps (t.setCtx i x) :=
  h.upd

theorem State.Keeps.setAux {i x} (h : s.Keeps t) : s.Keeps (t.setAux i x) :=
  h.upd

theorem State.Keeps.setColq {p q x} (h : s.Keeps t) : s.Keeps (t.setColq p q x) :=
  h.upd

theorem State.Keeps.setAssay {p x} (h : s.Keeps t) : s.Keeps (t.setAssay p x) :=
  h.upd

theorem State.Keeps.setStrata {p x} (h : s.Keeps t) : s.Keeps (t.setStrata p x) :=
  h.upd

theorem State.Keeps.setReset {p x} (h : s.Keeps t) : s.Keeps (t.setReset p x) :=
  h.upd

theorem State.Keeps.setFt {p x} (h : s.Keeps t) : s.Keeps (t.setFt p x) :=
  h.upd

theorem State.Keeps.setMember {p x} (h : s.Keeps t) : s.Keeps (t.setMember p x) :=
  h.upd

theorem State.Keeps.setTen {p x} (h : s.Keeps t) : s.Keeps (t.setTen p x) :=
  h.upd

theorem State.Keeps.setHost {n x} (h : s.Keeps t) : s.Keeps (t.setHost n x) :=
  h.upd

theorem State.Keeps.setHandle {i x} (h : s.Keeps t) : s.Keeps (t.setHandle i x) :=
  h.upd

theorem State.Keeps.setSess {k x} (h : s.Keeps t) : s.Keeps (t.setSess k x) :=
  h.upd

theorem State.Keeps.setPark {p x} (h : s.Keeps t) : s.Keeps (t.setPark p x) :=
  h.upd

theorem State.Keeps.busErr {p addr} (h : s.Keeps t) : s.Keeps (t.busErr p addr) :=
  ite h h.wf.wf

theorem State.Keeps.setByte {k b} (h : s.Keeps t) : s.Keeps (t.setByte k b) :=
  ⟨fun hs => (h.inv hs).setByte k b, h.pending, h.fuse, h.freeCtr⟩

theorem State.Keeps.setBytes {k a} (h : s.Keeps t) : s.Keeps (t.setBytes k a) := by
  induction a generalizing t k with
  | nil => exact h
  | cons x l ih => exact ih h.setByte

theorem State.Keeps.setCheck {p addr w} (h : s.Keeps t) : s.Keeps (t.setCheck p addr w) :=
  ite h.setBytes h.upd

theorem State.Keeps.pairsGood {p addr} (h : s.Keeps t) : s.Keeps (t.pairsGood p addr) :=
  ite h.setPc h

theorem State.Keeps.queueTx {idx l} (h : s.Keeps t) : s.Keeps (t.queueTx idx l) :=
  h.setAux

theorem State.Keeps.queueCtl {idx mtype offset} (h : s.Keeps t) : s.Keeps (t.queueCtl idx mtype offset) :=
  h.setAux

theorem State.Keeps.queueGrant {idx blocks} (h : s.Keeps t) : s.Keeps (t.queueGrant idx blocks) :=
  h.queueCtl

theorem State.Keeps.sendMirrorHeader {p} (h : s.Keeps t) : s.Keeps (t.sendMirrorHeader p) :=
  h.queueTx

theorem State.Keeps.copyExtent {p ext} (h : s.Keeps t) : s.Keeps (t.copyExtent p ext) :=
  ite h (ite h.queueTx.setStrata.addf.sendMirrorHeader h.queueTx.setStrata.addf)

theorem State.Keeps.touch {p a a3} (h : s.Keeps t) : s.Keeps (t.touch p a a3) := by
  induction a3 generalizing t with
  | nil => exact h
  | cons x l ih => exact ih (ite h.copyExtent.inc h).setStrata

theorem State.Keeps.checkWriteWaits {p a who} (h : s.Keeps t) : s.Keeps (t.checkWriteWaits p a who) :=
  h.setPc

theorem State.Keeps.writeBlock {p addr bs w who} (h : s.Keeps t) : s.Keeps (t.writeBlock p addr bs w who).1 :=
  ite_fst (ite h.touch h).setBytes.pairsGood.checkWriteWaits (ite h.touch h).setBytes.pairsGood.setCheck

theorem State.Keeps.countCheckFail {p addr} (h : s.Keeps t) : s.Keeps (t.countCheckFail p addr) := by
  unfold State.countCheckFail
  split <;> exact ite h.inc h.inc.wf.wf

theorem State.Keeps.platform {e} (h : s.Keeps t) : s.Keeps (t.platform e) :=
  h.upd

theorem State.Keeps.elogCopy {w} (h : s.Keeps t) : s.Keeps (t.elogCopy w) :=
  ite (ite h.inc h.upd.inc).emit (ite h.inc h.upd.inc)

theorem State.Keeps.suppress {c} (h : s.Keeps t) : s.Keeps (t.suppress c) :=
  h.upd

theorem State.Keeps.flashEntry {region p} (h : s.Keeps t) : s.Keeps (t.flashEntry region p) :=
  h.upd

theorem State.Keeps.flushRecords (h : s.Keeps t) : s.Keeps t.flushRecords := by
  unfold State.flushRecords
  split
  · exact h
  · split
    · exact h.upd.flashEntry
    · exact ite h.drawn.elogCopy.flashEntry h.drawn.elogCopy.flashEntry.flashEntry

theorem State.Keeps.bedrockTake {unit code w} (h : s.Keeps t) : s.Keeps (t.bedrockTake unit code w) :=
  ite h.suppress (ite h.upd.suppress (ite h.upd.upd.flushRecords h.upd.upd))

theorem State.Keeps.ringWrite {p w} (h : s.Keeps t) : s.Keeps (t.ringWrite p w).1 :=
  ite_fst h.inc h.writeBlock.inc

theorem State.Keeps.raise1 {r} (h : s.Keeps t) : s.Keeps (t.raise1 r).1 := by
  unfold State.raise1
  cases r.part with
  | none => exact ite h.drawn.bedrockTake.elogCopy.platform h.drawn.bedrockTake.elogCopy
  | some p => exact ite h.drawn.ringWrite.bedrockTake.elogCopy.platform h.drawn.ringWrite.bedrockTake.elogCopy

theorem State.Keeps.raiseN {n r} (h : s.Keeps t) : s.Keeps (Machine.raiseN n t r) := by
  induction n generalizing t r with
  | zero => exact h.raise1
  | succ n ih =>
    unfold Machine.raiseN
    split
    · next u e => exact h.raise1.of_fst e
    · next u _ e => exact ih (h.raise1.of_fst e).countCheckFail

theorem State.Keeps.raise {r} (h : s.Keeps t) : s.Keeps (t.raise r) :=
  h.raiseN

theorem State.Keeps.checkFailRec {p unit addr handle} (h : s.Keeps t) : s.Keeps (t.checkFailRec p unit addr handle) :=
  h.countCheckFail.raise

/-! ### Register accesses (Machine/Access.lean) -/

theorem State.Keeps.writeFld {locked key v mask f} (h : s.Keeps t) : s.Keeps (t.writeFld locked key v mask f).1 := by
  unfold State.writeFld
  extract_lets _ _ _ u1
  have h1 : s.Keeps u1 := ite h.wf h
  split
  · exact h
  · exact h
  · exact h1
  · exact h.wf
  · exact ite_fst h h1

theorem State.Keeps.writeFlds {locked key v mask a} (h : s.Keeps t) : s.Keeps (t.writeFlds locked key v mask a).1 := by
  induction a generalizing t with
  | nil => exact h
  | cons x l ih => exact ih h.writeFld

theorem State.Keeps.writeAll {key v mask a} (h : s.Keeps t) : s.Keeps (t.writeAll key v mask a) := by
  induction a generalizing t with
  | nil => exact h
  | cons x l ih => exact ih h.wf

theorem State.Keeps.regWrite {a p off size v} (h : s.Keeps t) : s.Keeps (t.regWrite a p off size v).1 := by
  unfold State.regWrite
  split
  · exact h
  · exact ite_fst h (ite_fst h.writeAll h.writeFlds)

theorem State.Keeps.mgmtWrite {a off size v} (h : s.Keeps t) : s.Keeps (t.mgmtWrite a off size v) := by
  unfold State.mgmtWrite
  split
  · exact ite h.inc h
  · exact ite (ite h.inc h) h.writeFlds

theorem State.Keeps.pfWrite {n off size v} (h : s.Keeps t) : s.Keeps (t.pfWrite n off size v) := by
  unfold State.pfWrite
  split
  · exact h
  · exact ite (ite h h.writeFlds) (ite h.writeFlds h.writeFlds)

theorem State.Keeps.busErrIf {e p addr} (h : s.Keeps t) : s.Keeps (t.busErrIf e p addr) :=
  ite h.busErr h

/-! ### The command queues and what halts one (Machine/Flags.lean) -/

theorem State.Keeps.putQueue {p c e q} (h : s.Keeps t) : s.Keeps (t.putQueue p c e q) :=
  ite h.setQueue.wf.wf.wf h.setQueue.wf.wf

theorem State.Keeps.setErr {p c e st} (h : s.Keeps t) : s.Keeps (t.setErr p c e st) :=
  ite h h.wf.wf

theorem State.Keeps.abortEntries {p c e f} (h : s.Keeps t) : s.Keeps (t.abortEntries p c e f) :=
  ite h h.putQueue

theorem State.Keeps.haltQueue {p c e sq st} (h : s.Keeps t) : s.Keeps (t.haltQueue p c e sq st) :=
  h.putQueue.setErr.abortEntries

theorem State.Keeps.sweepBad {p c a} (h : s.Keeps t) : s.Keeps (t.sweepBad p c a) := by
  induction a generalizing t with
  | nil => exact h
  | cons x l ih =>
    unfold State.sweepBad
    extract_lets u1
    have h1 : s.Keeps u1 := by
      unfold u1
      split
      · exact h
      · exact h.abortEntries.haltQueue
    exact ih h1

theorem State.Keeps.complete {p c e sq st} (h : s.Keeps t) : s.Keeps (t.complete p c e sq st) :=
  ite h.putQueue.haltQueue.sweepBad.sweepBad.sweepBad h.putQueue

theorem State.Keeps.start {p c e sq} (h : s.Keeps t) : s.Keeps (t.start p c e sq) :=
  h.putQueue

theorem State.Keeps.enqueue {p c e k} (h : s.Keeps t) : s.Keeps (t.enqueue p c e k).1 :=
  ite_fst h.wf.putQueue (ite h.wf.putQueue.complete h.wf.putQueue)

theorem State.Keeps.clearErr {p c e} (h : s.Keeps t) : s.Keeps (t.clearErr p c e) :=
  h.setQueue.wf.wf

theorem State.Keeps.abortQueue {p c e} (h : s.Keeps t) : s.Keeps (t.abortQueue p c e) := by
  unfold State.abortQueue
  extract_lets _
  split
  · exact h
  · exact ite h.putQueue.setErr.wf h.putQueue.setErr

/-! ### What the fault of one unit stops (Machine/Recovery.lean) -/

theorem State.Keeps.free (h : s.Keeps t) : s.Keeps (t.free).1 :=
  h.drawn

theorem State.Keeps.openKeys {i x} (h : s.Keeps t) : s.Keeps (t.openKeys i x) :=
  ite h.setAux.drawn.setAux h.setAux

theorem State.Keeps.takeCtx {x} (h : s.Keeps t) : s.Keeps (t.takeCtx x).1 :=
  h.free.setCtx.openKeys

theorem State.Keeps.takePartCtx {p x} (h : s.Keeps t) : s.Keeps (t.takePartCtx p x).1 :=
  h.takeCtx.inc

theorem State.Keeps.dropParked {p i} (h : s.Keeps t) : s.Keeps (t.dropParked p i) :=
  ite h.setPark.wf h

theorem State.Keeps.freeCtx {i} (h : s.Keeps t) : s.Keeps (t.freeCtx i) :=
  ite h h.dropParked.setCtx.setAux.wf

theorem State.Keeps.freeCtxs {l} (h : s.Keeps t) : s.Keeps (t.freeCtxs l) :=
  h.foldl fun _ _ h1 => h1.freeCtx

theorem State.Keeps.produce {n c} (h : s.Keeps t) : s.Keeps (t.produce n c) :=
  h.setHost

theorem State.Keeps.hostDone {i st} (h : s.Keeps t) : s.Keeps (t.hostDone i st) := by
  unfold State.hostDone
  split
  · exact h
  · split
    · exact h
    · exact h.setHandle.produce

theorem State.Keeps.resumeHandle {j haddr unit t4} (h : s.Keeps t) : s.Keeps (t.resumeHandle j haddr unit t4) := by
  unfold State.resumeHandle
  extract_lets _
  split
  · exact h.setHandle
  · exact ite h.setHandle h.setHandle.produce
  · exact h.setHandle

theorem State.Keeps.rebindNow {i} (h : s.Keeps t) : s.Keeps (t.rebindNow i) := by
  unfold State.rebindNow
  split
  · exact h
  · extract_lets _ _ _ _ _ _ _ u1 u2 _ u3
    have h1 : s.Keeps u1 := h.setHost
    have h2 : s.Keeps u2 := h1.setCtx.addf
    have h3 : s.Keeps u3 := h2.setAux
    split
    · exact h.produce.hostDone
    · exact ite h.produce.hostDone h3.produce.resumeHandle.hostDone

theorem State.Keeps.rebindAtAbort {p i} (h : s.Keeps t) : s.Keeps (t.rebindAtAbort p i) := by
  unfold State.rebindAtAbort
  split
  · exact h
  · exact ite h.rebindNow (ite h.setAux h)

theorem State.Keeps.abortHandles {p} (h : s.Keeps t) : s.Keeps (t.abortHandles p) :=
  (h.foldl fun _ _ h1 => h1.hostDone).foldl fun _ _ h1 => h1.rebindAtAbort

theorem State.Keeps.mergeWrite {p addr bs who} (h : s.Keeps t) : s.Keeps (t.mergeWrite p addr bs who).1 :=
  ite_fst h.busErr (ite_fst h.writeBlock h)

theorem State.Keeps.colRecord {p q o st flag} (h : s.Keeps t) : s.Keeps (t.colRecord p q o st flag) := by
  unfold State.colRecord
  extract_lets _ u1 u2 u3
  have h1 : s.Keeps u1 := ite h h.mergeWrite
  have h2 : s.Keeps u2 := h1.wf.inc
  have h3 : s.Keeps u3 := ite h2.wf.wf h2
  exact ite h3.wf h3

theorem State.Keeps.colDrain {p q a} (h : s.Keeps t) : s.Keeps (t.colDrain p q a) := by
  induction a generalizing t with
  | nil => exact h
  | cons x l ih =>
    unfold State.colDrain
    split
    · exact h
    · exact ih h.setColq.colRecord

theorem State.Keeps.colEnd {p q sq st flag} (h : s.Keeps t) : s.Keeps (t.colEnd p q sq st flag) :=
  h.setColq.colDrain

theorem State.Keeps.colClose {p q} (h : s.Keeps t) : s.Keeps (t.colClose p q) :=
  (ite h.setColq.colDrain.freeCtxs.setColq.wf h.setColq.colDrain.freeCtxs.setColq).wf.wf

theorem State.Keeps.haltFlint {p c cause} (h : s.Keeps t) : s.Keeps (t.haltFlint p c cause) :=
  h.setFlint.wf.wf.wf.wf

theorem State.Keeps.stopCore {p c} (h : s.Keeps t) : s.Keeps (t.stopCore p c) :=
  (ite h h.haltFlint).abortQueue.abortQueue.abortQueue.setGarnet.setStage.wf.wf.wf.wf.wf

theorem State.Keeps.stopCores {p a} (h : s.Keeps t) : s.Keeps (t.stopCores p a) := by
  induction a with
  | zero => exact h
  | succ n ih => exact ih.stopCore

theorem State.Keeps.endRounds {p st} (h : s.Keeps t) : s.Keeps (t.endRounds p st) :=
  ite h.setDisp.wf.wf.wf.wf h.setDisp.wf.wf.wf.wf.wf.wf

theorem State.Keeps.failRound {p st} (h : s.Keeps t) : s.Keeps (t.failRound p st) :=
  h.endRounds

theorem State.Keeps.stopAssay {p} (h : s.Keeps t) : s.Keeps (t.stopAssay p) :=
  (ite h.wf.wf.inc h).wf.setAssay

theorem State.Keeps.stopStrata {p} (h : s.Keeps t) : s.Keeps (t.stopStrata p) :=
  (ite h.wf.wf h).setStrata

theorem State.Keeps.quietCtxs {l} (h : s.Keeps t) : s.Keeps (t.quietCtxs l) :=
  h.foldl fun _ _ h1 => h1.setAux

theorem State.Keeps.stopPartition {p} (h : s.Keeps t) : s.Keeps (t.stopPartition p) := by
  unfold State.stopPartition
  extract_lets u1 u2 u3 u4 u5
  have h1 : s.Keeps u1 := h.stopCores
  have h2 : s.Keeps u2 := h1.setMover.wf
  have h3 : s.Keeps u3 := h2.setPark.wf.quietCtxs
  have h4 : s.Keeps u4 := h3.endRounds
  have h5 : s.Keeps u5 := h4.foldl fun _ _ h1 => h1.colClose
  exact h5.stopAssay.stopStrata.abortHandles

theorem State.Keeps.deliverAbort {p b} (h : s.Keeps t) : s.Keeps (t.deliverAbort p b) :=
  ite h.wf.wf.wf.wf.wf.inc.stopPartition.wf h.wf.wf.wf.wf.wf.inc

theorem State.Keeps.takeWave {b fromCellPeer} (h : s.Keeps t) : s.Keeps (t.takeWave b fromCellPeer) :=
  (h.foldl fun _ _ h1 => h1.deliverAbort).foldl fun _ _ h1 => h1.emit

theorem State.Keeps.startWave {p cause unit} (h : s.Keeps t) : s.Keeps (t.startWave p cause unit) :=
  ite h.takeWave h

theorem State.Keeps.fatal {p r} (h : s.Keeps t) : s.Keeps (t.fatal p r) :=
  h.raise.startWave

theorem State.Keeps.logState {l} (h : s.Keeps t) : s.Keeps (t.logState l) :=
  h.upd.flashEntry

theorem State.Keeps.retireCore {p phys} (h : s.Keeps t) : s.Keeps (t.retireCore p phys) :=
  h.logState.wf

theorem State.Keeps.retireChan {p k} (h : s.Keeps t) : s.Keeps (t.retireChan p k) :=
  h.logState

theorem State.Keeps.countTrans {p unit} (h : s.Keeps t) : s.Keeps (t.countTrans p unit) :=
  ite h.inc.setAssay.wf.raise h.inc.setAssay

theorem State.Keeps.transRec {p r} (h : s.Keeps t) : s.Keeps (t.transRec p r) :=
  h.raise.countTrans

theorem State.Keeps.ndet {p src n} (h : s.Keeps t) : s.Keeps (t.ndet p src n) :=
  h.satAdd.satAdd

theorem State.Keeps.tileEcc1 {p c e} (h : s.Keeps t) : s.Keeps (t.tileEcc1 p c e) :=
  ite h.inc.raise h.wf.raise

theorem State.Keeps.tileEcc {p c off n es} (h : s.Keeps t) : s.Keeps (t.tileEcc p c off n es) :=
  h.foldl fun _ _ h1 => h1.tileEcc1

/-! ### Zenrix links (Machine/Links.lean) -/

theorem State.Keeps.emptyBundle {i} (h : s.Keeps t) : s.Keeps (t.emptyBundle i) :=
  ite h h.upd.raise

theorem State.Keeps.portState {i st} (h : s.Keeps t) : s.Keeps (t.portState i st) :=
  ite h.wf.upd (ite h.wf.emptyBundle h.wf)

theorem State.Keeps.returnCredit {q} (h : s.Keeps t) : s.Keeps (t.returnCredit q) :=
  ite h h.emit

theorem State.Keeps.pump1 {i} (h : s.Keeps t) : s.Keeps (t.pump1 i) := by
  unfold State.pump1
  extract_lets _
  split
  · exact h
  · exact ite h h.setPort.emit.returnCredit

theorem State.Keeps.pump {i a} (h : s.Keeps t) : s.Keeps (t.pump i a) := by
  induction a generalizing t with
  | zero => exact h
  | succ n ih => exact ih h.pump1

theorem State.Keeps.packet1 {i} (h : s.Keeps t) : s.Keeps (t.packet1 i) := by
  unfold State.packet1
  extract_lets _
  split
  · exact h
  · exact h.setPort.emit.foldl fun _ _ h1 => h1.returnCredit

theorem State.Keeps.packets {i a} (h : s.Keeps t) : s.Keeps (t.packets i a) := by
  induction a generalizing t with
  | zero => exact h
  | succ n ih => exact ih h.packet1

theorem State.Keeps.pumpAll {i} (h : s.Keeps t) : s.Keeps (t.pumpAll i) :=
  ite h.pump h.packets

theorem State.Keeps.enqueueFlits {i qs} (h : s.Keeps t) : s.Keeps (t.enqueueFlits i qs) :=
  h.setPort.pumpAll

theorem State.Keeps.sendOn {i idx m} (h : s.Keeps t) : s.Keeps (t.sendOn i idx m) :=
  ite h.emit.enqueueFlits h.emit.emit

theorem State.Keeps.sendTo {idx m} (h : s.Keeps t) : s.Keeps (t.sendTo idx m).1 := by
  unfold State.sendTo
  extract_lets _ _
  split
  · exact h.emit
  · exact h.setAux.sendOn

theorem State.Keeps.redirect {src onto} (h : s.Keeps t) : s.Keeps (t.redirect src onto) :=
  ite h h.setPort

theorem State.Keeps.dropMsg {i g} (h : s.Keeps t) : s.Keeps (t.dropMsg i g) := by
  unfold State.dropMsg
  extract_lets u1
  have h1 : s.Keeps u1 := h.foldl fun _ _ h1 => h1.returnCredit
  split
  · exact h1
  · exact ite h1 h1.redirect

theorem State.Keeps.reroute {i k g} (h : s.Keeps t) : s.Keeps (t.reroute i k g) := by
  unfold State.reroute
  split
  · exact h
  · extract_lets _ _ _ _
    refine ite h.dropMsg ?_
    split
    · exact h.dropMsg
    · exact (ite h h.redirect).enqueueFlits

theorem State.Keeps.rerouteAll {i k l} (h : s.Keeps t) : s.Keeps (t.rerouteAll i k l) := by
  induction l generalizing t k with
  | nil => exact h
  | cons g l ih => exact ih h.reroute

theorem State.Keeps.cutForward {i} (h : s.Keeps t) : s.Keeps (t.cutForward i) := by
  unfold State.cutForward
  split
  · exact h
  · exact h.setPort.setPort.pumpAll

theorem State.Keeps.enterRetrain {i} (h : s.Keeps t) : s.Keeps (t.enterRetrain i) :=
  h.cutForward.setPort.inc.portState.rerouteAll

theorem State.Keeps.portDown {i} (h : s.Keeps t) : s.Keeps (t.portDown i) :=
  h.cutForward.setPort.portState.foldl fun _ _ h1 => h1.dropMsg

theorem State.Keeps.enterIdent {i} (h : s.Keeps t) : s.Keeps (t.enterIdent i) :=
  h.portState.emit

theorem State.Keeps.portUp {i} (h : s.Keeps t) : s.Keeps (t.portUp i) :=
  h.portState

theorem State.Keeps.quarantine {i cause} (h : s.Keeps t) : s.Keeps (t.quarantine i cause) :=
  h.portState.wf.raise

theorem State.Keeps.globalState {i} (h : s.Keeps t) : s.Keeps (t.globalState i) :=
  ite h.portUp h.portDown

theorem State.Keeps.onPort {t0 : State} {i} (h : s.Keeps t) : Answers s (decide (i < t0.fuse.variant.ports)) (Machine.onPort t0 i t) :=
  h.answerIf (by simp)

theorem State.Keeps.exec_portEnable {i} (h : s.Keeps t) : Answers s (present t (.portEnable i)) (exec (.portEnable i) t) :=
  (ite h h.setPort.portState).onPort

theorem State.Keeps.exec_pmdTrained {i} (h : s.Keeps t) : Answers s (present t (.pmdTrained i)) (exec (.pmdTrained i) t) :=
  (ite h h.enterIdent).onPort

theorem State.Keeps.showPeer {i d} (h : s.Keeps t) : s.Keeps (t.showPeer i d) :=
  h.wf.wf.wf.wf.wf.wf.wf

theorem State.Keeps.controlIn {i typ f} (h : s.Keeps t) : s.Keeps (t.controlIn i typ f).1 :=
  ite_fst h.addf.inc (ite_fst h.addf.inc h.addf)

theorem State.Keeps.compareIdentity {i d} (h : s.Keeps t) : s.Keeps (t.compareIdentity i d) := by
  unfold State.compareIdentity
  extract_lets u1 _ _ u2 u3
  have h1 : s.Keeps u1 := h.showPeer
  have h2 : s.Keeps u2 := h1.emit.setPort
  have h3 : s.Keeps u3 := h2.wf
  exact ite h1.emit.quarantine (ite h3.quarantine (ite h3.portUp h3))

theorem State.Keeps.exec_identityReceive {i f} (h : s.Keeps t) :
    Answers s (present t (.identityReceive i f)) (exec (.identityReceive i f) t) :=
  (ite h (ite h.controlIn.compareIdentity h.controlIn)).onPort

theorem State.Keeps.takeAccept {i} (h : s.Keeps t) : s.Keeps (t.takeAccept i) :=
  ite h.setPort.portUp h.setPort

theorem State.Keeps.takeRefuse {i} (h : s.Keeps t) : s.Keeps (t.takeRefuse i) :=
  ite h.quarantine h.setPort

theorem State.Keeps.exec_acceptReceive {i f} (h : s.Keeps t) :
    Answers s (present t (.acceptReceive i f)) (exec (.acceptReceive i f) t) :=
  (ite h (ite h.controlIn.takeAccept h.controlIn)).onPort

theorem State.Keeps.exec_refuseReceive {i f} (h : s.Keeps t) :
    Answers s (present t (.refuseReceive i f)) (exec (.refuseReceive i f) t) :=
  (ite h (ite h.controlIn.takeRefuse h.controlIn)).onPort

theorem State.Keeps.exec_trainingTimeout {i} (h : s.Keeps t) :
    Answers s (present t (.trainingTimeout i)) (exec (.trainingTimeout i) t) :=
  (ite h.portDown h).onPort

theorem State.Keeps.exec_trainingRestart {i} (h : s.Keeps t) :
    Answers s (present t (.trainingRestart i)) (exec (.trainingRestart i) t) :=
  (ite h h.inc.portState).onPort

theorem State.Keeps.exec_zlkCtrlRetrain {a i} (h : s.Keeps t) :
    Answers s (present t (.zlkCtrlRetrain a i)) (exec (.zlkCtrlRetrain a i) t) :=
  (ite h (ite h.enterRetrain.setPort (ite h.enterRetrain h))).onPort

theorem State.Keeps.exec_zlkCtrlDisable {a i hold} (h : s.Keeps t) :
    Answers s (present t (.zlkCtrlDisable a i hold)) (exec (.zlkCtrlDisable a i hold) t) :=
  (ite h (ite h.wf (ite h.wf.portDown (ite h.wf.globalState h.wf)))).onPort

theorem State.Keeps.exec_zlkCtrlUnretire {a i} (h : s.Keeps t) :
    Answers s (present t (.zlkCtrlUnretire a i)) (exec (.zlkCtrlUnretire a i) t) :=
  (ite h (ite h.logState.wf.wf.setPort.globalState
    (ite h.logState.wf.wf.setPort.portState h.logState.wf.wf.setPort.portState))).onPort

theorem State.Keeps.linkAck {i ack} (h : s.Keeps t) : s.Keeps (t.linkAck i ack) := by
  unfold State.linkAck
  extract_lets _
  split
  · exact h
  · exact h.setPort

theorem State.Keeps.linkNak {i ack} (h : s.Keeps t) : s.Keeps (t.linkNak i ack) := by
  unfold State.linkNak
  extract_lets u1 _
  have h1 : s.Keeps u1 := h.linkAck
  split
  · exact h1
  · exact ite (h1.setPort.foldl fun _ _ h2 => h2.emit) h1.setPort.enterRetrain.setPort

theorem State.Keeps.flitFailed {i seq} (h : s.Keeps t) : s.Keeps (t.flitFailed i seq) :=
  ite h.setPort h.setPort.setPort.emit

theorem State.Keeps.onward {f} (h : s.Keeps t) : s.Keeps (t.onward f).1 :=
  ite_fst h (ite_fst h h.free)

theorem State.Keeps.forward {i f} (h : s.Keeps t) : s.Keeps (t.forward i f).1 :=
  ite_fst h (ite_fst (ite_fst h.onward h).setPort (ite_fst h.onward h).setPort.enqueueFlits)

theorem State.Keeps.replayed {i seq naks} (h : s.Keeps t) : s.Keeps (t.replayed i seq naks) :=
  ite h.inc h.inc.setPort.raise

theorem State.Keeps.dataFlit {i f} (h : s.Keeps t) : s.Keeps (t.dataFlit i f) :=
  ite h.setPort (ite h.setPort.replayed h.setPort).forward.emit

theorem State.Keeps.exec_flitReceive {i f} (h : s.Keeps t) :
    Answers s (present t (.flitReceive i f)) (exec (.flitReceive i f) t) := by
  show Answers s _ (execFlitReceive i f t)
  unfold execFlitReceive
  refine onPort ?_
  refine ite h ?_
  extract_lets u1 _ u2 u3 u4
  have h1 : s.Keeps u1 := h.addf
  have h2 : s.Keeps u2 := h1.setPort
  have h3 : s.Keeps u3 := ite h2.linkNak h2.linkAck
  have h4 : s.Keeps u4 := ite h3.dataFlit h3
  exact ite h1.inc.flitFailed (ite h1.inc.flitFailed (ite h1.dataFlit h4.pumpAll))

theorem State.Keeps.exec_nakReceive {i ack} (h : s.Keeps t) :
    Answers s (present t (.nakReceive i ack)) (exec (.nakReceive i ack) t) :=
  (ite h h.linkNak).onPort

theorem State.Keeps.retireLane {i k} (h : s.Keeps t) : s.Keeps (t.retireLane i k) :=
  h.raise.logState.wf

theorem State.Keeps.exec_retrainDone {i ok0 ok1} (h : s.Keeps t) :
    Answers s (present t (.retrainDone i ok0 ok1)) (exec (.retrainDone i ok0 ok1) t) := by
  show Answers s _ (execRetrainDone i ok0 ok1 t)
  unfold execRetrainDone
  refine onPort ?_
  refine ite h ?_
  extract_lets _ _ _ _ u1 u2 u3 u4 u5 _
  have h1 : s.Keeps u1 := h.setPort
  have h2 : s.Keeps u2 := h1.raise
  have h3 : s.Keeps u3 := h1.inc
  have h4 : s.Keeps u4 := ite h3.retireLane h3
  have h5 : s.Keeps u5 := ite h4.retireLane h4
  exact ite (ite h2.globalState (ite h2.portUp.pumpAll h2.enterIdent)) (ite h5.portState (ite h5 h5.wf).inc)

theorem State.Keeps.exec_ethernetLinkChange {i up} (h : s.Keeps t) :
    Answers s (present t (.ethernetLinkChange i up)) (exec (.ethernetLinkChange i up) t) :=
  (ite h (ite h.setPort h.setPort.globalState)).onPort

/-! ### Verifying and writing operands (Machine/Operands.lean) -/

theorem State.Keeps.eccBlock {p a es} (h : s.Keeps t) : s.Keeps (t.eccBlock p a es).1 := by
  unfold State.eccBlock
  split
  · exact h.tileEcc
  · exact h

theorem State.Keeps.verify {p unit as es handle} (h : s.Keeps t) : s.Keeps (t.verify p unit as es handle).1 := by
  induction as generalizing t with
  | nil => exact h
  | cons x l ih => exact ite_fst h.busErr (ite_fst h (ite_fst h.eccBlock (ite_fst (ih h.eccBlock) h.eccBlock.checkFailRec)))

theorem State.Keeps.readList {unit o rcs es} (h : s.Keeps t) : (t.readList unit o rcs es).Kept s := by
  unfold State.readList
  split
  · exact h
  · exact ReadAns.Kept.ite h (ReadAns.Kept.ite h.verify h.verify.addf.addf)

theorem State.Keeps.writeSet {p a} (h : s.Keeps t) : s.Keeps (t.writeSet p a).1 := by
  induction a generalizing t with
  | nil => exact h
  | cons x l ih => exact ih h.writeBlock

theorem State.Keeps.build {unit o es ecc} (h : s.Keeps t) : (t.build unit o es ecc).Kept s := by
  unfold State.build
  refine BuildAns.Kept.ite h ?_
  extract_lets _ _
  refine BuildAns.Kept.ite h ?_
  split
  next u1 _ e1 =>
    have h1 : s.Keeps u1 := h.verify.of_fst e1
    refine BuildAns.Kept.ite h1 ?_
    refine BuildAns.Kept.ite h ?_
    split
    next u2 _ e2 =>
      have h2 : s.Keeps u2 := h1.verify.of_fst e2
      refine BuildAns.Kept.ite h2 ?_
      split
      · exact h2.busErr
      · exact BuildAns.Kept.ite h2 h2.addf.addf

/-! ### Partition resets (Machine/Reset.lean) -/

theorem State.Keeps.configCores {p a} (h : s.Keeps t) : s.Keeps (t.configCores p a) := by
  induction a with
  | zero => exact h
  | succ n ih => exact ih.wf.wf.wf.wf

theorem State.Keeps.cfgField {f lo hi v} (h : s.Keeps t) : s.Keeps (t.cfgField f lo hi v) :=
  ite h.wf h

theorem State.Keeps.configChans {p a} (h : s.Keeps t) : s.Keeps (t.configChans p a) := by
  induction a with
  | zero => exact h
  | succ n ih => exact ih.cfgField.foldl fun _ _ h1 => h1.cfgField.wf.wf

theorem State.Keeps.setEnables {p m} (h : s.Keeps t) : s.Keeps (t.setEnables p m) :=
  h.wf.wf.wf.wf.wf.wf.wf.wf.wf

theorem State.Keeps.configure {p} (h : s.Keeps t) : s.Keeps (t.configure p) := by
  unfold State.configure
  extract_lets _ _ u1 u2 u3 u4 u5 u6 u7 u8 u9 u10 u11 u12
  have h1 : s.Keeps u1 := h.wf.wf.wf.wf
  have h2 : s.Keeps u2 := h1.wf.wf
  have h3 : s.Keeps u3 := h2.wf.wf.wf
  have h4 : s.Keeps u4 := h3.setEnables
  have h5 : s.Keeps u5 := h4.configCores.configChans
  have h6 : s.Keeps u6 := h5.cfgField
  have h7 : s.Keeps u7 := h6.wf.cfgField
  have h8 : s.Keeps u8 := h7.wf.wf.cfgField
  have h9 : s.Keeps u9 := h8.wf.wf.wf
  have h10 : s.Keeps u10 := h9.wf.wf.wf
  have h11 : s.Keeps u11 := h10.wf.wf.wf
  have h12 : s.Keeps u12 := ite h11 h11.wf
  exact h12.setEnables.wf

theorem State.Keeps.quiesce {p} (h : s.Keeps t) : s.Keeps (t.quiesce p) :=
  h.stopPartition.foldl fun _ _ h1 => h1.setPc

/-- A reset drops the partition's registers and its scratch memory; what is left stays in order. -/
theorem State.Keeps.clearPartition {p retenant} (h : s.Keeps t) : s.Keeps (t.clearPartition p retenant) := by
  have h1 : s.Keeps ((t.colQueues p).foldl (fun u q => u.colClose p q) t) := h.foldl fun _ _ h1 => h1.colClose
  unfold State.clearPartition
  extract_lets _ u2 _
  have h2 : s.Keeps u2 := h1.freeCtxs.wf
  refine ⟨fun hs => ?_, h2.pending, h2.fuse, h2.freeCtr⟩
  obtain ⟨hm, hf⟩ := h2.inv hs
  dsimp only [State.Inv]
  exact ⟨Memory.wf_drop _ hm, Tbl.sortedFrom_drop _ hf⟩

/-- A stage of zeroing drops bytes of the stacked memory; the bytes that stay are in order. -/
theorem State.Keeps.zeroStage {p k} (h : s.Keeps t) : s.Keeps (t.zeroStage p k) := by
  unfold State.zeroStage
  refine ⟨fun hs => ?_, h.pending, h.fuse, h.freeCtr⟩
  obtain ⟨hm, hf⟩ := h.inv hs
  dsimp only [State.Inv]
  exact ⟨Memory.wf_drop _ hm, hf⟩

theorem State.Keeps.drawKey {p} (h : s.Keeps t) : s.KeepsOpt (t.drawKey p) :=
  ite_opt h.drawn.inc.there none_opt

theorem State.Keeps.endClaim {p} (h : s.Keeps t) : s.Keeps (t.endClaim p) :=
  h.setTen.setMember.wf.wf

theorem State.Keeps.enterStage {p r stage} (h : s.Keeps t) : s.Keeps (t.enterStage p r stage) :=
  h.setReset.wf

theorem State.Keeps.mgmtDone {k} (h : s.Keeps t) : s.Keeps (t.mgmtDone k) :=
  ite h.upd.wf.wf h

theorem State.Keeps.endFieldTest {p} (h : s.Keeps t) : s.Keeps (t.endFieldTest p) :=
  ite h.setFt.wf.wf.wf.wf.wf.mgmtDone h

theorem State.Keeps.beginReset {p kind cause} (h : s.Keeps t) : s.Keeps (t.beginReset p kind cause) :=
  h.startWave.endFieldTest.setReset.wf.wf.wf.wf.wf.inc

theorem State.Keeps.resetRequest {p kind} (h : s.Keeps t) : s.Keeps (t.resetRequest p kind) := by
  unfold State.resetRequest
  refine ite h ?_
  split
  · exact ite h.setReset.wf.wf h
  · exact h.beginReset

theorem State.Keeps.enterZero {p r} (h : s.Keeps t) : s.Keeps (t.enterZero p r) := by
  unfold State.enterZero
  split
  · exact h
  · next u1 e1 =>
      have h1 : s.Keeps u1 := h.drawKey _ e1
      exact h1.endClaim.enterStage.wf

theorem State.Keeps.enterConfig {p r} (h : s.Keeps t) : s.Keeps (t.enterConfig p r) :=
  h.enterStage.wf

theorem State.Keeps.finishReset {p r} (h : s.Keeps t) : s.Keeps (t.finishReset p r) := by
  unfold State.finishReset
  extract_lets u1 _ u2
  have h1 : s.Keeps u1 := h.configure.setReset.mgmtDone
  have h2 : s.Keeps u2 := h1.setTen
  split
  · exact h2.wf.wf
  · split
    · exact h2.wf.wf
    · exact ite h2.setFt.wf h2.wf

theorem State.Keeps.stageDone {p} (h : s.Keeps t) : s.Keeps (t.stageDone p) := by
  unfold State.stageDone
  split
  · exact h
  · refine ite h ?_
    split
    · exact h.quiesce.enterStage
    · exact ite h.clearPartition.enterZero h.clearPartition.enterConfig
    · exact h.zeroStage.enterStage
    · exact h.zeroStage.enterStage
    · exact h.zeroStage.enterStage
    · exact h.zeroStage.enterConfig
    · exact ite h.clearPartition.enterZero h.finishReset

theorem State.Keeps.wdtStat {p kind unit} (h : s.Keeps t) : s.Keeps (t.wdtStat p kind unit) :=
  h.wf.wf.inc

theorem State.Keeps.askPowerCycle (h : s.Keeps t) : s.Keeps t.askPowerCycle :=
  h.upd.platform

theorem State.Keeps.abortJobs {unit} (h : s.Keeps t) : s.Keeps (t.abortJobs unit) :=
  h.foldl fun _ _ h1 => h1.startWave

theorem State.Keeps.escalate {p r} (h : s.Keeps t) : s.Keeps (t.escalate p r) :=
  h.raise.abortJobs.flushRecords.logState.wf.wf.setReset.askPowerCycle

theorem State.Keeps.askDie {d} (h : s.Keeps t) : s.Keeps (t.askDie d) :=
  ite h.upd.inc h.upd

theorem State.Keeps.stageExpired {p} (h : s.Keeps t) : s.Keeps (t.stageExpired p) := by
  unfold State.stageExpired
  split
  · exact h
  · exact ite h (ite h.wdtStat.raise.escalate h.wdtStat.raise.setReset.wf.inc.wf.askDie)

theorem State.Keeps.coldDone {p} (h : s.Keeps t) : s.Keeps (t.coldDone p) := by
  unfold State.coldDone
  split
  · exact h
  · exact ite h.enterStage h

theorem State.Keeps.coldExpired {p} (h : s.Keeps t) : s.Keeps (t.coldExpired p) := by
  unfold State.coldExpired
  split
  · exact h
  · exact ite h.wdtStat.escalate h

theorem State.Keeps.leaveOff {p} (h : s.Keeps t) : s.Keeps (t.leaveOff p) := by
  unfold State.leaveOff
  refine ite h ?_
  split
  · exact h.wf
  · exact ite h.setReset.wf.wf h

theorem State.Keeps.leaveOffs (h : s.Keeps t) : s.Keeps t.leaveOffs :=
  h.foldl fun _ _ h1 => h1.leaveOff

theorem State.Keeps.writeEnables {p v mask} (h : s.Keeps t) : s.Keeps (t.writeEnables p v mask).1 :=
  h.setEnables

theorem State.Keeps.onPart {p} (h : s.Keeps t) : Answers s (decide (p < 16)) (Machine.onPart p t) := h.answerIf (by simp)

theorem State.Keeps.onCore {t0 : State} {p c} (h : s.Keeps t) :
    Answers s (decide (p < 16) && decide (c < t0.lcores p)) (Machine.onCore t0 p c t) :=
  h.answerIf (by simp)

theorem State.Keeps.exec_clockEnableWrite {a p v} (h : s.Keeps t) :
    Answers s (present t (.clockEnableWrite a p v)) (exec (.clockEnableWrite a p v) t) :=
  (ite h h.writeEnables.busErrIf).onPart

theorem State.Keeps.exec_partitionResetWarm {a p} (h : s.Keeps t) :
    Answers s (present t (.partitionResetWarm a p)) (exec (.partitionResetWarm a p) t) :=
  (ite h h.resetRequest).onPart

theorem State.Keeps.exec_partitionResetRetenant {a p} (h : s.Keeps t) :
    Answers s (present t (.partitionResetRetenant a p)) (exec (.partitionResetRetenant a p) t) := by
  show Answers s _ (execPartitionResetRetenant a p t)
  unfold execPartitionResetRetenant
  refine onPart ?_
  split
  · exact h
  · exact h.busErr
  · exact h.resetRequest

theorem State.Keeps.exec_resetStageDone {p} (h : s.Keeps t) :
    Answers s (present t (.resetStageDone p)) (exec (.resetStageDone p) t) :=
  h.stageDone.onPart

theorem State.Keeps.exec_resetStageWatchdog {p} (h : s.Keeps t) :
    Answers s (present t (.resetStageWatchdog p)) (exec (.resetStageWatchdog p) t) :=
  h.stageExpired.onPart

theorem State.Keeps.exec_coldResetDone {p} (h : s.Keeps t) : Answers s (present t (.coldResetDone p)) (exec (.coldResetDone p) t) :=
  h.coldDone.onPart

theorem State.Keeps.exec_coldResetWatchdog {p} (h : s.Keeps t) :
    Answers s (present t (.coldResetWatchdog p)) (exec (.coldResetWatchdog p) t) :=
  h.coldExpired.onPart

/-! ### How the command queues move on (Machine/Queues.lean) -/

theorem State.Keeps.settleQueue {p c e a} (h : s.Keeps t) : s.Keeps (t.settleQueue p c e a) := by
  induction a generalizing t with
  | zero => exact h
  | succ n ih =>
    unfold State.settleQueue
    split
    · exact h
    · refine ite h ?_
      split
      · exact h
      · extract_lets u1
        have h1 : s.Keeps u1 := by
          unfold u1
          split
          · exact h.wf
          · exact h
        exact ih h1.complete

theorem State.Keeps.govRequest {r} (h : s.Keeps t) : s.Keeps (t.govRequest r) :=
  h.upd

theorem State.Keeps.askWake {p c} (h : s.Keeps t) : s.Keeps (t.askWake p c) :=
  ite (ite h.govRequest h).govRequest (ite h.govRequest h)

theorem State.Keeps.noteSwitch {p c} (h : s.Keeps t) : s.Keeps (t.noteSwitch p c) := by
  unfold State.noteSwitch
  split
  · split
    · exact ite h.start.wf h
    · exact h
  · exact h

theorem State.Keeps.settle {p c} (h : s.Keeps t) : s.Keeps (t.settle p c) :=
  h.settleQueue.settleQueue.settleQueue.noteSwitch.askWake

theorem State.Keeps.finish {p c e sq st} (h : s.Keeps t) : s.Keeps (t.finish p c e sq st) :=
  ite h.complete.settle.startWave h.complete.settle

theorem State.Keeps.settleAll {p a} (h : s.Keeps t) : s.Keeps (t.settleAll p a) := by
  induction a with
  | zero => exact h
  | succ n ih => exact ih.settle

/-! ### The mover (Machine/Mover.lean) -/

theorem State.Keeps.putMover {p m} (h : s.Keeps t) : s.Keeps (t.putMover p m) :=
  h.setMover.wf

theorem State.Keeps.dropCopy {p c sq} (h : s.Keeps t) : s.Keeps (t.dropCopy p c sq) :=
  h.putMover

theorem State.Keeps.endCopy {p c sq st} (h : s.Keeps t) : s.Keeps (t.endCopy p c sq st) :=
  h.dropCopy.finish

theorem State.Keeps.copyProgress {p c sq more} (h : s.Keeps t) : s.Keeps (t.copyProgress p c sq more) := by
  unfold State.copyProgress
  extract_lets _
  split
  · exact h
  · exact ite h.endCopy h.putMover

theorem State.Keeps.cutCopy {p x segs} (h : s.Keeps t) : s.Keeps (t.cutCopy p x segs) :=
  ite h.endCopy h.putMover

theorem State.Keeps.holdCopy {p x} (h : s.Keeps t) : s.Keeps (t.holdCopy p x) :=
  h.putMover

theorem State.Keeps.openPosted {idx p c sq ws ddesc} (h : s.Keeps t) : s.Keeps (t.openPosted idx p c sq ws ddesc) :=
  ite h.endCopy h.setAux.setCtx.queueGrant

theorem State.Keeps.closePosted {idx} (h : s.Keeps t) : s.Keeps (t.closePosted idx) := by
  unfold State.closePosted
  extract_lets _ _ _ u1
  have h1 : s.Keeps u1 := h.setAux.setCtx
  split
  · exact h1
  · split
    · exact h1
    · exact h1.openPosted

theorem State.Keeps.serveSend {p c sq n granted} (h : s.Keeps t) : s.Keeps (t.serveSend p c sq n granted) := by
  unfold State.serveSend
  split
  · exact h
  · exact ite h.cutCopy h.inc.endCopy.queueCtl

theorem State.Keeps.startSend {p c sq idx ws es} (h : s.Keeps t) : s.Keeps (t.startSend p c sq idx ws es) := by
  unfold State.startSend
  extract_lets _ _ _ _
  refine ite h.finish ?_
  split
  next u1 _ e1 =>
    have h1 : s.Keeps u1 := h.verify.of_fst e1
    refine ite h1.finish ?_
    extract_lets u2 _ u3
    have h2 : s.Keeps u2 := h1.addf
    have h3 : s.Keeps u3 := h2.holdCopy
    refine ite h3.endCopy ?_
    split
    · exact h3.setAux.serveSend
    · exact h3.setAux

theorem State.Keeps.startReceive {p c sq idx ws} (h : s.Keeps t) : s.Keeps (t.startReceive p c sq idx ws) :=
  ite h.finish (ite h.addf.holdCopy.setAux h.addf.holdCopy.openPosted)

theorem State.Keeps.startLocal {p c sq ws es} (h : s.Keeps t) : s.Keeps (t.startLocal p c sq ws es) := by
  unfold State.startLocal
  extract_lets _ u1 _ _ u2 _
  have h1 : s.Keeps u1 := by
    unfold u1
    split
    · exact h.busErr
    · exact h
  have h2 : s.Keeps u2 := h1.addf
  exact ite h1.finish (ite h2.verify.finish (ite h1.finish h2.verify.cutCopy))

theorem State.Keeps.exec_moverCopy {p c sq es} (h : s.Keeps t) :
    Answers s (present t (.moverCopy p c sq es)) (exec (.moverCopy p c sq es) t) := by
  show Answers s _ (execMoverCopy p c sq es t)
  unfold execMoverCopy
  refine onCore ?_
  split
  · exact h
  · split
    · refine ite h ?_
      extract_lets _ u1
      have h1 : s.Keeps u1 := h.start
      exact (ite h1.finish (ite h1.startLocal (ite h1.finish (ite h1.finish (ite h1.startSend h1.startReceive))))).settle
    · exact h

theorem State.Keeps.takeChannel {p k r} (h : s.Keeps t) : s.Keeps (t.takeChannel p k r) :=
  h.putMover

theorem State.Keeps.takeTurn {p q} (h : s.Keeps t) : s.KeepsTurn (t.takeTurn p q) := by
  intro k u e
  obtain ⟨_, _, e⟩ := Option.map_eq_some_iff.mp e
  cases e
  exact h.setMover

theorem State.Keeps.readSegment {p x g es} (h : s.Keeps t) : (t.readSegment p x g es).Kept s := by
  unfold State.readSegment
  extract_lets _ _ _ _ _ _ _ _ _ _ _ _ _ _
  refine SegAns.Kept.ite (SegAns.Kept.ite trivial (SegAns.Kept.ite h.verify h.verify.addf)) ?_
  refine SegAns.Kept.ite trivial ?_
  split
  next u1 _ e1 =>
    have h1 : s.Keeps u1 := h.verify.of_fst e1
    refine SegAns.Kept.ite h1 ?_
    split
    next u2 _ e2 =>
      have h2 : s.Keeps u2 := h1.verify.of_fst e2
      refine SegAns.Kept.ite h2 ?_
      split
      · exact h2.busErr
      · exact SegAns.Kept.ite h2 h2.addf.addf

theorem State.Keeps.exec_moverSegmentStart {p es} (h : s.Keeps t) :
    Answers s (present t (.moverSegmentStart p es)) (exec (.moverSegmentStart p es) t) := by
  show Answers s _ (execMoverSegmentStart p es t)
  unfold execMoverSegmentStart
  refine onPart ?_
  split
  · split
    · exact h
    · split
      · exact h
      · split
        · exact h
        · next u1 _ e1 =>
            have h1 : s.Keeps u1 := h.readSegment.of_fail e1
            exact h1.endCopy
        · next u1 _ e1 =>
            have h1 : s.Keeps u1 := h.readSegment.of_ok e1
            exact h1.takeChannel
  · exact h

theorem State.Keeps.exec_moverSegmentDone {p k} (h : s.Keeps t) :
    Answers s (present t (.moverSegmentDone p k)) (exec (.moverSegmentDone p k) t) := by
  show Answers s _ (execMoverSegmentDone p k t)
  unfold execMoverSegmentDone
  refine onPart ?_
  split
  · exact h
  · extract_lets _ _ u1 u2
    have h1 : s.Keeps u1 := h.putMover
    have h2 : s.Keeps u2 := h1.addf
    split
    · exact h1
    · exact ite h2.queueTx.copyProgress (ite h1.writeSet.addf.addf.addf.copyProgress h1.writeSet.addf.addf.addf.endCopy)

/-! ### The Zenrix transport (Machine/Transport.lean) -/

theorem State.Keeps.endCopies {p st l} (h : s.Keeps t) : s.Keeps (t.endCopies p st l) :=
  h.foldl fun _ _ h1 => ite h1.endCopy h1

theorem State.Keeps.endOps {p idx st} (h : s.Keeps t) : s.Keeps (t.endOps p idx st) :=
  h.foldl fun _ _ h1 => h1.foldl fun _ _ h2 => ite h2.colEnd h2

theorem State.Keeps.endUnits {idx st} (h : s.Keeps t) : s.Keeps (t.endUnits idx st) := by
  unfold State.endUnits
  extract_lets _ _ u1 u2 _ u3 _ u4
  have h1 : s.Keeps u1 := h.endOps
  have h2 : s.Keeps u2 := ite h1.failRound h1
  have h3 : s.Keeps u3 := ite h2.setStrata h2
  have h4 : s.Keeps u4 := ite h3.setStrata h3
  exact h4.hostDone

theorem State.Keeps.endUsers {idx st} (h : s.Keeps t) : s.Keeps (t.endUsers idx st) :=
  h.endCopies.endUnits

theorem State.Keeps.closeCtx {idx st} (h : s.Keeps t) : s.Keeps (t.closeCtx idx st) :=
  h.endUsers.dropParked.setCtx.setAux

theorem State.Keeps.sendMsg {idx r m} (h : s.Keeps t) : s.Keeps (t.sendMsg idx r m) :=
  h.setCtx.sendTo.setAux

theorem State.Keeps.popTx {idx} (h : s.Keeps t) : s.Keeps (t.popTx idx) :=
  h.setAux

theorem State.Keeps.parkMsg {p idx r} (h : s.Keeps t) : s.Keeps (t.parkMsg p idx r) :=
  ite h.setPark.wf h.setPark.wf.inc

theorem State.Keeps.failSend {p idx r} (h : s.Keeps t) : s.Keeps (t.failSend p idx r) := by
  unfold State.failSend
  split
  · exact h.setAux.endCopies
  · exact h.endUnits

theorem State.Keeps.trySend {idx r} (h : s.Keeps t) : s.KeepsOpt (t.trySend idx r) := by
  unfold State.trySend
  extract_lets _
  refine ite_opt none_opt ?_
  split
  · exact h.sendMsg.there
  · exact h.sendMsg.there
  · exact ite_opt none_opt h.parkMsg.there
  · exact h.failSend.there

theorem State.Keeps.exec_messageSend {idx} (h : s.Keeps t) :
    Answers s (present t (.messageSend idx)) (exec (.messageSend idx) t) := by
  show Answers s _ (execMessageSend idx t)
  unfold execMessageSend
  refine answerUnless ?_ decide_lt_iff
  extract_lets _ u1
  have h1 : s.Keeps u1 := h.popTx.inc
  split
  · exact h
  · refine ite h ?_
    refine ite h ?_
    refine ite ?_ (ite h.popTx (getD h.popTx.trySend h))
    split
    · exact h1.copyProgress
    · exact h1

theorem State.Keeps.requeue {idx r} (h : s.Keeps t) : s.Keeps (t.requeue idx r) :=
  h.setAux

theorem State.Keeps.unpark {p} (h : s.Keeps t) : s.Keeps (t.unpark p) :=
  h.setPark.wf.foldl fun _ _ h1 => ite h1.requeue (getD h1.trySend h1.requeue)

theorem State.Keeps.swapRoutes {p} (h : s.Keeps t) : s.Keeps (t.swapRoutes p) :=
  ite h h.wf.wf.inc.unpark

theorem State.Keeps.tagFailure {idx src} (h : s.Keeps t) : s.Keeps (t.tagFailure idx src) :=
  ite (ite h.setCtx.inc h.setCtx).raise.setAux.closeCtx (ite h.setCtx.inc h.setCtx).raise.setAux

theorem State.Keeps.staleMsg {idx} (h : s.Keeps t) : s.Keeps (t.staleMsg idx) :=
  ite h.setCtx.inc h.setCtx

theorem State.Keeps.admitMsg {m} (h : s.Keeps t) : s.Keeps (t.admitMsg m).1 :=
  ite_fst h.inc (ite_fst h (ite_fst h.tagFailure (ite_fst h.staleMsg (ite_fst h h))))

theorem State.Keeps.placeBlocks {p a} (h : s.Keeps t) : s.Keeps (t.placeBlocks p a).1 := by
  induction a generalizing t with
  | nil => exact h
  | cons x l ih => exact ih (ite_fst h (ite_fst h.busErr h.writeBlock))

theorem State.Keeps.ackUp {idx m} (h : s.Keeps t) : s.Keeps (t.ackUp idx m) :=
  ite h h.sendTo

theorem State.Keeps.ringRecord {p r} (h : s.Keeps t) : s.Keeps (t.ringRecord p r) :=
  ite h (ite h.wf.raise h.setStrata.wf)

theorem State.Keeps.putHeld {p f} (h : s.Keeps t) : s.Keeps (t.putHeld p f).1 :=
  ite_fst h.writeBlock h.checkFailRec

theorem State.Keeps.heldState {p st} (h : s.Keeps t) : s.Keeps (t.heldState p st) := by
  rw [State.heldState]
  split
  next u1 _ e1 =>
    have h1 : s.Keeps u1 := h.putHeld.of_fst e1
    exact ite h1.wf h1

theorem State.Keeps.heldArrived {idx} (h : s.Keeps t) : s.Keeps (t.heldArrived idx) := by
  unfold State.heldArrived
  extract_lets _ _
  split
  · exact ite h.heldState.setStrata h
  · exact h

theorem State.Keeps.afterPlace {idx m addrs held ok} (h : s.Keeps t) : s.Keeps (t.afterPlace idx m addrs held ok) := by
  unfold State.afterPlace
  extract_lets _ _ _ u1 u2 _
  have h1 : s.Keeps u1 := ite h.setStrata h
  have h2 : s.Keeps u2 := ite h.ringRecord h
  refine ite h1.heldArrived.queueGrant ?_
  refine ite h.queueGrant ?_
  split
  · exact ite h2.setAux h2
  · exact ite h2.closePosted.endCopies (ite h2.endCopies.closePosted h2.setAux)

theorem State.Keeps.winViolation {idx} (h : s.Keeps t) : s.Keeps (t.winViolation idx) := by
  unfold State.winViolation
  extract_lets _ u1
  have h1 : s.Keeps u1 := (ite h.inc h).queueCtl
  split
  · exact h1.closePosted.endCopies
  · exact h1

theorem State.Keeps.arrive {m} (h : s.Keeps t) : s.Keeps (t.arrive m).1 :=
  ite_fst h.admitMsg (ite_fst h.admitMsg.ackUp (ite_fst h.admitMsg h.admitMsg))

theorem State.Keeps.markIn {idx k} (h : s.Keeps t) : s.Keeps (t.markIn idx k) :=
  h.setCtx

theorem State.Keeps.intoBox {idx k m} (h : s.Keeps t) : s.Keeps (t.intoBox idx k m) :=
  ite h.winViolation h.setAux.markIn.ackUp

theorem State.Keeps.placeData {idx k m} (h : s.Keeps t) : s.Keeps (t.placeData idx k m) := by
  unfold State.placeData
  split
  · exact h.winViolation
  · exact h.placeBlocks.markIn.afterPlace.ackUp

theorem State.Keeps.takeGrant {idx blocks} (h : s.Keeps t) : s.Keeps (t.takeGrant idx blocks) := by
  unfold State.takeGrant
  extract_lets _ _ _ u1
  have h1 : s.Keeps u1 := h.setCtx
  split
  · exact (ite h.setAux.setCtx h.setAux).serveSend
  · exact ite h1 h1.setAux

theorem State.Keeps.takeClose {idx} (h : s.Keeps t) : s.Keeps (t.takeClose idx) := by
  unfold State.takeClose
  extract_lets _ u1 _
  have h1 : s.Keeps u1 := by
    unfold u1
    split
    · exact h.closePosted.endCopies
    · exact h
  exact h1.endCopies.endUnits

theorem State.Keeps.exec_grantReceive {m} (h : s.Keeps t) : Answers s (present t (.grantReceive m)) (exec (.grantReceive m) t) := by
  show Answers s _ (execGrantReceive m t)
  unfold execGrantReceive
  refine next ?_
  extract_lets _
  refine ite h ?_
  split
  · next u1 _ e1 =>
      have h1 : s.Keeps u1 := h.arrive.of_fst e1
      exact h1.markIn.takeGrant.ackUp
  · next u1 e1 =>
      have h1 : s.Keeps u1 := h.arrive.of_fst e1
      exact h1

theorem State.Keeps.takeAck {idx seq} (h : s.Keeps t) : s.Keeps (t.takeAck idx seq) := by
  unfold State.takeAck
  extract_lets _ _ _ _ _ u1
  have h1 : s.Keeps u1 := h.setAux.setCtx
  refine h1.foldl fun _ _ h2 => ?_
  split
  · exact h2.copyProgress
  · exact h2

theorem State.Keeps.exec_ackReceive {m} (h : s.Keeps t) : Answers s (present t (.ackReceive m)) (exec (.ackReceive m) t) := by
  show Answers s _ (execAckReceive m t)
  unfold execAckReceive
  refine next ?_
  refine ite h ?_
  split
  · next u1 e1 =>
      have h1 : s.Keeps u1 := h.admitMsg.of_fst e1
      exact h1.takeAck
  · next u1 e1 =>
      have h1 : s.Keeps u1 := h.admitMsg.of_fst e1
      exact h1

theorem State.Keeps.sendAgain {idx u} (h : s.Keeps t) : s.Keeps (t.sendAgain idx u).1 := by
  unfold State.sendAgain
  split
  · exact h.sendOn
  · exact h.sendTo

theorem State.Keeps.exec_retransmitTimeout {idx seq} (h : s.Keeps t) :
    Answers s (present t (.retransmitTimeout idx seq)) (exec (.retransmitTimeout idx seq) t) := by
  show Answers s _ (execRetransmitTimeout idx seq t)
  unfold execRetransmitTimeout
  refine answerUnless ?_ decide_lt_iff
  split
  · exact h
  · exact (ite h.inc h).sendAgain.setAux

theorem State.Keeps.exec_messageAckTimeout {idx} (h : s.Keeps t) :
    Answers s (present t (.messageAckTimeout idx)) (exec (.messageAckTimeout idx) t) :=
  (ite h (ite h.closeCtx.raise.startWave h.closeCtx.raise.abortJobs)).answerUnless decide_lt_iff

/-! ### The dispatch unit (Machine/Route.lean) -/

theorem State.Keeps.swapTables {p} (h : s.Keeps t) : s.Keeps (t.swapTables p) :=
  ite h h.wf.wf.inc

theorem State.Keeps.readRow {p i r} (h : s.Keeps t) : (t.readRow p i r).Kept s :=
  h.readList

theorem State.Keeps.writeRow {p i r es} (h : s.Keeps t) : s.Keeps (t.writeRow p i r es).1 := by
  unfold State.writeRow
  extract_lets _
  split
  · next u1 _ e1 =>
      have h1 : s.Keeps u1 := h.build.of_fail e1
      exact h1
  · next u1 _ e1 =>
      have h1 : s.Keeps u1 := h.build.of_ok e1
      split
      · exact h1.busErr
      · exact h1.writeSet

theorem State.Keeps.mergeBytes {p a n bs} (h : s.Keeps t) : s.Keeps (t.mergeBytes p a n bs).1 := by
  induction n generalizing t a bs with
  | zero => exact h
  | succ n ih =>
    unfold State.mergeBytes
    refine ite_fst h (ite_fst h.busErr (ite_fst h (ite_fst h.checkFailRec ?_)))
    extract_lets
    split
    next u _ e =>
      have h1 : s.Keeps u := h.mergeWrite.of_fst e
      exact ite_fst (ih h1) h1

theorem State.Keeps.writeMeta {p ws slot bs} (h : s.Keeps t) : s.Keeps (t.writeMeta p ws slot bs).1 :=
  h.mergeBytes

theorem State.Keeps.sendMarkers {p kind} (h : s.Keeps t) : s.Keeps (t.sendMarkers p kind) := by
  unfold State.sendMarkers
  exact ite h.failRound (h.foldl fun _ _ h1 => h1.queueTx)

theorem State.Keeps.stageToken {p src m} (h : s.Keeps t) : s.KeepsOpt (t.stageToken p src m) := by
  unfold State.stageToken
  refine ite_opt h.there ?_
  split
  · exact h.there
  · extract_lets _ _
    refine map_opt fun _ => ?_
    split
    · extract_lets _
      refine ite (ite h.failRound h) ?_
      split
      next u2 _ e2 =>
        have h2 : s.Keeps u2 := h.mergeBytes.of_fst e2
        exact ite (ite h2.failRound h2) h2.setDisp

theorem State.Keeps.stagedRow {p t2} (h : s.Keeps t) : s.Keeps (t.stagedRow p t2).1 :=
  h.verify

theorem State.Keeps.fillSlots {p ws f3 a} (h : s.Keeps t) : s.Keeps (t.fillSlots p ws f3 a).1 := by
  induction a generalizing t f3 with
  | zero => exact h
  | succ n ih =>
    unfold State.fillSlots
    split
    next u1 _ e1 =>
      have h1 : s.Keeps u1 := h.writeRow.of_fst e1
      refine ite_fst h1 ?_
      split
      next u2 _ e2 =>
        have h2 : s.Keeps u2 := h1.writeMeta.of_fst e2
        exact ite_fst h2 (ih h2)

theorem State.Keeps.finishHosts {p a} (h : s.Keeps t) : s.Keeps (t.finishHosts p a).1 := by
  induction a generalizing t with
  | nil => exact h
  | cons x l ih => exact ite_fst (ih h) (ite_fst h.fillSlots (ih h.fillSlots))

theorem State.Keeps.recvProgress {p} (h : s.Keeps t) : s.Keeps (t.recvProgress p) := by
  unfold State.recvProgress
  refine ite h ?_
  extract_lets _ _ u1
  have h1 : s.Keeps u1 := ite h.sendMarkers.wf h
  exact ite h1 (ite h1.finishHosts.failRound (ite h1.finishHosts.setDisp.wf.wf h1.finishHosts.setDisp))

theorem State.Keeps.noteEnd {p src} (h : s.Keeps t) : s.Keeps (t.noteEnd p src) :=
  h.setDisp

theorem State.Keeps.closeReturn {p} (h : s.Keeps t) : s.Keeps (t.closeReturn p) :=
  ite (ite_fst h (h.foldl_fst fun _ _ h1 => ite_fst h1 h1.writeRow)).failRound
    (ite_fst h (h.foldl_fst fun _ _ h1 => ite_fst h1 h1.writeRow)).wf

theorem State.Keeps.retProgress {p} (h : s.Keeps t) : s.Keeps (t.retProgress p) :=
  ite h.closeReturn h

theorem State.Keeps.noteRetEnd {p src} (h : s.Keeps t) : s.Keeps (t.noteRetEnd p src) :=
  ite h h.setDisp

theorem State.Keeps.takeRow {p m} (h : s.Keeps t) : s.Keeps (t.takeRow p m) := by
  unfold State.takeRow
  extract_lets _ _ _
  split
  · exact h
  · exact ite (ite_fst h (ite_fst h.writeRow h)).failRound (ite_fst h (ite_fst h.writeRow h)).setDisp

theorem State.Keeps.takeToken {p src ret m} (h : s.Keeps t) : s.KeepsOpt (t.takeToken p src ret m) :=
  ite_opt (ite_opt h.takeRow.there none_opt) h.stageToken

theorem State.Keeps.takePart {p idx t3} (h : s.Keeps t) : s.KeepsOpt (t.takePart p idx t3) :=
  ite_opt (ite h.inc h).there (ite_opt h.setAux.there (h.takeToken.map fun _ h1 => h1.setAux))

theorem State.Keeps.takeMarker {p idx m} (h : s.Keeps t) : s.KeepsOpt (t.takeMarker p idx m) := by
  unfold State.takeMarker
  extract_lets _ _
  refine ite_opt h.inc.there ?_
  refine ite_opt none_opt ?_
  split
  · exact ite_opt h.noteRetEnd.retProgress.there none_opt
  · exact (ite h h.setDisp.recvProgress).there
  · exact (ite h.noteEnd.recvProgress h).there

theorem State.Keeps.badPart {p idx b w} (h : s.Keeps t) : s.Keeps (t.badPart p idx b w) :=
  ite h.raise.failRound h.raise

theorem State.Keeps.takeItem {p idx m} (h : s.Keeps t) : s.KeepsOpt (t.takeItem p idx m) := by
  unfold State.takeItem
  refine ite_opt h.takeMarker ?_
  split
  · exact h.badPart.there
  · exact h.takePart

theorem State.Keeps.drainBox {p idx a} (h : s.Keeps t) : s.Keeps (t.drainBox p idx a) := by
  induction a generalizing t with
  | zero => exact h
  | succ n ih =>
    unfold State.drainBox
    split
    · exact h
    · refine ite h ?_
      split
      · exact h
      · next u1 e1 =>
          have h1 : s.Keeps u1 := h.takeItem _ e1
          exact ih (ite h1.setAux h1.setAux.queueGrant)

theorem State.Keeps.drainAll {p} (h : s.Keeps t) : s.Keeps (t.drainAll p) :=
  h.foldl fun _ _ h1 => h1.drainBox

theorem State.Keeps.boxMessage {m} (h : s.Keeps t) : s.Keeps (t.boxMessage m) := by
  unfold State.boxMessage
  extract_lets _
  split
  · next u1 e1 =>
      have h1 : s.Keeps u1 := h.arrive.of_fst e1
      exact h1
  · next u1 _ e1 =>
      have h1 : s.Keeps u1 := h.arrive.of_fst e1
      exact (ite h1.ringRecord h1).intoBox.drainBox

theorem State.Keeps.openRound {p} (h : s.Keeps t) : s.Keeps (t.openRound p) := by
  unfold State.openRound
  extract_lets _ _ _ _ _ u1 u2 u3
  have h1 : s.Keeps u1 := h.wf.setDisp
  have h2 : s.Keeps u2 := h1.addf
  have h3 : s.Keeps u3 := h2.wf
  refine ite h3.failRound ?_
  split
  · next u4 _ e4 =>
      have h4 : s.Keeps u4 := h3.readList.of_fail e4
      exact h4.failRound
  · next u4 _ e4 =>
      have h4 : s.Keeps u4 := h3.readList.of_ok e4
      exact ite h4.failRound h4.setDisp.wf.recvProgress.drainAll

theorem State.Keeps.exec_dispatchRoundOpen {a p} (h : s.Keeps t) :
    Answers s (present t (.dispatchRoundOpen a p)) (exec (.dispatchRoundOpen a p) t) :=
  (ite h (ite h.busErr h.openRound)).onPart

theorem State.Keeps.endSend {p} (h : s.Keeps t) : s.Keeps (t.endSend p) :=
  h.sendMarkers.wf

theorem State.Keeps.sendChoice {p i e j} (h : s.Keeps t) : s.Keeps (t.sendChoice p i e j) := by
  unfold State.sendChoice
  extract_lets _ _
  split
  · exact h.failRound
  · refine ite h.failRound ?_
    refine ite h.failRound ?_
    split
    · next u1 _ e1 =>
        have h1 : s.Keeps u1 := h.readRow.of_fail e1
        exact h1.failRound
    · next u1 _ e1 =>
        have h1 : s.Keeps u1 := h.readRow.of_ok e1
        exact ite h1.queueTx.setDisp.endSend h1.queueTx.setDisp

theorem State.Keeps.exec_tokenSend {p} (h : s.Keeps t) : Answers s (present t (.tokenSend p)) (exec (.tokenSend p) t) := by
  refine onPart (ite h (ite h.endSend ?_))
  split
  · exact h
  split
  · next e => exact ite h (h.takeTurn _ _ e).sendChoice
  · exact h

theorem State.Keeps.dispMessage {p ok m} (h : s.Keeps t) : s.Keeps (t.dispMessage p ok m) :=
  ite h h.boxMessage

theorem State.Keeps.exec_tokenArrive {p m} (h : s.Keeps t) : Answers s (present t (.tokenArrive p m)) (exec (.tokenArrive p m) t) :=
  h.dispMessage.onPart

theorem State.Keeps.exec_endMarkerArrive {p m} (h : s.Keeps t) :
    Answers s (present t (.endMarkerArrive p m)) (exec (.endMarkerArrive p m) t) :=
  h.dispMessage.onPart

theorem State.Keeps.exec_spillEndMarkerArrive {p m} (h : s.Keeps t) :
    Answers s (present t (.spillEndMarkerArrive p m)) (exec (.spillEndMarkerArrive p m) t) :=
  h.dispMessage.onPart

theorem State.Keeps.exec_returnRowArrive {p m} (h : s.Keeps t) :
    Answers s (present t (.returnRowArrive p m)) (exec (.returnRowArrive p m) t) :=
  h.dispMessage.onPart

theorem State.Keeps.putHost {p i h3} (h : s.Keeps t) : s.Keeps (t.putHost p i h3) :=
  h.setDisp

theorem State.Keeps.unstage {p t2} (h : s.Keeps t) : s.Keeps (t.unstage p t2) :=
  h.setDisp

theorem State.Keeps.overflow {p h2 m primary} (h : s.Keeps t) : s.Keeps (t.overflow p h2 m primary) := by
  unfold State.overflow
  refine ite ?_ h.inc
  split
  · exact ite h.failRound h.queueTx.inc
  · exact h.failRound

theorem State.Keeps.fillSlot {p i h3 m} (h : s.Keeps t) : s.Keeps (t.fillSlot p i h3 m) := by
  unfold State.fillSlot
  extract_lets _ _
  split
  next u1 _ e1 =>
    have h1 : s.Keeps u1 := h.writeRow.of_fst e1
    refine ite h1.failRound ?_
    split
    next u2 _ e2 =>
      have h2 : s.Keeps u2 := h1.writeMeta.of_fst e2
      exact ite h2.failRound (ite h2.putHost.inc.ndet h2.putHost.inc).recvProgress

theorem State.Keeps.deliverToken {p i h3 t4 primary} (h : s.Keeps t) : s.Keeps (t.deliverToken p i h3 t4 primary) :=
  ite h.stagedRow.failRound (ite h.stagedRow.unstage.fillSlot h.stagedRow.unstage.overflow.recvProgress).drainAll

theorem State.Keeps.exec_tokenDeliver {p i} (h : s.Keeps t) : Answers s (present t (.tokenDeliver p i)) (exec (.tokenDeliver p i) t) := by
  refine onPart (ite h ?_)
  split
  · exact h
  split
  · next e => exact ite h (h.takeTurn _ _ e).deliverToken
  · exact h

theorem State.Keeps.returnSlots {p rid ws l} (h : s.Keeps t) : s.Keeps (t.returnSlots p rid ws l).1 := by
  induction l generalizing t with
  | nil => exact h
  | cons k l ih =>
    dsimp only [State.returnSlots]
    refine ite_fst h.verify ?_
    split
    · exact ih h.verify
    · split
      · next e => exact h.verify.readRow.of_fail e
      · next e =>
        split
        · exact h.verify.readRow.of_ok e
        · exact ih (h.verify.readRow.of_ok e).queueTx

theorem State.Keeps.returnAll {p rid a} (h : s.Keeps t) : s.Keeps (t.returnAll p rid a).1 := by
  induction a generalizing t with
  | nil => exact h
  | cons x l ih => exact ite_fst h (ite_fst h.returnSlots (ih h.returnSlots))

theorem State.Keeps.openReturn {p} (h : s.Keeps t) : s.Keeps (t.openReturn p) :=
  ite h.wf.failRound (ite h.wf.setDisp.returnAll.failRound h.wf.setDisp.returnAll.sendMarkers.retProgress.drainAll)

theorem State.Keeps.exec_returnRoundOpen {a p} (h : s.Keeps t) :
    Answers s (present t (.returnRoundOpen a p)) (exec (.returnRoundOpen a p) t) :=
  (ite h (ite h.busErr h.openReturn)).onPart

theorem State.Keeps.receive {m} (h : s.Keeps t) : s.Keeps (t.receive m) := by
  unfold State.receive
  extract_lets _
  refine ite h.boxMessage ?_
  split
  · exact h.exec_grantReceive.stateOr h
  · exact h.exec_ackReceive.stateOr h
  · split
    · next u1 _ e1 =>
        have h1 : s.Keeps u1 := h.arrive.of_fst e1
        exact h1.placeData
    · next u1 e1 =>
        have h1 : s.Keeps u1 := h.arrive.of_fst e1
        exact h1
  · split
    · next u1 _ e1 =>
        have h1 : s.Keeps u1 := h.arrive.of_fst e1
        exact h1.markIn.takeClose.ackUp
    · next u1 e1 =>
        have h1 : s.Keeps u1 := h.arrive.of_fst e1
        exact h1
  · exact h

theorem State.Keeps.exec_dataMessageReceive {m} (h : s.Keeps t) :
    Answers s (present t (.dataMessageReceive m)) (exec (.dataMessageReceive m) t) :=
  (ite h.receive h).next

theorem State.Keeps.exec_frameReceive {i fr} (h : s.Keeps t) :
    Answers s (present t (.frameReceive i fr)) (exec (.frameReceive i fr) t) := by
  show Answers s _ (execFrameReceive i fr t)
  unfold execFrameReceive
  refine onPort ?_
  refine ite h ?_
  split
  · exact ite h.receive h.inc
  · exact ite h.emit h.inc
  · exact h.inc

/-! ### Collectives (Machine/Collective.lean) -/

theorem State.Keeps.colSend {p q k at0 bs} (h : s.Keeps t) : s.Keeps (t.colSend p q k at0 bs) := by
  unfold State.colSend
  split
  · exact h
  · exact h.free.queueTx

theorem State.Keeps.contribute {p q t3 m} (h : s.Keeps t) : s.Keeps (t.contribute p q t3 m) :=
  ite h (h.foldl fun _ _ h1 => ite h1 h1.colSend)

theorem State.Keeps.sendStatus {p q sq m} (h : s.Keeps t) : s.Keeps (t.sendStatus p q sq m) :=
  ite h h.emit

theorem State.Keeps.colFail {p q o st} (h : s.Keeps t) : s.Keeps (t.colFail p q o st) :=
  (h.foldl fun _ _ h1 => h1.emit).colEnd

theorem State.Keeps.colStarted {p q sq ws} (h : s.Keeps t) : s.Keeps (t.colStarted p q sq ws) :=
  h.setColq

theorem State.Keeps.colBegin {p q sq ws} (h : s.Keeps t) : s.Keeps (t.colBegin p q sq ws) :=
  ite h.colStarted.colFail (ite h.colStarted.verify.colFail h.colStarted.verify.contribute.sendStatus)

theorem State.Keeps.colSweep {p q a} (h : s.Keeps t) : s.Keeps (t.colSweep p q a) := by
  induction a generalizing t with
  | zero => exact h
  | succ n ih =>
    unfold State.colSweep
    extract_lets _
    refine ite h ?_
    split
    · exact h
    · refine ite (ih h.colStarted.colFail) ?_
      split
      · exact ih h.checkFailRec.colStarted.colFail
      · exact ite (ih h.colBegin) h

theorem State.Keeps.colIssue {p q tail} (h : s.Keeps t) : s.Keeps (t.colIssue p q tail) :=
  h.setColq.wf

theorem State.Keeps.tailWrite {p q tail} (h : s.Keeps t) : s.Keeps (t.tailWrite p q tail) :=
  ite h.colIssue.colSweep (ite h.colIssue h.colIssue.setColq.colDrain)

theorem State.Keeps.exec_collectiveTailWrite {a p q tail} (h : s.Keeps t) :
    Answers s (present t (.collectiveTailWrite a p q tail)) (exec (.collectiveTailWrite a p q tail) t) :=
  (ite h (ite h.busErr h.tailWrite)).answerUnless decide_lt_and_iff

theorem State.Keeps.startKind {p q op} (h : s.Keeps t) : s.Keeps (t.startKind p q op) := by
  have ht {c : Prop} {_ : Decidable c} {q'} : s.KeepsTurn (if c then some (0, t) else t.takeTurn p q') := by
    split
    · rintro _ _ ⟨⟩
      exact h
    · exact h.takeTurn
  unfold State.startKind
  refine ite h ?_
  split
  · exact h
  · split
    · exact h
    · refine ite h ?_
      split
      · exact h
      · next e => exact (ht _ _ e).colBegin.colSweep

theorem State.Keeps.onQueue {p q} (h : s.Keeps t) : Answers s (decide (p < 16) && decide (q < 256)) (Machine.onQueue p q t) :=
  h.answerIf (by simp)

theorem State.Keeps.exec_allreduce {p q} (h : s.Keeps t) : Answers s (present t (.allreduce p q)) (exec (.allreduce p q) t) :=
  h.startKind.onQueue

theorem State.Keeps.exec_reduce {p q} (h : s.Keeps t) : Answers s (present t (.reduce p q)) (exec (.reduce p q) t) :=
  h.startKind.onQueue

theorem State.Keeps.exec_broadcast {p q} (h : s.Keeps t) : Answers s (present t (.broadcast p q)) (exec (.broadcast p q) t) :=
  h.startKind.onQueue

theorem State.Keeps.exec_reduceScatter {p q} (h : s.Keeps t) :
    Answers s (present t (.reduceScatter p q)) (exec (.reduceScatter p q) t) :=
  h.startKind.onQueue

theorem State.Keeps.exec_allgather {p q} (h : s.Keeps t) : Answers s (present t (.allgather p q)) (exec (.allgather p q) t) :=
  h.startKind.onQueue

theorem State.Keeps.exec_barrier {p q} (h : s.Keeps t) : Answers s (present t (.barrier p q)) (exec (.barrier p q) t) :=
  h.startKind.onQueue

theorem State.Keeps.inTaken {t1 m w c0 x} (h : s.Keeps t) : s.Keeps (t.inTaken t1 m w c0 x) := by
  unfold State.inTaken
  split
  · exact ite h h.setAux.queueGrant
  · exact h

theorem State.Keeps.addNode {p q sq x} (h : s.Keeps t) : s.Keeps (t.addNode p q sq x) :=
  h.setColq

theorem State.Keeps.passUp {p q sq t4 m x} (h : s.Keeps t) : s.Keeps (t.passUp p q sq t4 m x) :=
  ite h.addNode h.addNode.colSend

theorem State.Keeps.nodeUp {p q t3 o m lev b c k ins order res retry} (h : s.Keeps t) :
    s.Keeps (t.nodeUp p q t3 o m lev b c k ins order res retry) := by
  unfold State.nodeUp
  extract_lets _ _ _ _ _ _ _ _
  split
  next u1 _ e1 =>
    have h1 : s.Keeps u1 := h.verify.of_fst e1
    refine ite h1.colFail ?_
    refine ite ?_ (h1.passUp.foldl fun _ _ h2 => h2.inTaken)
    extract_lets _ _ u2 u3 _ u4
    have h2 : s.Keeps u2 := ite h1.raise (ite h1.transRec h1)
    have h3 : s.Keeps u3 := ite h2.ndet h2
    have h4 : s.Keeps u4 := h3.addf.addf
    exact ite h2.colFail.retireChan.startWave (h4.passUp.foldl fun _ _ h5 => h5.inTaken)

theorem State.Keeps.writePart {p q k a bs w} (h : s.Keeps t) : s.Keeps (t.writePart p q k a bs w).1 :=
  ite_fst h (ite_fst h.busErr (ite_fst h.writeBlock (ite_fst h.mergeWrite h.checkFailRec)))

theorem State.Keeps.deliverPart {p q k dst o bs w} (h : s.Keeps t) : s.Keeps (t.deliverPart p q k dst o bs w).1 :=
  ite_fst h.writePart h.writePart.writePart

theorem State.Keeps.deliver {p q k t4 m l} (h : s.Keeps t) : s.Keeps (t.deliver p q k t4 m l).1 :=
  h.foldl_fst fun _ _ h1 => ite_fst h1.deliverPart h1.deliverPart

theorem State.Keeps.nodeDown {p q t3 o m lev b c k x} (h : s.Keeps t) : s.Keeps (t.nodeDown p q t3 o m lev b c k x) :=
  ite h.verify.colFail (ite (ite h.verify.deliver.addNode.inTaken h.verify.deliver.colFail)
    (h.verify.foldl fun _ _ h1 => ite h1 h1.colSend).addNode.inTaken)

theorem State.Keeps.statusUp {p q t3 o m lev b c stat} (h : s.Keeps t) : s.Keeps (t.statusUp p q t3 o m lev b c stat) := by
  unfold State.statusUp
  extract_lets _ _
  split
  · exact h
  · exact ite h.colFail (ite h.addNode h.addNode.emit)

theorem State.Keeps.statusDown {p q t3 o m lev b c stat} (h : s.Keeps t) : s.Keeps (t.statusDown p q t3 o m lev b c stat) := by
  unfold State.statusDown
  split
  · exact h
  · exact ite h.colFail (ite h.addNode.setColq (h.addNode.foldl fun _ _ h1 => ite h1 h1.emit))

theorem State.Keeps.exec_chunkCombine {p q seq level base chunk up addrs order dst res retry} (h : s.Keeps t) :
    Answers s (present t (.chunkCombine p q seq level base chunk up addrs order dst res retry))
      (exec (.chunkCombine p q seq level base chunk up addrs order dst res retry) t) := by
  have ht {b : Bool} {q'} : s.KeepsTurn (if b then t.takeTurn p q' else none) := by
    split
    · exact h.takeTurn
    · exact fun _ _ e => nomatch e
  refine onQueue ?_
  split
  · exact h
  · refine ite h (ite (ite h.statusUp h.statusDown) ?_)
    extract_lets
    split
    · exact h
    · next e => exact ite (ht _ _ e).nodeUp (ht _ _ e).nodeDown

theorem State.Keeps.joinProgress {p q} (h : s.Keeps t) : s.Keeps (t.joinProgress p q) :=
  ite h.setColq.wf.inc.colSweep h

theorem State.Keeps.takeStreams {p q l i} (h : s.Keeps t) : s.Keeps (t.takeStreams p q l i).1 := by
  induction l generalizing t i with
  | nil => exact h
  | cons k l ih => exact ih h.free.takePartCtx

theorem State.Keeps.openStreams {p q} (h : s.Keeps t) : s.Keeps (t.openStreams p q) :=
  ite h.setColq (h.takePartCtx.takeStreams.setColq.wf.foldl fun _ _ h1 => h1.emit).joinProgress

theorem State.Keeps.colOpen {p q} (h : s.Keeps t) : s.Keeps (t.colOpen p q) :=
  (ite h.wf.setColq h.wf.setColq.inc).openStreams

theorem State.Keeps.openWrite {a p q} (h : s.Keeps t) : s.Keeps (t.openWrite a p q).1 :=
  ite_fst h (ite_fst h (ite_fst h h.colOpen))

theorem State.Keeps.closeWrite {a p q} (h : s.Keeps t) : s.Keeps (t.closeWrite a p q).1 :=
  ite_fst h (ite h.colClose h)

theorem State.Keeps.exec_collectiveOpen {a p q} (h : s.Keeps t) :
    Answers s (present t (.collectiveOpen a p q)) (exec (.collectiveOpen a p q) t) :=
  (ite h h.openWrite.busErrIf).answerUnless decide_lt_and_iff

theorem State.Keeps.exec_collectiveClose {a p q} (h : s.Keeps t) :
    Answers s (present t (.collectiveClose a p q)) (exec (.collectiveClose a p q) t) :=
  (ite h h.closeWrite.busErrIf).answerUnless decide_lt_and_iff

theorem State.Keeps.joinFailed {p q} (h : s.Keeps t) : s.Keeps (t.joinFailed p q) :=
  (ite h.free.raise.wf.wf h.free.raise).colClose

theorem State.Keeps.exec_joinBlockReceive {p q j} (h : s.Keeps t) :
    Answers s (present t (.joinBlockReceive p q j)) (exec (.joinBlockReceive p q j) t) :=
  (ite h (ite h.setColq.joinProgress h.joinFailed)).answerUnless decide_lt_and_iff

theorem State.Keeps.exec_joinTimeout {p q} (h : s.Keeps t) : Answers s (present t (.joinTimeout p q)) (exec (.joinTimeout p q) t) :=
  (ite h.joinFailed h).answerUnless decide_lt_and_iff

/-! ### Tags and field tests (Machine/Assay.lean) -/

theorem State.Keeps.startTag {p} (h : s.Keeps t) : s.Keeps (t.startTag p) :=
  h.setAssay.wf

theorem State.Keeps.exec_resultTag {a p} (h : s.Keeps t) : Answers s (present t (.resultTag a p)) (exec (.resultTag a p) t) :=
  (ite h (ite h.busErr h.startTag)).onPart

theorem State.Keeps.putTag {f v} (h : s.Keeps t) : s.Keeps (t.putTag f v) :=
  h.foldl fun _ _ h1 => h1.wf

theorem State.Keeps.exec_tagComplete {p} (h : s.Keeps t) : Answers s (present t (.tagComplete p)) (exec (.tagComplete p) t) := by
  show Answers s _ (execTagComplete p t)
  unfold execTagComplete
  refine onPart ?_
  split
  · exact h
  · exact ite h.setAssay.wf.wf.inc.putTag h.setAssay.wf.wf.inc

theorem State.Keeps.startUpdateTag {p step} (h : s.Keeps t) : s.Keeps (t.startUpdateTag p step) :=
  h.setAssay.wf

theorem State.Keeps.exec_recordFlushTimeout (h : s.Keeps t) :
    Answers s (present t .recordFlushTimeout) (exec .recordFlushTimeout t) :=
  (ite h.flushRecords h).next

theorem State.Keeps.askFieldTest {p} (h : s.Keeps t) : s.Keeps (t.askFieldTest p) :=
  ite h h.setFt

theorem State.Keeps.exec_fieldTestStart {p} (h : s.Keeps t) :
    Answers s (present t (.fieldTestStart p)) (exec (.fieldTestStart p) t) :=
  (ite h.setFt.wf h).onPart

theorem State.Keeps.endHostOps {p op st} (h : s.Keeps t) : s.Keeps (t.endHostOps p op st) :=
  h.foldl fun _ _ h1 => h1.hostDone

theorem State.Keeps.ftRetire {p fails} (h : s.Keeps t) : s.Keeps (t.ftRetire p fails) :=
  ((h.foldl fun _ _ h1 => h1.raise).foldl fun _ _ h1 => h1.retireCore).foldl fun _ _ h1 => h1.retireChan

theorem State.Keeps.exec_fieldTestDone {p fails} (h : s.Keeps t) :
    Answers s (present t (.fieldTestDone p fails)) (exec (.fieldTestDone p fails) t) :=
  (ite h h.ftRetire.setFt.wf.wf.wf.wf.wf.inc.endHostOps.mgmtDone.resetRequest).onPart

/-! ### Votes, barriers and mirrors (Machine/Strata.lean) -/

theorem State.Keeps.enterBarrier {p kind nf} (h : s.Keeps t) : s.Keeps (t.enterBarrier p kind nf) :=
  h.setColq.wf.sendStatus.setStrata

theorem State.Keeps.heldHeader {p step st} (h : s.Keeps t) : s.Keeps (t.heldHeader p step st) := by
  rw [State.heldHeader]
  split
  next u1 _ e1 =>
    have h1 : s.Keeps u1 := h.putHeld.of_fst e1
    exact ite h1.wf h1

theorem State.Keeps.release {p} (h : s.Keeps t) : s.Keeps (t.release p) :=
  ite h.setStrata (ite (ite h.heldHeader h).setStrata.wf.sendMirrorHeader (ite h.heldHeader h).setStrata.wf)

theorem State.Keeps.putVote {p oc dev} (h : s.Keeps t) : s.Keeps (t.putVote p oc dev) := by
  unfold State.putVote
  extract_lets _ u1 u2
  have h1 : s.Keeps u1 := h.wf.wf.wf.wf
  have h2 : s.Keeps u2 := h1.setAssay
  split
  · exact h2.inc
  · exact h2.inc
  · exact h2.inc
  · exact h2.inc
  · exact h2

theorem State.Keeps.tryRelease {p} (h : s.Keeps t) : s.Keeps (t.tryRelease p) :=
  ite h.setStrata.enterBarrier h

theorem State.Keeps.voteRecords {p oc dev} (h : s.Keeps t) : s.Keeps (t.voteRecords p oc dev) :=
  ite (ite h.raise.askFieldTest h.raise) (ite (ite h.fatal.askFieldTest h.raise) h)

theorem State.Keeps.decideVote {p} (h : s.Keeps t) : s.Keeps (t.decideVote p) := by
  unfold State.decideVote
  extract_lets _
  refine ite h ?_
  split
  · exact h
  · exact h.putVote.voteRecords.tryRelease

theorem State.Keeps.exec_updateTagComplete {p} (h : s.Keeps t) :
    Answers s (present t (.updateTagComplete p)) (exec (.updateTagComplete p) t) := by
  show Answers s _ (execUpdateTagComplete p t)
  unfold execUpdateTagComplete
  refine onPart ?_
  split
  · exact h
  · exact (h.setAssay.wf.putTag.foldl fun _ _ h1 => h1.free.queueTx).decideVote

theorem State.Keeps.exec_voteBlockReceive {p b} (h : s.Keeps t) :
    Answers s (present t (.voteBlockReceive p b)) (exec (.voteBlockReceive p b) t) :=
  (ite h.inc h.setAssay.decideVote).onPart

theorem State.Keeps.exec_voteTimeout {p} (h : s.Keeps t) : Answers s (present t (.voteTimeout p)) (exec (.voteTimeout p) t) := by
  show Answers s _ (execVoteTimeout p t)
  unfold execVoteTimeout
  refine onPart ?_
  extract_lets _ _
  refine ite h ?_
  split
  · exact h
  · exact h.putVote.fatal

theorem State.Keeps.flintReg {p c rd v} (h : s.Keeps t) : s.Keeps (t.flintReg p c rd v) :=
  ite h h.setFlint

theorem State.Keeps.flintReturn {p c rd v} (h : s.Keeps t) : s.Keeps (t.flintReturn p c rd v) :=
  h.flintReg.setFlint.wf

theorem State.Keeps.stepbReturn {p c} (h : s.Keeps t) : s.Keeps (t.stepbReturn p c) := by
  unfold State.stepbReturn
  split
  · exact h.addf.flintReturn.wf
  · exact h

theorem State.Keeps.jobBoundary {p att} (h : s.Keeps t) : s.Keeps (t.jobBoundary p att) := by
  unfold State.jobBoundary
  extract_lets _ u1 u2 _ _ u3 _ u4 u5 _ _ u6 u7 _ _ u8 u9
  have h1 : s.Keeps u1 := ite h h.swapTables.swapRoutes
  have h2 : s.Keeps u2 := h1.wf
  have h3 : s.Keeps u3 := h2.setStrata.wf.wf
  have h4 : s.Keeps u4 := ite h3.inc.wf h3
  have h5 : s.Keeps u5 := h4.wf.wf
  have h6 : s.Keeps u6 := h5.setAssay
  have h7 : s.Keeps u7 := h6.wf.startUpdateTag
  have h8 : s.Keeps u8 := h7.setStrata
  have h9 : s.Keeps u9 := h8.wf
  exact h9.foldl fun _ _ h10 => h10.stepbReturn

theorem State.Keeps.exec_boundaryBarrierEnter {p} (h : s.Keeps t) :
    Answers s (present t (.boundaryBarrierEnter p)) (exec (.boundaryBarrierEnter p) t) :=
  (ite h (ite h.jobBoundary (ite h.setStrata.enterBarrier h))).onPart

theorem State.Keeps.updateBegin {p c v} (h : s.Keeps t) : s.Keeps (t.updateBegin p c v).1 :=
  ite_fst h (ite_fst h (ite_fst h (ite h.setFlint h.setFlint.setStrata)))

theorem State.Keeps.exec_updateBegin {p c v} (h : s.Keeps t) :
    Answers s (present t (.updateBegin p c v)) (exec (.updateBegin p c v) t) :=
  h.updateBegin.busErrIf.onCore

theorem State.Keeps.exec_updateDecision {p} (h : s.Keeps t) :
    Answers s (present t (.updateDecision p)) (exec (.updateDecision p) t) := by
  show Answers s _ (execUpdateDecision p t)
  unfold execUpdateDecision
  refine onPart ?_
  extract_lets _ u1
  have h1 : s.Keeps u1 := h.setStrata.wf
  split
  · exact h
  · exact ite h h1.wf.settleAll

theorem State.Keeps.exec_extentCopyDone {p ext} (h : s.Keeps t) :
    Answers s (present t (.extentCopyDone p ext)) (exec (.extentCopyDone p ext) t) := by
  show Answers s _ (execExtentCopyDone p ext t)
  unfold execExtentCopyDone
  refine onPart ?_
  extract_lets _
  refine ite h ?_
  split
  · exact h.checkFailRec
  · exact h.copyExtent

theorem State.Keeps.exec_mirroredBarrierEnter {p} (h : s.Keeps t) :
    Answers s (present t (.mirroredBarrierEnter p)) (exec (.mirroredBarrierEnter p) t) :=
  (ite h.setStrata.enterBarrier h).onPart

theorem State.Keeps.rewindJob {p} (h : s.Keeps t) : s.Keeps (t.rewindJob p) :=
  h.setAssay.setStrata.startWave

theorem State.Keeps.mirrored {p} (h : s.Keeps t) : s.Keeps (t.mirrored p) :=
  ite h.setStrata h.setStrata.wf.wf

theorem State.Keeps.barrierDone {p flag} (h : s.Keeps t) : s.Keeps (t.barrierDone p flag) := by
  unfold State.barrierDone
  split
  · exact h.jobBoundary
  · exact ite h.release (ite h.startWave h.rewindJob)
  · exact h.mirrored
  · exact h

theorem State.Keeps.exec_collectiveComplete {p q status} (h : s.Keeps t) :
    Answers s (present t (.collectiveComplete p q status)) (exec (.collectiveComplete p q status) t) := by
  show Answers s _ (execCollectiveComplete p q status t)
  unfold execCollectiveComplete
  refine onQueue ?_
  split
  · exact h
  · exact ite h.colFail (ite h (ite h.colEnd.barrierDone h.colEnd))

/-! ### Snapshots, images and replays (Machine/Replay.lean) -/

theorem State.Keeps.strAccess {a p off} (h : s.Keeps t) (h' : s.Keeps u) : s.Keeps (t.strAccess a p off u) :=
  ite h (ite h.busErr h')

theorem State.Keeps.exec_snap {a p} (h : s.Keeps t) : Answers s (present t (.snap a p)) (exec (.snap a p) t) :=
  (h.strAccess h.setStrata).onPart

theorem State.Keeps.snapEnd {p st} (h : s.Keeps t) : s.Keeps (t.snapEnd p st) :=
  h.setStrata.wf.wf.tryRelease

theorem State.Keeps.exec_snapshotStart {p} (h : s.Keeps t) :
    Answers s (present t (.snapshotStart p)) (exec (.snapshotStart p) t) := by
  show Answers s _ (execSnapshotStart p t)
  unfold execSnapshotStart
  refine onPart ?_
  extract_lets _ _ _ _ _ _ _ _ u1 u2 u3 _ _ _ _
  have h1 : s.Keeps u1 := h.setStrata
  have h2 : s.Keeps u2 := h1.wf.wf.wf
  have h3 : s.Keeps u3 := h2.wf
  refine ite h ?_
  refine ite h3.snapEnd ?_
  refine ite h3.snapEnd ?_
  split
  · exact h3.checkFailRec.snapEnd
  · exact h3.free.queueTx

theorem State.Keeps.exec_snapshotDone {p} (h : s.Keeps t) : Answers s (present t (.snapshotDone p)) (exec (.snapshotDone p) t) :=
  (ite h.snapEnd h).onPart

theorem State.Keeps.exec_suspend {a p stop} (h : s.Keeps t) :
    Answers s (present t (.suspend a p stop)) (exec (.suspend a p stop) t) :=
  (h.strAccess h.setStrata).onPart

theorem State.Keeps.holdFlint {p c} (h : s.Keeps t) : s.Keeps (t.holdFlint p c) := by
  unfold State.holdFlint
  extract_lets _ _
  split
  · exact h
  · exact h.setFlint.setStrata.wf
  · exact h.setFlint.wf

theorem State.Keeps.exec_suspendImageStart {p} (h : s.Keeps t) :
    Answers s (present t (.suspendImageStart p)) (exec (.suspendImageStart p) t) :=
  (ite h (h.setStrata.wf.wf.foldl fun _ _ h1 => h1.holdFlint)).onPart

theorem State.Keeps.exec_suspendImageDone {p} (h : s.Keeps t) :
    Answers s (present t (.suspendImageDone p)) (exec (.suspendImageDone p) t) :=
  (ite h (ite h.setStrata.wf.free.upd.emit.wf.wf.stopPartition.wf.wf h.setStrata.wf.free.upd.emit.wf.wf)).onPart

theorem State.Keeps.restoreEnd {p st} (h : s.Keeps t) : s.Keeps (t.restoreEnd p st) :=
  h.wf.wf

theorem State.Keeps.putTensor {p nr cls ws l} (h : s.Keeps t) : s.Keeps (t.putTensor p nr cls ws l).1 :=
  ite_fst (ite_fst h.verify h.verify.writeSet) h.placeBlocks

theorem State.Keeps.putTensors {p nr r l} (h : s.Keeps t) : s.Keeps (t.putTensors p nr r l).1 := by
  induction r generalizing t l with
  | nil => exact h
  | cons x r ih => exact ih h.putTensor

theorem State.Keeps.putCounters {p step ndet lscale skips} (h : s.Keeps t) : s.Keeps (t.putCounters p step ndet lscale skips) :=
  h.wf.wf.wf.wf

theorem State.Keeps.putSnapshot {p h2 w l} (h : s.Keeps t) : s.Keeps (t.putSnapshot p h2 w l) :=
  ite h.putTensors.restoreEnd (ite h.putTensors.putCounters.setStrata.release.setTen.restoreEnd
    h.putTensors.putCounters.setStrata.release.restoreEnd)

/-- An image puts back fields and bytes one by one, over what is left after the partition's own are dropped. -/
theorem State.Keeps.putImage {p m} (h : s.Keeps t) : s.Keeps (t.putImage p m) := by
  unfold State.putImage
  refine State.Keeps.wf ⟨fun hs => ?_, h.pending, h.fuse, h.freeCtr⟩
  obtain ⟨hm, hf⟩ := h.inv hs
  exact ⟨Memory.wf_setAll _ (Memory.wf_drop _ hm), Tbl.sorted_putAll _ (Tbl.sortedFrom_drop _ hf)⟩

theorem State.Keeps.exec_restore {p image h2 w blocks checks tagOk} (h : s.Keeps t) :
    Answers s (present t (.restore p image h2 w blocks checks tagOk)) (exec (.restore p image h2 w blocks checks tagOk) t) := by
  show Answers s _ (execRestore p image h2 w blocks checks tagOk t)
  unfold execRestore
  refine onPart ?_
  refine ite h ?_
  refine ite h.raise.restoreEnd ?_
  split
  · exact h.raise.restoreEnd
  · extract_lets _
    split
    · exact h.restoreEnd.fatal.resetRequest
    · refine ite ?_ h.putSnapshot
      split
      · exact ite h.putImage.restoreEnd h
      · exact h

theorem State.Keeps.replayMismatch {p idx want found} (h : s.Keeps t) : s.Keeps (t.replayMismatch p idx want found) :=
  h.fatal

theorem State.Keeps.replayItem {p idx m} (h : s.Keeps t) : s.Keeps (t.replayItem p idx m) :=
  h.setAux.setCtx.drainBox

theorem State.Keeps.exec_localReplay {p idx seq} (h : s.Keeps t) :
    Answers s (present t (.localReplay p idx seq)) (exec (.localReplay p idx seq) t) := by
  show Answers s _ (execLocalReplay p idx seq t)
  unfold execLocalReplay
  refine onPart ?_
  extract_lets _ _ u1 _
  have h1 : s.Keeps u1 := h.setStrata
  split
  · exact h
  · split
    · exact h.replayMismatch
    · refine ite h.replayMismatch ?_
      extract_lets _ u2
      have h2 : s.Keeps u2 := ite h1.setAux h1
      split
      · exact ite h1.replayItem h2.placeBlocks
      · exact ite h1.placeBlocks.closePosted.endCopies (ite h1.placeBlocks.endCopies.closePosted h1.placeBlocks.setAux)

theorem State.Keeps.runFlints {p} (h : s.Keeps t) : s.Keeps (t.runFlints p) :=
  h.foldl fun _ _ h1 => h1.wf.wf

theorem State.Keeps.exec_mirrorPullDone {p header blocks checks} (h : s.Keeps t) :
    Answers s (present t (.mirrorPullDone p header blocks checks)) (exec (.mirrorPullDone p header blocks checks) t) := by
  show Answers s _ (execMirrorPullDone p header blocks checks t)
  unfold execMirrorPullDone
  refine onPart ?_
  extract_lets _ _ u1 u2 _ u3 _
  have h1 : s.Keeps u1 := h.placeBlocks
  have h2 : s.Keeps u2 := h1.putCounters
  have h3 : s.Keeps u3 := h2.setStrata
  exact ite h (ite h.fatal (ite h3.setStrata.wf.runFlints h3.swapTables.swapRoutes.release.wf))

/-! ### Hang detection and membership (Machine/Watch.lean) -/

theorem State.Keeps.watchdog {p kind unit queue sq} (h : s.Keeps t) : s.Keeps (t.watchdog p kind unit queue sq) :=
  h.wdtStat.raise.startWave

theorem State.Keeps.exec_engineWatchdog {p unit queue sq} (h : s.Keeps t) :
    Answers s (present t (.engineWatchdog p unit queue sq)) (exec (.engineWatchdog p unit queue sq) t) :=
  (ite h.watchdog h).onPart

theorem State.Keeps.exec_flintWatchdog {p c} (h : s.Keeps t) :
    Answers s (present t (.flintWatchdog p c)) (exec (.flintWatchdog p c) t) :=
  (ite h.watchdog h).onCore

theorem State.Keeps.exec_stepWatchdog {p} (h : s.Keeps t) : Answers s (present t (.stepWatchdog p)) (exec (.stepWatchdog p) t) :=
  (ite h.watchdog h).onPart

theorem State.Keeps.exec_abortBlockReceive {b fromCellPeer sealed} (h : s.Keeps t) :
    Answers s (present t (.abortBlockReceive b fromCellPeer sealed)) (exec (.abortBlockReceive b fromCellPeer sealed) t) :=
  (ite h.takeWave h).next

theorem State.Keeps.exec_livenessSend (h : s.Keeps t) : Answers s (present t .livenessSend) (exec .livenessSend t) :=
  (h.foldl fun _ _ h1 => h1.sendMsg).next

theorem State.Keeps.haltPartition {p} (h : s.Keeps t) : s.Keeps (t.haltPartition p) :=
  ite h.stopPartition.wf h

theorem State.Keeps.exec_mgmtWatchdogExpire (h : s.Keeps t) :
    Answers s (present t .mgmtWatchdogExpire) (exec .mgmtWatchdogExpire t) :=
  ((h.foldl fun _ _ h1 => h1.haltPartition).foldl fun _ _ h1 => h1.wf.portDown).askPowerCycle.next

theorem State.Keeps.certReject {ps c reason} (h : s.Keeps t) : s.Keeps (t.certReject ps c reason) :=
  (h.foldl fun _ _ h1 => h1.inc.wf).raise

theorem State.Keeps.certRecord {c} (h : s.Keeps t) : s.Keeps (t.certRecord c) :=
  h.raise

theorem State.Keeps.certAccept {ps c} (h : s.Keeps t) : s.Keeps (t.certAccept ps c) := by
  unfold State.certAccept
  extract_lets _ u1 u2 u3 u4
  have h1 : s.Keeps u1 := h.foldl fun _ _ h1 => h1.inc.inc.setMember
  have h2 : s.Keeps u2 := h1.certRecord
  have h3 : s.Keeps u3 := by
    unfold u3
    split
    · exact h2.startWave
    · exact h2
  have h4 : s.Keeps u4 := h3.foldl fun _ _ h1 => ite h1.closeCtx h1
  exact ite (h4.foldl fun _ _ h5 => h5.resetRequest) h4

theorem State.Keeps.certForward {ps c fromCellPeer} (h : s.Keeps t) : s.Keeps (t.certForward ps c fromCellPeer) := by
  unfold State.certForward
  split
  · exact h
  · exact ite h ((h.foldl fun _ _ h1 => h1.setMember).foldl fun _ _ h1 => h1.emit)

theorem State.Keeps.certSpare {c} (h : s.Keeps t) : s.Keeps (t.certSpare c).1 :=
  ite_fst h.certRecord h.certReject

theorem State.Keeps.takeCert {c fromCellPeer} (h : s.Keeps t) : s.Keeps (t.takeCert c fromCellPeer).1 := by
  unfold State.takeCert
  split
  · exact h.certSpare
  · next p ps _ =>
    have hc : s.Keeps ((p :: ps).foldl (fun u q => u.wf (PRT_QC.CONFLICT q) 1) t) := h.foldl fun _ _ h1 => h1.wf
    dsimp only
    split
    · exact ite_fst h (ite_fst (hc.raise.foldl fun _ _ h1 => h1.startWave) h.certReject)
    · exact ite_fst h.certForward.certAccept h.certForward.certReject

theorem State.Keeps.exec_certificateReceive {viaPf16 fromCellPeer sealed c} (h : s.Keeps t) :
    Answers s (present t (.certificateReceive viaPf16 fromCellPeer sealed c))
      (exec (.certificateReceive viaPf16 fromCellPeer sealed c) t) :=
  (ite h.takeCert h).next

/-! ### Attestation and tenancy (Machine/Security.lean) -/

theorem State.Keeps.spdmRsp {n code data} (h : s.Keeps t) : s.Keeps (t.spdmRsp n code data) :=
  h.emit

theorem State.Keeps.spdmErr {n e} (h : s.Keeps t) : s.Keeps (t.spdmErr n e) :=
  h.spdmRsp

theorem State.Keeps.spdm {n} (h : s.Keeps t) (h' : s.Keeps u) : Answers s (decide (n < 17)) (Machine.spdm n t u) :=
  answerUnless (ite (ite h' h.spdmErr) (ite h' h)) (by simp)

theorem State.Keeps.spdmAt {n ph} (h : s.Keeps t) (h' : s.Keeps u) : s.Keeps (t.spdmAt n ph u) :=
  ite h.spdmErr h'

theorem State.Keeps.setPhase {n ph} (h : s.Keeps t) : s.Keeps (t.setPhase n ph) :=
  h.setSess

theorem State.Keeps.exec_getVersion {n} (h : s.Keeps t) : Answers s (present t (.getVersion n)) (exec (.getVersion n) t) :=
  h.spdm h.setPhase.spdmRsp

theorem State.Keeps.exec_getCapabilities {n} (h : s.Keeps t) :
    Answers s (present t (.getCapabilities n)) (exec (.getCapabilities n) t) :=
  h.spdm (h.spdmAt h.setPhase.spdmRsp)

theorem State.Keeps.exec_negotiateAlgorithms {n supported} (h : s.Keeps t) :
    Answers s (present t (.negotiateAlgorithms n supported)) (exec (.negotiateAlgorithms n supported) t) :=
  h.spdm (h.spdmAt (ite h.setPhase.spdmRsp h.spdmErr))

theorem State.Keeps.exec_getDigests {n} (h : s.Keeps t) : Answers s (present t (.getDigests n)) (exec (.getDigests n) t) :=
  h.spdm (h.spdmAt h.spdmRsp)

theorem State.Keeps.exec_getCertificate {n slot off len} (h : s.Keeps t) :
    Answers s (present t (.getCertificate n slot off len)) (exec (.getCertificate n slot off len) t) :=
  h.spdm (h.spdmAt (ite h.spdmRsp h.spdmErr))

theorem State.Keeps.draw (h : s.Keeps t) : s.Keeps t.draw :=
  h.drawn

theorem State.Keeps.exec_challenge {n slot nonce} (h : s.Keeps t) :
    Answers s (present t (.challenge n slot nonce)) (exec (.challenge n slot nonce) t) :=
  h.spdm (h.spdmAt (ite h.draw.spdmRsp h.spdmErr))

theorem State.Keeps.exec_getMeasurements {n index} (h : s.Keeps t) :
    Answers s (present t (.getMeasurements n index)) (exec (.getMeasurements n index) t) :=
  h.spdm (h.spdmAt (ite h.inc.spdmRsp (ite h.inc.spdmRsp (ite h.inc.spdmRsp h.spdmErr))))

theorem State.Keeps.exec_keyExchange {n slot} (h : s.Keeps t) :
    Answers s (present t (.keyExchange n slot)) (exec (.keyExchange n slot) t) := by
  show Answers s _ (execKeyExchange n slot t)
  unfold execKeyExchange
  refine h.spdm ?_
  refine h.spdmAt ?_
  refine ite h.spdmErr ?_
  refine ite h.spdmErr ?_
  split
  · exact h.spdmErr
  · exact h.draw.setSess.spdmRsp

theorem State.Keeps.stopHandles {n} (h : s.Keeps t) : s.Keeps (t.stopHandles n) :=
  h.upd

theorem State.Keeps.endSession {n i} (h : s.Keeps t) : s.Keeps (t.endSession n i) :=
  ite h.setSess (ite h.setSess.wf h.setSess.wf.stopHandles)

theorem State.Keeps.endRings {n} (h : s.Keeps t) : s.Keeps (t.endRings n) :=
  h.setHost.wf.wf.wf

theorem State.Keeps.secureFail {n i sq} (h : s.Keeps t) : s.Keeps (t.secureFail n i sq) :=
  ite h.raise.inc.endSession h.raise.inc.endSession.endRings

theorem State.Keeps.exec_finish {n i macOk} (h : s.Keeps t) :
    Answers s (present t (.finish n i macOk)) (exec (.finish n i macOk) t) :=
  h.spdm (ite h.spdmErr (ite h.secureFail.spdmErr (ite h.setSess.inc h.setSess.wf.setHost).spdmRsp))

theorem State.Keeps.inSess {n i} (h : s.Keeps t) (h' : s.Keeps u) : Answers s (decide (n < 17)) (Machine.inSess n i t u) :=
  h.spdm (ite h' h.spdmErr)

theorem State.Keeps.exec_heartbeat {n i} (h : s.Keeps t) : Answers s (present t (.heartbeat n i)) (exec (.heartbeat n i) t) :=
  h.inSess h.setSess.spdmRsp

theorem State.Keeps.exec_keyUpdate {n i} (h : s.Keeps t) : Answers s (present t (.keyUpdate n i)) (exec (.keyUpdate n i) t) :=
  h.inSess h.setSess.spdmRsp

theorem State.Keeps.exec_endSession {n i} (h : s.Keeps t) : Answers s (present t (.endSession n i)) (exec (.endSession n i) t) :=
  h.inSess h.endSession.spdmRsp

theorem State.Keeps.exec_spdmUnsupported {n code} (h : s.Keeps t) :
    Answers s (present t (.spdmUnsupported n code)) (exec (.spdmUnsupported n code) t) :=
  h.spdm h.spdmRsp

theorem State.Keeps.exec_heartbeatTimeout {n i} (h : s.Keeps t) :
    Answers s (present t (.heartbeatTimeout n i)) (exec (.heartbeatTimeout n i) t) :=
  (ite h (ite h.endSession h.setSess)).answerUnless decide_lt_iff

theorem State.Keeps.vendor {n prove} (h : s.Keeps t) (h' : s.Keeps u) : Answers s (decide (n < 17)) (Machine.vendor n prove t u) := by
  unfold Machine.vendor
  split
  · exact h.spdm h.spdmErr
  · exact h.inSess (ite h.spdmErr h')

theorem State.Keeps.exec_claim {n key} (h : s.Keeps t) : Answers s (present t (.claim n key)) (exec (.claim n key) t) :=
  h.vendor (ite h.spdmErr h.setTen.wf.spdmRsp)

theorem State.Keeps.exec_claimProve {n sigOk} (h : s.Keeps t) :
    Answers s (present t (.claimProve n sigOk)) (exec (.claimProve n sigOk) t) :=
  h.vendor (ite h.setSess.spdmRsp (ite h.setSess.inc.raise.endSession.spdmErr h.setSess.inc.raise.spdmErr))

theorem State.Keeps.refuse {reason} (h : s.Keeps t) : s.Keeps (t.refuse reason) :=
  h.raise.inc

theorem State.Keeps.newJob {p job} (h : s.Keeps t) : s.Keeps (t.newJob p job) :=
  ite h h.setStrata.setAssay

theorem State.Keeps.exec_provision {n v} (h : s.Keeps t) : Answers s (present t (.provision n v)) (exec (.provision n v) t) :=
  h.vendor (ite h.spdmErr.inc (ite h.refuse.spdmErr (ite h.refuse.spdmErr h.newJob.setTen.upd.wf.wf.setMember.wf.spdmRsp)))

theorem State.Keeps.exec_release {n} (h : s.Keeps t) : Answers s (present t (.release n)) (exec (.release n) t) :=
  h.vendor (ite h.spdmErr h.spdmRsp.resetRequest)

theorem State.Keeps.flashDo {o} (h : s.Keeps t) : s.Keeps (t.flashDo o) :=
  h.upd

theorem State.Keeps.exec_fwBegin {i} (h : s.Keeps t) : Answers s (present t (.fwBegin i)) (exec (.fwBegin i) t) :=
  h.inSess (n := 16) h.flashDo.spdmRsp

theorem State.Keeps.exec_fwData {i off data} (h : s.Keeps t) :
    Answers s (present t (.fwData i off data)) (exec (.fwData i off data) t) :=
  h.inSess (n := 16) (ite h.spdmErr h.upd.flashDo.spdmRsp)

theorem State.Keeps.exec_fwCommit {i image} (h : s.Keeps t) :
    Answers s (present t (.fwCommit i image)) (exec (.fwCommit i image) t) :=
  h.inSess (n := 16) (ite h.upd.flashEntry.spdmRsp h.upd.spdmErr)

theorem State.Keeps.exec_cfgCommit {i len r} (h : s.Keeps t) :
    Answers s (present t (.cfgCommit i len r)) (exec (.cfgCommit i len r) t) :=
  h.inSess (n := 16) (ite h.spdmErr h.flashEntry.spdmRsp)

theorem State.Keeps.exec_logRead {i region off len} (h : s.Keeps t) :
    Answers s (present t (.logRead i region off len)) (exec (.logRead i region off len) t) :=
  h.inSess (n := 16) (ite h.spdmErr h.spdmRsp)

theorem State.Keeps.exec_entropyHealthFail {test} (h : s.Keeps t) :
    Answers s (present t (.entropyHealthFail test)) (exec (.entropyHealthFail test) t) :=
  h.wf.inc.raise.next

theorem State.Keeps.exec_drbgReseed (h : s.Keeps t) : Answers s (present t .drbgReseed) (exec .drbgReseed t) :=
  h.upd.inc.next

theorem State.Keeps.exec_ideKmRequest {i activate} (h : s.Keeps t) :
    Answers s (present t (.ideKmRequest i activate)) (exec (.ideKmRequest i activate) t) :=
  h.inSess (n := 16) (ite h.wf.spdmRsp (ite h.spdmErr h.wf.spdmRsp))

/-! ### The host interface (Machine/Host.lean) -/

theorem State.Keeps.onFn {n} (h : s.Keeps t) : Answers s (decide (n < 17)) (Machine.onFn n t) := h.answerIf (by simp)

theorem State.Keeps.onCtx {i} (h : s.Keeps t) : Answers s (decide (i < 2 ^ 18)) (Machine.onCtx i t) := h.answerIf (by simp)

theorem State.Keeps.resetPf {n} (h : s.Keeps t) : s.Keeps (t.resetPf n) :=
  h.wf.wf.wf.wf.wf

theorem State.Keeps.flrOf {n} (h : s.Keeps t) : s.Keeps (t.flrOf n) :=
  ite h.inc.endSession.endSession h.inc.endSession.endRings.resetPf

theorem State.Keeps.exec_flr {n} (h : s.Keeps t) : Answers s (present t (.flr n)) (exec (.flr n) t) :=
  h.flrOf.onFn

theorem State.Keeps.exec_linkReset (h : s.Keeps t) : Answers s (present t .linkReset) (exec .linkReset t) :=
  (h.foldl fun _ _ h1 => h1.flrOf).inc.next

theorem State.Keeps.exec_perstDeassert {speed width} (h : s.Keeps t) :
    Answers s (present t (.perstDeassert speed width)) (exec (.perstDeassert speed width) t) :=
  (ite h.upd h.upd.wf.wf.wf.wf).next

theorem State.Keeps.sqDoorbell {n pos} (h : s.Keeps t) : s.Keeps (t.sqDoorbell n pos) :=
  ite h.setHost h

theorem State.Keeps.exec_submissionDoorbell {n pos} (h : s.Keeps t) :
    Answers s (present t (.submissionDoorbell n pos)) (exec (.submissionDoorbell n pos) t) :=
  h.sqDoorbell.answerIf decide_eq_true_iff

theorem State.Keeps.acceptSub {n sub} (h : s.Keeps t) : s.Keeps (t.acceptSub n sub) :=
  ite h.takePartCtx.setHandle.inc (ite h.takePartCtx.setHandle.inc.produce h.takePartCtx.setHandle.inc.produce.hostDone)

theorem State.Keeps.takeSub {n sub} (h : s.Keeps t) : s.Keeps (t.takeSub n sub) :=
  ite h.acceptSub h.setHost.inc

theorem State.Keeps.exec_submissionFetch {n sub} (h : s.Keeps t) :
    Answers s (present t (.submissionFetch n sub)) (exec (.submissionFetch n sub) t) :=
  (ite h (ite h.secureFail h.wf.setHost.takeSub)).answerIf decide_eq_true_iff

theorem State.Keeps.exec_contextWaitResume {n} (h : s.Keeps t) :
    Answers s (present t (.contextWaitResume n)) (exec (.contextWaitResume n) t) := by
  show Answers s _ (execContextWaitResume n t)
  unfold execContextWaitResume
  refine answerIf ?_ decide_eq_true_iff
  extract_lets _
  split
  · exact ite h.setHost.acceptSub h
  · split
    · exact h.openStreams
    · exact h

theorem State.Keeps.setHandleSt {i st} (h : s.Keeps t) : s.Keeps (t.setHandleSt i st) := by
  unfold State.setHandleSt
  split
  · exact h.setHandle
  · exact h

theorem State.Keeps.beginTransfer {i} (h : s.Keeps t) : s.Keeps (t.beginTransfer i) := by
  unfold State.beginTransfer
  split
  · exact h
  · exact ite h (ite h.hostDone (ite h.hostDone h.setHandleSt))

theorem State.Keeps.exec_write {n idx} (h : s.Keeps t) : Answers s (present t (.write n idx)) (exec (.write n idx) t) :=
  (ite h.beginTransfer h).onFn

theorem State.Keeps.exec_read {n idx} (h : s.Keeps t) : Answers s (present t (.read n idx)) (exec (.read n idx) t) :=
  (ite h.beginTransfer h).onFn

theorem State.Keeps.unitCheckFail {i addr b w} (h : s.Keeps t) : s.Keeps (t.unitCheckFail i addr b w) :=
  h.countCheckFail.raise

theorem State.Keeps.writeUnit {i p a} (h : s.Keeps t) : s.Keeps (t.writeUnit i p a).1 := by
  induction a generalizing t with
  | nil => exact h
  | cons x l ih => exact ite_fst h (ite_fst h.busErr (ite_fst h.unitCheckFail (ite_fst h.writeBlock (ih h.writeBlock.inc.addf))))

theorem State.Keeps.unitDone {i} (h : s.Keeps t) : s.Keeps (t.unitDone i) := by
  unfold State.unitDone
  split
  · exact h
  · exact ite h.setHandle.hostDone h.setHandle

theorem State.Keeps.writeOne {i h2 data checks} (h : s.Keeps t) : s.Keeps (t.writeOne i h2 data checks) := by
  unfold State.writeOne
  split
  next u1 _ e1 =>
    have h1 : s.Keeps u1 := h.writeUnit.of_fst e1
    exact ite h1.unitDone h1.hostDone

theorem State.Keeps.readOne {i h2} (h : s.Keeps t) : s.Keeps (t.readOne i h2) := by
  unfold State.readOne
  extract_lets _
  split
  next u1 _ e1 =>
    have h1 : s.Keeps u1 := h.verify.of_fst e1
    exact ite h1.hostDone h1.emit.addf.unitDone

theorem State.Keeps.imageOne {i h2 data checks} (h : s.Keeps t) : s.Keeps (t.imageOne i h2 data checks) := by
  unfold State.imageOne
  split
  · exact h.hostDone
  · exact h.setHandle.unitDone

theorem State.Keeps.openUnit {i data checks sealOk} (h : s.Keeps t) (h' : s.Keeps u) :
    s.Keeps (t.openUnit i data checks sealOk u) :=
  ite h.hostDone (ite h h')

theorem State.Keeps.exec_unitTransfer {idx data checks sealOk} (h : s.Keeps t) :
    Answers s (present t (.unitTransfer idx data checks sealOk)) (exec (.unitTransfer idx data checks sealOk) t) := by
  show Answers s _ (execUnitTransfer idx data checks sealOk t)
  unfold execUnitTransfer
  refine onCtx ?_
  extract_lets u1
  have h1 : s.Keeps u1 := h.beginTransfer
  split
  · exact h1
  · refine ite h1 ?_
    split
    · exact ite h1 h1.readOne
    · exact h1.openUnit h1.writeOne
    · exact h1.openUnit h1.imageOne
    · exact h1

theorem State.Keeps.exec_rebind {n idx} (h : s.Keeps t) : Answers s (present t (.rebind n idx)) (exec (.rebind n idx) t) := by
  show Answers s _ (execRebind n idx t)
  unfold execRebind
  refine onFn ?_
  split
  · exact h
  · exact ite h (ite h.rebindNow (ite h.setAux h))

theorem State.Keeps.exec_migrationDeferred {idx} (h : s.Keeps t) :
    Answers s (present t (.migrationDeferred idx)) (exec (.migrationDeferred idx) t) :=
  (ite h.rebindNow h).onCtx

theorem State.Keeps.exec_rebindTimeout {idx} (h : s.Keeps t) :
    Answers s (present t (.rebindTimeout idx)) (exec (.rebindTimeout idx) t) := by
  show Answers s _ (execRebindTimeout idx t)
  unfold execRebindTimeout
  refine onCtx ?_
  split
  · exact ite h.hostDone h
  · exact h

theorem State.Keeps.exec_abort {n idx} (h : s.Keeps t) : Answers s (present t (.abort n idx)) (exec (.abort n idx) t) := by
  show Answers s _ (execAbort n idx t)
  unfold execAbort
  refine onFn ?_
  split
  · exact h
  · exact ite h (ite h.hostDone.startWave h.hostDone)

theorem State.Keeps.exec_fieldTest {n idx} (h : s.Keeps t) :
    Answers s (present t (.fieldTest n idx)) (exec (.fieldTest n idx) t) := by
  show Answers s _ (execFieldTest n idx t)
  unfold execFieldTest
  refine onFn ?_
  split
  · exact h
  · exact ite h (ite h.askFieldTest.setHandleSt h.hostDone)

theorem State.Keeps.exec_completionPost {n} (h : s.Keeps t) :
    Answers s (present t (.completionPost n)) (exec (.completionPost n) t) := by
  show Answers s _ (execCompletionPost n t)
  unfold execCompletionPost
  refine answerIf ?_ decide_eq_true_iff
  extract_lets _ _
  split
  · exact h
  · exact ite h h.setHost.wf.emit

theorem State.Keeps.consumed {n c} (h : s.Keeps t) : s.Keeps (t.consumed n c) :=
  ite h.setHandle.freeCtx.wf h

theorem State.Keeps.cqDoorbell {n pos} (h : s.Keeps t) : s.Keeps (t.cqDoorbell n pos) :=
  ite (h.setHost.foldl fun _ _ h1 => h1.consumed) h

theorem State.Keeps.exec_completionDoorbell {n pos} (h : s.Keeps t) :
    Answers s (present t (.completionDoorbell n pos)) (exec (.completionDoorbell n pos) t) :=
  h.cqDoorbell.answerIf decide_eq_true_iff

theorem State.Keeps.mreqResult {r} (h : s.Keeps t) : s.Keeps (t.mreqResult r) :=
  h.wf.wf

theorem State.Keeps.mreqAt (h : s.Keeps t) (h' : s.Keeps u) : s.Keeps (t.mreqAt u) :=
  ite h (ite h.inc h')

theorem State.Keeps.mreqBegin {k} (h : s.Keeps t) : s.Keeps (t.mreqBegin k) :=
  h.upd.wf

theorem State.Keeps.mreqReset {p kind} (h : s.Keeps t) : s.Keeps (t.mreqReset p kind) :=
  ite h.mreqResult (ite h.resetRequest.mreqResult h.mreqBegin.resetRequest)

theorem State.Keeps.mreqTest {p} (h : s.Keeps t) : s.Keeps (t.mreqTest p) :=
  ite h.mreqResult (ite h.mreqBegin.askFieldTest h.mreqResult)

theorem State.Keeps.mreqCert {c} (h : s.Keeps t) : s.Keeps (t.mreqCert c) :=
  h.takeCert.wf.mreqResult

theorem State.Keeps.exec_mgmtWarmReset {p} (h : s.Keeps t) : Answers s (present t (.mgmtWarmReset p)) (exec (.mgmtWarmReset p) t) :=
  (h.mreqAt h.mreqReset).onPart

theorem State.Keeps.exec_mgmtRetenantReset {p} (h : s.Keeps t) :
    Answers s (present t (.mgmtRetenantReset p)) (exec (.mgmtRetenantReset p) t) :=
  (h.mreqAt h.mreqReset).onPart

theorem State.Keeps.exec_mgmtFieldTest {p} (h : s.Keeps t) : Answers s (present t (.mgmtFieldTest p)) (exec (.mgmtFieldTest p) t) :=
  (h.mreqAt h.mreqTest).onPart

theorem State.Keeps.exec_mgmtCertificate {haddr c} (h : s.Keeps t) :
    Answers s (present t (.mgmtCertificate haddr c)) (exec (.mgmtCertificate haddr c) t) :=
  (ite (h.mreqAt h.mreqCert) h).next

theorem State.Keeps.exec_i3cEntdaa {addr} (h : s.Keeps t) : Answers s (present t (.i3cEntdaa addr)) (exec (.i3cEntdaa addr) t) :=
  h.upd.next

theorem State.Keeps.exec_mctpEidAssign {eid} (h : s.Keeps t) :
    Answers s (present t (.mctpEidAssign eid)) (exec (.mctpEidAssign eid) t) :=
  (ite h.upd h).next

theorem State.Keeps.pldmAt (h : s.Keeps t) (h' : s.Keeps u) : s.Keeps (t.pldmAt u) :=
  ite h' h

theorem State.Keeps.exec_pldmBaseDiscovery {cmd} (h : s.Keeps t) :
    Answers s (present t (.pldmBaseDiscovery cmd)) (exec (.pldmBaseDiscovery cmd) t) :=
  (h.pldmAt h.emit).next

theorem State.Keeps.exec_pldmSensorRead {sensor value} (h : s.Keeps t) :
    Answers s (present t (.pldmSensorRead sensor value)) (exec (.pldmSensorRead sensor value) t) :=
  (h.pldmAt h.emit).next

theorem State.Keeps.exec_platformEventRead (h : s.Keeps t) : Answers s (present t .platformEventRead) (exec .platformEventRead t) :=
  h.upd.next

theorem State.Keeps.exec_powerCycleRepeat (h : s.Keeps t) : Answers s (present t .powerCycleRepeat) (exec .powerCycleRepeat t) :=
  (ite h.platform h).next

theorem State.Keeps.refresh {p} (h : s.Keeps t) : s.Keeps (t.refresh p) :=
  h.upd

theorem State.Keeps.exec_summaryCopyRefresh (h : s.Keeps t) :
    Answers s (present t .summaryCopyRefresh) (exec .summaryCopyRefresh t) :=
  (h.foldl fun _ _ h1 => h1.refresh).next

/-! ### Admission of a job (Machine/Admit.lean) -/

theorem State.Keeps.loadTable {p n bs} (h : s.Keeps t) : s.Keeps (t.loadTable p n bs) :=
  h.foldl fun _ _ h1 => h1.wf

theorem State.Keeps.loadImage {p im h3} (h : s.Keeps t) : s.Keeps (t.loadImage p im h3) :=
  (h.foldl fun _ _ h1 => h1.setFlint).loadTable

theorem State.Keeps.admitRegs {p h2 digest v} (h : s.Keeps t) : s.Keeps (t.admitRegs p h2 digest v) :=
  (h.foldl fun _ _ h1 => h1.wf).wf.wf.wf.wf.wf.wf.wf.wf.wf

theorem State.Keeps.takeTsl {p a n} (h : s.Keeps t) : s.Keeps (t.takeTsl p a n) :=
  h.setStrata

theorem State.Keeps.openJobCtx {p x} (h : s.Keeps t) : s.Keeps (t.openJobCtx p x).1 :=
  h.free.takePartCtx

theorem State.Keeps.openStreamsOf {p a} (h : s.Keeps t) : s.Keeps (t.openStreamsOf p a) := by
  induction a generalizing t with
  | nil => exact h
  | cons x l ih => exact ih h.openJobCtx

theorem State.Keeps.openVotes {p own k l} (h : s.Keeps t) : s.Keeps (t.openVotes p own k l).1 := by
  induction l generalizing t k with
  | nil => exact h
  | cons r l ih => exact ih (ite_fst h h.openJobCtx)

theorem State.Keeps.openLiveness {pos} (h : s.Keeps t) : s.Keeps (t.openLiveness pos) :=
  ite h h.free.takeCtx.setAux

theorem State.Keeps.openMirrors {p job again} (h : s.Keeps t) : s.Keeps (t.openMirrors p job again) :=
  ite h (ite h.openJobCtx.wf.wf.wf.openJobCtx.wf.wf h.openJobCtx.wf.wf.wf.openJobCtx.wf.wf.writeBlock.wf.wf)

theorem State.Keeps.openCkpt {p} (h : s.Keeps t) : s.Keeps (t.openCkpt p) :=
  h.openJobCtx.openJobCtx.wf.wf

theorem State.Keeps.openGroup {p job rank} (h : s.Keeps t) : s.Keeps (t.openGroup p job rank) :=
  h.wf.wf.wf.colOpen

theorem State.Keeps.admitVotes {p job} (h : s.Keeps t) : s.Keeps (t.admitVotes p job) :=
  (h.wf.wf.wf.foldl fun _ _ h1 => h1.wf).openVotes.setAssay

theorem State.Keeps.admitGoOn {p} (h : s.Keeps t) : s.Keeps (t.admitGoOn p) := by
  unfold State.admitGoOn
  extract_lets _ _ u1 _
  have h1 : s.Keeps u1 := h.setStrata
  split
  · exact ite h1.putCounters.setAssay.wf.setStrata.wf h1.putCounters.setAssay.setStrata.wf.wf.tryRelease.runFlints
  · exact h1.swapTables.swapRoutes.putCounters.wf.release.wf.runFlints
  · exact h1.release.wf.runFlints

theorem State.Keeps.admitJob {p h2 v job} (h : s.Keeps t) : s.Keeps (t.admitJob p h2 v job) := by
  unfold State.admitJob
  extract_lets _ u1 _ u2 _ u3 u4 u5 u6 u7
  have h1 : s.Keeps u1 := h.takeTsl
  have h2 : s.Keeps u2 := h1.setMember
  have h3 : s.Keeps u3 := h2.setTen
  have h4 : s.Keeps u4 := h3.admitVotes.openMirrors.openCkpt
  have h5 : s.Keeps u5 := h4.openStreamsOf.openGroup
  have h6 : s.Keeps u6 := h5.openLiveness.openLiveness
  have h7 : s.Keeps u7 := h6.wf.inc
  exact h7.admitGoOn

theorem State.Keeps.admitFail {i reason} (h : s.Keeps t) : s.Keeps (t.admitFail i reason) :=
  h.refuse.hostDone

theorem State.Keeps.admitImage {p i im v job} (h : s.Keeps t) : s.Keeps (t.admitImage p i im v job) :=
  ite h.admitFail
    (ite h.admitFail (ite h.verify.inc.hostDone (ite h.verify.inc.hostDone h.verify.admitRegs.loadImage.admitJob.hostDone)))

theorem State.Keeps.admitWait {p i h3} (h : s.Keeps t) : s.Keeps (t.admitWait p i h3) :=
  ite h h.setHandle.inc

theorem State.Keeps.exec_admitJob {n idx job} (h : s.Keeps t) :
    Answers s (present t (.admitJob n idx job)) (exec (.admitJob n idx job) t) := by
  show Answers s _ (execAdmitJob n idx job t)
  unfold execAdmitJob
  refine answerUnless ?_ decide_lt_iff
  split
  · exact h
  · refine ite h ?_
    split
    · exact h.admitFail
    · exact ite h.admitFail (ite h (ite h.admitWait h.admitImage))

/-! ### Stacked memory (Machine/Memory.lean) -/

theorem State.Keeps.onPc {t0 : State} {p i} (h : s.Keeps t) :
    Answers s (decide (p < 16) && decide (i < t0.fuse.variant.chans)) (Machine.onPc t0 p i t) :=
  h.answerIf (by simp)

theorem State.Keeps.onChan {t0 : State} {k i} (h : s.Keeps t) :
    Answers s (decide (k < t0.fuse.variant.stacks) && decide (i < 32)) (Machine.onChan t0 k i t) :=
  h.answerIf (by simp)

theorem State.Keeps.eccAddr {p i o scrub} (h : s.Keeps t) : s.Keeps (t.eccAddr p i o scrub) :=
  ite h.inc h.inc.wf.wf.wf

theorem State.Keeps.pairCorrected {p i o pos scrub} (h : s.Keeps t) : s.Keeps (t.pairCorrected p i o pos scrub) :=
  ite h.setPc.inc.raise.raise h.setPc.inc.raise

theorem State.Keeps.pairLost {p i o} (h : s.Keeps t) : s.Keeps (t.pairLost p i o) :=
  h.setPc

theorem State.Keeps.pairUncorrectable {p i o} (h : s.Keeps t) : s.Keeps (t.pairUncorrectable p i o) :=
  h.pairLost.eccAddr.fatal

theorem State.Keeps.pairScrubbed {p i o} (h : s.Keeps t) : s.Keeps (t.pairScrubbed p i o) :=
  h.pairLost.eccAddr.raise

theorem State.Keeps.refill {p i n} (h : s.Keeps t) : s.Keeps (t.refill p i n) :=
  h.foldl fun _ _ h1 => h1.wf

theorem State.Keeps.grantReq {p i r inG} (h : s.Keeps t) : s.Keeps (t.grantReq p i r inG) :=
  (ite h.wf h).addf.addf.setPc.setChan

theorem State.Keeps.pairRead {p i errs q} (h : s.Keeps t) : s.Keeps (t.pairRead p i errs q) := by
  unfold State.pairRead
  refine ite h.pairUncorrectable ?_
  split
  · exact h
  · exact h.pairCorrected
  · exact h.pairUncorrectable

theorem State.Keeps.pairsRead {p i errs qs} (h : s.Keeps t) : s.Keeps (t.pairsRead p i errs qs) :=
  h.foldl fun _ _ h1 => h1.pairRead

theorem State.Keeps.exec_memRequestGrant {p i arrived cycles errs} (h : s.Keeps t) :
    Answers s (present t (.memRequestGrant p i arrived cycles errs)) (exec (.memRequestGrant p i arrived cycles errs) t) := by
  show Answers s _ (execMemRequestGrant p i arrived cycles errs t)
  unfold execMemRequestGrant
  refine onPc ?_
  split
  · extract_lets _ u1 _
    have h1 : s.Keeps u1 := h.setPc.refill
    split
    · exact h1.setPc
    · split
      · exact h1
      · exact ite h1.inc h1.grantReq.pairsRead
    · exact h1

theorem State.Keeps.exec_patrolScrub {p i o od errs} (h : s.Keeps t) :
    Answers s (present t (.patrolScrub p i o od errs)) (exec (.patrolScrub p i o od errs) t) := by
  show Answers s _ (execPatrolScrub p i o od errs t)
  unfold execPatrolScrub
  refine onPc ?_
  split
  · refine ite h ?_
    extract_lets u1
    have h1 : s.Keeps u1 := h.addf
    refine ite h1.pairScrubbed ?_
    split
    · exact h1
    · exact h1.pairCorrected
    · exact h1.pairScrubbed

theorem State.Keeps.failChannel {st ch stage} (h : s.Keeps t) : s.Keeps (t.failChannel st ch stage) :=
  (h.setChan.foldl fun _ _ h1 => h1.setPc.fatal).logState

theorem State.Keeps.exec_channelTrainingDone {st ch rep0 rep1} (h : s.Keeps t) :
    Answers s (present t (.channelTrainingDone st ch rep0 rep1)) (exec (.channelTrainingDone st ch rep0 rep1) t) :=
  (ite h h.setChan.wf.wf.leaveOffs).onChan

theorem State.Keeps.exec_channelTrainingTimeout {st ch} (h : s.Keeps t) :
    Answers s (present t (.channelTrainingTimeout st ch)) (exec (.channelTrainingTimeout st ch) t) :=
  (ite h h.failChannel.leaveOffs).onChan

theorem State.Keeps.exec_intervalCalibration {st ch} (h : s.Keeps t) :
    Answers s (present t (.intervalCalibration st ch)) (exec (.intervalCalibration st ch) t) :=
  h.onChan

theorem State.Keeps.exec_parityError {st ch half cmd ok} (h : s.Keeps t) :
    Answers s (present t (.parityError st ch half cmd ok)) (exec (.parityError st ch half cmd ok) t) :=
  (ite h (ite h.setChan.inc.raise (ite h.setChan h.setChan))).onChan

theorem State.Keeps.exec_channelRetrainDone {st ch ok} (h : s.Keeps t) :
    Answers s (present t (.channelRetrainDone st ch ok)) (exec (.channelRetrainDone st ch ok) t) :=
  (ite h (ite h.setChan.inc.inc.raise (ite h.setChan h.setChan.failChannel))).onChan

theorem State.Keeps.stackTemp {st temp} (h : s.Keeps t) : s.Keeps (t.stackTemp st temp) :=
  h.foldl fun _ _ h1 => h1.wf.wf

theorem State.Keeps.exec_doubledRefreshChange {st temp} (h : s.Keeps t) :
    Answers s (present t (.doubledRefreshChange st temp)) (exec (.doubledRefreshChange st temp) t) :=
  h.stackTemp.answerUnless decide_lt_iff

/-! ### Boot, clocks and power (Machine/Boot.lean) -/

theorem State.Keeps.moduleFatal {unit code synd} (h : s.Keeps t) : s.Keeps (t.moduleFatal unit code synd) :=
  h.raise.abortJobs

/-- Without power memory and register file are empty; the counter of free values counts on. -/
theorem State.Keeps.powerLoss (h : s.Keeps t) : s.Keeps t.powerLoss :=
  ⟨fun _ => ⟨rfl, rfl⟩, h.pending, h.fuse, Nat.le_succ_of_le h.freeCtr⟩

/-- Without the rails memory is empty and the management domain's fields are left. -/
theorem State.Keeps.railsOff (h : s.Keeps t) : s.Keeps t.railsOff := by
  unfold State.railsOff
  refine State.Keeps.foldl (wf (wf (wf (wf (wf (wf (wf ⟨fun hs => ?_, h.pending, h.fuse, h.freeCtr⟩)))))))
    fun _ _ h1 => h1.wf.wf.wf.wf
  dsimp only [State.Inv]
  exact ⟨rfl, Tbl.sortedFrom_drop _ (h.inv hs).2⟩

theorem State.Keeps.startAt0 {vin} (h : s.Keeps t) : s.Keeps (t.startAt0 vin) :=
  h.powerLoss.upd.wf

theorem State.Keeps.tryStart {vin} (h : s.Keeps t) : s.Keeps (t.tryStart vin) :=
  ite h.startAt0 h

theorem State.Keeps.exec_powerUp {vin} (h : s.Keeps t) : Answers s (present t (.powerUp vin)) (exec (.powerUp vin) t) :=
  (ite h h.upd.tryStart).next

theorem State.Keeps.exec_powerDown (h : s.Keeps t) : Answers s (present t .powerDown) (exec .powerDown t) :=
  (ite h.upd h.upd.abortJobs.flushRecords.railsOff).next

theorem State.Keeps.exec_moduleReset (h : s.Keeps t) : Answers s (present t .moduleReset) (exec .moduleReset t) :=
  h.upd.powerLoss.next

theorem State.Keeps.exec_mgtResetRelease (h : s.Keeps t) : Answers s (present t .mgtResetRelease) (exec .mgtResetRelease t) :=
  h.upd.tryStart.next

theorem State.Keeps.exec_undervoltageTrip {vin} (h : s.Keeps t) :
    Answers s (present t (.undervoltageTrip vin)) (exec (.undervoltageTrip vin) t) :=
  (ite h (ite h.wf h.wf.upd)).next

theorem State.Keeps.exec_inputCutoff {vin} (h : s.Keeps t) : Answers s (present t (.inputCutoff vin)) (exec (.inputCutoff vin) t) :=
  (ite h (ite h.upd h.upd.upd.wf.moduleFatal.railsOff)).next

theorem State.Keeps.exec_inputVoltageReturn {vin} (h : s.Keeps t) :
    Answers s (present t (.inputVoltageReturn vin)) (exec (.inputVoltageReturn vin) t) :=
  (ite h h.upd.wf).next

theorem State.Keeps.exec_holdupExpire (h : s.Keeps t) : Answers s (present t .holdupExpire) (exec .holdupExpire t) :=
  h.upd.powerLoss.next

theorem State.Keeps.sensed {sn} (h : s.Keeps t) : s.Keeps (t.sensed sn) :=
  ite h.stackTemp h

theorem State.Keeps.onSensor {sn die stack} (h : s.Keeps t) (h' : s.Keeps u) :
    Answers s (t.siteExists sn.site && t.stackSite sn.site == sn.stack) (Machine.onSensor t sn die stack u) := by
  refine ⟨if t.boot = .off ∨ sn.temp < (if sn.stack then stack else die) then t else u, h.ite h', ?_⟩
  unfold Machine.onSensor
  rw [bne]
  cases t.siteExists sn.site with
  | false => rfl
  | true =>
    cases t.stackSite sn.site == sn.stack with
    | false => rfl
    | true => exact (apply_ite Host.Outcome.next _ _ _).symm

theorem State.Keeps.exec_thermalWarning {sn} (h : s.Keeps t) :
    Answers s (present t (.thermalWarning sn)) (exec (.thermalWarning sn) t) :=
  h.onSensor h.sensed.raise.platform

theorem State.Keeps.exec_thermalTrip {sn} (h : s.Keeps t) : Answers s (present t (.thermalTrip sn)) (exec (.thermalTrip sn) t) :=
  h.onSensor h.sensed.moduleFatal.flushRecords.railsOff.upd

theorem State.Keeps.exec_thermalTripUnlatch (h : s.Keeps t) :
    Answers s (present t .thermalTripUnlatch) (exec .thermalTripUnlatch t) :=
  (ite h h.upd).next

theorem State.Keeps.exec_sensorsBelow85c (h : s.Keeps t) : Answers s (present t .sensorsBelow85c) (exec .sensorsBelow85c t) :=
  h.upd.tryStart.next

theorem State.Keeps.setDead {a} (h : s.Keeps t) : s.Keeps (t.setDead a) := by
  unfold State.setDead
  split
  · exact h.wf.wf
  · exact h.wf
  · exact h.wf
  · exact h.wf
  · exact h.wf
  · exact h.wf

theorem State.Keeps.markDead {c} (h : s.Keeps t) : s.Keeps (t.markDead c) :=
  ite h h.setDead.moduleFatal

theorem State.Keeps.coastIf {edges} (h : s.Keeps t) : s.Keeps (t.coastIf edges) :=
  ite h.wf.wf.moduleFatal h

theorem State.Keeps.exec_clockMonitorWindow {dead edges} (h : s.Keeps t) :
    Answers s (present t (.clockMonitorWindow dead edges)) (exec (.clockMonitorWindow dead edges) t) :=
  (ite h (h.foldl fun _ _ h1 => h1.markDead).coastIf).answerUnless eq_true_iff_not

theorem State.Keeps.requestSw0 {sel} (h : s.Keeps t) : s.Keeps (t.requestSw0 sel) :=
  h.wf.wf.wf

theorem State.Keeps.requestSw1 (h : s.Keeps t) : s.Keeps t.requestSw1 :=
  ite h.wf.wf h

theorem State.Keeps.sw0Done (h : s.Keeps t) : s.Keeps t.sw0Done :=
  h.wf.wf.wf.wf.requestSw1

theorem State.Keeps.exec_crystalStable (h : s.Keeps t) : Answers s (present t .crystalStable) (exec .crystalStable t) :=
  (ite h h.wf.requestSw0.upd).next

theorem State.Keeps.exec_crystalTimeout (h : s.Keeps t) : Answers s (present t .crystalTimeout) (exec .crystalTimeout t) :=
  (ite h h.markDead).next

theorem State.Keeps.exec_rootPllLock (h : s.Keeps t) : Answers s (present t .rootPllLock) (exec .rootPllLock t) :=
  (ite h h.wf.requestSw1.upd).next

theorem State.Keeps.exec_clockSwitchRequest {a sel} (h : s.Keeps t) :
    Answers s (present t (.clockSwitchRequest a sel)) (exec (.clockSwitchRequest a sel) t) :=
  (ite h h.requestSw0).next

theorem State.Keeps.exec_clockSwitchDone {sw} (h : s.Keeps t) :
    Answers s (present t (.clockSwitchDone sw)) (exec (.clockSwitchDone sw) t) :=
  (ite (ite h h.sw0Done) (ite h h.wf.wf.wf.wf)).answerUnless decide_lt_iff

theorem State.Keeps.exec_clockSwitchStuck {sw} (h : s.Keeps t) :
    Answers s (present t (.clockSwitchStuck sw)) (exec (.clockSwitchStuck sw) t) :=
  (ite (ite h h.wf) (ite h h.wf.wf.wf.wf.wf.wf.upd)).answerUnless decide_lt_iff

theorem State.Keeps.exec_sw0Force {a} (h : s.Keeps t) : Answers s (present t (.sw0Force a)) (exec (.sw0Force a) t) :=
  (ite h (ite h.emit (ite h.sw0Done h))).next

theorem State.Keeps.exec_timebaseDiscipline {offset ppm synced} (h : s.Keeps t) :
    Answers s (present t (.timebaseDiscipline offset ppm synced)) (exec (.timebaseDiscipline offset ppm synced) t) :=
  (ite h (ite h.wf.wf h.wf.wf.inc)).next

theorem State.Keeps.showLimits {d} (h : s.Keeps t) : s.Keeps (t.showLimits d) :=
  h.wf.wf

theorem State.Keeps.exec_limitExceeded {d k} (h : s.Keeps t) :
    Answers s (present t (.limitExceeded d k)) (exec (.limitExceeded d k) t) :=
  (ite h h.upd.wf.showLimits).onPart

theorem State.Keeps.govRequests {r a} (h : s.Keeps t) : s.Keeps (t.govRequests r a) := by
  induction a generalizing t with
  | zero => exact h
  | succ n ih => exact ih h.govRequest

theorem State.Keeps.exec_limitCleared {d k} (h : s.Keeps t) :
    Answers s (present t (.limitCleared d k)) (exec (.limitCleared d k) t) :=
  (ite h (ite h.upd.showLimits.govRequests h.upd.showLimits)).onPart

theorem State.Keeps.governed {a} (h : s.Keeps t) : s.Keeps (t.governed a) := by
  unfold State.governed
  split
  · exact h.setGarnet
  · exact h.wf
  · exact h.wf
  · exact h

theorem State.Keeps.noteWait {n} (h : s.Keeps t) : s.Keeps (t.noteWait n) :=
  h.wf

theorem State.Keeps.grantWaiting {a} (h : s.Keeps t) : s.Keeps (t.grantWaiting a) := by
  induction a generalizing t with
  | nil => exact h.upd
  | cons x l ih => exact ite (ih h.upd.noteWait.governed) h.upd

theorem State.Keeps.newSlot (h : s.Keeps t) : s.Keeps t.newSlot :=
  h.upd.addf

theorem State.Keeps.exec_governorGrant {newSlot} (h : s.Keeps t) :
    Answers s (present t (.governorGrant newSlot)) (exec (.governorGrant newSlot) t) :=
  (ite h (ite h.newSlot h).grantWaiting).next

theorem State.Keeps.exec_dieWakeGrant {d} (h : s.Keeps t) : Answers s (present t (.dieWakeGrant d)) (exec (.dieWakeGrant d) t) := by
  show Answers s _ (execDieWakeGrant d t)
  unfold execDieWakeGrant
  refine onPart ?_
  split
  · exact h
  · exact ite h h.noteWait.upd.leaveOff

theorem State.Keeps.flushed {n} (h : s.Keeps t) : s.Keeps (t.flushed n) :=
  ite h.upd.flushRecords h.upd

theorem State.Keeps.entryDone {e} (h : s.Keeps t) : s.Keeps (t.entryDone e) :=
  ite h.upd.inc.flushed h.upd.inc

theorem State.Keeps.entryFails {e st second} (h : s.Keeps t) : s.Keeps (t.entryFails e st second) :=
  ite (ite h.upd.raise.flushed h.upd.raise) h.upd.raise

theorem State.Keeps.exec_flashOperationDone {ok} (h : s.Keeps t) :
    Answers s (present t (.flashOperationDone ok)) (exec (.flashOperationDone ok) t) := by
  show Answers s _ (execFlashOperationDone ok t)
  unfold execFlashOperationDone
  refine next ?_
  split
  · exact h
  · exact ite h.upd (ite h.entryFails (ite h.upd h.entryDone))
  · exact h.upd
  · exact h.upd
  · exact h.upd

theorem State.Keeps.scanFlash (h : s.Keeps t) : s.Keeps t.scanFlash :=
  h.addf.addf.upd

theorem State.Keeps.applyLog (h : s.Keeps t) : s.Keeps t.applyLog := by
  unfold State.applyLog
  extract_lets u1
  have h1 : s.Keeps u1 := by
    unfold u1
    split
    · exact h.upd
    · exact h
  split
  · exact h1.upd
  · exact h1

theorem State.Keeps.showBoot {c mcause} (h : s.Keeps t) : s.Keeps (t.showBoot c mcause) :=
  h.wf.wf.wf.wf.wf.wf.wf.wf

theorem State.Keeps.bootRecords {c mcause} (h : s.Keeps t) : s.Keeps (t.bootRecords c mcause) :=
  ite (ite h.raise h).raise (ite h.raise h)

theorem State.Keeps.bootPort {i} (h : s.Keeps t) : s.Keeps (t.bootPort i) :=
  ite h.wf.wf.wf (ite h.wf.wf.wf.wf h.wf.wf.wf.wf)

theorem State.Keeps.bootBundle {i} (h : s.Keeps t) : s.Keeps (t.bootBundle i) :=
  ite h.emptyBundle h

theorem State.Keeps.bootModule (h : s.Keeps t) : s.Keeps t.bootModule :=
  h.wf.wf.wf.wf.wf.wf.wf.foldl fun _ _ h1 => h1.setChan

theorem State.Keeps.bootPart {p} (h : s.Keeps t) : s.Keeps (t.bootPart p) := by
  unfold State.bootPart
  extract_lets u1
  have h1 : s.Keeps u1 := h.wf.wf
  split
  · exact h1.wf
  · exact h1.askDie

theorem State.Keeps.bootNow (h : s.Keeps t) : s.Keeps t.bootNow := by
  unfold State.bootNow
  extract_lets u1 _ _ _ u2 u3 _ u4 u5
  have h1 : s.Keeps u1 := h.scanFlash
  have h2 : s.Keeps u2 := h1.upd.applyLog
  have h3 : s.Keeps u3 := h2.showBoot.bootRecords
  have h4 : s.Keeps u4 := (h3.bootModule.foldl fun _ _ h1 => h1.bootPort).foldl fun _ _ h1 => h1.bootBundle
  have h5 : s.Keeps u5 := ite h3.upd h4.upd
  exact h5.foldl fun _ _ h6 => h6.bootPart

theorem State.Keeps.exec_bootChoice (h : s.Keeps t) : Answers s (present t .bootChoice) (exec .bootChoice t) :=
  (ite h.bootNow h).next

theorem State.Keeps.countSkips (h : s.Keeps t) : s.Keeps t.countSkips :=
  h.foldl fun _ _ h1 => ite h1 h1.inc

theorem State.Keeps.tick (h : s.Keeps t) : s.Keeps t.tick :=
  ite h (ite h.free.free.wf.wf.addf h.free.free.wf.wf.addf.countSkips)

/-! ### Register writes (Machine/RegWrite.lean) -/

theorem State.Keeps.resetWrite {a p k} (h : s.Keeps t) : s.Keeps (t.resetWrite a p k).1 :=
  ite_fst h.resetRequest (ite_fst (ite_fst h h.resetRequest) h)

theorem State.Keeps.queueWrite {p c e v} (h : s.Keeps t) : s.Keeps (t.queueWrite p c e v).1 :=
  ite_fst h (ite h.clearErr.settle h)

theorem State.Keeps.goWrite {p v} (h : s.Keeps t) : s.Keeps (t.goWrite p v).1 :=
  ite_fst h (ite_fst (ite h.openRound h) (ite_fst (ite h.openRound h) (ite h.openRound h).openReturn))

theorem State.Keeps.errHeld {p r q} (h : s.Keeps t) : s.Keeps (t.errHeld p r q) :=
  ite h.wf (ite h.wf h)

theorem State.Keeps.ctrlWrite {a p q v} (h : s.Keeps t) : s.Keeps (t.ctrlWrite a p q v).1 :=
  ite_fst (ite_fst h.openWrite h) (ite_fst h.openWrite h).closeWrite

theorem State.Keeps.seqWrite {a p q v mask} (h : s.Keeps t) : s.Keeps (t.seqWrite a p q v mask).1 :=
  ite_fst h (ite_fst h h.tailWrite)

theorem State.Keeps.tagWrite {p v} (h : s.Keeps t) : s.Keeps (t.tagWrite p v).1 :=
  ite_fst h (ite_fst h (ite_fst h h.startTag))

theorem State.Keeps.ckptWrite {p v} (h : s.Keeps t) : s.Keeps (t.ckptWrite p v).1 :=
  ite_fst h (ite (ite h.setStrata h).setStrata (ite h.setStrata h))

theorem State.Keeps.partWrite {a p off size v} (h : s.Keeps t) : s.Keeps (t.partWrite a p off size v).1 := by
  unfold State.partWrite
  extract_lets _ _ _ _ _ _
  refine ite_fst h.writeEnables ?_
  refine ite_fst h.resetWrite ?_
  refine ite_fst h.goWrite ?_
  refine ite_fst h.tagWrite ?_
  refine ite_fst h.ckptWrite ?_
  refine ite_fst ?_ ?_
  · split
    · exact h.updateBegin
    · exact h
  · refine ite_fst h.ctrlWrite ?_
    refine ite_fst h.seqWrite ?_
    split
    · exact h.queueWrite
    · exact h.regWrite.errHeld

theorem State.Keeps.portWrite {a i v mask} (h : s.Keeps t) : s.Keeps (t.portWrite a i v mask) := by
  unfold State.portWrite
  extract_lets u1 u2
  have h1 : s.Keeps u1 := ite (h.exec_zlkCtrlDisable.stateOr h) h
  have h2 : s.Keeps u2 := ite (h1.exec_zlkCtrlRetrain.stateOr h1) h1
  exact ite (h2.exec_zlkCtrlUnretire.stateOr h2) h2

theorem State.Keeps.sw0Write {a v mask} (h : s.Keeps t) : s.Keeps (t.sw0Write a v mask) := by
  unfold State.sw0Write
  extract_lets u1
  have h1 : s.Keeps u1 := ite (h.exec_clockSwitchRequest.stateOr h) h
  exact ite (h1.exec_sw0Force.stateOr h1) h1

theorem State.Keeps.spaceWrite {a off size v} (h : s.Keeps t) : s.Keeps (t.spaceWrite a off size v) :=
  ite h (ite h.sw0Write (ite h.portWrite h.mgmtWrite))

theorem State.Keeps.windowWrite {n off size v} (h : s.Keeps t) : s.Keeps (t.windowWrite n off size v) :=
  ite h.sqDoorbell (ite h.cqDoorbell h.pfWrite)

theorem State.Keeps.exec_registerWrite {agent sp off size val} (h : s.Keeps t) :
    Answers s (present t (.registerWrite agent sp off size val)) (exec (.registerWrite agent sp off size val) t) := by
  cases sp with
  | part p =>
    have he : execRegisterWrite agent (.part p) off size val t =
        if 16 ≤ p ∨ !t.agentOk p agent then .fault .noSuchUnit
        else .next (if agent = .pf16 then t else if !sizeOk off size then t.busErr p (regBase + off)
          else (t.partWrite agent p off size val).1.busErrIf (t.partWrite agent p off size val).2 p (regBase + off)) := by
      simp only [execRegisterWrite, apply_ite Host.Outcome.next]
    show Answers s (decide (p < 16) && t.agentOk p agent) (execRegisterWrite agent (.part p) off size val t)
    rw [he]
    exact answerUnless (ite h (ite h.busErr h.partWrite.busErrIf)) (by simp)
  | mgmt => exact next (ite h h.spaceWrite)
  | pfWin n =>
    have hb : (decide (n < 16) && true) = true ↔ ¬ 16 ≤ n := by rw [Bool.and_true, decide_lt_iff]
    exact answerUnless (ite h h.windowWrite) hb

theorem State.Keeps.exec_queueErrClear {agent p c eng} (h : s.Keeps t) :
    Answers s (present t (.queueErrClear agent p c eng)) (exec (.queueErrClear agent p c eng) t) := by
  show Answers s (_ && _) (execQueueErrClear agent p c eng t)
  unfold execQueueErrClear
  by_cases he : 3 ≤ eng
  · exact ⟨t, h, by simp [he]⟩
  · have hc : Answers s _ (Machine.onCore t p c (if agent = .pf16 then t
        else (t.queueWrite p c eng (2 ^ 55)).1.busErrIf (t.queueWrite p c eng (2 ^ 55)).2 p
          (regBase + 0x03000010 + 0x10000 * c + 8 * eng))) := onCore (ite h h.queueWrite.busErrIf)
    rw [if_neg he]
    simpa [Nat.not_le.mp he] using hc

/-! ### The Flint control core (Machine/Flint.lean) -/

theorem State.Keeps.flintFault {p c cause} (h : s.Keeps t) : s.Keeps (t.flintFault p c cause) :=
  h.haltFlint.fatal

theorem State.Keeps.setPcF {p c pc} (h : s.Keeps t) : s.Keeps (t.setPcF p c pc) :=
  h.setFlint

theorem State.Keeps.wrNext {p c rd v len} (h : s.Keeps t) : s.Keeps (t.wrNext p c rd v len) :=
  h.flintReg.setPcF

theorem State.Keeps.baseInstr {p c i len} (h : s.Keeps t) : s.Keeps (t.baseInstr p c i len) := by
  unfold State.baseInstr
  extract_lets _ _
  split
  · exact h.wrNext
  · exact h.wrNext
  · exact h.wrNext
  · exact h.wrNext
  · exact h.flintReg.setPcF
  · exact h.flintReg.setPcF
  · exact h.setPcF
  · exact h.setPcF
  · extract_lets _
    split
    · exact h
    · exact ite h.flintFault h.wrNext
    · exact ite h.flintFault h.wrNext
    · exact h.flintFault
  · extract_lets _
    split
    · exact h
    · exact ite h.flintFault h.setFlint
    · exact h.flintFault
  · exact h
  · exact h
  · exact h

theorem State.Keeps.exec_flintBaseInstruction {p c cycles} (h : s.Keeps t) :
    Answers s (present t (.flintBaseInstruction p c cycles)) (exec (.flintBaseInstruction p c cycles) t) := by
  show Answers s _ (execFlintBaseInstruction p c cycles t)
  unfold execFlintBaseInstruction
  refine onCore ?_
  refine ite h ?_
  extract_lets u1
  have h1 : s.Keeps u1 := h.addf
  split
  · exact h1.flintFault
  · exact h1.flintFault
  · exact ite h1.baseInstr h

theorem State.Keeps.exec_ecall {p c} (h : s.Keeps t) : Answers s (present t (.ecall p c)) (exec (.ecall p c) t) := by
  show Answers s _ (execEcall p c t)
  unfold execEcall
  refine onCore ?_
  split
  · exact h.haltFlint
  · exact h

theorem State.Keeps.exec_ebreak {p c} (h : s.Keeps t) : Answers s (present t (.ebreak p c)) (exec (.ebreak p c) t) := by
  show Answers s _ (execEbreak p c t)
  unfold execEbreak
  refine onCore ?_
  split
  · exact h.haltFlint
  · exact h

theorem State.Keeps.inFlight {p c a} (h : s.Keeps t) : s.Keeps (t.inFlight p c a) :=
  h.setFlint

theorem State.Keeps.loadDue {p c rd ad v fault} (h : s.Keeps t) : s.Keeps (t.loadDue p c rd ad v fault) :=
  h.inFlight

theorem State.Keeps.loadBus {p c rd ad} (h : s.Keeps t) : s.Keeps (t.loadBus p c rd ad) :=
  h.busErr.loadDue

theorem State.Keeps.loadMem {p c sz sg rd ad es} (h : s.Keeps t) : s.Keeps (t.loadMem p c sz sg rd ad es) :=
  ite h.loadBus (ite h.loadDue (ite h.eccBlock.loadDue.startWave (ite h.eccBlock.loadDue h.eccBlock.checkFailRec.loadDue)))

theorem State.Keeps.exec_flintLoad {p c cycles es} (h : s.Keeps t) :
    Answers s (present t (.flintLoad p c cycles es)) (exec (.flintLoad p c cycles es) t) := by
  show Answers s _ (execFlintLoad p c cycles es t)
  unfold execFlintLoad
  refine onCore ?_
  split
  · extract_lets _ u1
    have h1 : s.Keeps u1 := h.addf
    refine ite h ?_
    refine ite h1.flintFault ?_
    split
    · exact h1.loadBus
    · exact h1.loadBus
    · exact h1.loadMem
    · exact h1.loadMem
    · split
      · exact h1.loadDue
      · exact h1.loadBus
  · exact h

theorem State.Keeps.storeDue {p c ad len barrier fault} (h : s.Keeps t) : s.Keeps (t.storeDue p c ad len barrier fault) :=
  h.inFlight.setPcF

theorem State.Keeps.storeBus {p c ad len barrier} (h : s.Keeps t) : s.Keeps (t.storeBus p c ad len barrier) :=
  h.busErr.storeDue

theorem State.Keeps.storeMem {p c ad bs len es} (h : s.Keeps t) : s.Keeps (t.storeMem p c ad bs len es) :=
  ite h.storeBus
    (ite h.storeDue (ite h.eccBlock.storeDue.startWave (ite h.eccBlock.mergeWrite.storeDue h.eccBlock.checkFailRec.storeDue)))

theorem State.Keeps.faultLast {p c fault} (h : s.Keeps t) : s.Keeps (t.faultLast p c fault) :=
  h.setFlint

theorem State.Keeps.exec_flintStore {p c cycles es} (h : s.Keeps t) :
    Answers s (present t (.flintStore p c cycles es)) (exec (.flintStore p c cycles es) t) := by
  show Answers s _ (execFlintStore p c cycles es t)
  unfold execFlintStore
  refine onCore ?_
  split
  · extract_lets _ _ u1 _
    have h1 : s.Keeps u1 := h.addf
    refine ite h ?_
    refine ite h1.flintFault ?_
    split
    · exact h1.storeBus
    · exact h1.storeBus
    · exact h1.storeMem
    · exact h1.storeMem
    · exact ite h1.storeDue.partWrite.busErr.faultLast h1.storeDue.partWrite
  · exact h

theorem State.Keeps.exec_flintAccessComplete {p c cycles} (h : s.Keeps t) :
    Answers s (present t (.flintAccessComplete p c cycles)) (exec (.flintAccessComplete p c cycles) t) := by
  show Answers s _ (execFlintAccessComplete p c cycles t)
  unfold execFlintAccessComplete
  refine onCore ?_
  extract_lets _
  split
  · exact h
  · extract_lets u1
    have h1 : s.Keeps u1 := h.setFlint.addf
    refine ite h1.flintFault ?_
    refine ite ?_ h1
    split
    · exact h1.wrNext
    · exact h1

theorem State.Keeps.stallIn {p c st} (h : s.Keeps t) : s.Keeps (t.stallIn p c st) :=
  h.setFlint.wf

theorem State.Keeps.enqueueNow {p c eng kind ws rd} (h : s.Keeps t) : s.Keeps (t.enqueueNow p c eng kind ws rd) :=
  (ite h.enqueue.setFlint h.enqueue).flintReturn.addf.settle

theorem State.Keeps.enqueueOr {p c eng kind ws rd} (h : s.Keeps t) : s.Keeps (t.enqueueOr p c eng kind ws rd) :=
  ite h.enqueueNow h.stallIn

theorem State.Keeps.exec_tque {p c} (h : s.Keeps t) : Answers s (present t (.tque p c)) (exec (.tque p c) t) := by
  show Answers s _ (execTque p c t)
  unfold execTque
  refine onCore ?_
  split
  · split
    · exact h.flintFault
    · exact h.enqueueOr
  · exact h

theorem State.Keeps.exec_mode {p c} (h : s.Keeps t) : Answers s (present t (.mode p c)) (exec (.mode p c) t) := by
  show Answers s _ (execMode p c t)
  unfold execMode
  refine onCore ?_
  split
  · exact h.enqueueOr
  · exact h

theorem State.Keeps.exec_seedld {p c} (h : s.Keeps t) : Answers s (present t (.seedld p c)) (exec (.seedld p c) t) := by
  show Answers s _ (execSeedld p c t)
  unfold execSeedld
  refine onCore ?_
  split
  · exact h.enqueueOr
  · exact h

theorem State.Keeps.exec_tqueResume {p c stalled} (h : s.Keeps t) :
    Answers s (present t (.tqueResume p c stalled)) (exec (.tqueResume p c stalled) t) := by
  show Answers s _ (execTqueResume p c stalled t)
  unfold execTqueResume
  refine onCore ?_
  split
  · exact ite h.addf.enqueueNow h
  · exact h

theorem State.Keeps.exec_twait {p c} (h : s.Keeps t) : Answers s (present t (.twait p c)) (exec (.twait p c) t) := by
  show Answers s _ (execTwait p c t)
  unfold execTwait
  refine onCore ?_
  split
  · exact ite h.flintReturn.inc h.stallIn
  · exact h

theorem State.Keeps.exec_twaitResume {p c stalled} (h : s.Keeps t) :
    Answers s (present t (.twaitResume p c stalled)) (exec (.twaitResume p c stalled) t) := by
  show Answers s _ (execTwaitResume p c stalled t)
  unfold execTwaitResume
  refine onCore ?_
  split
  · exact ite h.addf.flintReturn h
  · exact h

theorem State.Keeps.exec_sumrd {p c} (h : s.Keeps t) : Answers s (present t (.sumrd p c)) (exec (.sumrd p c) t) := by
  show Answers s _ (execSumrd p c t)
  unfold execSumrd
  refine onCore ?_
  split
  · split
    · exact h.flintFault
    · exact h.stallIn
  · exact h

theorem State.Keeps.exec_sumrdResume {p c stalled} (h : s.Keeps t) :
    Answers s (present t (.sumrdResume p c stalled)) (exec (.sumrdResume p c stalled) t) := by
  show Answers s _ (execSumrdResume p c stalled t)
  unfold execSumrdResume
  refine onCore ?_
  split
  · exact ite h h.setFlint.addf.flintReturn
  · exact h

theorem State.Keeps.exec_stepb {p c} (h : s.Keeps t) : Answers s (present t (.stepb p c)) (exec (.stepb p c) t) := by
  show Answers s _ (execStepb p c t)
  unfold execStepb
  refine onCore ?_
  split
  · exact h.stallIn
  · exact h

theorem State.Keeps.reportStep {p c step rd} (h : s.Keeps t) : s.Keeps (t.reportStep p c step rd) :=
  h.setFlint.setStrata

theorem State.Keeps.exec_stepbReport {p c stalled} (h : s.Keeps t) :
    Answers s (present t (.stepbReport p c stalled)) (exec (.stepbReport p c stalled) t) := by
  show Answers s _ (execStepbReport p c stalled t)
  unfold execStepbReport
  refine onCore ?_
  split
  · refine ite h ?_
    extract_lets u1
    have h1 : s.Keeps u1 := h.addf
    split
    · exact h1.flintReturn
    · exact ite h1.reportStep h1.flintReturn.startWave
  · exact h

/-! ### Garnet passes (Machine/Garnet.lean) -/

theorem State.Keeps.garnetBusy {p c} (h : s.Keeps t) : s.Keeps (t.garnetBusy p c) :=
  h.wf

theorem State.Keeps.putGarnet {p c g} (h : s.Keeps t) : s.Keeps (t.putGarnet p c g) :=
  h.setGarnet.garnetBusy

theorem State.Keeps.loadCells {p c o ls es} (h : s.Keeps t) : (t.loadCells p c o ls es).Kept s :=
  LoadAns.Kept.ite h.verify (LoadAns.Kept.ite h h.verify)

theorem State.Keeps.streamGroup {p c t3 m0 kt rm first n o es} (h : s.Keeps t) :
    (t.streamGroup p c t3 m0 kt rm first n o es).Kept s := by
  unfold State.streamGroup
  split
  · exact h
  · exact GroupAns.Kept.ite h.verify h.verify

theorem State.Keeps.streamAll {p c n m0 kt rm o es f first left} (h : s.Keeps t) :
    s.Keeps (t.streamAll p c n m0 kt rm o es f first left).1 := by
  induction f generalizing t first left with
  | zero => exact h
  | succ f ih =>
    unfold State.streamAll
    refine ite_fst h ?_
    split
    · next e => exact h.streamGroup.of_fail e
    · next e => exact ih (h.streamGroup.of_ok e)

theorem State.Keeps.enterPass {p c q loadCycles} (h : s.Keeps t) : s.Keeps (t.enterPass p c q loadCycles) :=
  ite h.addf.finish h.addf.putGarnet

theorem State.Keeps.passGo {p c sq m es} (h : s.Keeps t) : s.Keeps (t.passGo p c sq m es) := by
  unfold State.passGo
  refine ite h.finish (ite h.finish ?_)
  split
  · exact h.finish
  · refine ite h.finish ?_
    split
    · next e => exact (LoadAns.Kept.of_fail (.ite h.load_ok h.loadCells) e).finish
    · next u _ e =>
      have h1 : s.Keeps u := LoadAns.Kept.of_ok (.ite h.load_ok h.loadCells) e
      refine ite (ite h1 h1.setLoaded).inc.enterPass ?_
      split
      next u2 _ _ e2 =>
        have h2 : s.Keeps u2 := h1.streamAll.of_fst e2
        exact ite h2.finish (ite h2 h2.setLoaded).addf.enterPass

theorem State.Keeps.exec_garnetPass {p c sq stalled es} (h : s.Keeps t) :
    Answers s (present t (.garnetPass p c sq stalled es)) (exec (.garnetPass p c sq stalled es) t) := by
  show Answers s _ (execGarnetPass p c sq stalled es t)
  unfold execGarnetPass
  refine onCore ?_
  split
  · exact h
  · exact ite h (ite h.start.addf.finish h.start.addf.passGo)

theorem State.Keeps.commitGroup {p c t3 q g} (h : s.Keeps t) : s.Keeps (t.commitGroup p c t3 q g) :=
  h.upd.addf

theorem State.Keeps.dropGroup {p c sq first recomp} (h : s.Keeps t) : s.Keeps (t.dropGroup p c sq first recomp) :=
  ite h.putGarnet.finish h.putGarnet

theorem State.Keeps.failPassWith {p c sq st} (h : s.Keeps t) : s.Keeps (t.failPassWith p c sq st) :=
  h.wf.putGarnet.finish

theorem State.Keeps.failPass {p c sq} (h : s.Keeps t) : s.Keeps (t.failPass p c sq) :=
  h.failPassWith

theorem State.Keeps.accEcc1 {p c a width w synd fixed} (h : s.Keeps t) : s.Keeps (t.accEcc1 p c a width w synd fixed) :=
  ite h.inc.raise h.wf.fatal

theorem State.Keeps.accEcc {p c width reads es} (h : s.Keeps t) : s.Keeps (t.accEcc p c width reads es) :=
  h.foldl fun _ _ h1 => h1.accEcc1

theorem State.Keeps.exec_checkGroupCommit {p c a res acc} (h : s.Keeps t) :
    Answers s (present t (.checkGroupCommit p c a res acc)) (exec (.checkGroupCommit p c a res acc) t) := by
  show Answers s _ (execCheckGroupCommit p c a res acc t)
  unfold execCheckGroupCommit
  refine onCore ?_
  split
  · exact h
  · split
    · exact h
    · extract_lets _ _ u1 u2 u3 u4 _
      have h1 : s.Keeps u1 := h.addf
      have h2 : s.Keeps u2 := h1.accEcc
      have h3 : s.Keeps u3 := h2.wf.wf
      have h4 : s.Keeps u4 := h3.wf
      refine ite h1.failPass.accEcc ?_
      split
      · exact h1.accEcc.commitGroup.dropGroup
      · exact ite h h4.setGarnet

theorem State.Keeps.exec_checkGroupRecompute {p c a res acc es} (h : s.Keeps t) :
    Answers s (present t (.checkGroupRecompute p c a res acc es)) (exec (.checkGroupRecompute p c a res acc es) t) := by
  refine onCore ?_
  split
  · exact h
  · split
    · extract_lets _ _ _ u u1
      have h1 : s.Keeps u1 := h.addf.addf.wf
      split
      · next e => exact (GroupAns.Kept.of_fail (.ite h1.streamGroup h1.group_ok) e).failPassWith
      · next u2 _ e =>
        have h2 : s.Keeps u2 := GroupAns.Kept.of_ok (.ite h1.streamGroup h1.group_ok) e
        refine ite h2.failPass.accEcc ?_
        split
        · exact h2.accEcc.inc.transRec.commitGroup.dropGroup
        · exact h2.accEcc.wf.wf.wf.failPass.raise.retireCore.startWave
    · exact h

theorem State.Keeps.clearArrays {p c} (h : s.Keeps t) : s.Keeps (t.clearArrays p c) :=
  h.upd

theorem State.Keeps.exec_modeSwitch {p c stalled} (h : s.Keeps t) :
    Answers s (present t (.modeSwitch p c stalled)) (exec (.modeSwitch p c stalled) t) := by
  show Answers s _ (execModeSwitch p c stalled t)
  unfold execModeSwitch
  refine onCore ?_
  split
  · exact h
  · split
    · exact ite h.finish h.clearArrays.addf.wf.inc.wf.finish
    · exact h

theorem State.Keeps.exec_arrayIdleGate {p c a} (h : s.Keeps t) :
    Answers s (present t (.arrayIdleGate p c a)) (exec (.arrayIdleGate p c a) t) :=
  (ite h (ite h.wf.govRequest h.wf)).onCore

theorem State.Keeps.exec_arrayWakeDone {p c waited} (h : s.Keeps t) :
    Answers s (present t (.arrayWakeDone p c waited)) (exec (.arrayWakeDone p c waited) t) :=
  (ite h h.setGarnet.wf.addf).onCore

/-! ### The Garnet store path (Machine/GarnetStore.lean) -/

theorem State.Keeps.exec_garnetStore {p c sq stalled order acc es} (h : s.Keeps t) :
    Answers s (present t (.garnetStore p c sq stalled order acc es)) (exec (.garnetStore p c sq stalled order acc es) t) := by
  show Answers s _ (execGarnetStore p c sq stalled order acc es t)
  unfold execGarnetStore
  refine onCore ?_
  split
  · exact h
  · extract_lets _ _ _ _ u1 _ _
    have h1 : s.Keeps u1 := h.start.addf
    exact ite h
      (ite h1.finish (ite h1.verify.finish (ite h1.verify.finish.accEcc (ite h1.verify.accEcc.ndet h1.verify.accEcc).putGarnet)))

theorem State.Keeps.readOr {p c ws maps rcs es} (h : s.Keeps t) : (t.readOr p c ws maps rcs es).Kept s :=
  ReadAns.Kept.ite h h.readList

theorem State.Keeps.storeEnd {p c sq st} (h : s.Keeps t) : s.Keeps (t.storeEnd p c sq st) :=
  h.putGarnet.finish

theorem State.Keeps.storeGo {p c x es} (h : s.Keeps t) : s.Keeps (t.storeGo p c x es) := by
  unfold State.storeGo
  extract_lets _ _ _ _
  split
  · next u1 _ e1 =>
      have h1 : s.Keeps u1 := h.readOr.of_fail e1
      exact h1.storeEnd
  · next u1 _ e1 =>
      have h1 : s.Keeps u1 := h.readOr.of_ok e1
      split
      · next u2 _ e2 =>
          have h2 : s.Keeps u2 := h1.readOr.of_fail e2
          exact h2.storeEnd
      · next u2 _ e2 =>
          have h2 : s.Keeps u2 := h1.readOr.of_ok e2
          extract_lets _ _ _ u3 u4 _ _ u5
          have h3 : s.Keeps u3 := h2.addf
          have h4 : s.Keeps u4 := h3.addf
          have h5 : s.Keeps u5 := ite h4.inc h4
          split
          · next u6 _ e6 =>
              have h6 : s.Keeps u6 := h5.build.of_fail e6
              exact h6.storeEnd
          · next u6 _ e6 =>
              have h6 : s.Keeps u6 := h5.build.of_ok e6
              exact h6.writeSet.storeEnd

theorem State.Keeps.exec_garnetStoreComplete {p c sq busy es} (h : s.Keeps t) :
    Answers s (present t (.garnetStoreComplete p c sq busy es)) (exec (.garnetStoreComplete p c sq busy es) t) := by
  show Answers s _ (execGarnetStoreComplete p c sq busy es t)
  unfold execGarnetStoreComplete
  refine onCore ?_
  split
  · exact h
  · exact h.addf.storeGo

/-! ### Mica (Machine/Mica.lean) -/

theorem State.Keeps.putSummary {p c n fold x} (h : s.Keeps t) : s.Keeps (t.putSummary p c n fold x) :=
  h.wf.wf.wf.wf.wf.wf.wf

theorem State.Keeps.micaStart {p c mop sub bf cost} {body : State → MCmd → MAns} (h : s.Keeps t)
    (hb : ∀ u m, s.Keeps u → (body u m).Kept s) : s.Keeps (t.micaStart p c mop sub bf cost body) := by
  unfold State.micaStart
  split
  · exact h
  · refine ite h (ite h.start.finish ?_)
    split
    · next e => exact ((hb _ _ h.start).of_fail e).finish
    · next e => exact ((hb _ _ h.start).of_ok e).setStage.wf

theorem State.Keeps.elementwise {p c f m} (h : s.Keeps t) : (t.elementwise p c f m).Kept s :=
  h

theorem State.Keeps.arith {p c f m} (h : s.Keeps t) : (t.arith p c f m).Kept s :=
  h.elementwise

theorem State.Keeps.compare {p c f m} (h : s.Keeps t) : (t.compare p c f m).Kept s :=
  h.elementwise

theorem State.Keeps.unary32 {p c f m} (h : s.Keeps t) : (t.unary32 p c f m).Kept s :=
  h.elementwise

theorem State.Keeps.cvtBody {p c m} (h : s.Keeps t) : (t.cvtBody p c m).Kept s :=
  MAns.Kept.ite h h

theorem State.Keeps.widenBody {p c m} (h : s.Keeps t) : (t.widenBody p c m).Kept s :=
  MAns.Kept.ite h h.elementwise

theorem State.Keeps.randomBody {p c f m} (h : s.Keeps t) : (t.randomBody p c f m).Kept s :=
  MAns.Kept.ite h h.elementwise

theorem State.Keeps.reduceBody {p c op rows m} (h : s.Keeps t) : (t.reduceBody p c op rows m).Kept s :=
  h

theorem State.Keeps.tldBody {p c es m} (h : s.Keeps t) : (t.tldBody p c es m).Kept s := by
  unfold State.tldBody
  refine MAns.Kept.ite h ?_
  extract_lets _
  split
  · next u1 _ e1 =>
      have h1 : s.Keeps u1 := h.readList.of_fail e1
      exact h1
  · next u1 _ e1 =>
      have h1 : s.Keeps u1 := h.readList.of_ok e1
      exact h1

theorem State.Keeps.tstBody {p c es m} (h : s.Keeps t) : (t.tstBody p c es m).Kept s := by
  unfold State.tstBody
  extract_lets _ _
  refine MAns.Kept.ite h ?_
  split
  · next u1 _ e1 =>
      have h1 : s.Keeps u1 := h.build.of_fail e1
      exact h1
  · next u1 _ e1 =>
      have h1 : s.Keeps u1 := h.build.of_ok e1
      exact h1

theorem State.Keeps.transBody {p c m} (h : s.Keeps t) : (t.transBody p c m).Kept s :=
  h.elementwise

theorem State.Keeps.micaDone {p c g} (h : s.Keeps t) : s.Keeps (t.micaDone p c g) := by
  unfold State.micaDone
  extract_lets u1
  have h1 : s.Keeps u1 := h.upd
  split
  next u2 _ e2 =>
    have h2 : s.Keeps u2 := h1.writeSet.of_fst e2
    extract_lets u3 u4 u5
    have h3 : s.Keeps u3 := by
      unfold u3
      split
      · exact ite h2 h2.putSummary
      · exact h2
    have h4 : s.Keeps u4 := ite h3.inc h3
    have h5 : s.Keeps u5 := h4.inc.wf.wf
    exact h5.setStage.finish

theorem State.Keeps.micaPerm {p c g} (h : s.Keeps t) : s.Keeps (t.micaPerm p c g) :=
  h.wf.wf.wf.setStage.finish.raise.retireCore.startWave

theorem State.Keeps.exec_micaCommit {p c waited res} (h : s.Keeps t) :
    Answers s (present t (.micaCommit p c waited res)) (exec (.micaCommit p c waited res) t) := by
  show Answers s _ (execMicaCommit p c waited res t)
  unfold execMicaCommit
  refine onCore ?_
  split
  · exact h
  · refine ite h ?_
    extract_lets u1
    have h1 : s.Keeps u1 := h.addf.addf
    split
    · exact h1.micaDone
    · exact h1.wf.wf.setStage

theorem State.Keeps.exec_micaRetry {p c res} (h : s.Keeps t) :
    Answers s (present t (.micaRetry p c res)) (exec (.micaRetry p c res) t) := by
  show Answers s _ (execMicaRetry p c res t)
  unfold execMicaRetry
  refine onCore ?_
  split
  · exact h
  · refine ite h ?_
    extract_lets u1
    have h1 : s.Keeps u1 := h.addf
    split
    · exact h1.inc.transRec.micaDone
    · exact h1.wf.micaPerm

theorem State.Keeps.exec_micaIdleGate {p c} (h : s.Keeps t) :
    Answers s (present t (.micaIdleGate p c)) (exec (.micaIdleGate p c) t) :=
  (ite h h.wf.govRequest).onCore

theorem State.Keeps.micaRow {p c mop sub bf cost} {body : State → MCmd → MAns} (h : s.Keeps t)
    (hb : ∀ u m, s.Keeps u → (body u m).Kept s) :
    Answers s (decide (p < 16) && decide (c < t.lcores p)) (Machine.micaRow p c mop sub bf cost body t) :=
  (h.micaStart hb).onCore

theorem State.Keeps.exec_add {p c} (h : s.Keeps t) : Answers s (present t (.add p c)) (exec (.add p c) t) :=
  h.micaRow fun _ _ h1 => h1.arith

theorem State.Keeps.exec_sub {p c} (h : s.Keeps t) : Answers s (present t (.sub p c)) (exec (.sub p c) t) :=
  h.micaRow fun _ _ h1 => h1.arith

theorem State.Keeps.exec_mul {p c} (h : s.Keeps t) : Answers s (present t (.mul p c)) (exec (.mul p c) t) :=
  h.micaRow fun _ _ h1 => h1.arith

theorem State.Keeps.exec_fma {p c} (h : s.Keeps t) : Answers s (present t (.fma p c)) (exec (.fma p c) t) :=
  h.micaRow fun _ _ h1 => h1.arith

theorem State.Keeps.exec_max {p c} (h : s.Keeps t) : Answers s (present t (.max p c)) (exec (.max p c) t) :=
  h.micaRow fun _ _ h1 => h1.arith

theorem State.Keeps.exec_min {p c} (h : s.Keeps t) : Answers s (present t (.min p c)) (exec (.min p c) t) :=
  h.micaRow fun _ _ h1 => h1.arith

theorem State.Keeps.exec_abs {p c} (h : s.Keeps t) : Answers s (present t (.abs p c)) (exec (.abs p c) t) :=
  h.micaRow fun _ _ h1 => h1.arith

theorem State.Keeps.exec_neg {p c} (h : s.Keeps t) : Answers s (present t (.neg p c)) (exec (.neg p c) t) :=
  h.micaRow fun _ _ h1 => h1.arith

theorem State.Keeps.exec_div {p c} (h : s.Keeps t) : Answers s (present t (.div p c)) (exec (.div p c) t) :=
  h.micaRow fun _ _ h1 => h1.arith

theorem State.Keeps.exec_rcp {p c} (h : s.Keeps t) : Answers s (present t (.rcp p c)) (exec (.rcp p c) t) :=
  h.micaRow fun _ _ h1 => h1.arith

theorem State.Keeps.exec_sqrt {p c} (h : s.Keeps t) : Answers s (present t (.sqrt p c)) (exec (.sqrt p c) t) :=
  h.micaRow fun _ _ h1 => h1.arith

theorem State.Keeps.exec_cmplt {p c} (h : s.Keeps t) : Answers s (present t (.cmplt p c)) (exec (.cmplt p c) t) :=
  h.micaRow fun _ _ h1 => h1.compare

theorem State.Keeps.exec_cmple {p c} (h : s.Keeps t) : Answers s (present t (.cmple p c)) (exec (.cmple p c) t) :=
  h.micaRow fun _ _ h1 => h1.compare

theorem State.Keeps.exec_cmpeq {p c} (h : s.Keeps t) : Answers s (present t (.cmpeq p c)) (exec (.cmpeq p c) t) :=
  h.micaRow fun _ _ h1 => h1.compare

theorem State.Keeps.exec_sel {p c} (h : s.Keeps t) : Answers s (present t (.sel p c)) (exec (.sel p c) t) :=
  h.micaRow fun _ _ h1 => h1.elementwise

theorem State.Keeps.exec_exp {p c} (h : s.Keeps t) : Answers s (present t (.exp p c)) (exec (.exp p c) t) :=
  h.micaRow fun _ _ h1 => h1.unary32

theorem State.Keeps.exec_exps {p c} (h : s.Keeps t) : Answers s (present t (.exps p c)) (exec (.exps p c) t) :=
  h.micaRow fun _ _ h1 => h1.elementwise

theorem State.Keeps.exec_log {p c} (h : s.Keeps t) : Answers s (present t (.log p c)) (exec (.log p c) t) :=
  h.micaRow fun _ _ h1 => h1.unary32

theorem State.Keeps.exec_rsqrt {p c} (h : s.Keeps t) : Answers s (present t (.rsqrt p c)) (exec (.rsqrt p c) t) :=
  h.micaRow fun _ _ h1 => h1.unary32

theorem State.Keeps.exec_tanh {p c} (h : s.Keeps t) : Answers s (present t (.tanh p c)) (exec (.tanh p c) t) :=
  h.micaRow fun _ _ h1 => h1.unary32

theorem State.Keeps.exec_erf {p c} (h : s.Keeps t) : Answers s (present t (.erf p c)) (exec (.erf p c) t) :=
  h.micaRow fun _ _ h1 => h1.unary32

theorem State.Keeps.exec_sigmoid {p c} (h : s.Keeps t) : Answers s (present t (.sigmoid p c)) (exec (.sigmoid p c) t) :=
  h.micaRow fun _ _ h1 => h1.unary32

theorem State.Keeps.exec_cvt {p c} (h : s.Keeps t) : Answers s (present t (.cvt p c)) (exec (.cvt p c) t) :=
  h.micaRow fun _ _ h1 => h1.cvtBody

theorem State.Keeps.exec_widen {p c} (h : s.Keeps t) : Answers s (present t (.widen p c)) (exec (.widen p c) t) :=
  h.micaRow fun _ _ h1 => h1.widenBody

theorem State.Keeps.exec_rndu {p c} (h : s.Keeps t) : Answers s (present t (.rndu p c)) (exec (.rndu p c) t) :=
  h.micaRow fun _ _ h1 => h1.randomBody

theorem State.Keeps.exec_rndb {p c} (h : s.Keeps t) : Answers s (present t (.rndb p c)) (exec (.rndb p c) t) :=
  h.micaRow fun _ _ h1 => h1.randomBody

theorem State.Keeps.exec_rndn {p c} (h : s.Keeps t) : Answers s (present t (.rndn p c)) (exec (.rndn p c) t) :=
  h.micaRow fun _ _ h1 => h1.randomBody

theorem State.Keeps.exec_gumbel {p c} (h : s.Keeps t) : Answers s (present t (.gumbel p c)) (exec (.gumbel p c) t) :=
  h.micaRow fun _ _ h1 => h1.randomBody

theorem State.Keeps.exec_rawbits {p c} (h : s.Keeps t) : Answers s (present t (.rawbits p c)) (exec (.rawbits p c) t) :=
  h.micaRow fun _ _ h1 => h1.randomBody

theorem State.Keeps.exec_rsum {p c} (h : s.Keeps t) : Answers s (present t (.rsum p c)) (exec (.rsum p c) t) :=
  h.micaRow fun _ _ h1 => h1.reduceBody

theorem State.Keeps.exec_rmax {p c} (h : s.Keeps t) : Answers s (present t (.rmax p c)) (exec (.rmax p c) t) :=
  h.micaRow fun _ _ h1 => h1.reduceBody

theorem State.Keeps.exec_rmin {p c} (h : s.Keeps t) : Answers s (present t (.rmin p c)) (exec (.rmin p c) t) :=
  h.micaRow fun _ _ h1 => h1.reduceBody

theorem State.Keeps.exec_rcnt {p c} (h : s.Keeps t) : Answers s (present t (.rcnt p c)) (exec (.rcnt p c) t) :=
  h.micaRow fun _ _ h1 => h1.reduceBody

theorem State.Keeps.exec_rargmax {p c} (h : s.Keeps t) : Answers s (present t (.rargmax p c)) (exec (.rargmax p c) t) :=
  h.micaRow fun _ _ h1 => h1.reduceBody

theorem State.Keeps.exec_csum {p c} (h : s.Keeps t) : Answers s (present t (.csum p c)) (exec (.csum p c) t) :=
  h.micaRow fun _ _ h1 => h1.reduceBody

theorem State.Keeps.exec_cmax {p c} (h : s.Keeps t) : Answers s (present t (.cmax p c)) (exec (.cmax p c) t) :=
  h.micaRow fun _ _ h1 => h1.reduceBody

theorem State.Keeps.exec_cmin {p c} (h : s.Keeps t) : Answers s (present t (.cmin p c)) (exec (.cmin p c) t) :=
  h.micaRow fun _ _ h1 => h1.reduceBody

theorem State.Keeps.exec_ccnt {p c} (h : s.Keeps t) : Answers s (present t (.ccnt p c)) (exec (.ccnt p c) t) :=
  h.micaRow fun _ _ h1 => h1.reduceBody

theorem State.Keeps.exec_cargmax {p c} (h : s.Keeps t) : Answers s (present t (.cargmax p c)) (exec (.cargmax p c) t) :=
  h.micaRow fun _ _ h1 => h1.reduceBody

theorem State.Keeps.exec_tld {p c es} (h : s.Keeps t) : Answers s (present t (.tld p c es)) (exec (.tld p c es) t) := by
  show Answers s _ (execTld p c es t)
  unfold execTld
  refine onCore ?_
  split
  · exact h
  · exact ite h (h.micaStart fun _ _ h1 => h1.tldBody)

theorem State.Keeps.exec_tst {p c es} (h : s.Keeps t) : Answers s (present t (.tst p c es)) (exec (.tst p c es) t) :=
  h.micaRow fun _ _ h1 => h1.tstBody

theorem State.Keeps.exec_trans {p c} (h : s.Keeps t) : Answers s (present t (.trans p c)) (exec (.trans p c) t) :=
  h.micaRow fun _ _ h1 => h1.transBody

end

/-! ## Every command, and a step -/

section
variable {s t : State}

theorem State.Keeps.exec {i} (h : s.Keeps t) : Answers s (present t i) (exec i t) := by
  cases i with
  | registerWrite => exact h.exec_registerWrite
  | clockEnableWrite => exact h.exec_clockEnableWrite
  | partitionResetWarm => exact h.exec_partitionResetWarm
  | partitionResetRetenant => exact h.exec_partitionResetRetenant
  | resetStageDone => exact h.exec_resetStageDone
  | resetStageWatchdog => exact h.exec_resetStageWatchdog
  | coldResetDone => exact h.exec_coldResetDone
  | coldResetWatchdog => exact h.exec_coldResetWatchdog
  | contextWaitResume => exact h.exec_contextWaitResume
  | migrationDeferred => exact h.exec_migrationDeferred
  | flintBaseInstruction => exact h.exec_flintBaseInstruction
  | flintLoad => exact h.exec_flintLoad
  | flintStore => exact h.exec_flintStore
  | flintAccessComplete => exact h.exec_flintAccessComplete
  | ecall => exact h.exec_ecall
  | ebreak => exact h.exec_ebreak
  | tque => exact h.exec_tque
  | tqueResume => exact h.exec_tqueResume
  | twait => exact h.exec_twait
  | twaitResume => exact h.exec_twaitResume
  | sumrd => exact h.exec_sumrd
  | sumrdResume => exact h.exec_sumrdResume
  | mode => exact h.exec_mode
  | modeSwitch => exact h.exec_modeSwitch
  | seedld => exact h.exec_seedld
  | stepb => exact h.exec_stepb
  | stepbReport => exact h.exec_stepbReport
  | queueErrClear => exact h.exec_queueErrClear
  | garnetPass => exact h.exec_garnetPass
  | checkGroupCommit => exact h.exec_checkGroupCommit
  | checkGroupRecompute => exact h.exec_checkGroupRecompute
  | garnetStore => exact h.exec_garnetStore
  | garnetStoreComplete => exact h.exec_garnetStoreComplete
  | arrayIdleGate => exact h.exec_arrayIdleGate
  | arrayWakeDone => exact h.exec_arrayWakeDone
  | add => exact h.exec_add
  | sub => exact h.exec_sub
  | mul => exact h.exec_mul
  | fma => exact h.exec_fma
  | max => exact h.exec_max
  | min => exact h.exec_min
  | abs => exact h.exec_abs
  | neg => exact h.exec_neg
  | div => exact h.exec_div
  | rcp => exact h.exec_rcp
  | sqrt => exact h.exec_sqrt
  | cmplt => exact h.exec_cmplt
  | cmple => exact h.exec_cmple
  | cmpeq => exact h.exec_cmpeq
  | sel => exact h.exec_sel
  | exp => exact h.exec_exp
  | exps => exact h.exec_exps
  | log => exact h.exec_log
  | rsqrt => exact h.exec_rsqrt
  | tanh => exact h.exec_tanh
  | erf => exact h.exec_erf
  | sigmoid => exact h.exec_sigmoid
  | cvt => exact h.exec_cvt
  | widen => exact h.exec_widen
  | rndu => exact h.exec_rndu
  | rndb => exact h.exec_rndb
  | rndn => exact h.exec_rndn
  | gumbel => exact h.exec_gumbel
  | rawbits => exact h.exec_rawbits
  | rsum => exact h.exec_rsum
  | rmax => exact h.exec_rmax
  | rmin => exact h.exec_rmin
  | rcnt => exact h.exec_rcnt
  | rargmax => exact h.exec_rargmax
  | csum => exact h.exec_csum
  | cmax => exact h.exec_cmax
  | cmin => exact h.exec_cmin
  | ccnt => exact h.exec_ccnt
  | cargmax => exact h.exec_cargmax
  | tld => exact h.exec_tld
  | tst => exact h.exec_tst
  | trans => exact h.exec_trans
  | micaCommit => exact h.exec_micaCommit
  | micaRetry => exact h.exec_micaRetry
  | micaIdleGate => exact h.exec_micaIdleGate
  | moverCopy => exact h.exec_moverCopy
  | moverSegmentStart => exact h.exec_moverSegmentStart
  | moverSegmentDone => exact h.exec_moverSegmentDone
  | dispatchRoundOpen => exact h.exec_dispatchRoundOpen
  | returnRoundOpen => exact h.exec_returnRoundOpen
  | tokenSend => exact h.exec_tokenSend
  | tokenArrive => exact h.exec_tokenArrive
  | tokenDeliver => exact h.exec_tokenDeliver
  | endMarkerArrive => exact h.exec_endMarkerArrive
  | spillEndMarkerArrive => exact h.exec_spillEndMarkerArrive
  | returnRowArrive => exact h.exec_returnRowArrive
  | memRequestGrant => exact h.exec_memRequestGrant
  | patrolScrub => exact h.exec_patrolScrub
  | channelTrainingDone => exact h.exec_channelTrainingDone
  | channelTrainingTimeout => exact h.exec_channelTrainingTimeout
  | intervalCalibration => exact h.exec_intervalCalibration
  | parityError => exact h.exec_parityError
  | channelRetrainDone => exact h.exec_channelRetrainDone
  | portEnable => exact h.exec_portEnable
  | pmdTrained => exact h.exec_pmdTrained
  | identityReceive => exact h.exec_identityReceive
  | acceptReceive => exact h.exec_acceptReceive
  | refuseReceive => exact h.exec_refuseReceive
  | trainingTimeout => exact h.exec_trainingTimeout
  | trainingRestart => exact h.exec_trainingRestart
  | zlkCtrlRetrain => exact h.exec_zlkCtrlRetrain
  | zlkCtrlDisable => exact h.exec_zlkCtrlDisable
  | zlkCtrlUnretire => exact h.exec_zlkCtrlUnretire
  | flitReceive => exact h.exec_flitReceive
  | nakReceive => exact h.exec_nakReceive
  | retrainDone => exact h.exec_retrainDone
  | frameReceive => exact h.exec_frameReceive
  | messageSend => exact h.exec_messageSend
  | dataMessageReceive => exact h.exec_dataMessageReceive
  | grantReceive => exact h.exec_grantReceive
  | ackReceive => exact h.exec_ackReceive
  | retransmitTimeout => exact h.exec_retransmitTimeout
  | messageAckTimeout => exact h.exec_messageAckTimeout
  | collectiveOpen => exact h.exec_collectiveOpen
  | collectiveClose => exact h.exec_collectiveClose
  | joinBlockReceive => exact h.exec_joinBlockReceive
  | joinTimeout => exact h.exec_joinTimeout
  | collectiveTailWrite => exact h.exec_collectiveTailWrite
  | allreduce => exact h.exec_allreduce
  | reduce => exact h.exec_reduce
  | broadcast => exact h.exec_broadcast
  | reduceScatter => exact h.exec_reduceScatter
  | allgather => exact h.exec_allgather
  | barrier => exact h.exec_barrier
  | chunkCombine => exact h.exec_chunkCombine
  | collectiveComplete => exact h.exec_collectiveComplete
  | resultTag => exact h.exec_resultTag
  | tagComplete => exact h.exec_tagComplete
  | updateTagComplete => exact h.exec_updateTagComplete
  | voteBlockReceive => exact h.exec_voteBlockReceive
  | voteTimeout => exact h.exec_voteTimeout
  | recordFlushTimeout => exact h.exec_recordFlushTimeout
  | fieldTestStart => exact h.exec_fieldTestStart
  | fieldTestDone => exact h.exec_fieldTestDone
  | boundaryBarrierEnter => exact h.exec_boundaryBarrierEnter
  | updateBegin => exact h.exec_updateBegin
  | updateDecision => exact h.exec_updateDecision
  | extentCopyDone => exact h.exec_extentCopyDone
  | mirroredBarrierEnter => exact h.exec_mirroredBarrierEnter
  | localReplay => exact h.exec_localReplay
  | snap => exact h.exec_snap
  | snapshotStart => exact h.exec_snapshotStart
  | snapshotDone => exact h.exec_snapshotDone
  | suspend => exact h.exec_suspend
  | suspendImageStart => exact h.exec_suspendImageStart
  | suspendImageDone => exact h.exec_suspendImageDone
  | restore => exact h.exec_restore
  | mirrorPullDone => exact h.exec_mirrorPullDone
  | engineWatchdog => exact h.exec_engineWatchdog
  | flintWatchdog => exact h.exec_flintWatchdog
  | stepWatchdog => exact h.exec_stepWatchdog
  | abortBlockReceive => exact h.exec_abortBlockReceive
  | livenessSend => exact h.exec_livenessSend
  | mgmtWatchdogExpire => exact h.exec_mgmtWatchdogExpire
  | certificateReceive => exact h.exec_certificateReceive
  | getVersion => exact h.exec_getVersion
  | getCapabilities => exact h.exec_getCapabilities
  | negotiateAlgorithms => exact h.exec_negotiateAlgorithms
  | getDigests => exact h.exec_getDigests
  | getCertificate => exact h.exec_getCertificate
  | challenge => exact h.exec_challenge
  | getMeasurements => exact h.exec_getMeasurements
  | keyExchange => exact h.exec_keyExchange
  | finish => exact h.exec_finish
  | heartbeat => exact h.exec_heartbeat
  | keyUpdate => exact h.exec_keyUpdate
  | endSession => exact h.exec_endSession
  | spdmUnsupported => exact h.exec_spdmUnsupported
  | heartbeatTimeout => exact h.exec_heartbeatTimeout
  | claim => exact h.exec_claim
  | claimProve => exact h.exec_claimProve
  | provision => exact h.exec_provision
  | release => exact h.exec_release
  | fwBegin => exact h.exec_fwBegin
  | fwData => exact h.exec_fwData
  | fwCommit => exact h.exec_fwCommit
  | cfgCommit => exact h.exec_cfgCommit
  | logRead => exact h.exec_logRead
  | entropyHealthFail => exact h.exec_entropyHealthFail
  | drbgReseed => exact h.exec_drbgReseed
  | flr => exact h.exec_flr
  | linkReset => exact h.exec_linkReset
  | perstDeassert => exact h.exec_perstDeassert
  | submissionDoorbell => exact h.exec_submissionDoorbell
  | submissionFetch => exact h.exec_submissionFetch
  | admitJob => exact h.exec_admitJob
  | write => exact h.exec_write
  | read => exact h.exec_read
  | rebind => exact h.exec_rebind
  | abort => exact h.exec_abort
  | fieldTest => exact h.exec_fieldTest
  | unitTransfer => exact h.exec_unitTransfer
  | completionPost => exact h.exec_completionPost
  | completionDoorbell => exact h.exec_completionDoorbell
  | rebindTimeout => exact h.exec_rebindTimeout
  | mgmtWarmReset => exact h.exec_mgmtWarmReset
  | mgmtRetenantReset => exact h.exec_mgmtRetenantReset
  | mgmtFieldTest => exact h.exec_mgmtFieldTest
  | mgmtCertificate => exact h.exec_mgmtCertificate
  | i3cEntdaa => exact h.exec_i3cEntdaa
  | pldmBaseDiscovery => exact h.exec_pldmBaseDiscovery
  | pldmSensorRead => exact h.exec_pldmSensorRead
  | platformEventRead => exact h.exec_platformEventRead
  | powerCycleRepeat => exact h.exec_powerCycleRepeat
  | powerUp => exact h.exec_powerUp
  | crystalStable => exact h.exec_crystalStable
  | crystalTimeout => exact h.exec_crystalTimeout
  | rootPllLock => exact h.exec_rootPllLock
  | bootChoice => exact h.exec_bootChoice
  | clockMonitorWindow => exact h.exec_clockMonitorWindow
  | clockSwitchRequest => exact h.exec_clockSwitchRequest
  | clockSwitchDone => exact h.exec_clockSwitchDone
  | clockSwitchStuck => exact h.exec_clockSwitchStuck
  | sw0Force => exact h.exec_sw0Force
  | timebaseDiscipline => exact h.exec_timebaseDiscipline
  | limitExceeded => exact h.exec_limitExceeded
  | limitCleared => exact h.exec_limitCleared
  | governorGrant => exact h.exec_governorGrant
  | dieWakeGrant => exact h.exec_dieWakeGrant
  | flashOperationDone => exact h.exec_flashOperationDone
  | undervoltageTrip => exact h.exec_undervoltageTrip
  | inputCutoff => exact h.exec_inputCutoff
  | holdupExpire => exact h.exec_holdupExpire
  | thermalWarning => exact h.exec_thermalWarning
  | thermalTrip => exact h.exec_thermalTrip
  | powerDown => exact h.exec_powerDown
  | moduleReset => exact h.exec_moduleReset
  | mgtResetRelease => exact h.exec_mgtResetRelease
  | inputVoltageReturn => exact h.exec_inputVoltageReturn
  | thermalTripUnlatch => exact h.exec_thermalTripUnlatch
  | sensorsBelow85c => exact h.exec_sensorsBelow85c
  | ethernetLinkChange => exact h.exec_ethernetLinkChange
  | doubledRefreshChange => exact h.exec_doubledRefreshChange
  | ideKmRequest => exact h.exec_ideKmRequest
  | mctpEidAssign => exact h.exec_mctpEidAssign
  | summaryCopyRefresh => exact h.exec_summaryCopyRefresh

/-- A command whose units are there goes to a next state that keeps what it found, and to no other. -/
theorem Answers.keeps_of_next {b : Bool} {a : Answer} (ha : Answers s b a) (e : a = .next t) : s.Keeps t := by
  obtain ⟨u, hu, rfl⟩ := ha
  cases b with
  | false => exact nomatch e
  | true => exact Host.Outcome.next.inj e ▸ hu

/-- A step keeps what the state without its front command has. -/
theorem keeps_of_step (h : step s = .next t) : State.Keeps { s with pending := s.pending.tail } t := by
  cases hp : s.pending with
  | nil =>
    rw [step_nil hp] at h
    have ht : s.Keeps t := Host.Outcome.next.inj h ▸ (State.Keeps.refl s).tick
    exact ⟨ht.inv, ht.pending.trans hp, ht.fuse, ht.freeCtr⟩
  | cons c rest =>
    rw [step_cons hp] at h
    exact (State.Keeps.refl _).exec.keeps_of_next h

end
end Sys2Proof.Machine

open Sys2Proof Sys2Proof.Machine

/-- Settles O5: every update that the model's functions are made of keeps the invariant, so each command and the tick do. -/
theorem everyStepKeepsTheInvariant : Obligations.EveryStepKeepsTheInvariant := fun _ _ hs h => (keeps_of_step h).inv hs

/-- Settles O6: no function of the model writes the queue or the fuses, and the counter of free values is only counted up. -/
theorem stepConsumesOneCommandAndKeepsFuses : Obligations.StepConsumesOneCommandAndKeepsFuses := fun _ _ h =>
  ⟨(keeps_of_step h).pending, (keeps_of_step h).fuse, (keeps_of_step h).freeCtr⟩

/-- Settles O7, command by command: each meaning ends in a next state behind a guard that says what `present` says. -/
theorem everyCommandOfPresentUnitsCompletes : Obligations.EveryCommandOfPresentUnitsCompletes := fun i s => by
  obtain ⟨t, -, e⟩ := (State.Keeps.refl s).exec (i := i)
  rw [e]
  exact ⟨fun hb => ⟨t, if_pos hb⟩, fun hb => if_neg (Bool.eq_false_iff.mp hb)⟩

end

section
namespace Sys2Proof.Machine

/-! ### Memory and contexts (chapter 1) -/

/-- Writing a run of bytes changes memory alone. -/
theorem State.setBytes_eq (s : State) (k : Nat) (bs : List Byte) : s.setBytes k bs = { s with mem := (s.setBytes k bs).mem } := by
  induction bs generalizing s k with
  | nil => rfl
  | cons b bs ih => exact ih (s.setByte k b) (k + 1)

/-- A partition's memory begins at its number times 2^48. -/
theorem memKey_eq (p a : Nat) : memKey p a = p * 2 ^ 48 + a := by
  unfold memKey
  omega

/-- After a ZERO stage a byte reads 0 where the stage reaches, and as before elsewhere. -/
theorem State.byte_zeroStage {s : State} (p k key : Nat) (h : Memory.wf s.mem = true) :
    (s.zeroStage p k).byte key = if (p * 2 ^ 48 ≤ key ∧ key < p * 2 ^ 48 + s.fuse.variant.stackedBytes) ∧
      (s.pcOf (key - p * 2 ^ 48)).2 / 2 ^ 28 = k then 0#8 else s.byte key := by
  rw [State.zeroStage, State.byte, Tbl.get_drop _ _ (Memory.sorted_of_wf h)]
  simp only [Bool.and_eq_true, decide_eq_true_eq, beq_iff_eq, memKey_eq, Nat.add_zero]
  rfl

/-- A ZERO stage keeps the canonical form of memory. -/
theorem Memory.wf_zeroStage {s : State} (p k : Nat) (h : Memory.wf s.mem = true) : Memory.wf (s.zeroStage p k).mem = true := by
  unfold State.zeroStage
  dsimp only
  exact Memory.wf_drop _ h

/-- An address of stacked memory lies in one of the first four quarters of its pseudo-channel. -/
theorem State.pcOf_quarter {s : State} {a : Nat} (h : a < s.fuse.variant.stackedBytes) : (s.pcOf a).2 / 2 ^ 28 < 4 := by
  have hn : 0 < s.fuse.variant.chans := by cases s.fuse.variant <;> decide
  have hb : a / 256 / s.fuse.variant.chans < 0x400000 := by
    rw [Nat.div_lt_iff_lt_mul hn]
    simp only [Variant.stackedBytes] at h
    omega
  simp only [State.pcOf]
  omega

/-- What a stage has zeroed, or an earlier one, stays zero. -/
theorem State.byte_zeroStage_of_zero {s : State} {p k key : Nat} (h : Memory.wf s.mem = true) (hz : s.byte key = 0#8) :
    (s.zeroStage p k).byte key = 0#8 := by
  rw [State.byte_zeroStage p k key h, hz, ite_self]

/-- A stage zeroes the quarter it is for. -/
theorem State.byte_zeroStage_quarter {s : State} {p k a : Nat} (h : Memory.wf s.mem = true) (ha : a < s.fuse.variant.stackedBytes)
    (hq : (s.pcOf a).2 / 2 ^ 28 = k) : (s.zeroStage p k).byte (p * 2 ^ 48 + a) = 0#8 := by
  rw [State.byte_zeroStage p k _ h, Nat.add_sub_cancel_left, if_pos ⟨⟨by omega, by omega⟩, hq⟩]

/-- The four stages together zero every byte of stacked memory. -/
theorem State.byte_zeroStages {s : State} {p a : Nat} (h : Memory.wf s.mem = true) (ha : a < s.fuse.variant.stackedBytes) :
    ((((s.zeroStage p 0).zeroStage p 1).zeroStage p 2).zeroStage p 3).byte (p * 2 ^ 48 + a) = 0#8 := by
  have h0 := Memory.wf_zeroStage p 0 h
  have h1 := Memory.wf_zeroStage p 1 h0
  have h2 := Memory.wf_zeroStage p 2 h1
  have hq := s.pcOf_quarter ha
  obtain hq | hq | hq | hq : (s.pcOf a).2 / 2 ^ 28 = 0 ∨ (s.pcOf a).2 / 2 ^ 28 = 1 ∨ (s.pcOf a).2 / 2 ^ 28 = 2 ∨
    (s.pcOf a).2 / 2 ^ 28 = 3 := by omega
  · exact State.byte_zeroStage_of_zero h2 (State.byte_zeroStage_of_zero h1 (State.byte_zeroStage_of_zero h0
      (State.byte_zeroStage_quarter h ha hq)))
  · exact State.byte_zeroStage_of_zero h2 (State.byte_zeroStage_of_zero h1 (State.byte_zeroStage_quarter h0 ha hq))
  · exact State.byte_zeroStage_of_zero h2 (State.byte_zeroStage_quarter h1 ha hq)
  · exact State.byte_zeroStage_quarter h2 ha hq

/-- Taking messages out of the park queue leaves the contexts. -/
@[simp] theorem State.dropParked_ctx (s : State) (p i : Nat) : (s.dropParked p i).ctx = s.ctx := by
  unfold State.dropParked
  dsimp only
  split <;> rfl

/-- Taking messages out of the park queue changes no count of contexts in use. -/
theorem State.rf_dropParked_inuse {s : State} (p i q : Nat) (h : Tbl.sortedFrom 0 s.flds = true) :
    (s.dropParked p i).rf (PRT_CTX.INUSE q) = s.rf (PRT_CTX.INUSE q) := by
  unfold State.dropParked
  dsimp only
  split
  · apply State.rf_wf_ne
    · exact h
    · simp only [Fld.cell, PRT_CTX.INUSE, PRT_CTX.key, ZTP_PARK.DEPTH, ZTP_PARK.key, regKey]
      omega
  · rfl

/-- Taking messages out of the park queue keeps the register file in order. -/
theorem State.sorted_dropParked {s : State} (p i : Nat) (h : Tbl.sortedFrom 0 s.flds = true) :
    Tbl.sortedFrom 0 (s.dropParked p i).flds = true := by
  unfold State.dropParked
  dsimp only
  split
  · exact State.sorted_wf _ _ h
  · exact h

/-- A freed context is free and has the next generation. -/
theorem State.getCtx_freeCtx {s : State} {i : Nat} (hx : (s.getCtx i).state ≠ 0) (hc : Tbl.sortedFrom 0 s.ctx = true) :
    (s.freeCtx i).getCtx i = { gen := if (s.getCtx i).gen = 16383 then 1 else (s.getCtx i).gen + 1 } := by
  unfold State.freeCtx
  rw [if_neg hx, State.getCtx, State.wf_ctx, State.setAux_ctx, State.setCtx, State.dropParked_ctx]
  exact Tbl.get_set_same _ _ hc

/-- Freeing a context takes one off what its partition has in use. -/
theorem State.rf_freeCtx_inuse {s : State} {i : Nat} (hx : (s.getCtx i).state ≠ 0) (hf : Tbl.sortedFrom 0 s.flds = true) :
    (s.freeCtx i).rf (PRT_CTX.INUSE (s.getCtx i).part) = (s.rf (PRT_CTX.INUSE (s.getCtx i).part) - 1) % 2 ^ 19 := by
  unfold State.freeCtx
  rw [if_neg hx, State.rf_wf_same]
  · exact congrArg (fun n => (n - 1) % 2 ^ 19) (State.rf_dropParked_inuse _ _ _ hf)
  · exact State.sorted_dropParked _ _ hf

/-- A handle of generation 0 is the null handle (R37). -/
theorem State.handleOk_null {s : State} {p h : Nat} (hg : h / 2 ^ 18 % 2 ^ 14 = 0) : s.handleOk p h = false := by
  simp only [State.handleOk, hg, ne_eq, not_true_eq_false, decide_false, Bool.false_and]

/-- A handle of a free context is not live. -/
theorem State.handleOk_of_free {s : State} {p h : Nat} (hx : (s.getCtx (h % 2 ^ 18)).state = 0) : s.handleOk p h = false := by
  simp only [State.handleOk, hx, ne_eq, not_true_eq_false, decide_false, Bool.and_false]

end Sys2Proof.Machine

open Sys2Proof Sys2Proof.Machine

/-- Settles O10 by the rules of reading inside and outside a written run. -/
theorem byteWriteChangesThoseBytes : Obligations.ByteWriteChangesThoseBytes := fun s k bs h =>
  ⟨fun _ hi => State.byte_setBytes_inside h hi, fun _ ha => State.byte_setBytes_outside h ha, Memory.wf_setBytes k bs h,
    s.setBytes_eq k bs⟩

/-- Settles O15: each of the four stages zeroes its own quarter and leaves what the ones before it have zeroed. -/
theorem zeroStagesClearStackedMemory : Obligations.ZeroStagesClearStackedMemory := by
  unfold Obligations.ZeroStagesClearStackedMemory
  exact ⟨fun s p k key h => State.byte_zeroStage p k key h, fun _ _ _ _ => rfl, fun s p a h ha => State.byte_zeroStages h ha⟩

/-- Settles O16: freeing writes the next generation into the context and takes one off INUSE. -/
theorem freedContextTakesTheNextGeneration : Obligations.FreedContextTakesTheNextGeneration := by
  unfold Obligations.FreedContextTakesTheNextGeneration
  refine ⟨fun s p h hg => State.handleOk_null hg, fun _ => rfl, fun s i p h hx hc hf => ?_⟩
  have hg := State.getCtx_freeCtx hx hc
  refine ⟨by rw [hg], ?_, by rw [hg], State.rf_freeCtx_inuse hx hf, fun hi => State.handleOk_of_free (by rw [hi, hg])⟩
  rw [hg]
  dsimp only
  split <;> omega

end

section
namespace Sys2Proof.Machine

/-! ### Partition resets (chapters 1 and 13) -/

@[simp] theorem onPart_of_lt {p : Nat} {s : State} (h : p < 16) : onPart p s = .next s := if_pos h

@[simp] theorem onFn_of_lt {n : Nat} {s : State} (h : n < 17) : onFn n s = .next s := if_pos h

@[simp] theorem onCtx_of_lt {i : Nat} {s : State} (h : i < 2 ^ 18) : onCtx i s = .next s := if_pos h

/-- A partition that does not run starts no abort wave. -/
theorem State.startWave_of_not_runs {s : State} {p c u : Nat} (h : s.runs p = false) : s.startWave p c u = s := by
  rw [State.startWave, h]
  rfl

/-- A partition that is not in RUNNING does not run. -/
theorem State.runs_eq_false {s : State} {p : Nat} (h : s.pstate p ≠ psRUNNING) : s.runs p = false := beq_false_of_ne h

/-- Without a field test there is none to end. -/
theorem State.endFieldTest_of_not_running {s : State} {p : Nat} (h : (s.getFt p).running = false) : s.endFieldTest p = s := by
  unfold State.endFieldTest
  dsimp only
  rw [h]
  rfl

/-- A partition in OFF takes no reset request (R43). -/
theorem State.resetRequest_off {s : State} {p k : Nat} (h : s.pstate p = psOFF) : s.resetRequest p k = s := if_pos h

/-- With no reset in progress a request begins one. -/
theorem State.resetRequest_none {s : State} {p k : Nat} (h : s.pstate p ≠ psOFF) (hr : s.getReset p = none) :
    s.resetRequest p k = s.beginReset p k k := by
  rw [State.resetRequest, if_neg h, hr]

/-- A request merges into the reset in progress (R48). -/
theorem State.resetRequest_some {s : State} {p k : Nat} {r : ResetRun} (h : s.pstate p ≠ psOFF) (hr : s.getReset p = some r) :
    s.resetRequest p k = if r.kind < k then
      ((s.setReset p (some { r with kind := k })).wf (PRT_RST_LOG.KIND p) k).wf (PRT_STATE.CAUSE p) k else s := by
  rw [State.resetRequest, if_neg h, hr]

/-- Without a reset in progress the events of one do nothing. -/
theorem State.stageDone_none {s : State} {p : Nat} (h : s.getReset p = none) : s.stageDone p = s := by
  rw [State.stageDone, h]

theorem State.stageExpired_none {s : State} {p : Nat} (h : s.getReset p = none) : s.stageExpired p = s := by
  rw [State.stageExpired, h]

theorem State.coldDone_none {s : State} {p : Nat} (h : s.getReset p = none) : s.coldDone p = s := by
  rw [State.coldDone, h]

theorem State.coldExpired_none {s : State} {p : Nat} (h : s.getReset p = none) : s.coldExpired p = s := by
  rw [State.coldExpired, h]

/-- In a cold reset no stage completes. -/
theorem State.stageDone_cold {s : State} {p : Nat} {r : ResetRun} (h : s.getReset p = some r) (hc : r.cold = true) :
    s.stageDone p = s := by
  rw [State.stageDone, h]
  exact if_pos (.inl hc)

/-- A cold reset resumes at CLEAR once its die is awake (R392). -/
theorem State.coldDone_cold {s : State} {p : Nat} {r : ResetRun} (h : s.getReset p = some r) (hc : r.cold = true)
    (hp : r.powerCycle = false) :
    s.coldDone p = if s.gov.awake.contains p then s.enterStage p { r with cold := false } 1 else s := by
  rw [State.coldDone, h]
  simp only [hc, hp, Bool.not_false, true_and]

/-- The cold-reset watchdog escalates to the module (R393). -/
theorem State.coldExpired_cold {s : State} {p : Nat} {r : ResetRun} (h : s.getReset p = some r) (hc : r.cold = true)
    (hp : r.powerCycle = false) : s.coldExpired p = (s.wdtStat p 5 s.bedrockUnit).escalate p r := by
  rw [State.coldExpired, h]
  exact if_pos ⟨hc, by rw [hp]; rfl⟩

@[simp] theorem State.bedrockUnit_wdtStat (s : State) (p k u : Nat) : (s.wdtStat p k u).bedrockUnit = s.bedrockUnit := rfl

section
variable {s : State} {p : Nat} {r : ResetRun} (h : s.getReset p = some r) (hc : r.cold = false) (hp : r.powerCycle = false)
include h hc hp

/-- A stage of a reset that is neither cold nor waiting for a power cycle completes according to its number (R390). -/
theorem State.stageDone_run : s.stageDone p = match r.stage with
    | 0 => (s.quiesce p).enterStage p r 1
    | 1 => if r.kind = 2 then (s.clearPartition p (r.kind == 2)).enterZero p r
      else (s.clearPartition p (r.kind == 2)).enterConfig p r
    | 2 => (s.zeroStage p 0).enterStage p r 3
    | 3 => (s.zeroStage p 1).enterStage p r 4
    | 4 => (s.zeroStage p 2).enterStage p r 5
    | 5 => (s.zeroStage p 3).enterConfig p { r with zeroed := true }
    | _ => if r.kind = 2 ∧ !r.zeroed then (s.clearPartition p true).enterZero p r else s.finishReset p r := by
  rw [State.stageDone, h]
  exact if_neg (by simp [hc, hp])

/-- The stage watchdog of such a reset: a record, then the cold reset, or after one the module (R391). -/
theorem State.stageExpired_run : s.stageExpired p =
    let u := (s.wdtStat p 4 s.bedrockUnit).raise
      { unit := s.bedrockUnit, cls := .perm, code := 0x93, part := none, synd := [(p, 1), (r.stage, 1)] }
    if r.escalated then u.escalate p r
    else (((((u.setReset p (some { r with cold := true, escalated := true })).wf (PRT_RST_LOG.ESC p) 1).inc
      (PRT_RST_LOG.COLD p)).wf (PRT_STATE.CAUSE p) 3).askDie p) := by
  rw [State.stageExpired, h]
  dsimp only [State.bedrockUnit_wdtStat]
  exact if_neg (by simp [hc, hp])

end

/-- With the entropy source up ZERO1 is entered under a new memory key and without the claim (R411, R418). -/
theorem State.enterZero_drawn {s : State} {p : Nat} {r : ResetRun} (h : s.rf BDR_SEC.DRBG_OK = 1) : s.enterZero p r =
    ((((({ s with drbgReqs := s.drbgReqs + 1, freeCtr := s.freeCtr + 1, mkey := s.mkey.set 0 p s.freeCtr }.inc
      (BDR_PSEC.KEYGEN p)).endClaim p).enterStage p r 2).wf (PRT_STATE.STATE p) psRESET)) := by
  rw [State.enterZero, State.drawKey, if_pos h]

/-- Without entropy the reset stays in CLEAR (R412). -/
theorem State.enterZero_refused {s : State} {p : Nat} {r : ResetRun} (h : s.rf BDR_SEC.DRBG_OK ≠ 1) : s.enterZero p r = s := by
  rw [State.enterZero, State.drawKey, if_neg h]

/-- The partition as CONFIG leaves it, before its state is decided (R44). -/
def State.configured (s : State) (p : Nat) (r : ResetRun) : State :=
  let u := ((s.configure p).setReset p none).mgmtDone p
  u.setTen p { u.getTen p with lastRetenant := r.kind == 2, claimedSinceReset := false }

section
variable {s : State} {p : Nat} {r : ResetRun}

/-- The reset ends as what holds the partition off, or keeps it offline, says (R44). -/
theorem State.finishReset_eq : s.finishReset p r =
    let t := s.configured p r
    match t.heldOff p with
    | some c => (t.wf (PRT_STATE.STATE p) psOFF).wf (PRT_STATE.CAUSE p) c
    | none =>
      match t.offlineCause p with
      | some c => (t.wf (PRT_STATE.STATE p) psOFFLINE).wf (PRT_STATE.CAUSE p) c
      | none =>
        if t.rf (PRT_STATE.CAUSE p) = 0 ∧ t.log.suspect.get 0 p = 1 then (t.setFt p { running := true }).wf (ASY_FT.BUSY p) 1
        else t.wf (PRT_STATE.STATE p) psREADY := rfl

theorem State.finishReset_off {c : Nat} (h : (s.configured p r).heldOff p = some c) :
    s.finishReset p r = ((s.configured p r).wf (PRT_STATE.STATE p) psOFF).wf (PRT_STATE.CAUSE p) c := by
  rw [State.finishReset_eq]
  dsimp only
  rw [h]

theorem State.finishReset_offline {c : Nat} (h : (s.configured p r).heldOff p = none) (hc : (s.configured p r).offlineCause p = some c) :
    s.finishReset p r = ((s.configured p r).wf (PRT_STATE.STATE p) psOFFLINE).wf (PRT_STATE.CAUSE p) c := by
  rw [State.finishReset_eq]
  dsimp only
  rw [h, hc]

theorem State.finishReset_ready (h : (s.configured p r).heldOff p = none) (hc : (s.configured p r).offlineCause p = none) :
    s.finishReset p r = if (s.configured p r).rf (PRT_STATE.CAUSE p) = 0 ∧ (s.configured p r).log.suspect.get 0 p = 1 then
      ((s.configured p r).setFt p { running := true }).wf (ASY_FT.BUSY p) 1 else (s.configured p r).wf (PRT_STATE.STATE p) psREADY := by
  rw [State.finishReset_eq]
  dsimp only
  rw [h, hc]

end

/-- QUIESCE stops the partition and discards the requests of its pseudo-channels (R49). -/
theorem State.quiesce_eq (s : State) (p : Nat) : s.quiesce p = (List.range s.fuse.variant.chans).foldl
    (fun s i => s.setPc p i { s.getPc p i with reqs := [] }) (s.stopPartition p) := by
  rw [State.quiesce, (State.Keeps.refl s).stopPartition.fuse]

/-- The escalation to the module, update by update (R393). -/
theorem State.escalate_eq (s : State) (p : Nat) (r : ResetRun) : s.escalate p r =
    let u := s.raise { unit := s.bedrockUnit, cls := .fatal, code := 0x94, part := none, synd := [(p, 1)] }
    let v := ((List.range 16).foldl (fun w q => w.startWave q 1 u.bedrockUnit) u).flushRecords
    let w := v.logState { v.log with suspect := v.log.suspect.set 0 p (v.log.suspect.get 0 p + 1) }
    let x := ((w.wf (PRT_RST_LOG.SUSPECT p) 1).wf (PRT_RST_LOG.ESC p) 2).setReset p (some { r with powerCycle := true })
    { x with pwrCycle := true }.platform .powerCycle := by
  unfold State.escalate State.abortJobs State.askPowerCycle
  dsimp only [waveFAULT]

end Sys2Proof.Machine

open Sys2Proof Sys2Proof.Machine

/-- Settles O13: a request is decided by whether a reset of the partition is in progress. -/
theorem resetRequestsStartOrMerge : Obligations.ResetRequestsStartOrMerge := by
  unfold Obligations.ResetRequestsStartOrMerge
  refine ⟨fun s a p hp ha => ?_, fun s p hp => onPart_of_lt hp, fun s p c hp => onPart_of_lt hp, fun s p hp => ?_,
    fun s p k h => State.resetRequest_off h, fun s p k h hr => State.resetRequest_none h hr,
    fun s p h => State.startWave_of_not_runs (State.runs_eq_false h), fun s p h => State.endFieldTest_of_not_running h,
    fun s p k r h hr => State.resetRequest_some h hr⟩
  · rw [exec_partitionResetWarm, execPartitionResetWarm, if_neg ha, onPart_of_lt hp]
  · exact ⟨onPart_of_lt hp, onPart_of_lt hp⟩

/-- Settles O14, stage by stage. -/
theorem resetStagesFollowInOrder : Obligations.ResetStagesFollowInOrder := by
  unfold Obligations.ResetStagesFollowInOrder
  simp only [exec_resetStageDone, exec_resetStageWatchdog, exec_coldResetDone, exec_coldResetWatchdog, execResetStageDone,
    execResetStageWatchdog, execColdResetDone, execColdResetWatchdog]
  refine ⟨fun s p hp h => ?_, fun s p r hp h hc hw => ?_, fun s p r hp h hc hw => ?_, fun _ _ _ _ => rfl, State.quiesce_eq,
    fun s p r => ⟨State.enterZero_refused, State.enterZero_drawn⟩,
    fun s p r => ⟨fun c => State.finishReset_off, fun c => State.finishReset_offline, State.finishReset_ready⟩,
    fun _ _ _ _ => rfl, State.escalate_eq⟩
  · simp only [onPart_of_lt hp, State.stageDone_none h, State.stageExpired_none h, State.coldDone_none h, State.coldExpired_none h,
      and_self]
  · rw [onPart_of_lt hp, onPart_of_lt hp, State.stageDone_run h hc hw, State.stageExpired_run h hc hw]
    refine ⟨fun hs => ?_, fun hs hk => ?_, fun hs hk => ?_, fun hs => ?_, fun hs => ?_, fun hs => ?_, fun hs => ?_, fun hs hz => ?_,
      fun hs hk hz => ?_, fun he => ?_, fun he => ?_⟩
    case refine_1 | refine_4 | refine_5 | refine_6 | refine_7 => rw [hs]; rfl
    case refine_2 => simp only [hs, if_neg hk, beq_false_of_ne hk]; rfl
    case refine_3 => simp only [hs, if_pos hk]; rw [hk]; rfl
    case refine_8 => rw [hs]; exact congrArg _ (if_neg fun hr => hz.elim (absurd hr.1) fun hz => by simp [hz] at hr)
    case refine_9 => rw [hs]; exact congrArg _ (if_pos ⟨hk, by rw [hz]; rfl⟩)
    case refine_10 => simp only [he, Bool.false_eq_true, if_false]
    case refine_11 => simp only [he, if_true]
  · rw [onPart_of_lt hp, onPart_of_lt hp, onPart_of_lt hp, State.stageDone_cold h hc, State.coldExpired_cold h hc hw, State.coldDone_cold h hc hw]
    exact ⟨fun ha => by rw [ha]; rfl, fun ha => by rw [ha]; rfl, rfl, rfl⟩

end

section
namespace Sys2Proof.Machine

/-! ### The rails go off (chapters 1 and 17) -/

/-- Give some fields their values, in turn. -/
def State.wfs (s : State) (l : List (Fld × Nat)) : State := l.foldl (fun s e => s.wf e.1 e.2) s

/-- Giving fields values changes the register file alone. -/
theorem State.wfs_eq (s : State) (l : List (Fld × Nat)) : s.wfs l = { s with flds := (s.wfs l).flds } := by
  induction l generalizing s with
  | nil => rfl
  | cons e l ih => exact ih (s.wf e.1 e.2)

/-- A field of no cell among those written reads as before. -/
theorem State.rf_wfs_ne {s : State} {l : List (Fld × Nat)} {g : Fld} (h : Tbl.sortedFrom 0 s.flds = true)
    (hg : ∀ e ∈ l, g.cell ≠ e.1.cell) : (s.wfs l).rf g = s.rf g := by
  induction l generalizing s with
  | nil => rfl
  | cons e l ih =>
    rw [List.forall_mem_cons] at hg
    exact (ih (State.sorted_wf e.1 e.2 h) hg.2).trans (State.rf_wf_ne e.2 h hg.1)

/-- Of fields whose cells differ each reads the value it was given. -/
theorem State.rf_wfs_mem {s : State} {l : List (Fld × Nat)} {f : Fld} {v : Nat} (h : Tbl.sortedFrom 0 s.flds = true)
    (hd : l.Pairwise (fun a b => a.1.cell ≠ b.1.cell)) (hf : (f, v) ∈ l) : (s.wfs l).rf f = v % 2 ^ f.w := by
  induction l generalizing s with
  | nil => cases hf
  | cons e l ih =>
    obtain ⟨he, hl⟩ := List.pairwise_cons.mp hd
    obtain hf | hf := List.mem_cons.mp hf
    · subst hf
      exact (State.rf_wfs_ne (State.sorted_wf f v h) he).trans (State.rf_wf_same f v h)
    · exact ih (State.sorted_wf e.1 e.2 h) hl hf

/-- The fields that say of a partition that it is out of use. -/
def offFields (p : Nat) : List (Fld × Nat) :=
  [(PRT_STATE.STATE p, psOFF), (BDR_PSEC.CLAIMED p, 0), (BDR_PSEC.SESSION p, 0), (BDR_PSEC.PROVISIONED p, 0)]

/-- The fields that are cleared when the rails go off. -/
def railFields : List (Fld × Nat) :=
  [(HST_LINK.SPEED, 0), (HST_LINK.WIDTH, 0), (HST_LINK.FLIT, 0), (HST_LINK.UP, 0), (HST_MREQ_STAT.BUSY, 0), (BDR_SEC.PF16_SESS, 0),
    (BDR_SEC.IDE, 0)] ++ (List.range 16).flatMap offFields

/-- No two of the fields cleared when the rails go off share a cell. -/
theorem railFields_cells : railFields.Pairwise (fun a b => a.1.cell ≠ b.1.cell) := by decide +kernel

/-- What the management domain still holds when the rails go off. -/
def State.managed (s : State) : State :=
  { pending := s.pending, fuse := s.fuse, cfg := s.cfg, log := s.log, flash := s.flash, images := s.images, freeCtr := s.freeCtr
    out := s.out, flds := s.flds.drop (fun k => !railKept k), recSeq := s.recSeq, recPend := s.recPend, recFlush := s.recFlush
    suppressed := s.suppressed, corrSeen := s.corrSeen, elog := s.elog, events := s.events, i3cAddr := s.i3cAddr, mctpEid := s.mctpEid
    power := { s.power with coreRail := false, otherRails := false, pwrGd := false } }

/-- What is left when the rails go off is what the management domain holds, with those fields cleared. -/
theorem State.railsOff_eq (s : State) : s.railsOff = s.managed.wfs railFields := rfl

theorem State.sorted_managed {s : State} (h : Tbl.sortedFrom 0 s.flds = true) : Tbl.sortedFrom 0 s.managed.flds = true := by
  unfold State.managed
  dsimp only
  exact Tbl.sortedFrom_drop _ h

/-- The fields cleared when the rails go off read 0. -/
theorem State.rf_railsOff_zero {s : State} {g : Fld} (h : Tbl.sortedFrom 0 s.flds = true) (hg : (g, 0) ∈ railFields) :
    s.railsOff.rf g = 0 := by
  rw [State.railsOff_eq]
  exact (State.rf_wfs_mem (State.sorted_managed h) railFields_cells hg).trans (Nat.zero_mod _)

/-- Every other field of the management domain keeps its value (R501). -/
theorem State.rf_railsOff_kept {s : State} {g : Fld} (h : Tbl.sortedFrom 0 s.flds = true) (hg : ∀ e ∈ railFields, g.cell ≠ e.1.cell)
    (hk : railKept g.cell = true) : s.railsOff.rf g = s.rf g := by
  rw [State.railsOff_eq, State.rf_wfs_ne (State.sorted_managed h) hg, State.rf, State.managed, Tbl.get_drop _ _ h, hk]
  rfl

theorem mem_railFields {p : Nat} {e : Fld × Nat} (hp : p < 16) (hf : e ∈ offFields p) : e ∈ railFields :=
  List.mem_append_right _ (List.mem_flatMap.mpr ⟨p, List.mem_range.mpr hp, hf⟩)

/-! ### Waiting commands (R39, R41) -/

/-- Whether a context takes a migration now, in ticks (R39). -/
theorem State.mayMigrate_iff {s : State} {j : Nat} : s.mayMigrate j = true ↔ ∀ t ∈ (s.getAux j).lastMigr, t + 200 ≤ s.now := by
  unfold State.mayMigrate
  cases (s.getAux j).lastMigr <;> simp

/-- Whether the host's function has room for a command (R41, R42, R446). -/
theorem State.hostRoom_iff {s : State} {n : Nat} : s.hostRoom n = true ↔ s.rf (PRT_CTX.INUSE n) + 1 ≤ s.rf (PRT_CTX.QUOTA n) ∧
    s.ctxsHeld + 1 ≤ 258048 ∧ s.rf (HST_QSTAT.OPEN n) < 1024 := by
  simp only [State.hostRoom, State.quotaFor, Bool.and_eq_true, decide_eq_true_eq, and_assoc]

/-- CONTEXT_WAIT_RESUME of a function: its own command goes first, then an opening queue of its partition. -/
theorem execContextWaitResume_of_lt {s : State} {n : Nat} (hn : n < 16) : execContextWaitResume n s = .next (
    match (s.getHost n).wait with
    | some w => if s.hostRoom n then (s.setHost n { s.getHost n with wait := none }).acceptSub n w.sub else s
    | none =>
      match (s.colQueues n).find? (fun q => (s.getColq n q).waiting) with
      | some q => s.openStreams n q
      | none => s) := if_pos hn

/-- MIGRATION_DEFERRED of a context. -/
theorem execMigrationDeferred_of_lt {s : State} {i : Nat} (hi : i < 2 ^ 18) : execMigrationDeferred i s = .next (
    if (s.getAux i).migrWait ≠ 0 ∧ s.mayMigrate i then s.rebindNow ((s.getAux i).migrWait - 1) else s) := if_pos hi

end Sys2Proof.Machine

open Sys2Proof Sys2Proof.Machine

/-- Settles O55: the state after the rails is a new one with what is kept, and some of its fields are cleared. -/
theorem railsOffLosesVolatileState : Obligations.RailsOffLosesVolatileState := by
  unfold Obligations.RailsOffLosesVolatileState
  intro s h
  have hp {p : Nat} (hp : p < 16) (f : Fld) (hf : (f, 0) ∈ offFields p) : s.railsOff.rf f = 0 :=
    State.rf_railsOff_zero h (mem_railFields hp hf)
  have e : s.railsOff = { s.managed with flds := s.railsOff.flds } := s.managed.wfs_eq railFields
  refine ⟨congrArg State.boot e, congrArg State.power e, congrArg State.mem e, congrArg State.ctx e,
    fun p h16 => ⟨hp h16 _ ?_, hp h16 _ ?_, hp h16 _ ?_, hp h16 _ ?_⟩, State.rf_railsOff_zero h (by decide),
    State.rf_railsOff_zero h (by decide), State.rf_railsOff_zero h (by decide),
    State.rf_railsOff_kept h (by decide +kernel) (by decide), (congrArg State.fuse e :), (congrArg State.flash e :), (congrArg State.cfg e :),
    (congrArg State.log e :), (congrArg State.recPend e :), (congrArg State.images e :), (congrArg State.pending e :)⟩
  all_goals simp [offFields, psOFF]

/-- Settles O17: both commands, by what waits and whether there is room or the spacing is over. -/
theorem waitingCommandsResume : Obligations.WaitingCommandsResume := by
  unfold Obligations.WaitingCommandsResume
  simp only [exec_contextWaitResume, exec_migrationDeferred]
  refine ⟨fun s n w hn hw => ?_, fun s n => State.hostRoom_iff, fun s n q hn hw hq => ?_, fun s n hn hw hq => ?_,
    fun s i hi hw ht => ?_, fun s i t hi ht hlt => ?_, fun s i hi hw => ?_⟩
  · rw [execContextWaitResume_of_lt hn, hw]
  · rw [execContextWaitResume_of_lt hn, hw]
    dsimp only
    rw [hq]
  · rw [execContextWaitResume_of_lt hn, hw]
    dsimp only
    rw [hq]
  · rw [execMigrationDeferred_of_lt hi, if_pos ⟨hw, State.mayMigrate_iff.mpr ht⟩]
  · rw [execMigrationDeferred_of_lt hi, if_neg]
    rintro ⟨-, hm⟩
    have := State.mayMigrate_iff.mp hm t ht
    omega
  · rw [execMigrationDeferred_of_lt hi, if_neg fun hm => hm.1 hw]

end

section
namespace Sys2Proof.Machine

/-! ### Clock enables and descriptors (chapters 1, 6 and 16) -/

theorem bit_le_one (b : Bool) : bit b ≤ 1 := by cases b <;> decide

/-- Bit `i` of a number, as a number. -/
theorem bitOf_eq_iff {n i : Nat} {b : Bool} : bitOf n i = b ↔ n / 2 ^ i % 2 = bit b := by
  unfold bitOf bit
  cases b
  · simp
  · simp

/-- The bits of PRT_CLK_EN that are clock enables (R513). -/
def enableBits : List Nat := [0, 1, 2, 3, 4, 5, 7, 8, 12]

/-- A value of PRT_CLK_EN, from its enables. -/
def enableWord (f : Nat → Bool) : Nat := (enableBits.map (fun i => bit (f i) * 2 ^ i)).sum

/-- Each enable is found at its bit. -/
theorem bitOf_enableWord (f : Nat → Bool) {i : Nat} (hi : i ∈ enableBits) : bitOf (enableWord f) i = f i := by
  rw [bitOf_eq_iff]
  have h (k : Nat) : bit (f k) ≤ 1 := bit_le_one _
  have h0 := h 0; have h1 := h 1; have h2 := h 2; have h3 := h 3; have h4 := h 4; have h5 := h 5; have h7 := h 7; have h8 := h 8
  have h12 := h 12
  simp only [enableWord, enableBits, List.map_cons, List.map_nil, List.sum_cons, List.sum_nil]
  simp only [enableBits, List.mem_cons, List.not_mem_nil, or_false] at hi
  obtain rfl | rfl | rfl | rfl | rfl | rfl | rfl | rfl | rfl := hi <;> omega

/-- A 64-bit mask of ones covers every bit. -/
theorem bitOf_ones {i : Nat} (hi : i < 64) : bitOf (2 ^ 64 - 1) i = true := by
  revert i
  decide

theorem lt_of_mem_enableBits {i : Nat} (hi : i ∈ enableBits) : i < 64 := by
  revert i
  decide

/-- Write the nine clock enables, each by its own field. -/
def State.enableAll (s : State) (p : Nat) (f : Nat → Bool) : State :=
  (((((((((s.wf (PRT_CLK_EN.GRN p) (bit (f 0))).wf (PRT_CLK_EN.MCA p) (bit (f 1))).wf (PRT_CLK_EN.FLT p) (bit (f 2))).wf
    (PRT_CLK_EN.TLM p) (bit (f 3))).wf (PRT_CLK_EN.MOV p) (bit (f 4))).wf (PRT_CLK_EN.MEM p) (bit (f 5))).wf (PRT_CLK_EN.STR p)
    (bit (f 7))).wf (PRT_CLK_EN.ASY p) (bit (f 8))).wf (PRT_CLK_EN.DSP p) (bit (f 12)))

theorem State.setEnables_enableWord (s : State) (p : Nat) (f : Nat → Bool) : s.setEnables p (enableWord f) = s.enableAll p f := by
  have h {i : Nat} (hi : i ∈ enableBits) := bitOf_enableWord f hi
  unfold State.setEnables State.enableAll
  dsimp only
  rw [h (by decide), h (by decide), h (by decide), h (by decide), h (by decide), h (by decide), h (by decide), h (by decide),
    h (by decide)]

/-- What a write of the whole of PRT_CLK_EN does, and whether a bit could not take its value (R484). -/
theorem State.writeEnables_whole (s : State) (p v : Nat) :
    s.writeEnables p v (2 ^ 64 - 1) =
      let new := enableBit (s.rf (PRT_CTRL.LOCK p) == 1) (s.enables p) (s.busyBlocks p) v (2 ^ 64 - 1)
      (s.enableAll p new, !enableBits.all (fun i => bitOf v i == new i)) := by
  unfold State.writeEnables
  dsimp only
  rw [← State.setEnables_enableWord, List.not_all_eq_any_not]
  refine Prod.ext rfl (Bool.eq_iff_iff.mpr ?_)
  rw [List.any_eq_true, List.any_eq_true]
  refine exists_congr fun i => and_congr_right fun hi => ?_
  have hw := bitOf_enableWord (enableBit (s.rf (PRT_CTRL.LOCK p) == 1) (s.enables p) (s.busyBlocks p) v (2 ^ 64 - 1)) hi
  rw [enableWord, enableBits] at hw
  rw [bitOf_ones (lt_of_mem_enableBits hi), Bool.true_and, hw]
  rfl

section
variable {old busy v m i : Nat}

/-- A bit that LOCK holds keeps its value (R513). -/
theorem enableBit_locked (h : i ∈ [2, 5, 8]) : enableBit true old busy v m i = bitOf old i := by
  have hk : [2, 5, 8].contains i = true := List.contains_iff_mem.mpr h
  rw [enableBit, hk]
  exact ite_eq_left_iff.mpr fun _ => rfl

/-- The enable of a block with work stays set (R484). -/
theorem enableBit_busy {l : Bool} (ho : bitOf old i = true) (hb : bitOf busy i = true) : enableBit l old busy v m i = true := by
  simp [enableBit, ho, hb]

/-- Every other covered bit takes the written value. -/
theorem enableBit_free {l : Bool} (hm : bitOf m i = true) (hl : l = false ∨ i ∉ [2, 5, 8])
    (hb : bitOf old i = false ∨ bitOf busy i = false) : enableBit l old busy v m i = bitOf v i := by
  have hk : (l && [2, 5, 8].contains i) = false := by
    rw [Bool.and_eq_false_iff, ← Bool.not_eq_true ([2, 5, 8].contains i), List.contains_iff_mem]
    exact hl
  have hw : (bitOf old i && !bitOf v i && bitOf busy i) = true → False := by
    simp only [Bool.and_eq_true]
    rintro ⟨⟨ho, -⟩, hw⟩
    exact hb.elim (by simp [ho]) (by simp [hw])
  simp only [enableBit, hm, hk, Bool.not_true, Bool.false_eq_true, if_false, if_neg hw]

end

/-- The map of a descriptor word (R174). -/
def descReg : RegDef := ⟨"MOV_DESC", 0x100000, [(0x100, 4096), (0x8, 32)], [⟨0, 64, 0, .rw, .stored, 0, 2 ^ 64⟩]⟩

/-- The offset of word `w` of descriptor `i` in the register region (R175). -/
def descOff (i w : Nat) : Nat := 0x05100000 + 0x100 * i + 8 * w

/-- A field of 64 bits takes the whole of an eight-byte write. -/
theorem mixed_whole {old new : Nat} (ho : old < 2 ^ 64) (hn : new < 2 ^ 64) : mixed old new (2 ^ 64 - 1) = new := by
  have hl (x : Nat) (hx : x < 2 ^ 64) : Nat.land x (2 ^ 64 - 1) = x := (Nat.and_two_pow_sub_one_eq_mod x 64).trans (Nat.mod_eq_of_lt hx)
  rw [mixed, hl new hn, hl old ho]
  exact (congrArg (new ||| ·) (Nat.xor_self old)).trans (Nat.or_zero new)

theorem State.writeFlds_desc {s : State} {l : Bool} {key : Nat} {v : Word64} (ho : s.rf ⟨key, 0, 64, 0⟩ < 2 ^ 64) :
    s.writeFlds l key v.toNat (2 ^ 64 - 1) descReg.flds = (s.wf ⟨key, 0, 64, 0⟩ v.toNat, false) := by
  have hv : bits v.toNat 0 64 = v.toNat := by
    rw [bits, Nat.pow_zero, Nat.div_one, Nat.mod_eq_of_lt v.isLt]
  have hm : bits (2 ^ 64 - 1) 0 64 = 2 ^ 64 - 1 := by decide
  have hx := mixed_whole ho v.isLt
  simp only [descReg, State.writeFlds, State.writeFld, RegF.at, hv, hm, hx, Bool.or_false]
  rw [if_pos ⟨by decide, Nat.zero_le _, Nat.le_of_lt v.isLt⟩]

theorem descOff_mod {i w : Nat} : descOff i w % 8 = 0 := by
  unfold descOff
  omega

section
variable {i w : Nat} (hi : i < 4096) (hw : w < 32)
include hi hw

theorem findReg_desc : findReg regsMov (0x100000 + 0x100 * i + 8 * w) = some descReg := by
  have h (d : Nat) (hd : d < 0x100000) : (0x100000 + 0x100 * i + 8 * w - d == 0) = false := by
    rw [beq_eq_false_iff_ne]
    omega
  have h1 : (0x100000 + 0x100 * i + 8 * w - 0x100000) / 0x100 < 4096 := by omega
  have h2 : (0x100000 + 0x100 * i + 8 * w - 0x100000) % 0x100 / 8 < 32 := by omega
  have h3 : (0x100000 + 0x100 * i + 8 * w - 0x100000) % 0x100 % 8 = 0 := by omega
  have h4 : 0x100000 ≤ 0x100000 + 0x100 * i + 8 * w := by omega
  simp only [findReg, regsMov, List.find?, onGrid, h, Nat.reduceLT, Bool.and_false, h1, h2, h3, h4, decide_true, Bool.and_self,
    beq_self_eq_true, descReg]

theorem State.regAt_desc (s : State) (p : Nat) : s.regAt p (descOff i w) =
    some ⟨descReg, regKey p 0x05000000 + (0x100000 + 0x100 * i + 8 * w), 0, some (PRT_CLK_EN.MOV p)⟩ := by
  have hr : descOff i w % 0x1000000 = 0x100000 + 0x100 * i + 8 * w := by unfold descOff; omega
  have hq : descOff i w / 0x1000000 = 5 := by unfold descOff; omega
  have hb : descOff i w - (0x100000 + 0x100 * i + 8 * w) = 0x05000000 := by unfold descOff; omega
  simp only [State.regAt, hq, hr, hb, hitIn, findReg_desc hi hw, Option.map_some]

theorem descOff_div : descOff i w / 0x1000000 = 5 := by
  unfold descOff
  omega

/-- No rule keeps an eight-byte write of a descriptor word from its register (R175). -/
theorem State.writeDenied_desc (s : State) (a : Agent) (p : Nat) {h : Hit} (hd : h.d = descReg) :
    s.writeDenied a p (descOff i w) 8 h = false := by
  simp [State.writeDenied, hd, descReg, descOff_div hi hw, bedrockOnly]

/-- An eight-byte write of a descriptor word gives the register that word. -/
theorem State.partWrite_desc {s : State} {p : Nat} {v : Word64} (a : Agent) (hc : s.rf (PRT_CLK_EN.MOV p) = 1)
    (ho : s.rf (MOV_DESC.D p i w) < 2 ^ 64) :
    s.partWrite a p (descOff i w) 8 v = (s.wf (MOV_DESC.D p i w) v.toNat, false) := by
  have h5 := descOff_div hi hw
  have hk : (⟨regKey p 0x05000000 + (0x100000 + 0x100 * i + 8 * w), 0, 64, 0⟩ : Fld) = MOV_DESC.D p i w := by
    simp only [MOV_DESC.D, MOV_DESC.key, Nat.add_assoc]
  have hw : s.regWrite a p (descOff i w) 8 v = (s.wf (MOV_DESC.D p i w) v.toNat, false) := by
    have hcl : s.clocked ⟨descReg, regKey p 0x05000000 + (0x100000 + 0x100 * i + 8 * w), 0, some (PRT_CLK_EN.MOV p)⟩ = true :=
      beq_iff_eq.mpr hc
    have hp : placed 0 8 v = v.toNat := by
      rw [placed, Nat.mul_zero, Nat.pow_zero, Nat.mul_one, Nat.mod_eq_of_lt v.isLt]
    rw [State.regWrite, descOff_mod, Nat.sub_zero, State.regAt_desc hi hw]
    dsimp only
    rw [hcl, State.writeDenied_desc hi hw _ _ _ rfl, hp, if_neg (by decide), if_neg (by decide)]
    rw [← hk] at ho ⊢
    exact State.writeFlds_desc ho
  have hne {x : Nat} (hx : x / 0x1000000 ≠ 5) : ¬ descOff i w = x := fun e => hx (e ▸ h5)
  have hcol : decide (0x08010000 ≤ descOff i w ∧ descOff i w < 0x08014000) = false := decide_eq_false (by omega)
  unfold State.partWrite
  simp only [descOff_mod, Nat.sub_zero, if_neg (hne (x := 0x28) (by decide)), if_neg (hne (x := 0x30) (by decide)),
    if_neg (hne (x := 0x09000020) (by decide)), if_neg (hne (x := 0x0B000060) (by decide)), if_neg (hne (x := 0x0A000078) (by decide)),
    if_neg (hne (x := 0x0A000040) (by decide)), hcol, h5, Bool.false_and, Bool.false_eq_true, if_false, Nat.reduceBEq, hw]
  rw [State.errHeld, if_neg fun h => hne (by decide) h.1, if_neg (by omega)]

end

end Sys2Proof.Machine

open Sys2Proof Sys2Proof.Machine

/-- Settles O12: the register map leads an eight-byte write to the descriptor word, and each clock enable is a bit of its own. -/
theorem descriptorAndClockEnableWrites : Obligations.DescriptorAndClockEnableWrites := by
  unfold Obligations.DescriptorAndClockEnableWrites
  refine ⟨fun s a p i w v hp hi hw ha hn hc ho => ?_, fun s a p v hp hn => ?_, fun s p v hp => onPart_of_lt hp,
    fun s p v m i hi hm => ⟨fun h => ?_, enableBit_busy, fun hl => enableBit_free hm ?_⟩⟩
  · have h8 : sizeOk (descOff i w) 8 = true := by
      rw [sizeOk, descOff_mod]
      rfl
    rw [exec_registerWrite, ← descOff]
    simp only [execRegisterWrite, Nat.not_le.mpr hp, ha, h8, hn, State.partWrite_desc hi hw a hc ho, Bool.not_true, Bool.false_eq_true,
      or_self, if_false]
    rfl
  · rw [exec_clockEnableWrite, execClockEnableWrite, if_neg hn, State.writeEnables_whole, onPart_of_lt hp]
    dsimp only
    generalize enableBit (s.rf (PRT_CTRL.LOCK p) == 1) (s.enables p) (s.busyBlocks p) v.toNat (2 ^ 64 - 1) = new
    cases he : enableBits.all (fun i => bitOf v.toNat i == new i) with
    | true => exact congrArg _ (if_pos he).symm
    | false => exact congrArg _ (if_neg (Bool.eq_false_iff.mp he)).symm
  · rw [h.1]
    exact enableBit_locked h.2
  · exact hl.imp_left beq_false_of_ne
end

section
namespace Sys2Proof.Machine

/-! ### Module requests and the partition summaries (chapter 15) -/

section
variable {s : State}

/-- No request is read before Bedrock runs (R452). -/
theorem State.mreqAt_early (t : State) (h1 : s.boot ≠ .running) (h2 : s.boot ≠ .maint) : s.mreqAt t = s := if_pos ⟨h1, h2⟩

theorem not_early (h : s.boot = .running ∨ s.boot = .maint) : ¬ (s.boot ≠ .running ∧ s.boot ≠ .maint) :=
  fun hn => h.elim hn.1 hn.2

/-- While a request is in progress others are counted. -/
theorem State.mreqAt_busy (t : State) (h : s.boot = .running ∨ s.boot = .maint) (hb : s.rf HST_MREQ_STAT.BUSY = 1) :
    s.mreqAt t = s.inc HST_MREQ_STAT.REFUSED := by
  rw [State.mreqAt, if_neg (not_early h), if_pos hb]

/-- Otherwise a request is carried out. -/
theorem State.mreqAt_idle (t : State) (h : s.boot = .running ∨ s.boot = .maint) (hb : s.rf HST_MREQ_STAT.BUSY ≠ 1) :
    s.mreqAt t = t := by
  rw [State.mreqAt, if_neg (not_early h), if_neg hb]

variable {p k : Nat}

theorem State.mreqReset_off (h : s.pstate p = psOFF) : s.mreqReset p k = s.mreqResult 2 := if_pos h

theorem State.mreqReset_merged (h : s.pstate p ≠ psOFF) (hr : (s.getReset p).isSome = true) :
    s.mreqReset p k = (s.resetRequest p k).mreqResult 3 := by
  rw [State.mreqReset, if_neg h, if_pos hr]

theorem State.mreqReset_begun (h : s.pstate p ≠ psOFF) (hr : s.getReset p = none) :
    s.mreqReset p k = (s.mreqBegin p).resetRequest p k := by
  rw [State.mreqReset, if_neg h, if_neg (by rw [hr]; decide)]

/-- A field test that does not run is asked for (R332). -/
theorem State.askFieldTest_idle (h : (s.getFt p).running = false) :
    s.askFieldTest p = s.setFt p { s.getFt p with pending := true } := by
  unfold State.askFieldTest
  dsimp only
  rw [h]
  rfl

theorem State.mreqTest_running (h : (s.getFt p).running = true) : s.mreqTest p = s.mreqResult 3 := if_pos h

theorem State.mreqTest_asked (h : (s.getFt p).running = false)
    (hs : s.pstate p = psREADY ∨ s.pstate p = psFAULT ∨ s.pstate p = psRUNNING) :
    s.mreqTest p = (s.mreqBegin (p + 16)).setFt p { s.getFt p with pending := true } := by
  rw [State.mreqTest, if_neg (Bool.eq_false_iff.mp h), if_pos hs]
  exact State.askFieldTest_idle (s := s.mreqBegin (p + 16)) h

theorem State.mreqTest_rejected (h : (s.getFt p).running = false)
    (hs : ¬ (s.pstate p = psREADY ∨ s.pstate p = psFAULT ∨ s.pstate p = psRUNNING)) : s.mreqTest p = s.mreqResult 2 := by
  rw [State.mreqTest, if_neg (Bool.eq_false_iff.mp h), if_neg hs]

end

/-- The alert stays while an event is left after the oldest one is read (R455). -/
theorem alert_stays {l : List PlatformEvent} : (!l.tail.isEmpty) = decide (2 ≤ l.length) := by
  match l with
  | [] | [_] => rfl
  | _ :: _ :: _ => simp

/-- Write values at consecutive keys from `k`. -/
def putRow (t : Tbl Nat) (k : Nat) (vs : List Nat) : Tbl Nat := (vs.zipIdx).foldl (fun t e => t.set 0 (k + e.2) e.1) t

/-- Writing a row from its second value on is writing a shorter row one key further. -/
theorem foldl_zipIdx_succ (t : Tbl Nat) (k n : Nat) (vs : List Nat) :
    (vs.zipIdx (n + 1)).foldl (fun (t : Tbl Nat) e => t.set 0 (k + e.2) e.1) t =
      (vs.zipIdx n).foldl (fun (t : Tbl Nat) e => t.set 0 (k + 1 + e.2) e.1) t := by
  induction vs generalizing t n with
  | nil => rfl
  | cons v vs ih =>
    rw [List.zipIdx_cons, List.zipIdx_cons, List.foldl_cons, List.foldl_cons, ih]
    dsimp only
    rw [Nat.add_right_comm k 1 n, Nat.add_assoc k n 1]

@[simp] theorem putRow_cons (t : Tbl Nat) (k v : Nat) (vs : List Nat) : putRow t k (v :: vs) = putRow (t.set 0 k v) (k + 1) vs :=
  foldl_zipIdx_succ (t.set 0 k v) k 0 vs

/-- Writing a row keeps the keys in order. -/
theorem sorted_putRow {t : Tbl Nat} {k : Nat} {vs : List Nat} (h : Tbl.sortedFrom 0 t = true) :
    Tbl.sortedFrom 0 (putRow t k vs) = true := by
  induction vs generalizing t k with
  | nil => exact h
  | cons v vs ih =>
    rw [putRow_cons]
    exact ih (Tbl.sortedFrom_set v h (Nat.zero_le k))

/-- A key outside a row reads as before. -/
theorem get_putRow_outside {t : Tbl Nat} {k j : Nat} {vs : List Nat} (h : Tbl.sortedFrom 0 t = true)
    (hj : j < k ∨ k + vs.length ≤ j) : (putRow t k vs).get 0 j = t.get 0 j := by
  induction vs generalizing t k with
  | nil => rfl
  | cons v vs ih =>
    rw [List.length_cons] at hj
    rw [putRow_cons, ih (Tbl.sortedFrom_set v h (Nat.zero_le k)) (by omega), Tbl.get_set_ne v h (by omega)]

/-- A key of a row reads the value written there. -/
theorem get_putRow_inside {t : Tbl Nat} {k i : Nat} {vs : List Nat} (h : Tbl.sortedFrom 0 t = true) (hi : i < vs.length) :
    (putRow t k vs).get 0 (k + i) = vs[i] := by
  induction vs generalizing t k i with
  | nil => cases hi
  | cons v vs ih =>
    have h2 : Tbl.sortedFrom 0 (t.set 0 k v) = true := Tbl.sortedFrom_set v h (Nat.zero_le k)
    rw [putRow_cons]
    cases i with
    | zero =>
      rw [get_putRow_outside h2 (.inl (by omega)), Nat.add_zero, Tbl.get_set_same k v h]
      rfl
    | succ i =>
      rw [show k + (i + 1) = k + 1 + i by omega]
      exact ih h2 (by simpa using hi)

/-- The offsets of the registers that a summary copies (R439). -/
def summaryOffs : List Nat := [0x00, 0x18, 0x08, 0x60, 0x58, 0x68, 0x70, 0x78, 0x80, 0x0B000008]

/-- What a summary shows of the register at an offset. -/
def State.summaryVal (s : State) (p off : Nat) : Nat :=
  match s.regAt p off with
  | some h => s.readHit p h
  | none => 0

theorem State.summary_eq (s : State) (p : Nat) : s.summary p = summaryOffs.map (s.summaryVal p) := rfl

/-- The summaries after those of some partitions are refreshed. -/
def State.summaries (s : State) (ps : List Nat) (t : Tbl Nat) : Tbl Nat := ps.foldl (fun t p => putRow t (p * 16) (s.summary p)) t

/-- Refreshing summaries changes nothing but them: no register they copy depends on one. -/
theorem State.foldl_refresh (s : State) (ps : List Nat) : ps.foldl State.refresh s = { s with summ := s.summaries ps s.summ } := by
  induction ps generalizing s with
  | nil => rfl
  | cons p ps ih => exact ih (s.refresh p)

@[simp] theorem State.length_summary (s : State) (p : Nat) : (s.summary p).length = 10 := by
  rw [State.summary_eq, List.length_map]
  rfl

/-- A refreshed summary holds the values of its registers, and the others stay. -/
theorem State.get_summaries {s : State} {ps : List Nat} {t : Tbl Nat} {p k : Nat} (h : Tbl.sortedFrom 0 t = true) (hk : k < 10) :
    (s.summaries ps t).get 0 (p * 16 + k) = if p ∈ ps then (s.summary p)[k]'(by rwa [s.length_summary]) else t.get 0 (p * 16 + k) := by
  induction ps generalizing t with
  | nil => rfl
  | cons q ps ih =>
    rw [State.summaries, List.foldl_cons, ← State.summaries, ih (sorted_putRow h)]
    by_cases hq : p = q
    · subst hq
      rw [get_putRow_inside h (by rwa [s.length_summary]), ite_self, if_pos (List.mem_cons_self ..)]
    · rw [get_putRow_outside h (by rw [s.length_summary]; omega)]
      simp only [List.mem_cons, hq, false_or]

/-- The values of a summary are those of its registers. -/
theorem State.summary_at {s : State} {p k : Nat} {h : Hit} (hk : k < (s.summary p).length)
    (hr : s.regAt p (summaryOffs.getD k 0) = some h) : (s.summary p)[k] = s.readHit p h := by
  have hl : k < summaryOffs.length := by rwa [s.length_summary] at hk
  refine (List.getElem_eq_iff hk).mpr ?_
  rw [s.summary_eq, List.getElem?_map, List.getElem?_eq_getElem hl, Option.map_some, ← List.getD_eq_getElem _ 0 hl, State.summaryVal, hr]

end Sys2Proof.Machine

open Sys2Proof Sys2Proof.Machine

/-- Settles O51: every request by whether one is in progress, and the summaries row by row. -/
theorem moduleRequestsManagementAndSummaries : Obligations.ModuleRequestsManagementAndSummaries := by
  unfold Obligations.ModuleRequestsManagementAndSummaries
  simp only [exec_mgmtWarmReset, exec_mgmtRetenantReset, exec_mgmtFieldTest, exec_mgmtCertificate, exec_summaryCopyRefresh,
    execMgmtWarmReset, execMgmtRetenantReset, execMgmtFieldTest]
  refine ⟨fun s p hp h1 h2 => ?_, fun s p hp h hb => ?_, fun s p hp h hb => ?_, fun s a c ha => ?_, fun s u a r c ha h hb hc => ?_,
    fun s a => ⟨rfl, rfl⟩, fun s a b => ⟨rfl, rfl⟩, fun s => ?_, fun s => rfl, fun s => ?_⟩
  · simp only [onPart_of_lt hp, State.mreqAt_early _ h1 h2, and_self]
  · simp only [onPart_of_lt hp, State.mreqAt_busy _ h hb, true_and]
    exact fun c => congrArg _ (State.mreqAt_busy _ h hb)
  · simp only [onPart_of_lt hp, State.mreqAt_idle _ h hb]
    refine ⟨fun ho => ?_, fun ho hr => ?_, fun ho hr => ?_, fun hr => ?_, fun hr hs => ?_, fun hr h1 h2 h3 => ?_⟩
    · rw [State.mreqReset_off ho, State.mreqReset_off ho]
      exact ⟨rfl, rfl⟩
    · rw [State.mreqReset_merged ho hr, State.mreqReset_merged ho hr]
      exact ⟨rfl, rfl⟩
    · rw [State.mreqReset_begun ho hr, State.mreqReset_begun ho hr]
      exact ⟨rfl, rfl⟩
    · rw [State.mreqTest_running hr]
      rfl
    · rw [State.mreqTest_asked hr hs]
      rfl
    · rw [State.mreqTest_rejected hr (by simp [h1, h2, h3])]
      rfl
  · rw [execMgmtCertificate, if_neg ha]
  · rw [execMgmtCertificate, if_pos ha, State.mreqAt_idle _ h hb, State.mreqCert, hc]
    rfl
  · rw [exec_platformEventRead, execPlatformEventRead, alert_stays]
  · refine ⟨s.summaries (List.range 16) s.summ, congrArg Host.Outcome.next (s.foldl_refresh (List.range 16)), fun hs p k hp hk h hr => ?_⟩
    rw [State.get_summaries hs hk, if_pos (List.mem_range.mpr hp)]
    exact State.summary_at _ hr

end

section
namespace Sys2Proof.Machine

/-! ### Function and link resets, submissions and completions (chapter 15) -/

/-- The end of a session changes its keys, what registers show of it, and the transfers under it. -/
theorem State.endSession_eq (s : State) (n i : Nat) : s.endSession n i =
    { s with flds := (s.endSession n i).flds, sess := (s.endSession n i).sess, handles := (s.endSession n i).handles } := by
  unfold State.endSession
  dsimp only
  split
  · rfl
  · split <;> rfl

/-- An FLR of PF16 ends its sessions and changes nothing else but registers. -/
theorem State.flrOf_pf16 (s : State) : s.flrOf 16 = ((s.inc HST_LINKERR.FLR).endSession 16 0).endSession 16 1 := rfl

/-- An FLR of another function also takes its rings out of use. -/
theorem State.flrOf_pf {s : State} {n : Nat} (h : n ≠ 16) :
    s.flrOf n = (((s.inc HST_LINKERR.FLR).endSession n 0).endRings n).resetPf n := if_neg h

/-- Memory, contexts and what was sent stay at the end of a session, as do the rings of the functions. -/
theorem State.endSession_kept (s : State) (n i : Nat) : (s.endSession n i).mem = s.mem ∧ (s.endSession n i).ctx = s.ctx ∧
    (s.endSession n i).out = s.out ∧ (s.endSession n i).host = s.host := by
  rw [s.endSession_eq n i]
  exact ⟨rfl, rfl, rfl, rfl⟩

/-- The register fields of a function's rings, and what they hold out of use. -/
def ringFields (n : Nat) : List (Fld × Nat) :=
  [(HST_QCFG.EN n, 0), (HST_QSTAT.SQ_HEAD n, 0), (HST_QSTAT.CQ_TAIL n, 0), (HST_SQ_BASE.SIZE n, 0), (HST_SQ_BASE.ADDR n, 0),
    (HST_CQ_BASE.SIZE n, 0), (HST_CQ_BASE.ADDR n, 0), (HST_QCFG.REBIND_S n, 60)]

/-- No two of them share a cell. -/
theorem ringFields_cells {n : Nat} (hn : n < 16) : (ringFields n).Pairwise (fun a b => a.1.cell ≠ b.1.cell) := by
  revert n
  decide +kernel

/-- Taking a function's rings out of use clears their positions but for what waits or is produced, and gives its registers values. -/
theorem State.resetRings_eq (s : State) (n : Nat) : (s.endRings n).resetPf n =
    (s.setHost n { wait := (s.getHost n).wait, produced := (s.getHost n).produced }).wfs (ringFields n) := rfl

/-- Taking a function's rings out of use changes its registers and its ring positions. -/
theorem State.resetRings_kept (s : State) (n : Nat) : ((s.endRings n).resetPf n).mem = s.mem ∧
    ((s.endRings n).resetPf n).ctx = s.ctx ∧ ((s.endRings n).resetPf n).out = s.out ∧ ((s.endRings n).resetPf n).host =
      s.host.set {} n { wait := (s.getHost n).wait, produced := (s.getHost n).produced } := by
  rw [State.resetRings_eq, State.wfs_eq]
  exact ⟨rfl, rfl, rfl, rfl⟩

theorem State.getHost_eq (s : State) (n : Nat) : s.getHost n = s.host.get {} n := rfl

/-- Work that was delivered stays when a function's rings go out of use: what waits and what is produced (R440). -/
theorem State.getHost_resetRings {s : State} (n m : Nat) (h : Tbl.sortedFrom 0 s.host = true) :
    (((s.endRings n).resetPf n).getHost m).produced = (s.getHost m).produced ∧
      (((s.endRings n).resetPf n).getHost m).wait = (s.getHost m).wait := by
  obtain ⟨-, -, -, hh⟩ := s.resetRings_kept n
  rw [State.getHost_eq _ m, hh]
  by_cases hm : m = n
  · rw [hm, Tbl.get_set_same n _ h]
    exact ⟨rfl, rfl⟩
  · rw [Tbl.get_set_ne _ h hm]
    exact ⟨rfl, rfl⟩

/-- What an FLR leaves: memory, contexts, what was sent, and every function's delivered work. -/
theorem State.flrOf_kept {s : State} (n : Nat) (h : Tbl.sortedFrom 0 s.host = true) : (s.flrOf n).mem = s.mem ∧
    (s.flrOf n).ctx = s.ctx ∧ (s.flrOf n).out = s.out ∧
    ∀ m, ((s.flrOf n).getHost m).produced = (s.getHost m).produced ∧ ((s.flrOf n).getHost m).wait = (s.getHost m).wait := by
  obtain ⟨hm, hc, ho, hh⟩ := (s.inc HST_LINKERR.FLR).endSession_kept n 0
  by_cases hn : n = 16
  · subst hn
    obtain ⟨hm1, hc1, ho1, hh1⟩ := ((s.inc HST_LINKERR.FLR).endSession 16 0).endSession_kept 16 1
    refine ⟨hm1.trans hm, hc1.trans hc, ho1.trans ho, fun m => ?_⟩
    rw [State.getHost, State.flrOf_pf16, hh1, hh]
    exact ⟨rfl, rfl⟩
  · rw [State.flrOf_pf hn]
    obtain ⟨hm1, hc1, ho1, -⟩ := ((s.inc HST_LINKERR.FLR).endSession n 0).resetRings_kept n
    refine ⟨hm1.trans hm, hc1.trans hc, ho1.trans ho, fun m => ?_⟩
    have hr := ((s.inc HST_LINKERR.FLR).endSession n 0).getHost_resetRings n m (by rw [hh]; exact h)
    rwa [State.getHost_eq (State.endSession _ _ _) m, hh] at hr

/-- The register file stays in order through an FLR. -/
theorem State.sorted_endSession {s : State} (n i : Nat) (h : Tbl.sortedFrom 0 s.flds = true) :
    Tbl.sortedFrom 0 (s.endSession n i).flds = true := by
  unfold State.endSession
  dsimp only
  split
  · exact h
  · split <;> exact State.sorted_wf _ _ h

/-- The rings of a function are up when EN is set and its session is open. -/
theorem State.ringsUp_iff {s : State} {n : Nat} : s.ringsUp n = true ↔ s.rf (HST_QCFG.EN n) = 1 ∧ s.rf (BDR_PSEC.SESSION n) = 1 := by
  simp only [State.ringsUp, Bool.and_eq_true, beq_iff_eq]

/-- Whether a submission of PF`n` is fetched (R417, R442, R446). -/
def State.fetches (s : State) (n : Nat) : Prop :=
  s.rf (HST_QCFG.EN n) = 1 ∧ s.rf (BDR_PSEC.SESSION n) = 1 ∧ (s.getSess (sessKey n 0)).proven = true ∧ (s.getHost n).wait = none ∧
    s.rf (HST_QSTAT.SQ_HEAD n) ≠ (s.getHost n).sqTail

theorem State.not_fetches_iff {s : State} {n : Nat} : ((!s.ringsUp n) = true ∨ (!(s.getSess (sessKey n 0)).proven) = true ∨
    (s.getHost n).wait.isSome = true ∨ s.rf (HST_QSTAT.SQ_HEAD n) = (s.getHost n).sqTail) ↔ ¬ s.fetches n := by
  rw [State.fetches, ← and_assoc, ← State.ringsUp_iff, Bool.not_eq_true', Bool.not_eq_true', ← Bool.not_eq_true, ← Bool.not_eq_true,
    Option.isSome_iff_ne_none, not_and_or, not_and_or, not_and_or, not_not]

section
variable {s : State} {n : Nat}

/-- An FLR leaves a function's rings out of use, at their first positions. -/
theorem State.rf_flrOf (hn : n < 16) (h : Tbl.sortedFrom 0 s.flds = true) : (s.flrOf n).rf (HST_QCFG.EN n) = 0 ∧
    (s.flrOf n).rf (HST_QSTAT.SQ_HEAD n) = 0 ∧ (s.flrOf n).rf (HST_QSTAT.CQ_TAIL n) = 0 := by
  have hs := State.sorted_endSession n 0 (State.sorted_wf HST_LINKERR.FLR (s.rf HST_LINKERR.FLR + 1) h)
  rw [State.flrOf_pf (by omega), State.resetRings_eq]
  have hz {f : Fld} (hf : (f, 0) ∈ ringFields n) := (State.rf_wfs_mem hs (ringFields_cells hn) hf).trans (Nat.zero_mod _)
  exact ⟨hz (by simp [ringFields]), hz (by simp [ringFields]), hz (by simp [ringFields])⟩

variable (hn : n < 16)
include hn

/-- A submission is fetched, into the ring position that follows, as its SEQ and tag say (R442). -/
theorem execSubmissionFetch_fetches (sub : Submission) (h : s.fetches n) : execSubmissionFetch n sub s = .next (
    if sub.seq ≠ (s.getHost n).sqSeq ∨ !sub.tagOk then s.secureFail n 0 sub.seq
    else ((s.wf (HST_QSTAT.SQ_HEAD n) ((s.rf (HST_QSTAT.SQ_HEAD n) + 1) % s.sqSize n)).setHost n
      { s.getHost n with sqSeq := (s.getHost n).sqSeq + 1 }).takeSub n sub) := by
  rw [execSubmissionFetch, if_pos hn]
  exact congrArg _ (if_neg fun hc => State.not_fetches_iff.mp hc h)

theorem execSubmissionFetch_idle (sub : Submission) (h : ¬ s.fetches n) : execSubmissionFetch n sub s = .next s := by
  rw [execSubmissionFetch, if_pos hn]
  exact congrArg _ (if_pos (State.not_fetches_iff.mpr h))

theorem execCompletionPost_none (h : (s.getHost n).produced = []) : execCompletionPost n s = .next s := by
  rw [execCompletionPost, if_pos hn]
  dsimp only
  rw [h]

theorem execCompletionPost_some {c : Completion} {cs : List Completion} (h : (s.getHost n).produced = c :: cs) :
    execCompletionPost n s = .next (
      let tl := (s.rf (HST_QSTAT.CQ_TAIL n) + 1) % s.cqSize n
      if !s.ringsUp n ∨ tl = (s.getHost n).cqHead then s
      else ((s.setHost n { s.getHost n with produced := cs, ring := (s.getHost n).ring ++ [c], cqSeq := (s.getHost n).cqSeq + 1 }).wf
        (HST_QSTAT.CQ_TAIL n) tl).emit (.completion n (s.getHost n).cqSeq c (s.completionBytes n (s.getHost n).cqSeq c))) := by
  rw [execCompletionPost, if_pos hn]
  dsimp only
  rw [h]

end

/-- The form of a submission (R443). -/
theorem subOk_iff {sub : Submission} : subOk sub = true ↔ 1 ≤ sub.op ∧ sub.op ≤ 6 ∧ sub.reservedZero = true ∧ sub.haddr % 4096 = 0 ∧
    (sub.op = 4 ∨ sub.paddr % 256 = 0 ∧ sub.handle = 0) := by
  simp only [subOk, Bool.and_eq_true, Bool.or_eq_true, decide_eq_true_eq, beq_iff_eq, and_assoc]

/-- A completion that frees its context (R447). -/
def State.frees (s : State) (n : Nat) (c : Completion) : Prop :=
  c.isDone = true ∧ s.handleOk n c.handle = true ∧ (s.getCtx (c.handle % 2 ^ 18)).epoch = c.epoch ∧
    (s.getHandle (c.handle % 2 ^ 18)).isSome = true

theorem State.consumed_freed {s : State} {n : Nat} {c : Completion} (h : s.frees n c) : s.consumed n c =
    ((s.setHandle (c.handle % 2 ^ 18) none).freeCtx (c.handle % 2 ^ 18)).wf (HST_QSTAT.OPEN n) (s.rf (HST_QSTAT.OPEN n) - 1) := by
  obtain ⟨h1, h2, h3, h4⟩ := h
  exact if_pos (by simp only [h1, h2, h3, h4, beq_self_eq_true, Bool.and_self])

theorem State.consumed_kept {s : State} {n : Nat} {c : Completion} (h : ¬ s.frees n c) : s.consumed n c = s := by
  refine if_neg fun hc => h ?_
  simpa only [Bool.and_eq_true, beq_iff_eq, and_assoc, State.frees] using hc

end Sys2Proof.Machine

open Sys2Proof Sys2Proof.Machine

/-- Settles O49, command by command. -/
theorem submissionsCompletionsAndFunctionResets : Obligations.SubmissionsCompletionsAndFunctionResets := by
  unfold Obligations.SubmissionsCompletionsAndFunctionResets
  simp only [exec_flr, exec_submissionFetch, exec_completionPost, exec_completionDoorbell, exec_submissionDoorbell, exec_perstDeassert]
  refine ⟨fun s n hn => ?_, fun s => rfl, fun s => rfl, fun s t n hn h e => ?_, fun s n hn h => State.rf_flrOf hn h,
    fun s sp w => ?_, fun s n pos hn => if_pos hn, fun s n sub hn => ?_, fun s u n i sub h => ?_, fun sub => subOk_iff, fun s n hn => ?_,
    fun s n sq c => ⟨_, _, rfl, rfl⟩, fun s n pos hn => if_pos hn,
    fun s n c => ⟨fun h1 h2 h3 h4 => State.consumed_freed ⟨h1, h2, h3, h4⟩, fun h => ?_⟩⟩
  · rw [execFlr, onFn_of_lt (by omega), State.flrOf_pf (by omega)]
  · rw [execFlr, onFn_of_lt hn] at e
    cases e
    exact State.flrOf_kept n h
  · simp only [execPerstDeassert, Bool.not_eq_true', bit, beq_iff_eq]
  · refine ⟨fun h => execSubmissionFetch_idle hn sub ?_, fun hen hse hpr hw hp => ?_⟩
    · rintro ⟨h1, h2, h3, h4, h5⟩
      simp [h1, h2, h3, h4, h5] at h
    · rw [execSubmissionFetch_fetches hn sub ⟨hen, hse, hpr, hw, hp⟩]
      refine ⟨fun h => congrArg _ (if_pos (h.imp_right (by simp))), fun hq ht => ?_⟩
      rw [if_neg (by simp [hq, ht])]
      rfl
  · unfold State.acceptSub
    rw [h]
    refine ⟨fun ho h4 => ?_, fun ho h4 => ?_, fun ho => ?_⟩
    · simp only [ho, h4, and_self, if_true]
    · simp only [ho, h4, false_and, if_true, if_false]
      rfl
    · simp only [ho, Bool.false_eq_true, and_false, if_false]
      rfl
  · refine ⟨fun h => ?_, fun c cs h hen hse ht => ?_⟩
    · cases hl : (s.getHost n).produced with
      | nil => exact execCompletionPost_none hn hl
      | cons c cs =>
        rw [execCompletionPost_some hn hl]
        refine congrArg _ (if_pos ?_)
        rw [Bool.not_eq_true', ← Bool.not_eq_true, State.ringsUp_iff, not_and_or, or_assoc]
        exact h.resolve_left (by simp [hl])
    · rw [execCompletionPost_some hn h]
      exact congrArg _ (if_neg (by simp [State.ringsUp_iff.mpr ⟨hen, hse⟩, State.cqSize, ht]))
  · refine State.consumed_kept fun ⟨h1, h2, h3, h4⟩ => ?_
    obtain h | h | h | h := h
    · exact Bool.false_ne_true (h.symm.trans h1)
    · exact Bool.false_ne_true (h.symm.trans h2)
    · exact h h3
    · rw [h] at h4
      exact Bool.false_ne_true h4

end

section
namespace Sys2Proof.Machine

/-! ### Host commands (chapter 15) and the admission of a job (chapter 14) -/

section
variable {s : State} {n i : Nat} {h : HostHandle}

theorem State.handleAs_of_getHandle {op : Nat} (hh : s.getHandle i = some h) (hop : h.op = op) : s.handleAs h.fn i op = some h := by
  rw [State.handleAs, hh]
  exact if_pos ⟨rfl, hop⟩

theorem State.handleAs_eq_none {op : Nat} (hh : ∀ h, s.getHandle i = some h → h.fn = n → h.op ≠ op) : s.handleAs n i op = none := by
  unfold State.handleAs
  split
  · next h e => exact if_neg fun hc => hh h e hc.1 hc.2
  · rfl

theorem State.getHandle_of_handleAs {op : Nat} (hh : s.handleAs n i op = some h) : s.getHandle i = some h ∧ h.fn = n ∧ h.op = op := by
  unfold State.handleAs at hh
  split at hh
  · next k e =>
    obtain ⟨hc, hk⟩ := Option.ite_none_right_eq_some.mp hh
    cases hk
    exact ⟨e, hc⟩
  · cases hh

theorem State.setHandleSt_some {st : HandleSt} (hh : s.getHandle i = some h) :
    s.setHandleSt i st = s.setHandle i (some { h with st := st }) := by
  rw [State.setHandleSt, hh]

/-- A transfer that was accepted begins, or ends at once (R444). -/
theorem State.beginTransfer_accepted (hh : s.getHandle i = some h) (hop : h.op = 2 ∨ h.op = 3) (hst : h.st = .accepted) :
    s.beginTransfer i = if s.fuse.variant.dataBytes < h.paddr + 4096 * h.units then s.hostDone i stCHECKFAIL
      else if h.units ≤ h.doneUnits then s.hostDone i stOK else s.setHandle i (some { h with st := .running }) := by
  rw [State.beginTransfer, hh]
  dsimp only
  rw [if_neg (by simp only [hst, ne_eq, not_true_eq_false, or_false]; omega), State.setHandleSt_some hh]

/-- A transfer that has begun, or a command that is none, is left alone. -/
theorem State.beginTransfer_begun (hh : s.getHandle i = some h) (hb : (h.op ≠ 2 ∧ h.op ≠ 3) ∨ h.st ≠ .accepted) :
    s.beginTransfer i = s := by
  rw [State.beginTransfer, hh]
  exact if_pos hb

/-- A unit that does not open ends its command CHECKFAIL (R445). -/
theorem State.openUnit_sealed {data : List Byte} {checks : List Word32} {t : State} : s.openUnit i data checks false t = s.hostDone i 3 := rfl

/-- A unit that opens and has 16 blocks is carried out. -/
theorem State.openUnit_open {data : List Byte} {checks : List Word32} {t : State} (hd : data.length = 4096) (hc : checks.length = 16) :
    s.openUnit i data checks true t = t := by
  rw [State.openUnit]
  simp [hd, hc]

/-- UNIT_TRANSFER of a command that has begun, with units left. -/
theorem execUnitTransfer_begun {data : List Byte} {checks : List Word32} {ok : Bool} (hi : i < 2 ^ 18) (hh : s.getHandle i = some h)
    (hb : (h.op ≠ 2 ∧ h.op ≠ 3) ∨ h.st ≠ .accepted) (hu : h.doneUnits < h.units) :
    execUnitTransfer i data checks ok s = .next (match h.op, h.st with
      | 3, .running => if h.nextBlocks.any (s.interlocked h.fn) then s else s.readOne i h
      | 2, .running => s.openUnit i data checks ok (s.writeOne i h data checks)
      | 1, .accepted => s.openUnit i data checks ok (s.imageOne i h data checks)
      | _, _ => s) := by
  rw [execUnitTransfer, onCtx_of_lt hi, State.beginTransfer_begun hh hb]
  dsimp only
  rw [hh]
  exact congrArg _ (if_neg (by omega))

section
variable {data : List Byte} {checks : List Word32} {ok : Bool} (hi : i < 2 ^ 18) (hh : s.getHandle i = some h) (hu : h.doneUnits < h.units)
include hi hh hu

theorem execUnitTransfer_write (ho : h.op = 2) (hst : h.st = .running) :
    execUnitTransfer i data checks ok s = .next (s.openUnit i data checks ok (s.writeOne i h data checks)) := by
  rw [execUnitTransfer_begun hi hh (.inr (by simp [hst])) hu, ho, hst]
  rfl

theorem execUnitTransfer_read (ho : h.op = 3) (hst : h.st = .running) :
    execUnitTransfer i data checks ok s = .next (if h.nextBlocks.any (s.interlocked h.fn) then s else s.readOne i h) := by
  rw [execUnitTransfer_begun hi hh (.inr (by simp [hst])) hu, ho, hst]
  rfl

theorem execUnitTransfer_image (ho : h.op = 1) (hst : h.st = .accepted) :
    execUnitTransfer i data checks ok s = .next (s.openUnit i data checks ok (s.imageOne i h data checks)) := by
  rw [execUnitTransfer_begun hi hh (.inl (by omega)) hu, ho, hst]
  rfl

end

/-- A unit of an image whose blocks verify joins the image. -/
theorem State.imageOne_good {data : List Byte} {checks : List Word32} (hc : ∀ e ∈ unitBlocks 0 data checks, checkWord e.2.1 = e.2.2) :
    s.imageOne i h data checks = (s.setHandle i (some { h with image := h.image ++ data })).unitDone i := by
  have hn : (unitBlocks 0 data checks).find? (fun e => checkWord e.2.1 != e.2.2) = none := by
    rw [List.find?_eq_none]
    intro e he
    simp [hc e he]
  rw [State.imageOne, hn]

/-- One with a block that does not ends the command. -/
theorem State.imageOne_bad {data : List Byte} {checks : List Word32} (hc : ∃ e ∈ unitBlocks 0 data checks, checkWord e.2.1 ≠ e.2.2) :
    s.imageOne i h data checks = s.hostDone i 3 := by
  obtain ⟨e, he, hne⟩ := hc
  obtain ⟨e', he'⟩ : ∃ e', (unitBlocks 0 data checks).find? (fun e => checkWord e.2.1 != e.2.2) = some e' :=
    Option.isSome_iff_exists.mp (List.find?_isSome.mpr ⟨e, he, bne_iff_ne.mpr hne⟩)
  rw [State.imageOne, he']
  rfl

/-- A unit of a READ goes out when its blocks verify. -/
theorem State.readOne_eq {u : State} {st : Nat} (hv : s.verify h.fn (s.colUnit h.fn) h.nextBlocks [] (s.handleOf i) = (u, st)) :
    s.readOne i h = if st ≠ 0 then u.hostDone i st else
      ((u.emit (.hostUnit i h.doneUnits (u.getCtx i).epoch (u.sealUnit i h.doneUnits h h.nextBlocks))).addf
        (MOV_BYTES.COUNT h.fn) 4096).unitDone i := by
  rw [State.readOne]
  dsimp only
  rw [hv]
  rfl

/-- A unit of a WRITE is written block by block. -/
theorem State.writeOne_eq {data : List Byte} {checks : List Word32} {u : State} {st : Nat}
    (hw : s.writeUnit i h.fn (unitBlocks (h.paddr + 4096 * h.doneUnits) data checks) = (u, st)) :
    s.writeOne i h data checks = if st = 0 then u.unitDone i else u.hostDone i st := by
  rw [State.writeOne, hw]
  rfl

/-- A stopped handle that is not rebound in time ends ABORTED (R449). -/
theorem State.hostDone_stopped (hh : s.getHandle i = some h) (hst : h.st = .stopped) : s.hostDone i stABORTED =
    (s.setHandle i (some { h with st := .done stABORTED })).produce h.fn
      ⟨s.handleOf i, (s.getCtx i).epoch, stABORTED, true, h.tag, h.doneUnits⟩ := by
  rw [State.hostDone, hh]
  dsimp only
  rw [hst]
  dsimp only
  rw [if_neg fun hc => absurd hc.1 (by decide)]

/-- FIELD_TEST keeps the handles while it asks for the test. -/
theorem State.getHandle_askFieldTest (p : Nat) : (s.askFieldTest p).getHandle i = s.getHandle i := by
  unfold State.askFieldTest
  dsimp only
  split <;> rfl

section
variable {job : JobMap} (hn : n < 16) (hh : s.handleAs n i 1 = some h) (hst : h.st = .accepted) (hu : h.units ≤ h.doneUnits)
  (hc : s.rf QTZ_STATUS.COAST ≠ 1) (hf : (s.getFt n).running = false)
include hn hh hst hu hc hf

/-- ADMIT of a command with every unit read, out of coast and of a field test. -/
theorem execAdmitJob_read : execAdmitJob n i job s = .next (match (s.getTen n).prov with
    | none => s.admitFail i 3
    | some v =>
      if s.pstate n ≠ psREADY then s.admitFail i 3
      else if !s.mapOk job v.rank then s
      else if !s.quotaFor n (s.ctxNeed n job v.rank) then s.admitWait n i h
      else s.admitImage n i h.image v job) := by
  rw [execAdmitJob, if_neg (by omega), hh]
  refine congrArg _ (if_neg ?_)
  rintro (h1 | h1 | h1 | h1)
  · exact h1 hst
  · omega
  · exact hc h1
  · exact Bool.false_ne_true (hf.symm.trans h1)

/-- Without a provision, or outside READY, it is refused (R421). -/
theorem execAdmitJob_refused (h : ∀ v, (s.getTen n).prov = some v → s.pstate n ≠ psREADY) :
    execAdmitJob n i job s = .next (s.admitFail i 3) := by
  rw [execAdmitJob_read hn hh hst hu hc hf]
  cases e : (s.getTen n).prov with
  | none => rfl
  | some v => exact congrArg _ (if_pos (h v e))

/-- In READY, provisioned, with a map that an admission may have, it waits for contexts or its image is judged (R41, R333). -/
theorem execAdmitJob_judged {v : Provision} (hp : (s.getTen n).prov = some v) (hs : s.pstate n = psREADY)
    (hm : s.mapOk job v.rank = true) : execAdmitJob n i job s =
      .next (if !s.quotaFor n (s.ctxNeed n job v.rank) then s.admitWait n i h else s.admitImage n i h.image v job) := by
  rw [execAdmitJob_read hn hh hst hu hc hf, hp]
  refine congrArg _ ((if_neg (not_not.mpr hs)).trans ?_)
  rw [hm, Bool.not_true, if_neg Bool.false_ne_true]

end

section
variable {im : List Byte} {v : Provision} {job : JobMap}

theorem State.admitImage_header (hk : s.headerOk n im.length (imageHeaderOf im) = false) :
    s.admitImage n i im v job = s.admitFail i 4 := by
  rw [State.admitImage]
  dsimp only
  rw [hk, Bool.not_false, if_pos rfl]

variable (hk : s.headerOk n im.length (imageHeaderOf im) = true)
include hk

theorem State.admitImage_digest (hd : leNat (sha3_256 (im.take (imageHeaderOf im).length)) ≠ v.pdig) :
    s.admitImage n i im v job = s.admitFail i 2 := by
  rw [State.admitImage]
  dsimp only
  rw [hk, if_neg (by decide), if_pos hd]

/-- An image of a good header and digest is judged by its lists (R347, R422). -/
theorem State.admitImage_lists {u : State} {st : Nat} (hd : leNat (sha3_256 (im.take (imageHeaderOf im).length)) = v.pdig)
    (hv : s.verify n (strUnit n) (spanBlocks (imageHeaderOf im).tsl (8 + 4 * s.ntAt n (imageHeaderOf im).tsl)) = (u, st)) :
    s.admitImage n i im v job =
      if st ≠ stOK then (u.inc BDR_ATT.REFUSED).hostDone i st
      else
        let hd := imageHeaderOf im
        let t := (u.admitRegs n hd (sha3_256 (im.take hd.length)) v).loadImage n im hd
        if !t.tslOk n hd.tsl (u.ntAt n hd.tsl) then (u.inc BDR_ATT.REFUSED).hostDone i stCHECKFAIL
        else (t.admitJob n hd v job).hostDone i stOK := by
  rw [State.admitImage]
  dsimp only
  rw [hk, if_neg (by decide), if_neg (not_not.mpr hd), hv]

end

end

end Sys2Proof.Machine

open Sys2Proof Sys2Proof.Machine

/-- Settles O50, command by command. -/
theorem hostCommandsTransferRebindAbortAndAdmit : Obligations.HostCommandsTransferRebindAbortAndAdmit := by
  unfold Obligations.HostCommandsTransferRebindAbortAndAdmit
  simp only [exec_write, exec_read, exec_unitTransfer, exec_rebind, exec_rebindTimeout, exec_abort, exec_fieldTest]
  refine ⟨fun s i h hh hop hst hfn => ⟨fun h2 => ?_, fun h3 => ?_⟩, fun s n i hn hh => ?_, fun s n i hn hh => ?_,
    fun s i h data checks hi hh hu => ?_, fun s i unit h as => ⟨_, _, rfl, rfl⟩, fun s i p l a b w => ?_, fun s i h hh hs => ?_,
    fun s n i h hn hh hst => ?_, fun s i hi => ?_, fun s n i h hn hh hst => ?_, fun s n i h hn hh hst => ?_,
    fun s n i h job hn hh hst hu hc hf => ?_⟩
  · rw [execWrite, onFn_of_lt (by omega), State.handleAs_of_getHandle hh h2]
    exact congrArg _ (State.beginTransfer_accepted hh hop hst)
  · rw [execRead, onFn_of_lt (by omega), State.handleAs_of_getHandle hh h3]
    exact congrArg _ (State.beginTransfer_accepted hh hop hst)
  · rw [execWrite, onFn_of_lt (by omega), State.handleAs_eq_none hh]
    rfl
  · rw [execRead, onFn_of_lt (by omega), State.handleAs_eq_none hh]
    rfl
  · refine ⟨fun ho hst => ?_, fun ho hst => ?_, fun ho hst hd hc u st hw => ?_, fun ho hst hw ok => ?_, fun ho hst hw u st ok hv => ?_,
      fun ho hst hd hc => ⟨fun hg => ?_, fun hg => ?_⟩⟩
    · rw [execUnitTransfer_write hi hh hu ho hst, State.openUnit_sealed]
    · rw [execUnitTransfer_image hi hh hu ho hst, State.openUnit_sealed]
    · rw [execUnitTransfer_write hi hh hu ho hst, State.openUnit_open hd hc, State.writeOne_eq hw]
    · rw [execUnitTransfer_read hi hh hu ho hst]
      exact congrArg _ (if_pos hw)
    · rw [execUnitTransfer_read hi hh hu ho hst]
      exact congrArg _ ((if_neg (Bool.eq_false_iff.mp hw)).trans (State.readOne_eq hv))
    · rw [execUnitTransfer_image hi hh hu ho hst, State.openUnit_open hd hc, State.imageOne_good hg]
    · rw [execUnitTransfer_image hi hh hu ho hst, State.openUnit_open hd hc, State.imageOne_bad hg]
  · refine ⟨rfl, fun hl => ?_, fun hl hr => ?_, fun hl hr hc => ?_, fun hl hr hc u hw => ?_⟩
    · rw [State.writeUnit, if_pos hl]
    · rw [State.writeUnit, if_neg (Bool.eq_false_iff.mp hl), if_pos hr]
      rfl
    · rw [State.writeUnit, if_neg (Bool.eq_false_iff.mp hl), if_neg (Bool.eq_false_iff.mp hr), if_pos hc]
      rfl
    · rw [State.writeUnit, if_neg (Bool.eq_false_iff.mp hl), if_neg (Bool.eq_false_iff.mp hr), if_neg (not_not.mpr hc), hw]
      rfl
  · rw [State.unitDone, hh]
    rfl
  · simp only [execRebind, onFn_of_lt (Nat.lt_succ_of_lt hn), hh, hst, ne_eq, not_true_eq_false, if_false, ← State.mayMigrate_iff]
    refine ⟨fun hm => congrArg _ (if_pos ?_), fun ho hw ht => ?_, fun ho hw => ?_⟩
    · exact hm.imp (by simp) And.symm
    · have hm : ¬ s.mayMigrate (h.target % 2 ^ 18) = true := fun hm => by
        obtain ⟨t, ht, hlt⟩ := ht
        exact absurd (State.mayMigrate_iff.mp hm t ht) (by omega)
      rw [if_neg fun hc => hc.elim (by simp [ho]) fun h => hm h.1, if_pos hw]
    · rw [if_neg fun hc => hc.elim (by simp [ho]) fun h => hw h.2, if_neg hw]
  · rw [execRebindTimeout, onCtx_of_lt hi]
    refine ⟨fun hh => ?_, fun h hh hst => ?_⟩
    · cases e : s.getHandle i with
      | none => rfl
      | some h => exact congrArg _ (if_neg (hh h e))
    · rw [hh]
      exact congrArg _ ((if_pos hst).trans (State.hostDone_stopped hh hst))
  · simp only [execAbort, onFn_of_lt (Nat.lt_succ_of_lt hn), hh, hst, ne_eq, not_true_eq_false, if_false]
    exact ⟨fun hr => congrArg _ (if_pos hr), fun hr => congrArg _ (if_neg (Bool.eq_false_iff.mp hr))⟩
  · simp only [execFieldTest, onFn_of_lt (Nat.lt_succ_of_lt hn), hh, hst, ne_eq, not_true_eq_false, if_false]
    refine ⟨fun hs => ?_, fun h1 h2 h3 => ?_⟩
    · rw [if_pos hs, State.setHandleSt_some ((State.getHandle_askFieldTest n).trans (State.getHandle_of_handleAs hh).1)]
    · rw [if_neg (by simp [h1, h2, h3])]
      rfl
  · rw [exec_admitJob]
    refine ⟨fun hp => ?_, fun v hp => ⟨fun hs => ?_, fun hs hm => ?_⟩⟩
    · exact execAdmitJob_refused hn hh hst hu hc hf fun v hv => by simp [hp] at hv
    · exact execAdmitJob_refused hn hh hst hu hc hf fun _ _ => hs
    rw [execAdmitJob_judged hn hh hst hu hc hf hp hs hm]
    refine ⟨fun hq hw => ?_, fun hq => ?_⟩
    · rw [hq, State.admitWait, hw]
      rfl
    rw [hq, Bool.not_true, if_neg Bool.false_ne_true]
    refine ⟨fun hk => ?_, fun hk => ⟨fun hd => ?_, fun hd u st hv => ?_⟩⟩
    · rw [State.admitImage_header hk, State.admitFail, stCHECKFAIL]
    · rw [State.admitImage_digest hk hd, State.admitFail, stCHECKFAIL]
    rw [State.admitImage_lists hk hd hv]
    refine ⟨fun h0 => congrArg _ (if_pos h0), fun h0 => ?_⟩
    rw [if_neg (show ¬ st ≠ stOK from not_not.mpr h0)]
    refine ⟨fun ht => ?_, fun ht => ?_⟩
    · dsimp only
      rw [ht, Bool.not_false, if_pos rfl, stCHECKFAIL]
    · dsimp only
      rw [ht, Bool.not_true, if_neg Bool.false_ne_true, stOK]

end

section
namespace Sys2Proof.Machine

/-! ### Received messages (chapter 9): what a message must pass, and what it does -/

/-- Whether a message is for a live context of one of Bedrock's own streams. -/
def State.ownMsg (s : State) (m : Msg) : Bool := s.liveHandle m.dhandle && decide (16 ≤ (s.getCtx (m.dhandle % 2 ^ 18)).part)

/-- Whether the tag of a message lets it pass: a good one, or the missing one of an external endpoint's grant or acknowledgement. -/
def State.tagPasses (s : State) (m : Msg) : Bool := m.tagOk || (m.mtype != 0 && s.unsealed (m.dhandle % 2 ^ 18))

section
variable {s t : State} {m : Msg} {idx k : Nat}

theorem State.ownMsg_of_le (hl : s.liveHandle m.dhandle = true) (h : 16 ≤ (s.getCtx (m.dhandle % 2 ^ 18)).part) :
    s.ownMsg m = true := by
  rw [State.ownMsg, hl, decide_eq_true h]
  rfl

theorem State.admitMsg_down (hown : s.ownMsg m = false) (hp : s.pstate (m.dpart % 16) ∈ [0, 1, 2]) :
    s.admitMsg m = (s.inc (ZTP_STALE.COUNT (m.dpart % 16)), false) :=
  if_pos ⟨congrArg not hown, List.contains_iff_mem.mpr hp⟩

theorem State.admitMsg_nobody (hown : s.ownMsg m = false) (hp : s.pstate (m.dpart % 16) ∉ [0, 1, 2])
    (h : s.liveHandle m.dhandle = false ∨ (s.getCtx (m.dhandle % 2 ^ 18)).part ≠ m.dpart % 16) : s.admitMsg m = (s, false) :=
  (if_neg fun hc => hp (List.contains_iff_mem.mp hc.2)).trans
    (if_pos (h.imp (congrArg not) fun hne => ⟨congrArg not hown, hne⟩))

/-- A message for a live context of the partition it names, or of Bedrock's own, is judged by its tag, its epoch and time stamp, and
the context's state, in this order. -/
theorem State.admitMsg_addressed (hl : s.liveHandle m.dhandle = true)
    (hp : 16 ≤ (s.getCtx (m.dhandle % 2 ^ 18)).part ∨
      (s.pstate (m.dpart % 16) ∉ [0, 1, 2] ∧ (s.getCtx (m.dhandle % 2 ^ 18)).part = m.dpart % 16)) :
    s.admitMsg m =
      if !s.tagPasses m then
        (s.tagFailure (m.dhandle % 2 ^ 18) (msgSrc m), false)
      else if m.epoch % 65536 ≠ (s.getCtx (m.dhandle % 2 ^ 18)).epoch ∨ s.tooOld m.tstamp then (s.staleMsg (m.dhandle % 2 ^ 18), false)
      else if (s.getCtx (m.dhandle % 2 ^ 18)).state ≠ 1 then (s, false)
      else (s, true) := by
  have hup : ¬ ((!s.ownMsg m) = true ∧ [psOFF, psRESET, psCONFIG].contains (s.pstate (m.dpart % 16)) = true) := by
    rintro ⟨hown, hc⟩
    rcases hp with h | ⟨h, -⟩
    · simp [State.ownMsg_of_le hl h] at hown
    · exact h (List.contains_iff_mem.mp hc)
  have hadr : ¬ ((!s.liveHandle m.dhandle) = true ∨ ((!s.ownMsg m) = true ∧ (s.getCtx (m.dhandle % 2 ^ 18)).part ≠ m.dpart % 16)) := by
    rintro (h | ⟨hown, hne⟩)
    · simp [hl] at h
    · rcases hp with h | ⟨-, h⟩
      · simp [State.ownMsg_of_le hl h] at hown
      · exact hne h
  exact (if_neg hup).trans (if_neg hadr)

theorem State.tagPasses_iff :
    s.tagPasses m = true ↔ m.tagOk = true ∨ (m.mtype ≠ 0 ∧ (s.getCtx (m.dhandle % 2 ^ 18)).peerKind = 2) := by
  simp [State.tagPasses, State.unsealed]

/-- A dropped message goes no further (R277, R280). -/
theorem State.arrive_dropped (h : s.admitMsg m = (t, false)) : s.arrive m = (t, none) := by
  rw [State.arrive, h]
  rfl

/-- A message that passes is judged by how far ahead its SEQ is (R278). -/
theorem State.arrive_admitted (h : s.admitMsg m = (s, true)) :
    s.arrive m =
      let k := (m.seq + 2 ^ 48 - (s.getCtx (m.dhandle % 2 ^ 18)).rxSeq) % 2 ^ 48
      if 2 ^ 47 ≤ k ∨ (k ≤ 31 ∧ bitOf (s.getCtx (m.dhandle % 2 ^ 18)).rxMap k) then (s.ackUp (m.dhandle % 2 ^ 18) m, none)
      else if 31 < k then (s, none)
      else (s, some k) := by
  rw [State.arrive, h]
  exact if_neg (by simp)

theorem execGrantReceive_dropped (h1 : m.mtype = 1) (h : s.arrive m = (t, none)) : execGrantReceive m s = .next t := by
  rw [execGrantReceive, if_neg (not_not.mpr h1), h]

theorem execGrantReceive_new (h1 : m.mtype = 1) (h : s.arrive m = (t, some k)) :
    execGrantReceive m s = .next (((t.markIn (m.dhandle % 2 ^ 18) k).takeGrant (m.dhandle % 2 ^ 18) (m.offset / 256)).ackUp
      (m.dhandle % 2 ^ 18) m) := by
  rw [execGrantReceive, if_neg (not_not.mpr h1), h]

theorem execAckReceive_dropped (h2 : m.mtype = 2) (h : s.admitMsg m = (t, false)) : execAckReceive m s = .next t := by
  rw [execAckReceive, if_neg (not_not.mpr h2), h]

theorem execAckReceive_admitted (h2 : m.mtype = 2) (h : s.admitMsg m = (s, true)) :
    execAckReceive m s = .next (s.takeAck (m.dhandle % 2 ^ 18) m.seq) := by
  rw [execAckReceive, if_neg (not_not.mpr h2), h]

/-- A data message of a stream that is not the dispatch unit's, and a close, that go no further. -/
theorem State.receive_dropped (h : m.mtype = 4 ∨ m.mtype = 0 ∧ (s.getCtx (m.dhandle % 2 ^ 18)).kind ≠ 2) (ha : s.arrive m = (t, none)) :
    s.receive m = t := by
  rcases h with h4 | ⟨h0, hk⟩
  · rw [State.receive, if_neg (by simp [h4]), h4, ha]
    rfl
  · rw [State.receive, if_neg fun hc => hk hc.2.1, h0, ha]
    rfl

theorem State.receive_data (h0 : m.mtype = 0) (hk : (s.getCtx (m.dhandle % 2 ^ 18)).kind ≠ 2) (ha : s.arrive m = (t, some k)) :
    s.receive m = t.placeData (m.dhandle % 2 ^ 18) k m := by
  rw [State.receive, if_neg fun hc => hk hc.2.1, h0, ha]
  rfl

theorem State.receive_close (h4 : m.mtype = 4) (ha : s.arrive m = (t, some k)) :
    s.receive m = ((t.markIn (m.dhandle % 2 ^ 18) k).takeClose (m.dhandle % 2 ^ 18)).ackUp (m.dhandle % 2 ^ 18) m := by
  rw [State.receive, if_neg (by simp [h4]), h4, ha]
  rfl

theorem State.placeData_outside (hb : m.nblk ≠ 0) (hv : s.isVote idx = false) (hw : s.windowAddrs idx m.offset m.nblk = none) :
    s.placeData idx k m = s.winViolation idx := by
  rw [State.placeData, if_neg (by simp [hb, hv]), hw]

theorem State.placeData_inside {as : List Nat} (hb : m.nblk ≠ 0) (hv : s.isVote idx = false)
    (hw : s.windowAddrs idx m.offset m.nblk = some as) :
    s.placeData idx k m =
      let w := s.placeBlocks (s.getCtx idx).part (as.zip (m.blocks.zip m.checks))
      ((w.1.markIn idx k).afterPlace idx m as (s.isHeldMirror idx) w.2).ackUp idx m := by
  rw [State.placeData, if_neg (by simp [hb, hv]), hw]

/-- The state in which a window violation is counted and the other end told. -/
def State.violated (s : State) (idx : Nat) : State := (s.inc (ZTP_WINVIOL.COUNT (s.getCtx idx).part)).queueCtl idx 4 0

theorem State.winViolation_unposted (hp : (s.getCtx idx).part < 16) (h : ((s.violated idx).getAux idx).posted = none) :
    s.winViolation idx = s.violated idx := by
  unfold State.violated at *
  rw [State.winViolation, if_pos hp, h]

theorem State.winViolation_posted {w : Posted} (hp : (s.getCtx idx).part < 16) (h : ((s.violated idx).getAux idx).posted = some w) :
    s.winViolation idx = ((s.violated idx).closePosted idx).endCopies (s.getCtx idx).part stCHECKFAIL [(w.core, w.seq)] := by
  unfold State.violated at *
  rw [State.winViolation, if_pos hp, h]

theorem State.takeClose_idle (h : (s.getAux idx).posted = none) :
    s.takeClose idx =
      (s.endCopies (s.getCtx idx).part stCHECKFAIL ((s.getAux idx).txq.filterMap TxReq.owner ++ s.ownersOf idx)).endUnits idx
        stCHECKFAIL := by
  rw [State.takeClose, h]

/-- A message that is the next due moves RX_SEQ on; one ahead of it is only marked in RX_MAP. -/
theorem Ctx.arrived_of_none {x : Ctx} (h : x.rxMap = 0) :
    (x.arrived 0).rxSeq = (x.rxSeq + 1) % 2 ^ 48 ∧ (x.arrived 0).rxMap = 0 ∧
      (x.arrived 3).rxSeq = x.rxSeq ∧ (x.arrived 3).rxMap = 8 := by
  simp only [Ctx.arrived, h]
  exact ⟨rfl, rfl, rfl, rfl⟩

theorem State.takeGrant_idle {v : Nat} (h : (s.getAux idx).sends = []) :
    s.takeGrant idx v =
      let u := s.setCtx idx { s.getCtx idx with credit := Nat.min ((s.getCtx idx).credit + v) 65535 }
      if (s.getCtx idx).standing = true ∨ (s.getCtx idx).kind ≠ 3 ∨ 16 ≤ (s.getCtx idx).part then u
      else u.setAux idx { s.getAux idx with grants := (s.getAux idx).grants ++ [v] } := by
  unfold State.takeGrant
  dsimp only
  split
  · next e => exact nomatch h.symm.trans e
  · rfl

theorem State.takeGrant_serves {v c q n : Nat} {r : List (Nat × Nat × Nat)} (h : (s.getAux idx).sends = (c, q, n) :: r) :
    s.takeGrant idx v =
      let w := s.setAux idx { s.getAux idx with sends := r }
      (if n = v then w.setCtx idx { w.getCtx idx with credit := Nat.min ((s.getCtx idx).credit + v) 65535 } else w).serveSend
        (s.getCtx idx).part c q n v := by
  rw [State.takeGrant, h]

/-- The messages that an acknowledgement of `v` leaves unacknowledged: those after it. -/
def Unacked.after (v : Nat) (l : List Unacked) : List Unacked :=
  l.filter fun u => decide (2 ^ 47 ≤ (v % 2 ^ 48 + 2 ^ 48 - u.msg.seq) % 2 ^ 48)

theorem foldl_of_forall_mem_fixed {α β : Type} {f : β → α → β} {b : β} {l : List α} (h : ∀ a ∈ l, f b a = b) : l.foldl f b = b := by
  induction l with
  | nil => rfl
  | cons a l ih =>
    rw [List.foldl_cons, h a List.mem_cons_self]
    exact ih fun c hc => h c (List.mem_cons_of_mem a hc)

/-- An acknowledgement of messages that no copy owns only drops them. -/
theorem State.takeAck_unowned {v : Nat} (h : (s.getAux idx).unacked.all (fun u => u.owner.isNone) = true) :
    s.takeAck idx v =
      let left := Unacked.after v (s.getAux idx).unacked
      (s.setAux idx { s.getAux idx with unacked := left }).setCtx idx
        { s.getCtx idx with inflight := left.length, txAcked := (left.map (fun u => u.msg.seq)).headD (s.getCtx idx).txSeq } := by
  have hgone (f : Unacked → Bool) : ∀ u ∈ (s.getAux idx).unacked.filter f, u.owner = none := fun u hu =>
    Option.isNone_iff_eq_none.mp (List.all_eq_true.mp h u (List.mem_of_mem_filter hu))
  unfold State.takeAck Unacked.after
  dsimp only
  rw [foldl_of_forall_mem_fixed fun u hu => by rw [hgone _ u hu]]
  simp only [← decide_not, Nat.not_lt]

end

end Sys2Proof.Machine
open Sys2Proof Sys2Proof.Machine

/-- Settles O41: what a message must pass is one chain of tests, each clause its branch; a message that passes is judged by its
distance from the SEQ due, and its type says which unit takes it. -/
theorem receivedMessagesPassAndTakeEffect : Obligations.ReceivedMessagesPassAndTakeEffect := by
  unfold Obligations.ReceivedMessagesPassAndTakeEffect
  simp only [exec_dataMessageReceive, exec_grantReceive, exec_ackReceive]
  refine ⟨fun s m => ⟨State.admitMsg_down, State.admitMsg_nobody, fun hl hp => ?_⟩, fun s t m h => ?_, fun s m h => ?_,
    fun s m h => congrArg _ (if_pos h), fun s m h0 h4 => congrArg _ (if_neg (not_or.mpr ⟨h0, h4⟩)),
    fun s m => ⟨fun h0 hk => ?_, fun h4 => ?_⟩,
    fun s idx k m hb hv => ?_, fun s idx hp => ?_, fun s idx => State.takeClose_idle, fun x => Ctx.arrived_of_none, fun s idx m => ?_,
    fun s t m h1 => ⟨execGrantReceive_dropped h1, fun k => execGrantReceive_new h1⟩, fun s m => ?_, fun s m => execAckReceive_admitted,
    fun s idx v => ⟨State.takeGrant_idle, fun c q n r => State.takeGrant_serves, State.takeAck_unowned⟩⟩
  · rw [State.admitMsg_addressed hl hp]
    simp only [← State.tagPasses_iff]
    refine ⟨fun ht => if_pos (by simp [ht]), fun ht he => ?_, fun ht he ho hs => ?_, fun ht he ho hs => ?_⟩
    · rw [if_neg (by simp [ht]), if_pos he]
    · rw [if_neg (by simp [ht]), if_neg (by simp [he, ho]), if_pos hs]
    · rw [if_neg (by simp [ht]), if_neg (by simp [he, ho]), if_neg (not_not.mpr hs)]
  · exact ⟨State.arrive_dropped h, fun h1 => execGrantReceive_dropped h1 (State.arrive_dropped h), fun h2 => execAckReceive_dropped h2 h⟩
  · rw [State.arrive_admitted h]
    refine ⟨fun hk => if_pos hk, fun h31 h47 => ?_, fun h31 hb => ?_⟩
    · exact (if_neg (by omega)).trans (if_pos h31)
    · exact (if_neg (not_or.mpr ⟨by omega, fun hc => Bool.false_ne_true (hb.symm.trans hc.2)⟩)).trans (if_neg (by omega))
  · exact ⟨fun t => State.receive_dropped (.inr ⟨h0, hk⟩), fun t k => State.receive_data h0 hk⟩
  · exact ⟨fun t => State.receive_dropped (.inl h4), fun t k => State.receive_close h4⟩
  · exact ⟨State.placeData_outside hb hv, fun as => State.placeData_inside hb hv⟩
  · exact ⟨State.winViolation_unposted hp, fun w => State.winViolation_posted hp⟩
  · exact ⟨fun h => if_pos h, fun h => if_neg h⟩
  · exact ⟨fun h => congrArg _ (if_pos h), fun h => congrArg _ (if_pos h)⟩

end

section
namespace Sys2Proof.Machine

/-! ### Sparse tables and memory: writing twice, and part of a block -/

/-- A second write at a key takes the place of the first. -/
theorem Tbl.set_set_same {α : Type} [DecidableEq α] {d : α} {t : Tbl α} {lo : Nat} (k : Nat) (v w : α)
    (ht : Tbl.sortedFrom lo t = true) : Tbl.set d (Tbl.set d t k v) k w = Tbl.set d t k w := by
  induction t generalizing lo with
  | nil => by_cases hv : v = d <;> simp [Tbl.set, hv]
  | cons e t ih =>
    simp only [Tbl.sortedFrom, Bool.and_eq_true, decide_eq_true_eq] at ht
    obtain ⟨-, h2⟩ := ht
    rcases lt_trichotomy k e.1 with hlt | rfl | hlt
    · by_cases hv : v = d <;> simp [Tbl.set, hv, hlt, hlt.ne']
    · by_cases hv : v = d
      · have habsent : Tbl.set d t e.1 w = if w = d then t else (e.1, w) :: t := by
          cases t with
          | nil => rfl
          | cons x t =>
            simp only [Tbl.sortedFrom, Bool.and_eq_true, decide_eq_true_eq] at h2
            simp [Tbl.set, show x.1 ≠ e.1 by omega, show e.1 < x.1 by omega]
        simp [Tbl.set, hv, habsent]
      · simp [Tbl.set, hv]
    · simp [Tbl.set, hlt.ne, hlt.not_gt, ih h2]

@[simp] theorem length_leBytes (k n : Nat) : (leBytes k n).length = k := by
  induction k generalizing n with
  | zero => rfl
  | succ k ih => rw [leBytes, List.length_cons, ih]

/-- What memory holds after a run of bytes is written depends on memory alone. -/
theorem State.mem_setBytes_congr {s t : State} (h : s.mem = t.mem) (k : Nat) (bs : List Byte) :
    (s.setBytes k bs).mem = (t.setBytes k bs).mem := by
  induction bs generalizing s t k with
  | nil => exact h
  | cons b bs ih => exact ih (congrArg (fun m => Tbl.set 0#8 m k b) h) (k + 1)

theorem State.byte_of_mem {s t : State} (h : s.mem = t.mem) (k : Nat) : s.byte k = t.byte k := congrArg (Tbl.get 0#8 · k) h

theorem State.getElem_bytes (s : State) (k : Nat) {n i : Nat} (h : i < (s.bytes k n).length) : (s.bytes k n)[i] = s.byte (k + i) := by
  induction n generalizing k i with
  | zero => cases h
  | succ n ih =>
    cases i with
    | zero => rfl
    | succ i =>
      have := ih (k + 1) (i := i) (by simpa using h)
      rwa [show k + 1 + i = k + (i + 1) by omega] at this

/-- Writing a run back with some of its bytes replaced is writing those bytes. -/
theorem State.byte_setBytes_splice {s : State} {k n o : Nat} {bs : List Byte} (h : Memory.wf s.mem = true) (ho : o + bs.length ≤ n)
    (key : Nat) :
    (s.setBytes k ((s.bytes k n).take o ++ bs ++ (s.bytes k n).drop (o + bs.length))).byte key = (s.setBytes (k + o) bs).byte key := by
  have hlen : ((s.bytes k n).take o ++ bs ++ (s.bytes k n).drop (o + bs.length)).length = n := by simp; omega
  by_cases hout : key < k ∨ k + n ≤ key
  · rw [State.byte_setBytes_outside h (by omega), State.byte_setBytes_outside h (by omega)]
  obtain ⟨i, rfl⟩ : ∃ i, key = k + i := ⟨key - k, by omega⟩
  rw [State.byte_setBytes_inside h (by omega)]
  by_cases hlo : i < o
  · rw [State.byte_setBytes_outside h (by omega)]
    simp [hlo, State.getElem_bytes, show i < n by omega]
  by_cases hhi : i < o + bs.length
  · obtain ⟨j, rfl⟩ : ∃ j, i = o + j := ⟨i - o, by omega⟩
    have hj : j < bs.length := by omega
    rw [← Nat.add_assoc, State.byte_setBytes_inside h hj]
    simp [hj, show min o n = o by omega]
  · have hj : ¬ i - o < bs.length := by omega
    have hi : o + bs.length + (i - o - bs.length) = i := by omega
    rw [State.byte_setBytes_outside h (by omega)]
    simp [List.getElem_append, State.getElem_bytes, hj, hi, show o ≤ i by omega, show min o n = o by omega]

/-! ### Writing part of a block of the data region (R140, R510) -/

theorem Variant.dataBytes_blocks (v : Variant) : v.dataBytes % 256 = 0 := by cases v <;> decide

theorem State.copyExtent_memory (s : State) (p ext : Nat) : (s.copyExtent p ext).mem = s.mem ∧ (s.copyExtent p ext).pc = s.pc := by
  unfold State.copyExtent
  dsimp only
  split
  · exact ⟨rfl, rfl⟩
  · split
    · exact ⟨rfl, rfl⟩
    · exact ⟨rfl, rfl⟩

theorem State.touch_memory (s : State) (p a : Nat) (es : List Nat) :
    (s.touch p a es).mem = s.mem ∧ (s.touch p a es).pc = s.pc := by
  induction es generalizing s with
  | nil => exact ⟨rfl, rfl⟩
  | cons e es ih =>
    have h : State.mem (if (s.getStrata p).copying.contains e then (s.copyExtent p e).inc (STR_MWAIT.COUNT p) else s) = s.mem ∧
        State.pc (if (s.getStrata p).copying.contains e then (s.copyExtent p e).inc (STR_MWAIT.COUNT p) else s) = s.pc := by
      split
      · exact s.copyExtent_memory p e
      · exact ⟨rfl, rfl⟩
    obtain ⟨hm, hp⟩ := ih (State.setStrata _ p _)
    exact ⟨hm.trans h.1, hp.trans h.2⟩

theorem State.mem_pairsGood (s : State) (p a : Nat) : (s.pairsGood p a).mem = s.mem := by
  unfold State.pairsGood
  split
  · rfl
  · rfl

/-- A block of the data region whose check word lies in a good pair is written: its bytes, then its check word. -/
theorem State.writeBlock_data {s : State} {p ad : Nat} {bs : List Byte} {w : Word32} {who : Requester}
    (ha : ad < s.fuse.variant.dataBytes) (hb : s.pairBad p (s.checkAddr (ad / 256 * 256)) = false) :
    (s.writeBlock p ad bs w who).2 = true ∧
      (s.writeBlock p ad bs w who).1.mem =
        ((s.setBytes (memKey p (ad / 256 * 256)) bs).setBytes (memKey p (s.checkAddr (ad / 256 * 256))) (leBytes 4 w.toNat)).mem := by
  have ha' : ad / 256 * 256 < s.fuse.variant.dataBytes := by omega
  obtain ⟨hm, hp⟩ := s.touch_memory p (ad / 256 * 256) (extentsOf (ad / 256 * 256) 0 (s.getStrata p).ranges)
  have hq : (s.touch p (ad / 256 * 256) (extentsOf (ad / 256 * 256) 0 (s.getStrata p).ranges)).fuse = s.fuse :=
    (congrArg State.fuse (s.quiet_touch p _ _) :)
  unfold State.writeBlock
  dsimp only
  rw [if_pos ha']
  generalize s.touch p (ad / 256 * 256) (extentsOf (ad / 256 * 256) 0 (s.getStrata p).ranges) = t at hm hp hq
  have hc : t.checkAddr (ad / 256 * 256) = s.checkAddr (ad / 256 * 256) := by rw [State.checkAddr, State.checkAddr, hq]
  have hbad : t.pairBad p (t.checkAddr (ad / 256 * 256)) = false := by
    rw [hc, ← hb]
    unfold State.pairBad State.pcOf State.getPc
    rw [hp, hq]
  rw [if_neg fun h => Bool.false_ne_true (hbad.symm.trans h.2)]
  have hu : ((t.setBytes (memKey p (ad / 256 * 256)) bs).pairsGood p (ad / 256 * 256)).fuse = s.fuse :=
    (congrArg State.fuse ((State.quiet_pairsGood _ p _).trans (t.quiet_setBytes _ bs)) :).trans hq
  have hum := (State.mem_pairsGood _ p (ad / 256 * 256)).trans (State.mem_setBytes_congr hm (memKey p (ad / 256 * 256)) bs)
  generalize (t.setBytes (memKey p (ad / 256 * 256)) bs).pairsGood p (ad / 256 * 256) = u at hu hum
  refine ⟨rfl, ?_⟩
  rw [State.setCheck, hu, if_pos ha', State.checkAddr, hu]
  exact State.mem_setBytes_congr hum _ _

/-- Merging bytes into a good block of the data region performs the write, and beside the block's check word changes those bytes only. -/
theorem State.mergeWrite_data {s : State} {p ad : Nat} {bs : List Byte} {who : Requester} (hm : Memory.wf s.mem = true)
    (ha : ad < s.fuse.variant.dataBytes) (hr : s.rtProtected p ad = false) (hk : s.blockOk p ad = true)
    (hb : s.pairBad p (s.checkAddr (ad / 256 * 256)) = false) (hl : ad % 256 + bs.length ≤ 256) :
    (s.mergeWrite p ad bs who).2 = true ∧ ∀ key,
      (key < memKey p (s.checkAddr (ad / 256 * 256)) ∨ memKey p (s.checkAddr (ad / 256 * 256)) + 4 ≤ key) →
        (s.mergeWrite p ad bs who).1.byte key = (s.setBytes (memKey p ad) bs).byte key := by
  unfold State.mergeWrite
  rw [if_neg (Bool.eq_false_iff.mp hr), if_pos hk]
  obtain ⟨hok, hmem⟩ := State.writeBlock_data ha hb
  refine ⟨hok, fun key hkey => ?_⟩
  have hpos : memKey p (ad / 256 * 256) + ad % 256 = memKey p ad := by rw [memKey_eq, memKey_eq]; omega
  rw [State.byte_of_mem hmem key, State.byte_setBytes_outside (Memory.wf_setBytes _ _ hm) (by rwa [length_leBytes]), State.block,
    State.byte_setBytes_splice hm hl, hpos]

/-- The bytes merged read back: the check word lies above the data region. -/
theorem State.bytes_mergeWrite_data {s : State} {p ad : Nat} {bs : List Byte} {who : Requester} (hm : Memory.wf s.mem = true)
    (ha : ad < s.fuse.variant.dataBytes) (hr : s.rtProtected p ad = false) (hk : s.blockOk p ad = true)
    (hb : s.pairBad p (s.checkAddr (ad / 256 * 256)) = false) (hl : ad % 256 + bs.length ≤ 256) :
    (s.mergeWrite p ad bs who).1.bytes (memKey p ad) bs.length = bs := by
  have hv := s.fuse.variant.dataBytes_blocks
  have hbelow (j : Nat) (hj : j < memKey p ad + bs.length) : j < memKey p (s.checkAddr (ad / 256 * 256)) := by
    unfold memKey State.checkAddr at *
    omega
  have hcongr : (s.mergeWrite p ad bs who).1.bytes (memKey p ad) bs.length = (s.setBytes (memKey p ad) bs).bytes (memKey p ad) bs.length :=
    State.bytes_congr fun j _ hj => (State.mergeWrite_data hm ha hr hk hb hl).2 j (.inl (hbelow j hj))
  exact hcongr.trans (State.bytes_setBytes_same _ _ hm)

/-! ### What an access of a Flint leaves of the Flints -/

theorem State.flint_of_quiet {s t : State} (h : t.quiet = s.quiet) : t.flint = s.flint := (congrArg State.flint h :)

theorem State.flint_busErr (s : State) (p ad : Nat) : (s.busErr p ad).flint = s.flint := State.flint_of_quiet (s.quiet_busErr p ad)

theorem State.flint_checkFailRec (s : State) (p unit ad handle : Nat) : (s.checkFailRec p unit ad handle).flint = s.flint :=
  State.flint_of_quiet (s.quiet_checkFailRec p unit ad handle)

theorem State.quiet_tileEcc1 (s : State) (p c : Nat) (e : EccWord) : (s.tileEcc1 p c e).quiet = s.quiet := by
  unfold State.tileEcc1
  split
  · exact State.quiet_raise _ _
  · exact State.quiet_raise _ _

theorem State.quiet_tileEcc (s : State) (p c off n : Nat) (es : List EccWord) : (s.tileEcc p c off n es).quiet = s.quiet := by
  unfold State.tileEcc
  generalize es.filter _ = l
  induction l generalizing s with
  | nil => rfl
  | cons e l ih => exact (ih _).trans (s.quiet_tileEcc1 p c e)

theorem State.flint_of_eccBlock {s t : State} {p a : Nat} {es : List EccWord} {fatal : Bool} (h : s.eccBlock p a es = (t, fatal)) :
    t.flint = s.flint := by
  have hq : (s.eccBlock p a es).1.quiet = s.quiet := by
    unfold State.eccBlock
    split
    · exact s.quiet_tileEcc _ _ _ _ es
    · rfl
  rw [h] at hq
  exact State.flint_of_quiet hq

theorem State.flint_of_mergeWrite {s t : State} {p ad : Nat} {bs : List Byte} {who : Requester} {ok : Bool}
    (h : s.mergeWrite p ad bs who = (t, ok)) : t.flint = s.flint := by
  have hq : (s.mergeWrite p ad bs who).1.quiet = s.quiet := by
    unfold State.mergeWrite
    split
    · exact s.quiet_busErr p ad
    · split
      · exact s.quiet_writeBlock p ad _ _ who
      · rfl
  rw [h] at hq
  exact State.flint_of_quiet hq

/-! ### Flint loads, stores and completions (R139–R141, R514) -/

theorem State.getFlint_setFlint_same {s : State} {p c : Nat} {f : Flint} (h : Tbl.sortedFrom 0 s.flint = true) :
    (s.setFlint p c f).getFlint p c = f := Tbl.get_set_same _ f h

theorem State.setFlint_setFlint {s : State} {p c : Nat} {f g : Flint} (h : Tbl.sortedFrom 0 s.flint = true) :
    (s.setFlint p c f).setFlint p c g = s.setFlint p c g := by
  unfold State.setFlint
  dsimp only
  rw [Tbl.set_set_same _ f g h]

theorem onCore_of_lt {s t : State} {p c : Nat} (hp : p < 16) (hc : c < s.lcores p) : onCore s p c t = .next t := if_pos ⟨hp, hc⟩

section
variable {s : State} {p c ad : Nat}

/-- A posted store moves the pc on and is in flight. -/
theorem State.storeDue_eq {len fault : Nat} {barrier : Bool} (h : Tbl.sortedFrom 0 s.flint = true) :
    s.storeDue p c ad len barrier fault = s.setFlint p c { s.getFlint p c with
      pc := (s.getFlint p c).pc + BitVec.ofNat 64 len
      access := (s.getFlint p c).access ++ [⟨false, 0, 0#64, barrier, fault, ad⟩] } := by
  unfold State.storeDue State.setPcF State.inFlight
  dsimp only
  rw [State.getFlint_setFlint_same h, State.setFlint_setFlint h]

/-- A load from partition space, once its cycles are counted. -/
def State.loadAt (s : State) (p c sz : Nat) (sg : Bool) (rd ad : Nat) (es : List EccWord) : State :=
  match s.place p ad with
  | .checks | .nowhere => s.loadBus p c rd ad
  | .data | .tile _ _ => s.loadMem p c sz sg rd ad es
  | .regs off => match s.readReg p off (2 ^ sz) with
    | some v => s.loadDue p c rd ad (extLoad sz sg v) 0
    | none => s.loadBus p c rd ad

/-- A store to partition space, once its cycles are counted. -/
def State.storeAt (s : State) (p c sz ad len : Nat) (v : Word64) (es : List EccWord) : State :=
  match s.place p ad with
  | .checks | .nowhere => s.storeBus p c ad len false
  | .data | .tile _ _ => s.storeMem p c ad (leBytes (2 ^ sz) v.toNat) len es
  | .regs off =>
    let (u, e) := (s.storeDue p c ad len (barrierOff off) 0).partWrite (.flint c) p off (2 ^ sz) v
    if e then (u.busErr p ad).faultLast p c hACCESS else u

/-- Only the data region and tile memory are reached. -/
theorem State.place_of_reach (h : s.reach p ad = true) : s.place p ad = .data ∨ ∃ k off, s.place p ad = .tile k off := by
  unfold State.reach at h
  split at h
  · next e => exact .inl e
  · next k off e => exact .inr ⟨k, off, e⟩
  · cases h

theorem State.loadAt_of_reach {sz rd : Nat} {sg : Bool} {es : List EccWord} (h : s.reach p ad = true) :
    s.loadAt p c sz sg rd ad es = s.loadMem p c sz sg rd ad es := by
  rcases State.place_of_reach h with e | ⟨k, off, e⟩
  · rw [State.loadAt, e]
  · rw [State.loadAt, e]

theorem State.storeAt_of_reach {sz len : Nat} {v : Word64} {es : List EccWord} (h : s.reach p ad = true) :
    s.storeAt p c sz ad len v es = s.storeMem p c ad (leBytes (2 ^ sz) v.toNat) len es := by
  rcases State.place_of_reach h with e | ⟨k, off, e⟩
  · rw [State.storeAt, e]
  · rw [State.storeAt, e]

theorem State.loadAt_unserved {sz rd : Nat} {sg : Bool} {es : List EccWord} (hn : ∀ off, s.place p ad ≠ .regs off)
    (h : s.reach p ad = false) : s.loadAt p c sz sg rd ad es = s.loadBus p c rd ad := by
  have hmem : s.loadMem p c sz sg rd ad es = s.loadBus p c rd ad := if_pos (by rw [h]; rfl)
  unfold State.loadAt
  split
  · rfl
  · rfl
  · exact hmem
  · exact hmem
  · next off e => exact absurd e (hn off)

theorem State.storeAt_unserved {sz len : Nat} {v : Word64} {es : List EccWord} (hn : ∀ off, s.place p ad ≠ .regs off)
    (h : s.reach p ad = false ∨ s.rtProtected p ad = true) : s.storeAt p c sz ad len v es = s.storeBus p c ad len false := by
  have hmem : s.storeMem p c ad (leBytes (2 ^ sz) v.toNat) len es = s.storeBus p c ad len false :=
    if_pos (h.imp_left fun h => by rw [h]; rfl)
  unfold State.storeAt
  split
  · rfl
  · rfl
  · exact hmem
  · exact hmem
  · next off e => exact absurd e (hn off)

theorem State.loadMem_lost {sz rd : Nat} {sg : Bool} {es : List EccWord} (hr : s.reach p ad = true) (hl : s.lost p ad = true) :
    s.loadMem p c sz sg rd ad es = s.loadDue p c rd ad 0#64 hACCESS :=
  (if_neg (by rw [hr]; decide)).trans (if_pos hl)

theorem State.loadMem_found {sz rd : Nat} {sg fatal : Bool} {es : List EccWord} {v : State} (hr : s.reach p ad = true)
    (hl : s.lost p ad = false) (he : s.eccBlock p ad es = (v, fatal)) :
    s.loadMem p c sz sg rd ad es =
      if fatal then (v.loadDue p c rd ad 0#64 hCHECK).startWave p waveFAULT (v.placeUnit p ad)
      else if v.blockOk p ad then v.loadDue p c rd ad (extLoad sz sg (leNat (v.bytes (memKey p ad) (2 ^ sz)))) 0
      else (v.checkFailRec p (v.flintUnit p c) ad).loadDue p c rd ad 0#64 hCHECK := by
  rw [State.loadMem, if_neg (by rw [hr]; decide), if_neg (Bool.eq_false_iff.mp hl), he]

theorem State.storeMem_lost {len : Nat} {bs : List Byte} {es : List EccWord} (hr : s.reach p ad = true)
    (hp : s.rtProtected p ad = false) (hl : s.lost p ad = true) :
    s.storeMem p c ad bs len es = s.storeDue p c ad len false hACCESS :=
  (if_neg (by rw [hr, hp]; decide)).trans (if_pos hl)

section
variable {len : Nat} {bs : List Byte} {es : List EccWord} {v : State}

theorem State.storeMem_uncorrectable (hr : s.reach p ad = true) (hp : s.rtProtected p ad = false) (hl : s.lost p ad = false)
    (he : s.eccBlock p ad es = (v, true)) :
    s.storeMem p c ad bs len es = (v.storeDue p c ad len false hCHECK).startWave p waveFAULT (v.placeUnit p ad) := by
  rw [State.storeMem, if_neg (by rw [hr, hp]; decide), if_neg (Bool.eq_false_iff.mp hl), he]
  exact if_pos rfl

theorem State.storeMem_merged {t : State} {ok : Bool} (hr : s.reach p ad = true) (hp : s.rtProtected p ad = false)
    (hl : s.lost p ad = false) (he : s.eccBlock p ad es = (v, false)) (hw : v.mergeWrite p ad bs (.flint c) = (t, ok)) :
    s.storeMem p c ad bs len es =
      if ok then t.storeDue p c ad len false 0 else (v.checkFailRec p (v.flintUnit p c) ad).storeDue p c ad len false hCHECK := by
  rw [State.storeMem, if_neg (by rw [hr, hp]; decide), if_neg (Bool.eq_false_iff.mp hl), he]
  dsimp only
  rw [if_neg Bool.false_ne_true, hw]

end

/-- The code of tile memory has no part in a read of the data region. -/
theorem State.eccBlock_data {es : List EccWord} (h : s.place p ad = .data) : s.eccBlock p ad es = (s, false) := by
  rw [State.eccBlock, h]

theorem State.lt_dataBytes_of_place (h : s.place p ad = .data) : ad < s.fuse.variant.dataBytes := by
  by_contra hn
  unfold State.place at h
  dsimp only at h
  rw [if_neg hn] at h
  split_ifs at h

/-- An aligned access of at most 8 bytes stays in its block. -/
theorem aligned_in_block {sz : Nat} (hs : sz ≤ 3) (ha : ad % 2 ^ sz = 0) : ad % 256 + 2 ^ sz ≤ 256 := by
  interval_cases sz <;> omega

/-- A store to a good block of the data region writes its bytes and the block's check word, and is in flight. -/
theorem State.storeMem_data {sz len : Nat} {v : Word64} {es : List EccWord} (hd : s.place p ad = .data) (hr : s.reach p ad = true)
    (hl : s.lost p ad = false) (hp : s.rtProtected p ad = false) (hk : s.blockOk p ad = true)
    (hb : s.pairBad p (s.checkAddr (ad / 256 * 256)) = false) (hs : sz ≤ 3) (ha : ad % 2 ^ sz = 0) (hm : Memory.wf s.mem = true)
    (hf : Tbl.sortedFrom 0 s.flint = true) :
    let t := s.storeMem p c ad (leBytes (2 ^ sz) v.toNat) len es
    t.bytes (memKey p ad) (2 ^ sz) = leBytes (2 ^ sz) v.toNat ∧
      (∀ key, (key < memKey p ad ∨ memKey p ad + 2 ^ sz ≤ key) →
        (key < memKey p (s.checkAddr (ad / 256 * 256)) ∨ memKey p (s.checkAddr (ad / 256 * 256)) + 4 ≤ key) → t.byte key = s.byte key) ∧
      t.getFlint p c = { s.getFlint p c with
        pc := (s.getFlint p c).pc + BitVec.ofNat 64 len
        access := (s.getFlint p c).access ++ [⟨false, 0, 0#64, false, 0, ad⟩] } := by
  have hdb := State.lt_dataBytes_of_place hd
  have hlen : ad % 256 + (leBytes (2 ^ sz) v.toNat).length ≤ 256 := by
    rw [length_leBytes]
    exact aligned_in_block hs ha
  have hback := State.bytes_mergeWrite_data (who := .flint c) hm hdb hp hk hb hlen
  obtain ⟨hok, hbyte⟩ := State.mergeWrite_data (who := .flint c) hm hdb hp hk hb hlen
  generalize hw : s.mergeWrite p ad (leBytes (2 ^ sz) v.toNat) (.flint c) = w at hback hok hbyte
  obtain ⟨t, ok⟩ := w
  dsimp only at hback hok hbyte ⊢
  have hflint := State.flint_of_mergeWrite hw
  rw [State.storeMem_merged hr hp hl (State.eccBlock_data hd) hw]
  have hsame : t.getFlint p c = s.getFlint p c := by rw [State.getFlint, State.getFlint, hflint]
  have hft : Tbl.sortedFrom 0 t.flint = true := by rwa [hflint]
  rw [length_leBytes] at hback
  rw [if_pos hok, State.storeDue_eq hft, State.getFlint_setFlint_same hft, hsame]
  have hkept (k n : Nat) (f : Flint) : (t.setFlint p c f).bytes k n = t.bytes k n := State.bytes_congr fun _ _ _ => rfl
  refine ⟨(hkept _ _ _).trans hback, fun key hout hchk => ?_, rfl⟩
  exact (hbyte key hchk).trans (State.byte_setBytes_outside hm (by rwa [length_leBytes]))

theorem target_of_lt {a : Nat} (h : a < 2 ^ 48) : target a = .part := if_pos h

section
variable {cycles sz rd a b len : Nat} {sg : Bool} {o : Word64} {es : List EccWord}

theorem execFlintLoad_eq (hp : p < 16) (hc : c < s.lcores p) (hi : s.nextInstr p c = some (.load sz sg rd a o, len))
    (ha : (xreg (s.getFlint p c) a + o).toNat < 2 ^ 48) :
    execFlintLoad p c cycles es s = .next (
      let ad := (xreg (s.getFlint p c) a + o).toNat
      let u := s.addf (FLT_CYC_RUN.CYCLES p c) cycles
      if ad % 2 ^ sz = 0 ∧ s.interlocked p ad = true then s
      else if ad % 2 ^ sz ≠ 0 then u.flintFault p c hMISALIGNED
      else u.loadAt p c sz sg rd ad es) := by
  rw [execFlintLoad, onCore_of_lt hp hc, hi]
  simp only [target_of_lt ha, ne_eq, not_true_eq_false, false_or]
  rfl

theorem execFlintStore_eq (hp : p < 16) (hc : c < s.lcores p) (hi : s.nextInstr p c = some (.store sz a b o, len))
    (ha : (xreg (s.getFlint p c) a + o).toNat < 2 ^ 48) :
    execFlintStore p c cycles es s = .next (
      let ad := (xreg (s.getFlint p c) a + o).toNat
      let u := s.addf (FLT_CYC_RUN.CYCLES p c) cycles
      if ad % 2 ^ sz = 0 ∧ s.interlocked p ad = true then s
      else if ad % 2 ^ sz ≠ 0 then u.flintFault p c hMISALIGNED
      else u.storeAt p c sz ad len (xreg (s.getFlint p c) b) es) := by
  rw [execFlintStore, onCore_of_lt hp hc, hi]
  simp only [target_of_lt ha, ne_eq, not_true_eq_false, false_or]
  rfl

end
/-- The state once the oldest access in flight is taken off and the cycles are counted. -/
def State.accessTaken (s : State) (p c cycles : Nat) (rest : List Access) : State :=
  (s.setFlint p c { s.getFlint p c with access := rest }).addf (FLT_CYC_RUN.CYCLES p c) cycles

section
variable {cycles : Nat} {x : Access} {rest : List Access}

theorem execFlintAccessComplete_fault (hp : p < 16) (hc : c < s.lcores p) (h : (s.getFlint p c).access = x :: rest) (hx : x.fault ≠ 0) :
    execFlintAccessComplete p c cycles s = .next ((s.accessTaken p c cycles rest).flintFault p c x.fault) := by
  rw [execFlintAccessComplete, onCore_of_lt hp hc]
  dsimp only
  rw [h]
  exact congrArg _ (if_pos hx)

theorem execFlintAccessComplete_store (hp : p < 16) (hc : c < s.lcores p) (h : (s.getFlint p c).access = x :: rest) (hx : x.fault = 0)
    (hl : x.load = false) : execFlintAccessComplete p c cycles s = .next (s.accessTaken p c cycles rest) := by
  rw [execFlintAccessComplete, onCore_of_lt hp hc]
  dsimp only
  rw [h]
  exact congrArg _ ((if_neg (not_not.mpr hx)).trans (if_neg (Bool.eq_false_iff.mp hl)))

theorem execFlintAccessComplete_load {i : RInstr} {len : Nat} (hp : p < 16) (hc : c < s.lcores p)
    (h : (s.getFlint p c).access = x :: rest) (hx : x.fault = 0) (hl : x.load = true) (hi : fetchAt (s.getFlint p c) = .instr i len) :
    execFlintAccessComplete p c cycles s = .next ((s.accessTaken p c cycles rest).wrNext p c x.rd x.value len) := by
  rw [execFlintAccessComplete, onCore_of_lt hp hc]
  dsimp only
  rw [h, hi]
  exact congrArg _ ((if_neg (not_not.mpr hx)).trans (if_pos hl))

end

/-- Writing a register, x0 apart, and going on changes that register and the pc. -/
theorem State.wrNext_eq {rd len : Nat} {v : Word64} (h : Tbl.sortedFrom 0 s.flint = true) :
    s.wrNext p c rd v len = s.setFlint p c { s.getFlint p c with
      x := if rd = 0 then (s.getFlint p c).x else (s.getFlint p c).x.set 0#64 rd v
      pc := (s.getFlint p c).pc + BitVec.ofNat 64 len } := by
  unfold State.wrNext State.flintReg State.setPcF
  by_cases h0 : rd = 0
  · simp only [if_pos h0]
  · simp only [if_neg h0, State.getFlint_setFlint_same h, State.setFlint_setFlint h]

theorem xreg_set {f : Flint} {rd : Nat} {v : Word64} (h : Tbl.sortedFrom 0 f.x = true) (r : Nat) (pc : Word64) :
    xreg { f with x := if rd = 0 then f.x else f.x.set 0#64 rd v, pc := pc } r = if r = rd ∧ rd ≠ 0 then v else xreg f r := by
  unfold xreg
  dsimp only
  by_cases h0 : rd = 0
  · rw [if_pos h0, if_neg fun hc => hc.2 h0]
  rw [if_neg h0]
  by_cases hr : r = rd
  · subst hr
    rw [Tbl.get_set_same _ _ h, if_pos ⟨rfl, h0⟩]
  · rw [Tbl.get_set_ne _ h hr, if_neg fun hc => hr hc.1]

end

end Sys2Proof.Machine
open Sys2Proof Sys2Proof.Machine

/-- Settles O20: an access of partition space goes by the place of its address; a store to the data region merges its bytes into a
verified block, whose check word lies above the region, and only the Flint's own entry changes beside memory and records. -/
theorem flintPartitionAccesses : Obligations.FlintPartitionAccesses := by
  unfold Obligations.FlintPartitionAccesses
  refine ⟨fun s p c cycles sz rd a len sg o ecc hp hc hi ha => ?_, fun s p c cycles sz a b len o ecc hp hc hi ha => ?_,
    fun _ _ _ _ => rfl, fun s p c cycles x rest hp hc hx => ?_, fun s p c rd len v hf hx => ?_, fun s p c cycles hp hc hx => ?_⟩
  · simp only [exec_flintLoad, execFlintLoad_eq hp hc hi ha]
    generalize (xreg (s.getFlint p c) a + o).toNat = ad
    refine ⟨fun hm => ?_, fun hm hw => congrArg _ (if_pos ⟨hm, hw⟩), fun hm hw => ?_⟩
    · rw [if_neg fun h => hm h.1, if_pos hm, hMISALIGNED]
    rw [if_neg fun h => Bool.false_ne_true (hw.symm.trans h.2), if_neg (not_not.mpr hm)]
    generalize s.addf (FLT_CYC_RUN.CYCLES p c) cycles = u
    refine ⟨fun hn hr => congrArg _ (State.loadAt_unserved hn hr), fun hr hl => ?_, fun v hr hl he hk => ?_, fun v hr hl he hk => ?_,
      fun v hr hl he => ?_, fun off v hg hv => ?_, fun off hg hv => ?_⟩
    · rw [State.loadAt_of_reach hr, State.loadMem_lost hr hl]
      rfl
    · rw [State.loadAt_of_reach hr, State.loadMem_found hr hl he, if_neg Bool.false_ne_true, if_pos hk]
      rfl
    · rw [State.loadAt_of_reach hr, State.loadMem_found hr hl he, if_neg Bool.false_ne_true, if_neg (Bool.eq_false_iff.mp hk)]
      rfl
    · rw [State.loadAt_of_reach hr, State.loadMem_found hr hl he, if_pos rfl]
      rfl
    · rw [State.loadAt, hg]
      dsimp only
      rw [hv]
      rfl
    · rw [State.loadAt, hg]
      dsimp only
      rw [hv]
      rfl
  · simp only [exec_flintStore, execFlintStore_eq hp hc hi ha]
    generalize (xreg (s.getFlint p c) a + o).toNat = ad
    generalize xreg (s.getFlint p c) b = v
    refine ⟨fun hm => ?_, fun hm hw => congrArg _ (if_pos ⟨hm, hw⟩), fun hm hw hf => ?_⟩
    · rw [if_neg fun h => hm h.1, if_pos hm, hMISALIGNED]
    rw [if_neg fun h => Bool.false_ne_true (hw.symm.trans h.2), if_neg (not_not.mpr hm)]
    have hfu : Tbl.sortedFrom 0 (s.addf (FLT_CYC_RUN.CYCLES p c) cycles).flint = true := hf
    refine ⟨fun hn hr => ?_, fun hr hp hl => ?_, fun hd hr hl hp hk hb hs hmem => ?_, fun w t _ hr hp hl he hw => ?_,
      fun w t _ hr hp hl he hw => ?_, fun w _ hr hp hl he => ?_, fun off t hg hw => ?_, fun off t hg hw => ?_⟩
    · rw [State.storeAt_unserved hn hr, State.storeBus, State.storeDue_eq (by rwa [State.flint_busErr]), hACCESS]
    · rw [State.storeAt_of_reach hr, State.storeMem_lost hr hp hl, State.storeDue_eq hfu, hACCESS]
    · rw [State.storeAt_of_reach hr]
      exact ⟨_, rfl, State.storeMem_data hd hr hl hp hk hb hs hm hmem hfu⟩
    · rw [State.storeAt_of_reach hr, State.storeMem_merged hr hp hl he hw, if_pos rfl, State.storeDue_eq]
      rwa [State.flint_of_mergeWrite hw, State.flint_of_eccBlock he]
    · rw [State.storeAt_of_reach hr, State.storeMem_merged hr hp hl he hw, if_neg Bool.false_ne_true, State.storeDue_eq, hCHECK]
      rwa [State.flint_checkFailRec, State.flint_of_eccBlock he]
    · rw [State.storeAt_of_reach hr, State.storeMem_uncorrectable hr hp hl he, State.storeDue_eq, hCHECK, waveFAULT]
      rwa [State.flint_of_eccBlock he]
    · rw [← State.storeDue_eq hfu] at hw
      rw [State.storeAt, hg]
      dsimp only
      rw [hw]
      rfl
    · rw [← State.storeDue_eq hfu] at hw
      rw [State.storeAt, hg]
      dsimp only
      rw [hw]
      rfl
  · rw [exec_flintAccessComplete]
    exact ⟨fun i len h0 => execFlintAccessComplete_load hp hc hx h0, execFlintAccessComplete_store hp hc hx,
      execFlintAccessComplete_fault hp hc hx⟩
  · rw [State.wrNext_eq hf]
    dsimp only
    rw [State.getFlint_setFlint_same hf]
    exact ⟨rfl, rfl, fun r => xreg_set hx r _⟩
  · rw [exec_flintAccessComplete, execFlintAccessComplete, onCore_of_lt hp hc]
    dsimp only
    rw [hx]

end

section
namespace Sys2Proof.Machine

/-! ## Narrowing and the exact column sum (chapter 2) -/

/-! ### Rounding at a spacing -/

/-- A magnitude that is a multiple of the spacing is not rounded, whatever the rounding. -/
theorem roundAt_of_le {rnd r m : Nat} {e q : Int} (h : q ≤ e) : roundAt rnd r m e q = m * 2 ^ (e - q).toNat := if_pos h

theorem roundAt_self (rnd r m : Nat) (e : Int) : roundAt rnd r m e e = m := by
  rw [roundAt_of_le (Int.le_refl e), Int.sub_self, Int.toNat_zero, pow_zero, mul_one]

/-- Rounding a number to nearest takes the quotient or the one after it, by the half that the remainder lies in. -/
theorem rneShift_cases (m : Nat) {k : Nat} (hk : 0 < k) :
    (rneShift m k = m / 2 ^ k ∧ (2 * (m % 2 ^ k) < 2 ^ k ∨ 2 * (m % 2 ^ k) = 2 ^ k ∧ m / 2 ^ k % 2 = 0)) ∨
    (rneShift m k = m / 2 ^ k + 1 ∧ (2 ^ k < 2 * (m % 2 ^ k) ∨ 2 * (m % 2 ^ k) = 2 ^ k ∧ m / 2 ^ k % 2 = 1)) := by
  obtain ⟨k, rfl⟩ := Nat.exists_eq_succ_of_ne_zero hk.ne'
  simp only [rneShift, if_neg hk.ne', Nat.succ_eq_add_one, Nat.add_sub_cancel, pow_succ 2 k]
  split <;> omega

/-- R61: a rounded number is a multiple at most half the spacing away. -/
theorem rneShift_near (m : Nat) {k : Nat} (hk : 0 < k) :
    2 * (rneShift m k * 2 ^ k) ≤ 2 * m + 2 ^ k ∧ 2 * m ≤ 2 * (rneShift m k * 2 ^ k) + 2 ^ k := by
  have hm := Nat.div_add_mod' m (2 ^ k)
  obtain ⟨h, hr⟩ | ⟨h, hr⟩ := rneShift_cases m hk
  · rw [h]
    omega
  · have hlt := Nat.mod_lt m (Nat.two_pow_pos k)
    rw [h, Nat.add_mul, Nat.one_mul]
    omega

/-- R61: a tie goes to the even multiple. -/
theorem rneShift_even_of_tie {m k : Nat} (hk : 0 < k) (h : 2 * (m % 2 ^ k) = 2 ^ k) : rneShift m k % 2 = 0 := by
  obtain ⟨h', hr⟩ | ⟨h', hr⟩ := rneShift_cases m hk <;> omega

/-! ### The codes of a floating-point format -/

/-- The exponent of the smallest spacing of a format. -/
def FloatFmt.minExp (f : FloatFmt) : Int := 1 - (f.bias : Int) - f.mb

/-- The significand of a code with exponent field `ex` and mantissa field `man`. -/
def FloatFmt.sigOf (f : FloatFmt) (ex man : Nat) : Nat := if ex = 0 then man else 2 ^ f.mb + man

/-- The spacing of the codes with exponent field `ex`. -/
def FloatFmt.expOf (f : FloatFmt) (ex : Nat) : Int := ((ex - 1 : Nat) : Int) + f.minExp

/-- The significand and the spacing of the largest finite value. -/
def FloatFmt.maxSig (f : FloatFmt) : Nat := 2 ^ f.mb + bits f.maxCode 0 f.mb
def FloatFmt.maxExp (f : FloatFmt) : Int := (f.maxCode / 2 ^ f.mb : Nat) - 1 + f.minExp

/-- Whether a magnitude reaches the largest finite value plus half its last place (R61). -/
def FloatFmt.pastMax (f : FloatFmt) (m : Nat) (e : Int) : Bool :=
  decide ((Val.fin false (2 * f.maxSig + 1) (f.maxExp - 1)).atExp (min e (f.maxExp - 1)) ≤
    (Val.fin false m e).atExp (min e (f.maxExp - 1)))

/-- What R52 and R53 say of a format: its largest finite code is a normal number, and above it come only infinity and the NaNs of a
format with infinities, the one NaN of a format that has no infinity, or nothing in an MX format. -/
def FloatFmt.Topped (f : FloatFmt) : Prop :=
  2 ^ f.mb ≤ f.maxCode ∧
  (if f.hasInf = true then f.maxCode + 1 = (2 ^ f.eb - 1) * 2 ^ f.mb
   else if f.nan.isSome = true then f.maxCode + 2 = 2 ^ f.eb * 2 ^ f.mb else f.maxCode + 1 = 2 ^ f.eb * 2 ^ f.mb)

theorem topped_of_floatFmt {fmt : Nat} {f : FloatFmt} (h : floatFmt fmt = some f) : f.Topped ∧ fmtBits fmt = f.eb + f.mb + 1 := by
  unfold floatFmt at h
  split at h <;> cases h <;> refine ⟨⟨?_, ?_⟩, ?_⟩ <;> decide

section
variable {f : FloatFmt} {rnd sat r m ex man n : Nat} {e : Int} {neg : Bool}

/-- A rounded magnitude by its spacing, and when it overflows. -/
theorem FloatFmt.roundMag_eq (hm : m ≠ 0) : f.roundMag rnd r m e =
    ((f.spacing m e - f.minExp).toNat * 2 ^ f.mb + roundAt rnd r m e (f.spacing m e),
     decide (f.maxCode < (f.spacing m e - f.minExp).toNat * 2 ^ f.mb + roundAt rnd r m e (f.spacing m e)) ||
       (rnd == 0 && f.pastMax m e)) := if_neg hm

/-- Below the spacing of the largest value, `pastMax` compares numbers. -/
theorem FloatFmt.pastMax_iff (h : e ≤ f.maxExp - 1) : f.pastMax m e = true ↔ (2 * f.maxSig + 1) * 2 ^ (f.maxExp - 1 - e).toNat ≤ m := by
  rw [FloatFmt.pastMax, min_eq_left h, decide_eq_true_eq]
  simp only [Val.atExp, Bool.false_eq_true, if_false, Int.sub_self, Int.toNat_zero, pow_zero, mul_one]
  exact Int.ofNat_le

theorem FloatFmt.ne_zero_of_past {k : Nat} (h : (2 * f.maxSig + 1) * 2 ^ k ≤ m) : m ≠ 0 := by
  have : 0 < (2 * f.maxSig + 1) * 2 ^ k := by positivity
  omega

/-- At the spacing of the largest value, it is passed only by a larger significand. -/
theorem FloatFmt.not_pastMax_top (h : m ≤ f.maxSig) : f.pastMax m f.maxExp = false := by
  rw [FloatFmt.pastMax, min_eq_right (by omega), decide_eq_false_iff_not]
  simp only [Val.atExp, Bool.false_eq_true, if_false, Int.sub_self, Int.toNat_zero, pow_zero, mul_one,
    show f.maxExp - (f.maxExp - 1) = 1 by omega, Int.toNat_one, pow_one]
  omega

/-- An overflow is the largest finite value where it saturates, else what an infinity gives (R61, R64). -/
theorem FloatFmt.encode_of_pastMax (hm : m ≠ 0) (h : f.pastMax m e = true) : f.encode 0 sat r (.fin neg m e) =
    if sat = 1 ∨ f.mx = true then FloatFmt.encode.bit neg * 2 ^ (f.eb + f.mb) + f.maxCode else f.encode 0 sat r (.inf neg) := by
  simp only [FloatFmt.encode, FloatFmt.roundMag_eq hm, h, beq_self_eq_true, Bool.and_true, Bool.or_true, if_true]

/-- The codes of an exponent field lie at its spacing. -/
theorem FloatFmt.spacing_sigOf (hman : man < 2 ^ f.mb) (h0 : f.sigOf ex man ≠ 0) : f.spacing (f.sigOf ex man) (f.expOf ex) = f.expOf ex := by
  have he : f.minExp ≤ f.expOf ex := by unfold FloatFmt.expOf; omega
  change max _ f.minExp = _
  by_cases hex : ex = 0
  · subst hex
    have hlg : (f.sigOf 0 man).log2 < f.mb := (Nat.log2_lt h0).mpr hman
    have : f.expOf 0 = f.minExp := by simp [FloatFmt.expOf]
    omega
  · have hlg : (f.sigOf ex man).log2 = f.mb := by
      refine (Nat.log2_eq_iff h0).mpr ?_
      rw [FloatFmt.sigOf, if_neg hex, pow_succ]
      omega
    omega

/-- No code up to the largest finite one passes it. -/
theorem FloatFmt.not_pastMax_sigOf (hf : f.Topped) (hman : man < 2 ^ f.mb) (hc : ex * 2 ^ f.mb + man ≤ f.maxCode) :
    f.pastMax (f.sigOf ex man) (f.expOf ex) = false := by
  have hp := Nat.two_pow_pos f.mb
  have htop : 1 ≤ f.maxCode / 2 ^ f.mb := (Nat.one_le_div_iff hp).mpr hf.1
  have hex : ex ≤ f.maxCode / 2 ^ f.mb := (Nat.le_div_iff_mul_le hp).mpr (by omega)
  have hsig : f.sigOf ex man ≤ 2 ^ f.mb + man := by unfold FloatFmt.sigOf; split <;> omega
  by_cases hlt : f.expOf ex ≤ f.maxExp - 1
  · have h1 : 1 ≤ 2 ^ (f.maxExp - 1 - f.expOf ex).toNat := Nat.one_le_two_pow
    have h2 : f.sigOf ex man < 2 * f.maxSig + 1 := by unfold FloatFmt.maxSig; omega
    rw [Bool.eq_false_iff, Ne, FloatFmt.pastMax_iff hlt]
    exact Nat.not_le.mpr (h2.trans_le (Nat.le_mul_of_pos_right _ h1))
  · have he : f.expOf ex = f.maxExp := by unfold FloatFmt.expOf FloatFmt.maxExp at *; omega
    have hmax := Nat.div_add_mod' f.maxCode (2 ^ f.mb)
    rw [he]
    refine FloatFmt.not_pastMax_top ?_
    rw [FloatFmt.maxSig, bits, pow_zero, Nat.div_one]
    by_cases h0 : ex = 0
    · subst h0
      rw [FloatFmt.sigOf, if_pos rfl]
      omega
    · have : ex = f.maxCode / 2 ^ f.mb := by unfold FloatFmt.expOf FloatFmt.maxExp at he; omega
      rw [← this] at hmax
      omega

/-- A finite code narrows to itself. -/
theorem FloatFmt.roundMag_sigOf (hf : f.Topped) (hman : man < 2 ^ f.mb) (hc : ex * 2 ^ f.mb + man ≤ f.maxCode) :
    f.roundMag rnd r (f.sigOf ex man) (f.expOf ex) = (ex * 2 ^ f.mb + man, false) := by
  by_cases h0 : f.sigOf ex man = 0
  · obtain ⟨rfl, rfl⟩ : ex = 0 ∧ man = 0 := by
      unfold FloatFmt.sigOf at h0
      have := Nat.two_pow_pos f.mb
      split at h0 <;> omega
    simp [FloatFmt.roundMag, h0]
  · have hcode : (f.expOf ex - f.minExp).toNat * 2 ^ f.mb + f.sigOf ex man = ex * 2 ^ f.mb + man := by
      rw [FloatFmt.expOf, Int.add_sub_cancel, Int.toNat_natCast, FloatFmt.sigOf]
      split
      · next h => simp [h]
      · next h =>
        obtain ⟨k, rfl⟩ := Nat.exists_eq_succ_of_ne_zero h
        rw [Nat.succ_sub_one, Nat.succ_mul, Nat.add_assoc]
    rw [FloatFmt.roundMag_eq h0, FloatFmt.spacing_sigOf hman h0, roundAt_self, hcode, decide_eq_false (Nat.not_lt.mpr hc),
      FloatFmt.not_pastMax_sigOf hf hman hc, Bool.and_false, Bool.or_false]

theorem bit_bitOf_add {k : Nat} (hn : n < 2 ^ (k + 1)) : FloatFmt.encode.bit (bitOf n k) * 2 ^ k + n % 2 ^ k = n := by
  have h2 : n / 2 ^ k < 2 := Nat.div_lt_of_lt_mul (by rwa [pow_succ] at hn)
  have hb : FloatFmt.encode.bit (bitOf n k) = n / 2 ^ k := by
    unfold FloatFmt.encode.bit bitOf
    generalize n / 2 ^ k = d at h2
    obtain rfl | rfl : d = 0 ∨ d = 1 := by omega
    · rfl
    · rfl
  rw [hb, Nat.div_add_mod']

/-- The two fields of a code make its magnitude. -/
theorem FloatFmt.fields_eq (f : FloatFmt) (n : Nat) : bits n f.mb f.eb * 2 ^ f.mb + bits n 0 f.mb = n % 2 ^ (f.eb + f.mb) := by
  rw [bits, bits, pow_zero, Nat.div_one, Nat.add_comm f.eb, pow_add, Nat.mod_mul, Nat.mul_comm, Nat.add_comm]

/-- A code that is neither of the top exponent of a format with infinities nor the NaN of one without is finite. -/
theorem FloatFmt.le_maxCode (hf : f.Topped) (hex : ex < 2 ^ f.eb) (hman : man < 2 ^ f.mb) (hinf : ¬(f.hasInf = true ∧ ex = 2 ^ f.eb - 1))
    (hnan : ¬(f.nan.isSome = true ∧ (!f.hasInf) = true ∧ ex = 2 ^ f.eb - 1 ∧ man = 2 ^ f.mb - 1)) : ex * 2 ^ f.mb + man ≤ f.maxCode := by
  obtain ⟨-, htop⟩ := hf
  have hle : ex < 2 ^ f.eb - 1 → (ex + 1) * 2 ^ f.mb ≤ (2 ^ f.eb - 1) * 2 ^ f.mb := fun h => Nat.mul_le_mul_right _ h
  have htwo : (2 ^ f.eb - 1) * 2 ^ f.mb + 2 ^ f.mb = 2 ^ f.eb * 2 ^ f.mb := by
    rw [← Nat.succ_mul, Nat.succ_eq_add_one, Nat.sub_add_cancel Nat.one_le_two_pow]
  rw [Nat.add_mul, Nat.one_mul] at hle
  by_cases h1 : ex = 2 ^ f.eb - 1
  · subst h1
    have hi : f.hasInf = false := by simpa using hinf
    simp only [hi, Bool.not_false, true_and, not_and] at hnan
    simp only [hi, Bool.false_eq_true, if_false] at htop
    split at htop
    · next hs =>
      have := hnan hs
      omega
    · omega
  · have := hle (by omega)
    split at htop
    · omega
    · split at htop <;> omega

/-- A code of a format is an infinity, a NaN, or the finite number of its fields, which is none above the largest. -/
theorem FloatFmt.decode_cases (hf : f.Topped) (n : Nat) :
    f.decode n = .nan ∨
    (f.decode n = .inf (bitOf n (f.eb + f.mb)) ∧ f.hasInf = true ∧ n % 2 ^ (f.eb + f.mb) = (2 ^ f.eb - 1) * 2 ^ f.mb) ∨
    (f.decode n = .fin (bitOf n (f.eb + f.mb)) (f.sigOf (bits n f.mb f.eb) (bits n 0 f.mb)) (f.expOf (bits n f.mb f.eb)) ∧
      n % 2 ^ (f.eb + f.mb) ≤ f.maxCode) := by
  have hex : bits n f.mb f.eb < 2 ^ f.eb := Nat.mod_lt _ (Nat.two_pow_pos _)
  have hman : bits n 0 f.mb < 2 ^ f.mb := Nat.mod_lt _ (Nat.two_pow_pos _)
  rw [← f.fields_eq]
  unfold FloatFmt.decode
  generalize bits n f.mb f.eb = ex at hex
  generalize bits n 0 f.mb = man at hman
  dsimp only
  split
  · next hi =>
    split
    · next h0 => exact .inr (.inl ⟨rfl, hi.1, by rw [hi.2, h0, Nat.add_zero]⟩)
    · exact .inl rfl
  · next hinf =>
    split
    · exact .inl rfl
    · next hnan =>
      refine .inr (.inr ⟨?_, f.le_maxCode hf hex hman hinf hnan⟩)
      unfold FloatFmt.sigOf FloatFmt.expOf FloatFmt.minExp
      split
      · next h0 => simp [h0]
      · congr 1
        omega

/-- R61, R62: every code of a format that is no NaN narrows back to itself. -/
theorem FloatFmt.encode_decode (hf : f.Topped) (hn : n < 2 ^ (f.eb + f.mb + 1)) (h : (f.decode n).isNan = false) :
    f.encode rnd sat r (f.decode n) = n := by
  obtain hd | ⟨hd, hinf, hmag⟩ | ⟨hd, hmag⟩ := f.decode_cases hf n
  · simp [hd, Val.isNan] at h
  · rw [hd]
    simp only [FloatFmt.encode, hinf, if_true]
    rw [← hmag, bit_bitOf_add hn]
  · rw [← f.fields_eq] at hmag
    have hman : bits n 0 f.mb < 2 ^ f.mb := Nat.mod_lt _ (Nat.two_pow_pos _)
    rw [hd]
    simp only [FloatFmt.encode, FloatFmt.roundMag_sigOf hf hman hmag, Bool.false_eq_true, if_false]
    rw [f.fields_eq, bit_bitOf_add hn]

end

/-- Narrowing in a floating-point format, and in an integer format. -/
theorem narrow_float {fmt rnd sat r : Nat} {f : FloatFmt} {v : Val} (h : floatFmt fmt = some f) :
    narrow fmt rnd sat r v = f.encode rnd sat r v := by
  rw [narrow, h]

theorem narrow_int {fmt rnd sat r : Nat} {v : Val} (h : floatFmt fmt = none) :
    narrow fmt rnd sat r v = encodeInt (fmtBits fmt) rnd r v := by
  rw [narrow, h]

section
variable {fmt sat r m : Nat} {f : FloatFmt} {e : Int} {neg : Bool}

/-- R61, R64: an overflow is the largest finite value where it saturates, and always in an MX format. -/
theorem narrow_saturates (h : floatFmt fmt = some f) (he : e ≤ f.maxExp - 1) (hs : sat = 1 ∨ f.mx = true)
    (hm : (2 * f.maxSig + 1) * 2 ^ (f.maxExp - 1 - e).toNat ≤ m) :
    narrow fmt 0 sat r (.fin neg m e) = FloatFmt.encode.bit neg * 2 ^ (f.eb + f.mb) + f.maxCode := by
  rw [narrow_float h, FloatFmt.encode_of_pastMax (FloatFmt.ne_zero_of_past hm) ((FloatFmt.pastMax_iff he).mpr hm), if_pos hs]

/-- R61, R64: elsewhere an overflow narrows as an infinity does. -/
theorem narrow_overflows (h : floatFmt fmt = some f) (he : e ≤ f.maxExp - 1) (hs : ¬(sat = 1 ∨ f.mx = true))
    (hm : (2 * f.maxSig + 1) * 2 ^ (f.maxExp - 1 - e).toNat ≤ m) :
    narrow fmt 0 sat r (.fin neg m e) = f.encode 0 sat r (.inf neg) := by
  rw [narrow_float h, FloatFmt.encode_of_pastMax (FloatFmt.ne_zero_of_past hm) ((FloatFmt.pastMax_iff he).mpr hm), if_neg hs]

end

/-! ### The codes of an integer format -/

/-- An integer narrows to the nearest code, whatever the rounding. -/
theorem encodeInt_ofInt (w rnd r : Nat) (i : Int) : encodeInt w rnd r (.ofInt i) =
    (max (-((2 ^ (w - 1) : Nat) : Int)) (min ((2 ^ (w - 1) : Nat) - 1) i) % (2 ^ w : Nat)).toNat := by
  have hs : (if decide (i < 0) = true then -((i.natAbs : Nat) : Int) else (i.natAbs : Nat)) = i := by
    simp only [decide_eq_true_eq]
    omega
  simp only [encodeInt, Val.ofInt, roundAt_self, hs]

/-- The codes of `w` bits stand for the integers from −2^(w−1) to 2^(w−1) − 1, modulo 2^w. -/
theorem toInt_range {w n : Nat} (hw : 0 < w) (hn : n < 2 ^ w) : -((2 ^ (w - 1) : Nat) : Int) ≤ toInt w n ∧
    toInt w n ≤ (2 ^ (w - 1) : Nat) - 1 ∧ toInt w n % (2 ^ w : Nat) = n := by
  obtain ⟨w, rfl⟩ := Nat.exists_eq_succ_of_ne_zero hw.ne'
  rw [toInt, Nat.mod_eq_of_lt hn]
  simp only [Nat.succ_eq_add_one, Nat.add_sub_cancel, pow_succ 2 w] at hn ⊢
  generalize 2 ^ w = b at hn ⊢
  have hmod : (n : Int) % (b * 2 : Nat) = n := Int.emod_eq_of_lt (by omega) (by omega)
  split
  · exact ⟨by omega, by omega, by rw [Int.sub_emod_right, hmod]⟩
  · exact ⟨by omega, by omega, hmod⟩

theorem encodeInt_toInt {w n : Nat} (rnd r : Nat) (hw : 0 < w) (hn : n < 2 ^ w) : encodeInt w rnd r (.ofInt (toInt w n)) = n := by
  obtain ⟨hlo, hhi, hmod⟩ := toInt_range hw hn
  rw [encodeInt_ofInt, min_eq_right hhi, max_eq_right hlo, hmod, Int.toNat_natCast]

/-- Every code of the ten formats that is no NaN narrows back to itself. -/
theorem narrow_decodeFmt {fmt n : Nat} (rnd sat r : Nat) (hfmt : fmt ≤ 9) (hn : n < 2 ^ fmtBits fmt) (h : (decodeFmt fmt n).isNan = false) :
    narrow fmt rnd sat r (decodeFmt fmt n) = n := by
  unfold decodeFmt at h ⊢
  cases hf : floatFmt fmt with
  | some f =>
    rw [hf] at h
    obtain ⟨htop, hb⟩ := topped_of_floatFmt hf
    rw [hb] at hn
    exact (narrow_float hf).trans (FloatFmt.encode_decode htop hn h)
  | none =>
    have hw : 0 < fmtBits fmt := by interval_cases fmt <;> decide
    exact (narrow_int hf).trans (encodeInt_toInt rnd r hw hn)

/-! ### The exact sum -/

/-- An integer times a power of two as a finite value. -/
def Val.dyadic (t q : Int) : Val := .fin (decide (t < 0)) t.natAbs q

/-- The smallest exponent of finite values, at most 0: the one their exact sum stands at. -/
def sumExp (l : List Val) : Int := l.foldr (fun v q => min v.exp q) 0

theorem sumExp_cons (v : Val) (l : List Val) : sumExp (v :: l) = min v.exp (sumExp l) := rfl

theorem sumExp_perm {l l' : List Val} (h : l.Perm l') : sumExp l = sumExp l' :=
  haveI : LeftCommutative (fun (v : Val) (q : Int) => min v.exp q) := ⟨fun _ _ _ => min_left_comm _ _ _⟩
  h.foldr_eq 0

theorem sumExp_le {l : List Val} {v : Val} (h : v ∈ l) : sumExp l ≤ v.exp := by
  induction l with
  | nil => cases h
  | cons w l ih =>
    rw [sumExp_cons]
    obtain rfl | h := List.mem_cons.mp h
    · exact min_le_left _ _
    · exact (min_le_right _ _).trans (ih h)

theorem Val.atExp_dyadic (t : Int) {p q : Int} : (Val.dyadic t q).atExp p = t * 2 ^ (q - p).toNat := by
  unfold Val.dyadic Val.atExp
  dsimp only
  split
  · next h =>
    have : (t.natAbs : Int) = -t := by have := of_decide_eq_true h; omega
    push_cast [this]
    ring
  · next h =>
    have : (t.natAbs : Int) = t := by simp at h; omega
    push_cast [this]
    rfl

/-- At a smaller exponent a value's integer is larger by the power of two between. -/
theorem Val.atExp_of_le {v : Val} {p q : Int} (hpq : p ≤ q) (hv : q ≤ v.exp) : v.atExp p = v.atExp q * 2 ^ (q - p).toNat := by
  cases v with
  | fin n m e =>
    simp only [Val.exp] at hv
    have : (e - p).toNat = (e - q).toNat + (q - p).toNat := by omega
    simp only [Val.atExp, this, pow_add]
    split <;> push_cast <;> ring
  | nan | inf => simp [Val.atExp]

theorem Val.ite_eq_dyadic {z : Bool} (hz : z = false) (t q : Int) :
    (if t = 0 then Val.fin z 0 q else .fin (decide (t < 0)) t.natAbs q) = .dyadic t q := by
  subst hz
  split
  · next h =>
    subst h
    rfl
  · rfl

/-- A finite value and a dyadic number add to the dyadic number of their sum, and a zero sum is +0. -/
theorem Val.add_dyadic {v : Val} (hv : v.finite = true) (t q : Int) :
    v.add (.dyadic t q) = .dyadic (v.atExp (min v.exp q) + t * 2 ^ (q - min v.exp q).toNat) (min v.exp q) := by
  cases v with
  | nan | inf => simp [Val.finite, Val.isNan, Val.isInf] at hv
  | fin n m e =>
    have hz : (n && decide (t < 0) && m == 0 && t.natAbs == 0) = false := by
      by_cases ht : t < 0
      · simp [Int.ne_of_lt ht]
      · simp [ht]
    exact (Val.ite_eq_dyadic hz _ _).trans (congrArg (fun x => Val.dyadic (_ + x) _) (Val.atExp_dyadic t))

/-- The exact sum of finite values is the dyadic number of their integers at the smallest exponent. -/
theorem exactSum_eq_dyadic {l : List Val} (hl : ∀ v ∈ l, v.finite = true) :
    exactSum l = .dyadic (l.map (Val.atExp (sumExp l))).sum (sumExp l) := by
  induction l with
  | nil => rfl
  | cons v l ih =>
    have htail : l.map (Val.atExp (sumExp (v :: l))) =
        l.map (fun w => w.atExp (sumExp l) * 2 ^ (sumExp l - sumExp (v :: l)).toNat) := by
      refine List.map_congr_left fun w hw => Val.atExp_of_le ?_ (sumExp_le hw)
      exact min_le_right _ _
    rw [exactSum, ih fun w hw => hl w (List.mem_cons_of_mem v hw), Val.add_dyadic (hl v List.mem_cons_self), ← sumExp_cons, List.map_cons,
      List.sum_cons, htail, List.sum_map_mul_right]

theorem exactSum_perm {l l' : List Val} (h : l.Perm l') (hl : ∀ v ∈ l, v.finite = true) : exactSum l = exactSum l' := by
  rw [exactSum_eq_dyadic hl, exactSum_eq_dyadic fun v hv => hl v (h.mem_iff.mpr hv), sumExp_perm h, (h.map _).sum_eq]

theorem Val.finite_iff {v : Val} : v.finite = true ↔ v.isNan = false ∧ v ≠ .inf true ∧ v ≠ .inf false := by
  cases v with
  | inf n => cases n <;> simp [Val.finite, Val.isNan, Val.isInf]
  | nan | fin => simp [Val.finite, Val.isNan, Val.isInf]

/-- R69, R70: the exact column sum does not depend on the order of its products. -/
theorem exactColumn_perm {l l' : List Val} (h : l.Perm l') : exactColumn l = exactColumn l' := by
  unfold exactColumn
  simp only [← h.any_eq]
  split
  · rfl
  split
  · rfl
  split
  · rfl
  next hnan hneg hpos =>
  simp only [List.any_eq_true, decide_eq_true_eq, not_exists, not_and] at hnan hneg hpos
  rw [exactSum_perm h fun v hv => Val.finite_iff.mpr
    ⟨Bool.eq_false_iff.mpr (hnan v hv), fun e => hneg v hv e, fun e => hpos v hv e⟩]

/-- R69: an exact zero is +0. -/
theorem exactColumn_zero_sign {l : List Val} (h : (exactColumn l).isZero = true) : (exactColumn l).sign = false := by
  revert h
  unfold exactColumn
  split
  · exact fun _ => rfl
  split
  · split
    · exact fun _ => rfl
    · exact fun h => nomatch h
  split
  · exact fun _ => rfl
  · cases exactSum l with
    | fin n m e =>
      cases m with
      | zero => exact fun _ => rfl
      | succ m => exact fun h => nomatch h
    | nan => exact fun _ => rfl
    | inf n => exact fun h => nomatch h

end Sys2Proof.Machine

open Sys2Proof Sys2Proof.Machine

/-- Settles O52: a code's value lies at the spacing of its code, so rounding leaves it; an exact sum is the dyadic number of the values'
integers at their smallest exponent, and neither depends on the order. -/
theorem narrowingAndExactColumnSums : Obligations.NarrowingAndExactColumnSums := by
  unfold Obligations.NarrowingAndExactColumnSums
  refine ⟨fun fmt n rnd sat r => narrow_decodeFmt rnd sat r, fun rnd sat r => ⟨rfl, rfl, rfl, rfl, rfl, rfl, rfl⟩, fun m k hk =>
    ⟨(rneShift_near m hk).1, (rneShift_near m hk).2, rneShift_even_of_tie hk⟩, fun i rnd sat r => ⟨encodeInt_ofInt 8 rnd r i,
    encodeInt_ofInt 4 rnd r i⟩, fun neg m r => ?_, fun l l' => exactColumn_perm, fun l => exactColumn_zero_sign⟩
  refine ⟨fun h => ⟨(narrow_saturates rfl (by decide) (.inl rfl) h).trans ?_, (narrow_overflows rfl (by decide) (by decide) h).trans ?_⟩,
    fun h => ⟨(narrow_saturates rfl (by decide) (.inl rfl) h).trans ?_, (narrow_overflows rfl (by decide) (by decide) h).trans ?_⟩,
    fun h => ⟨(narrow_saturates rfl (by decide) (.inl rfl) h).trans ?_, (narrow_overflows rfl (by decide) (by decide) h).trans ?_⟩,
    fun sat => ⟨fun h => (narrow_saturates rfl (by decide) (.inr rfl) h).trans ?_,
      fun h => (narrow_saturates rfl (by decide) (.inr rfl) h).trans ?_, fun h => (narrow_saturates rfl (by decide) (.inr rfl) h).trans ?_⟩⟩
  all_goals cases neg <;> rfl

end

section
namespace Sys2Proof.Machine

/-! ## The commit of a check group (chapter 3) -/

/-! ### Writing a list of entries -/

/-- A key of no entry reads as before. -/
theorem Tbl.get_setAll_of_forall_ne {α : Type} [DecidableEq α] {d : α} {t l : Tbl α} {k : Nat} (ht : Tbl.sortedFrom 0 t = true)
    (hl : ∀ e ∈ l, k ≠ e.1) : (Tbl.setAll d t l).get d k = t.get d k := by
  induction l generalizing t with
  | nil => rfl
  | cons e l ih =>
    rw [List.forall_mem_cons] at hl
    exact (ih (Tbl.sortedFrom_set e.2 ht (Nat.zero_le _)) hl.2).trans (Tbl.get_set_ne e.2 ht hl.1)

/-- A key whose entries all carry one value reads it. -/
theorem Tbl.get_setAll_of_mem {α : Type} [DecidableEq α] {d v : α} {t l : Tbl α} {k : Nat} (ht : Tbl.sortedFrom 0 t = true)
    (hk : (k, v) ∈ l) (hl : ∀ e ∈ l, e.1 = k → e.2 = v) : (Tbl.setAll d t l).get d k = v := by
  induction l generalizing t with
  | nil => cases hk
  | cons e l ih =>
    rw [List.forall_mem_cons] at hl
    have ht' : Tbl.sortedFrom 0 (t.set d e.1 e.2) = true := Tbl.sortedFrom_set e.2 ht (Nat.zero_le _)
    by_cases hmem : (k, v) ∈ l
    · exact ih ht' hmem hl.2
    · have he : (k, v) = e := (List.mem_cons.mp hk).resolve_right hmem
      subst he
      refine (Tbl.get_setAll_of_forall_ne ht' fun e he hke => ?_).trans (Tbl.get_set_same k v ht)
      exact hmem (by rw [hke, ← hl.2 e he hke.symm]; exact he)

/-! ### The words a group writes -/

section
variable {s : State} {p c a t : Nat} {q : Pass} {g : Group}

/-- The place of vector `v` of a group and column `j` in the accumulators. -/
def Pass.placeOf (q : Pass) (p c : Nat) (g : Group) (v j : Nat) : Nat := accKey p c q.arr ((q.base + g.first + v) * q.width + j)

/-- What a commit makes of the accumulator word of a vector and a column (R68, R73, R103, R203, R204). -/
def State.sumWord (s : State) (p c t : Nat) (q : Pass) (g : Group) (v j : Nat) (vec : List (Option Held)) : Word32 :=
  toF32 ((if q.accum = true then f32 (s.accWord (q.placeOf p c g v j)) else .fin false 0 0).add
    (if g.driven = true then q.colSum t j vec else .fin false 0 0))

/-- The accumulator words that a commit writes. -/
def State.groupWords (s : State) (p c t : Nat) (q : Pass) (g : Group) : Tbl (Option Word32) :=
  g.vecs.zipIdx.flatMap fun vi => (bitsSet 256 q.cmask).map fun j => (q.placeOf p c g vi.2 j, some (s.sumWord p c t q g vi.2 j vi.1))

/-- Beside the accumulators a commit advances one counter. -/
theorem State.commitGroup_eq (s : State) (p c t : Nat) (q : Pass) (g : Group) : ∃ macs,
    s.commitGroup p c t q g = ({ s with acc := Tbl.setAll none s.acc (s.groupWords p c t q g) }).addf (GRN_MACS.MACS p c) macs := by
  refine ⟨_, congrArg (fun a => ({ s with acc := a } : State).addf _ _) ?_⟩
  simp only [Tbl.setAll, State.groupWords, List.foldl_flatMap, List.foldl_map]
  rfl

theorem State.acc_commitGroup (s : State) (p c t : Nat) (q : Pass) (g : Group) :
    (s.commitGroup p c t q g).acc = Tbl.setAll none s.acc (s.groupWords p c t q g) := by
  obtain ⟨macs, h⟩ := s.commitGroup_eq p c t q g
  rw [h]
  rfl

theorem State.mem_groupWords {e : Nat × Option Word32} : e ∈ s.groupWords p c t q g ↔ ∃ (v : Nat) (h : v < g.vecs.length),
    ∃ j ∈ bitsSet 256 q.cmask, e = (q.placeOf p c g v j, some (s.sumWord p c t q g v j g.vecs[v])) := by
  simp only [State.groupWords, List.mem_flatMap, List.mem_map, Prod.exists, List.mk_mem_zipIdx_iff_getElem?, List.getElem?_eq_some_iff]
  constructor
  · rintro ⟨_, v, ⟨h, rfl⟩, j, hj, rfl⟩
    exact ⟨v, h, j, hj, rfl⟩
  · rintro ⟨v, h, j, hj, rfl⟩
    exact ⟨_, v, ⟨h, rfl⟩, j, hj, rfl⟩

theorem eq_of_mul_add_eq {a b i j w : Nat} (hi : i < w) (hj : j < w) (h : a * w + i = b * w + j) : a = b ∧ i = j := by
  have hm : (a * w + i) % w = (b * w + j) % w := congrArg (· % w) h
  rw [Nat.mul_add_mod', Nat.mul_add_mod', Nat.mod_eq_of_lt hi, Nat.mod_eq_of_lt hj] at hm
  subst hm
  exact ⟨Nat.eq_of_mul_eq_mul_right (Nat.zero_lt_of_lt hi) (Nat.add_right_cancel h), rfl⟩

/-- Columns within the width have places of their own. -/
theorem Pass.placeOf_inj {v v' j j' : Nat} (hj : j < q.width) (hj' : j' < q.width) (h : q.placeOf p c g v j = q.placeOf p c g v' j') :
    v = v' ∧ j = j' := by
  obtain ⟨hv, hjj⟩ := eq_of_mul_add_eq hj hj' (Nat.add_left_cancel h)
  exact ⟨Nat.add_left_cancel hv, hjj⟩

/-- A commit gives each unmasked element its word. -/
theorem State.acc_commitGroup_placeOf (hs : Tbl.sortedFrom 0 s.acc = true) (hw : ∀ j ∈ bitsSet 256 q.cmask, j < q.width) {v j : Nat}
    (hv : v < g.vecs.length) (hj : j ∈ bitsSet 256 q.cmask) :
    (s.commitGroup p c t q g).acc.get none (q.placeOf p c g v j) = some (s.sumWord p c t q g v j g.vecs[v]) := by
  rw [State.acc_commitGroup]
  refine Tbl.get_setAll_of_mem hs (State.mem_groupWords.mpr ⟨v, hv, j, hj, rfl⟩) fun e he hk => ?_
  obtain ⟨v', hv', j', hj', rfl⟩ := State.mem_groupWords.mp he
  obtain ⟨rfl, rfl⟩ := Pass.placeOf_inj (hw j' hj') (hw j hj) hk
  rfl

/-- A commit leaves every other accumulator word. -/
theorem State.acc_commitGroup_other {k : Nat} (hs : Tbl.sortedFrom 0 s.acc = true)
    (hk : ∀ v j, v < g.vecs.length → j ∈ bitsSet 256 q.cmask → k ≠ q.placeOf p c g v j) :
    (s.commitGroup p c t q g).acc.get none k = s.acc.get none k := by
  rw [State.acc_commitGroup]
  refine Tbl.get_setAll_of_forall_ne hs fun e he => ?_
  obtain ⟨v, hv, j, hj, rfl⟩ := State.mem_groupWords.mp he
  exact hk v j hv hj

/-- A commit changes accumulators and register fields only. -/
theorem State.commitGroup_kept (s : State) (p c t : Nat) (q : Pass) (g : Group) :
    s.commitGroup p c t q g = { s with acc := (s.commitGroup p c t q g).acc, flds := (s.commitGroup p c t q g).flds } := by
  obtain ⟨macs, h⟩ := s.commitGroup_eq p c t q g
  rw [h]
  rfl

/-- A commit changes no field but GRN_MACS. -/
theorem State.rf_commitGroup {f : Fld} (hs : Tbl.sortedFrom 0 s.flds = true) (hf : f.cell ≠ (GRN_MACS.MACS p c).cell) :
    (s.commitGroup p c t q g).rf f = s.rf f := by
  obtain ⟨macs, h⟩ := s.commitGroup_eq p c t q g
  rw [h]
  exact State.rf_wf_ne (s := { s with acc := _ }) _ hs hf

/-! ### The command -/

/-- Whether accumulator words in error that a command reads hold one that is uncorrectable (R108). -/
theorem accRead_any_uncorrectable {fused : Bool} {reads : Nat → Nat → Bool} {es : List EccWord} :
    (accRead fused reads es).any (fun e => !e.fixed) = true ↔
      ∃ e ∈ es, reads (accPlace fused e.pos).1 (accPlace fused e.pos).2 = true ∧ e.fixed = false := by
  simp only [accRead, List.any_filter, List.any_eq_true, Bool.and_eq_true, Bool.not_eq_true']

variable {gs : List Group} {acc es : List EccWord} {res : Residue}

/-- CHECK_GROUP_COMMIT with agreeing residues (R111). -/
theorem execCheckGroupCommit_agree (hp : p < 16) (hc : c < s.lcores p) (hq : s.headPass p c a = some q)
    (hg : (if q.recomp = true then q.groups.drop 1 else q.groups) = g :: gs)
    (he : ∀ e ∈ acc, q.reads g (accPlace (s.fused p c) e.pos).1 (accPlace (s.fused p c) e.pos).2 = true → e.fixed = true) :
    execCheckGroupCommit p c a .agree acc s = .next
      (((((s.addf (GRN_CYC_STREAM.CYCLES p c) (arrayCycles (s.fused p c) (q.groupCycles g))).accEcc p c q.width (q.reads g) acc).commitGroup
        p c (kTile (s.fused p c)) q g).dropGroup p c q.seq g.first q.recomp)) := by
  have hany : ¬(accRead (s.fused p c) (q.reads g) acc).any (fun e => !e.fixed) = true := by
    rw [accRead_any_uncorrectable]
    rintro ⟨e, hm, hr, hx⟩
    exact Bool.false_ne_true (hx.symm.trans (he e hm hr))
  rw [execCheckGroupCommit, onCore_of_lt hp hc, hq]
  dsimp only
  rw [hg]
  dsimp only
  rw [if_neg hany]

/-- CHECK_GROUP_COMMIT of a group whose commit reads an uncorrectable word (R108). -/
theorem execCheckGroupCommit_uncorrectable (hp : p < 16) (hc : c < s.lcores p) (hq : s.headPass p c a = some q)
    (hg : (if q.recomp = true then q.groups.drop 1 else q.groups) = g :: gs)
    (he : ∃ e ∈ acc, q.reads g (accPlace (s.fused p c) e.pos).1 (accPlace (s.fused p c) e.pos).2 = true ∧ e.fixed = false) :
    execCheckGroupCommit p c a res acc s = .next
      (((s.addf (GRN_CYC_STREAM.CYCLES p c) (arrayCycles (s.fused p c) (q.groupCycles g))).failPass p c q.seq).accEcc p c q.width
        (q.reads g) acc) := by
  rw [execCheckGroupCommit, onCore_of_lt hp hc, hq]
  dsimp only
  rw [hg]
  dsimp only
  rw [if_pos (accRead_any_uncorrectable.mpr he)]

/-- Both commands leave the state where no pass of the array has started. -/
theorem execCheckGroupCommit_none (hp : p < 16) (hc : c < s.lcores p) (hq : s.headPass p c a = none) :
    execCheckGroupCommit p c a res acc s = .next s := by
  rw [execCheckGroupCommit, onCore_of_lt hp hc, hq]

theorem execCheckGroupRecompute_none (hp : p < 16) (hc : c < s.lcores p) (hq : s.headPass p c a = none) :
    execCheckGroupRecompute p c a res acc es s = .next s := by
  rw [execCheckGroupRecompute, onCore_of_lt hp hc, hq]

end

end Sys2Proof.Machine

open Sys2Proof Sys2Proof.Machine

/-- Settles O28: a commit writes one word for each vector and unmasked column, and no two of them to one place. -/
theorem checkGroupCommitsItsElements : Obligations.CheckGroupCommitsItsElements := by
  unfold Obligations.CheckGroupCommitsItsElements
  refine ⟨fun s p c t q g hs hw => ?_, fun s p c a acc q g gs hp hc hq hg => ?_, fun _ _ _ _ _ => rfl,
    fun s p c a res acc es hp hc hq => ?_⟩
  · exact ⟨fun v hv j hj => State.acc_commitGroup_placeOf hs hw hv hj, fun k hk => State.acc_commitGroup_other hs hk,
      s.commitGroup_kept p c t q g, fun f hf hc => State.rf_commitGroup hf hc⟩
  · simp only [exec_checkGroupCommit]
    exact ⟨execCheckGroupCommit_agree hp hc hq hg, fun e he res hr hx => execCheckGroupCommit_uncorrectable hp hc hq hg ⟨e, he, hr, hx⟩⟩
  · rw [exec_checkGroupCommit, exec_checkGroupRecompute]
    exact ⟨execCheckGroupCommit_none hp hc hq, execCheckGroupRecompute_none hp hc hq⟩

end

section
namespace Sys2Proof.Machine

/-! ## Mica commands (chapter 4) -/

/-! ### What starting a command does -/

section
variable {s u v : State} {p c mop sub cst st : Nat} {x : QEntry} {ws : List Word64} {bf : Bool} {cost : MCmd → Nat}
  {body : State → MCmd → MAns}

/-- The state with what command `m` of queue entry `x`, operation `mop`, would write staged (R135). -/
def State.staging (u : State) (p c : Nat) (x : QEntry) (m : MCmd) (mop cst : Nat) (regs : List (Nat × Word32)) (mem : WriteSet) (w : Writes)
    (val : Nat → Val) (conv : Bool) : State :=
  (u.setStage p c (some ⟨x.seq, mop, cst, regs, mem, some (summaryOf m w val conv), m.smode, m.slot, (summaryOf m w val conv).nonfin,
    false, 0, 0⟩)).wf (MCA_STATUS.BUSY p c) 1

theorem micaRow_none (hp : p < 16) (hc : c < s.lcores p) (hh : s.micaHead p c = none) :
    micaRow p c mop sub bf cost body s = .next s := by
  rw [micaRow, onCore_of_lt hp hc, State.micaStart, hh]

/-- A command that breaks R153 or R158 fails. -/
theorem State.micaStart_bad (hh : s.micaHead p c = some (x, ws)) (hm : (micaCmd ws).mop = mop) (hs : (micaCmd ws).subop = sub)
    (hok : (micaCmd ws).ok bf = false) :
    s.micaStart p c mop sub bf cost body = (s.start p c 1 x.seq).finish p c 1 x.seq stCHECKFAIL := by
  rw [State.micaStart, hh]
  dsimp only
  rw [if_neg (fun h => h.elim (· hm) (· hs)), hok, Bool.not_false, if_pos rfl]

/-- A command whose operation fails completes with its status. -/
theorem State.micaStart_fail (hh : s.micaHead p c = some (x, ws)) (hm : (micaCmd ws).mop = mop) (hs : (micaCmd ws).subop = sub)
    (hok : (micaCmd ws).ok bf = true) (hb : body (s.start p c 1 x.seq) (micaCmd ws) = .fail v st) :
    s.micaStart p c mop sub bf cost body = v.finish p c 1 x.seq st := by
  rw [State.micaStart, hh]
  dsimp only
  rw [if_neg (fun h => h.elim (· hm) (· hs)), hok, Bool.not_true, if_neg Bool.false_ne_true, hb]

/-- Any other command is staged. -/
theorem State.micaStart_staged {regs : List (Nat × Word32)} {mem : WriteSet} {w : Writes} {val : Nat → Val} {conv : Bool}
    (hh : s.micaHead p c = some (x, ws)) (hm : (micaCmd ws).mop = mop) (hs : (micaCmd ws).subop = sub)
    (hok : (micaCmd ws).ok bf = true) (hb : body (s.start p c 1 x.seq) (micaCmd ws) = .staged v regs mem w val conv) :
    s.micaStart p c mop sub bf cost body = v.staging p c x (micaCmd ws) mop (cost (micaCmd ws)) regs mem w val conv := by
  rw [State.micaStart, hh]
  dsimp only
  rw [if_neg (fun h => h.elim (· hm) (· hs)), hok, Bool.not_true, if_neg Bool.false_ne_true, hb, ← hm]
  rfl

/-- What the row of an element-wise operation does: it fails, or stages the words that its function gives over the valid extent. -/
theorem exec_elementwise {i : Instr} {f : Nat → Nat → Nat} (hp : p < 16) (hc : c < s.lcores p) (hh : s.micaHead p c = some (x, ws))
    (hi : exec i s = micaRow p c mop sub bf cost body s)
    (hb : body (s.start p c 1 x.seq) (micaCmd ws) = .staged (s.start p c 1 x.seq)
      ((s.start p c 1 x.seq).regWords p c (micaCmd ws) (overValid (micaCmd ws) f)) [] (overValid (micaCmd ws) f)
      (viewVal (micaCmd ws).view) false)
    (hm : (micaCmd ws).mop = mop) (hs : (micaCmd ws).subop = sub) :
    ((micaCmd ws).ok bf = false → exec i s = .next ((s.start p c 1 x.seq).finish p c 1 x.seq stCHECKFAIL)) ∧
    ((micaCmd ws).ok bf = true → exec i s = .next ((s.start p c 1 x.seq).staging p c x (micaCmd ws) mop (cost (micaCmd ws))
      ((s.start p c 1 x.seq).regWords p c (micaCmd ws) (overValid (micaCmd ws) f)) [] (overValid (micaCmd ws) f)
      (viewVal (micaCmd ws).view) false)) := by
  rw [hi, micaRow, onCore_of_lt hp hc]
  exact ⟨fun hok => congrArg _ (State.micaStart_bad hh hm hs hok), fun hok => congrArg _ (State.micaStart_staged hh hm hs hok hb)⟩

end

/-! ### The words of a register that a command writes -/

theorem State.mem_regWords {s : State} {p c : Nat} {m : MCmd} {w : Writes} (hv : m.view = 0) {e : Nat × Word32} :
    e ∈ s.regWords p c m w ↔ ∃ r < 64, ∃ j < 64, (w r j).isSome = true ∧ e = (tregKey p c m.dst r j, s.wordAfter p c m w r j) := by
  simp only [State.regWords, if_pos hv, List.mem_flatMap, List.mem_filterMap, List.mem_range, Option.ite_none_right_eq_some,
    Option.some.injEq, eq_comm (b := e)]

theorem overValid_isSome {m : MCmd} {f : Nat → Nat → Nat} {r k : Nat} : (overValid m f r k).isSome = true ↔ r < m.vrows ∧ k < m.vcols := by
  rw [overValid]
  split <;> simp_all

/-- In the FP32 view a word inside the valid extent becomes the element written. -/
theorem State.wordAfter_overValid {s : State} {p c r j : Nat} {m : MCmd} {f : Nat → Nat → Nat} (hv : m.view = 0) (hr : r < m.vrows)
    (hj : j < m.vcols) : s.wordAfter p c m (overValid m f) r j = BitVec.ofNat 32 (f r j) := by
  rw [State.wordAfter, if_pos hv, overValid, if_pos ⟨hr, hj⟩, Option.getD_some]

theorem tregKey_inj {p c reg r r' j j' : Nat} (hj : j < 64) (hj' : j' < 64) (h : tregKey p c reg r j = tregKey p c reg r' j') :
    r = r' ∧ j = j' := by
  unfold tregKey at h
  omega

/-- The words a command writes in the FP32 view are those of its valid extent, each its element. -/
theorem State.mem_regWords_overValid {s : State} {p c r j : Nat} {m : MCmd} {f : Nat → Nat → Nat} {v : Word32} (hv : m.view = 0)
    (hj : j < 64) (h : (tregKey p c m.dst r j, v) ∈ s.regWords p c m (overValid m f)) :
    r < m.vrows ∧ j < m.vcols ∧ v = BitVec.ofNat 32 (f r j) := by
  obtain ⟨r', -, j', hj', hsome, he⟩ := (State.mem_regWords hv).mp h
  obtain ⟨hk, rfl⟩ := Prod.mk.inj he
  obtain ⟨rfl, rfl⟩ := tregKey_inj hj hj' hk
  obtain ⟨hvr, hvc⟩ := overValid_isSome.mp hsome
  exact ⟨hvr, hvc, State.wordAfter_overValid hv hvr hvc⟩

/-- Every element of the valid extent is among them. -/
theorem State.mem_regWords_of_valid {s : State} {p c r j : Nat} {m : MCmd} {f : Nat → Nat → Nat} (hv : m.view = 0) (hrows : m.vrows ≤ 64)
    (hcols : m.vcols ≤ 64) (hr : r < m.vrows) (hj : j < m.vcols) :
    (tregKey p c m.dst r j, BitVec.ofNat 32 (f r j)) ∈ s.regWords p c m (overValid m f) :=
  (State.mem_regWords hv).mpr ⟨r, hr.trans_le hrows, j, hj.trans_le hcols, overValid_isSome.mpr ⟨hr, hj⟩,
    by rw [State.wordAfter_overValid hv hr hj]⟩

/-! ### Transcendentals (R122, R124) -/

/-- Of a finite number that is not zero a transcendental gives its function, or the value of R124 where the number is negative. -/
theorem special_of_nonzero {ninf nz pz pinf x : Word32} {neg : Option Word32} {f : Word32 → Word32} {n : Bool} {k : Nat} {e : Int}
    (hx : f32 x = .fin n k e) (hk : k ≠ 0) : special ninf neg nz pz pinf f x = if n = true then neg.getD (f x) else f x := by
  rw [special, hx]
  exact if_neg hk

/-- The function itself, where R124 gives negative numbers no value of their own. -/
theorem special_of_nonzero_none {ninf nz pz pinf x : Word32} {f : Word32 → Word32} {n : Bool} {k : Nat} {e : Int}
    (hx : f32 x = .fin n k e) (hk : k ≠ 0) : special ninf none nz pz pinf f x = f x :=
  (special_of_nonzero hx hk).trans (ite_self _)

/-- A result is the exact value rounded once, or within 2 ulp of one that is no overflow. -/
theorem bounded_cases (v : Val) (c : Word32) :
    bounded v c = toF32 v ∨ ((rnd32 v).finite = true ∧ withinUlps 2 v (bounded v c) = true) := by
  rw [bounded]
  split
  · next h => exact .inr (Bool.and_eq_true_iff.mp h)
  · exact .inl rfl

end Sys2Proof.Machine

open Sys2Proof Sys2Proof.Machine

/-- Settles O31: every element-wise row stages its function over the valid extent. -/
theorem elementwiseCommandsStage : Obligations.ElementwiseCommandsStage := by
  unfold Obligations.ElementwiseCommandsStage
  refine ⟨fun s p c x ws hp hc hh => ?_, fun s p c r j m f v hv hrows hcols => ⟨fun h _ hj _ => State.mem_regWords_overValid hv hj h,
    State.mem_regWords_of_valid hv hrows hcols⟩, fun x n k e hx hk => ?_, bounded_cases, ⟨rfl, rfl, rfl, rfl⟩, rfl, rfl, rfl, rfl, rfl, rfl,
    rfl⟩
  · intro m u a b d word rnd mask staged
    have hsel : State.elementwise p c (fun s m r k => if (s.opA p c m r k).raw ≠ 0 then (s.opB p c m r k).raw else (s.opC p c m r k).raw) u m =
        State.elementwise p c (fun s m r k => if (s.opA p c m r k).raw = 0 then (s.opC p c m r k).raw else (s.opB p c m r k).raw) u m := by
      simp only [State.elementwise, ite_not]
    have row {i mop sub bf cost body f} := exec_elementwise (i := i) (mop := mop) (sub := sub) (bf := bf) (cost := cost) (body := body)
      (f := f) hp hc hh
    exact ⟨row rfl rfl, row rfl rfl, row rfl rfl, row rfl rfl, row rfl rfl, row rfl rfl, row rfl rfl, row rfl rfl, row rfl rfl, row rfl rfl,
      row rfl rfl, row rfl rfl, row rfl rfl, row rfl rfl, row rfl hsel, row rfl rfl, row rfl rfl, row rfl rfl, row rfl rfl, row rfl rfl,
      row rfl rfl, row rfl rfl, row (cost := fun _ => 16) rfl rfl⟩
  · exact ⟨special_of_nonzero_none hx hk, special_of_nonzero_none hx hk, special_of_nonzero_none hx hk, special_of_nonzero_none hx hk,
      special_of_nonzero hx hk, special_of_nonzero hx hk⟩

end

section
namespace Sys2Proof.Machine

/-! ### Conversions, random numbers, reductions and tile accesses -/

section
variable {s u v : State} {p c mop sub cst st : Nat} {x : QEntry} {ws : List Word64} {bf : Bool} {cost : MCmd → Nat}
  {body : State → MCmd → MAns} {i : Instr}

/-- A row whose command is well-formed and whose operation fails. -/
theorem exec_row_fail (hp : p < 16) (hc : c < s.lcores p) (hh : s.micaHead p c = some (x, ws))
    (hi : exec i s = micaRow p c mop sub bf cost body s)
    (hm : (micaCmd ws).mop = mop ∧ (micaCmd ws).subop = sub ∧ (micaCmd ws).ok bf = true)
    (hb : body (s.start p c 1 x.seq) (micaCmd ws) = .fail v st) : exec i s = .next (v.finish p c 1 x.seq st) := by
  obtain ⟨hmop, hsub, hok⟩ := hm
  rw [hi, micaRow, onCore_of_lt hp hc, State.micaStart_fail hh hmop hsub hok hb]

/-- A row whose command is well-formed and whose operation gives something to write. -/
theorem exec_row_staged {regs : List (Nat × Word32)} {mem : WriteSet} {w : Writes} {val : Nat → Val} {conv : Bool} (hp : p < 16)
    (hc : c < s.lcores p) (hh : s.micaHead p c = some (x, ws)) (hi : exec i s = micaRow p c mop sub bf cost body s)
    (hcost : cost (micaCmd ws) = cst) (hm : (micaCmd ws).mop = mop ∧ (micaCmd ws).subop = sub ∧ (micaCmd ws).ok bf = true)
    (hb : body (s.start p c 1 x.seq) (micaCmd ws) = .staged v regs mem w val conv) :
    exec i s = .next (v.staging p c x (micaCmd ws) (micaCmd ws).mop cst regs mem w val conv) := by
  obtain ⟨hmop, hsub, hok⟩ := hm
  rw [hi, micaRow, onCore_of_lt hp hc, State.micaStart_staged hh hmop hsub hok hb, hmop, hcost]

variable {m : MCmd} {es : List EccWord}

/-- R66: whether a conversion to an integer format meets an operand that is not finite. -/
def State.cvtMarks (s : State) (p c : Nat) (m : MCmd) : Bool :=
  isIntFmt m.fmt && (List.range m.vrows).any (fun r => (List.range m.vcols).any (fun k => !(s.opA p c m r k).val.finite))

theorem State.cvtMarks_iff : s.cvtMarks p c m = true ↔
    isIntFmt m.fmt = true ∧ ∃ r k, r < m.vrows ∧ k < m.vcols ∧ (s.opA p c m r k).val.finite = false := by
  simp only [State.cvtMarks, Bool.and_eq_true, List.any_eq_true, List.mem_range, Bool.not_eq_true', exists_and_left]

/-- CVT fails on a format code above 9, on FP32 from the BF16 view and on an MX block that is not aligned (R66, R516). -/
theorem State.cvtBody_fail (h : 10 ≤ m.fmt ∨ (m.fmt = 0 ∧ m.view = 1) ∨ (isMx m.fmt = true ∧ m.col0 % 32 ≠ 0)) :
    s.cvtBody p c m = .fail s stCHECKFAIL := if_pos h

theorem State.cvtBody_staged (hf : m.fmt < 10) (hv : m.fmt ≠ 0 ∨ m.view ≠ 1) (hx : isMx m.fmt = false ∨ m.col0 % 32 = 0) :
    State.cvtBody p c s m = .staged s (s.regWords p c m (overValid m (fun r k => s.cvtElem p c m r k))) []
      (overValid m (fun r k => s.cvtElem p c m r k)) (narrowVal m.view m.fmt) (s.cvtMarks p c m) := by
  refine if_neg ?_
  rintro (h | ⟨h0, h1⟩ | ⟨h0, h1⟩)
  · omega
  · exact hv.elim (· h0) (· h1)
  · exact hx.elim (fun h => Bool.false_ne_true (h.symm.trans h0)) h1

/-- WIDEN fails on a format code above 9 and on FP32 in the BF16 view. -/
theorem State.widenBody_fail (h : 10 ≤ m.fmt ∨ (m.fmt = 0 ∧ m.view = 1)) : State.widenBody p c s m = .fail s stCHECKFAIL := if_pos h

theorem State.widenBody_staged (hf : m.fmt < 10) (hv : m.fmt ≠ 0 ∨ m.view ≠ 1) :
    State.widenBody p c s m = State.elementwise p c (fun s m r k => widenElem m.view m.fmt (s.opA p c m r k).raw) s m := by
  refine if_neg ?_
  rintro (h | ⟨h0, h1⟩)
  · omega
  · exact hv.elim (· h0) (· h1)

theorem State.randomBody_fail {f : MCmd → Word32 → MOpnd → Word32} (h : s.idxOk p c m.tdesc = false ∨
    2 ^ 40 ≤ (s.opnd p c m.tdesc).d.rows ∨ 2 ^ 30 ≤ (s.opnd p c m.tdesc).d.cols) : State.randomBody p c f s m = .fail s stCHECKFAIL := by
  refine if_pos ?_
  simpa [or_assoc] using h

theorem State.randomBody_staged {f : MCmd → Word32 → MOpnd → Word32} (h : s.idxOk p c m.tdesc = true)
    (hr : (s.opnd p c m.tdesc).d.rows < 2 ^ 40) (hk : (s.opnd p c m.tdesc).d.cols < 2 ^ 30) :
    State.randomBody p c f s m = State.elementwise p c (fun s m r k =>
      (f m (randomBits (s.seedOf p c) m.tid (m.row0 + r) (m.col0 + k)) (s.opA p c m r k)).toNat) s m := by
  refine if_neg ?_
  simpa [h] using ⟨hr, hk⟩

/-- What the row of a random operation does: it fails without a valid descriptor or outside R130's range, and else stages its function of
the random bits. -/
theorem exec_random {f : MCmd → Word32 → MOpnd → Word32} {g : Nat → Nat → Word32} (hp : p < 16) (hc : c < s.lcores p)
    (hh : s.micaHead p c = some (x, ws)) (hu : s.start p c 1 x.seq = u) (hw : micaCmd ws = m)
    (hi : exec i s = micaRow p c mop sub bf cost (State.randomBody p c f) s)
    (hg : ∀ r k, f m (randomBits (u.seedOf p c) m.tid (m.row0 + r) (m.col0 + k)) (u.opA p c m r k) = g r k)
    (hm : m.mop = mop ∧ m.subop = sub ∧ m.ok bf = true) :
    ((u.idxOk p c m.tdesc = false ∨ 2 ^ 40 ≤ (u.opnd p c m.tdesc).d.rows ∨ 2 ^ 30 ≤ (u.opnd p c m.tdesc).d.cols) →
      exec i s = .next (u.finish p c 1 x.seq stCHECKFAIL)) ∧
    (u.idxOk p c m.tdesc = true → (u.opnd p c m.tdesc).d.rows < 2 ^ 40 → (u.opnd p c m.tdesc).d.cols < 2 ^ 30 →
      exec i s = .next (u.staging p c x m m.mop (cost m) (u.regWords p c m (overValid m (fun r k => (g r k).toNat))) []
        (overValid m (fun r k => (g r k).toNat)) (viewVal m.view) false)) := by
  obtain rfl : (fun r k => f m (randomBits (u.seedOf p c) m.tid (m.row0 + r) (m.col0 + k)) (u.opA p c m r k)) = g := funext₂ hg
  subst hu hw
  exact ⟨fun h => exec_row_fail hp hc hh hi hm (State.randomBody_fail h),
    fun h hr hk => exec_row_staged hp hc hh hi rfl hm (State.randomBody_staged h hr hk)⟩

/-! ### TLD and TST -/

theorem State.tldBody_fail (h : s.tileDescOk p c m = false) : State.tldBody p c es s m = .fail s stCHECKFAIL := by
  rw [State.tldBody, h, Bool.not_false, if_pos rfl]

theorem State.tldBody_read_fail (h : s.tileDescOk p c m = true)
    (hr : s.readList (s.tileUnit p c) (s.opnd p c m.tdesc) (region m.row0 m.col0 m.vrows m.vcols) es = .fail v st) :
    State.tldBody p c es s m = .fail v st := by
  rw [State.tldBody, h, Bool.not_true, if_neg Bool.false_ne_true]
  dsimp only
  rw [hr]

/-- The register element that TLD writes at a place of the valid extent: the one read for it. -/
def MCmd.gotElem (m : MCmd) (d : Desc) (gs : List Got) (r k : Nat) : Nat :=
  match gs[r * m.vcols + k]? with
  | some g => packElem d g.elem
  | none => 0

theorem State.tldBody_staged {gs : List Got} (h : s.tileDescOk p c m = true)
    (hr : s.readList (s.tileUnit p c) (s.opnd p c m.tdesc) (region m.row0 m.col0 m.vrows m.vcols) es = .ok v gs) :
    State.tldBody p c es s m = .staged v (v.regWords p c m (overValid m (m.gotElem (s.opnd p c m.tdesc).d gs))) []
      (overValid m (m.gotElem (s.opnd p c m.tdesc).d gs)) ((s.opnd p c m.tdesc).d.regVal m.view) false := by
  rw [State.tldBody, h, Bool.not_true, if_neg Bool.false_ne_true]
  dsimp only
  rw [hr]
  rfl

/-- The elements TST writes. -/
def State.tstPuts (s : State) (p c : Nat) (m : MCmd) : List Put :=
  let o := s.opnd p c m.tdesc
  (region 0 0 m.vrows m.vcols).map (fun rk =>
    ⟨m.row0 + rk.1, m.col0 + rk.2, if (o.d.sparse && o.d.mx) = true then s.tstKept p c m o rk.1 rk.2 else s.tstElem p c m o.d rk.1 rk.2,
      if o.d.index = true then (s.tstElem p c m o.d rk.1 rk.2).code != 0 else nonzeroVal (o.d.value (s.tstElem p c m o.d rk.1 rk.2))⟩)

theorem State.tstBody_fail (h : s.tileDescOk p c m = false ∨ ((s.opnd p c m.tdesc).d.mx = true ∧ m.col0 % 32 ≠ 0)) :
    State.tstBody p c es s m = .fail s stCHECKFAIL := by
  refine if_pos ?_
  simpa using h

theorem State.tstBody_eq (h : s.tileDescOk p c m = true) (hx : (s.opnd p c m.tdesc).d.mx = false ∨ m.col0 % 32 = 0) :
    State.tstBody p c es s m = match s.build (s.tileUnit p c) (s.opnd p c m.tdesc) (s.tstPuts p c m) es with
      | .fail v st => .fail v st
      | .ok v b => .staged v [] b.t (overValid m (fun r k => v.telem p c m.view m.srca r k)) ((s.opnd p c m.tdesc).d.regVal m.view) false := by
  refine (if_neg ?_).trans rfl
  cases hx with
  | inl hmx => simp [h, hmx]
  | inr hcol => simp [h, hcol]

theorem State.tstBody_build_fail (h : s.tileDescOk p c m = true) (hx : (s.opnd p c m.tdesc).d.mx = false ∨ m.col0 % 32 = 0)
    (hb : s.build (s.tileUnit p c) (s.opnd p c m.tdesc) (s.tstPuts p c m) es = .fail v st) : State.tstBody p c es s m = .fail v st := by
  rw [State.tstBody_eq h hx, hb]

theorem State.tstBody_staged {b : Built} (h : s.tileDescOk p c m = true)
    (hx : (s.opnd p c m.tdesc).d.mx = false ∨ m.col0 % 32 = 0)
    (hb : s.build (s.tileUnit p c) (s.opnd p c m.tdesc) (s.tstPuts p c m) es = .ok v b) : State.tstBody p c es s m =
      .staged v [] b.t (overValid m (fun r k => v.telem p c m.view m.srca r k)) ((s.opnd p c m.tdesc).d.regVal m.view) false := by
  rw [State.tstBody_eq h hx, hb]

/-- TLD waits while the mover writes a map block it reads (R195, R201). -/
theorem execTld_waits (hp : p < 16) (hc : c < s.lcores p) (hh : s.micaHead p c = some (x, ws))
    (hw : (s.tldMaps p c (micaCmd ws)).any (s.interlocked p) = true) : exec (.tld p c es) s = .next s := by
  rw [exec_tld, execTld, onCore_of_lt hp hc, hh]
  dsimp only
  rw [if_pos hw]

/-- Where no such block is written, TLD is a row like any other. -/
theorem execTld_ready (hp : p < 16) (hc : c < s.lcores p) (hh : s.micaHead p c = some (x, ws))
    (hw : (s.tldMaps p c (micaCmd ws)).any (s.interlocked p) = false) :
    exec (.tld p c es) s = micaRow p c 0x60 0 true (fun _ => 8) (State.tldBody p c es) s := by
  rw [exec_tld, execTld, micaRow, onCore_of_lt hp hc, onCore_of_lt hp hc, hh]
  dsimp only
  rw [hw, if_neg Bool.false_ne_true]

theorem execTld_none (hp : p < 16) (hc : c < s.lcores p) (hh : s.micaHead p c = none) : exec (.tld p c es) s = .next s := by
  rw [exec_tld, execTld, onCore_of_lt hp hc, hh]

end

end Sys2Proof.Machine

open Sys2Proof Sys2Proof.Machine

/-- Settles O32, row by row: each fails under its conditions and else stages what its operation computes. -/
theorem conversionsRandomReductionsAndTileAccess : Obligations.ConversionsRandomReductionsAndTileAccess := by
  unfold Obligations.ConversionsRandomReductionsAndTileAccess
  refine ⟨fun s p c x ws hp hc hh => ?_, fun s p c es hp hc hh => ?_⟩
  · intro m u staging toReg failed is
    have fails {i mop sub bf cost body v st} := exec_row_fail (i := i) (mop := mop) (sub := sub) (bf := bf) (cost := cost) (body := body)
      (v := v) (st := st) hp hc hh
    have stages {i mop sub bf cost cst body v regs mem w val conv} := exec_row_staged (i := i) (mop := mop) (sub := sub) (bf := bf)
      (cost := cost) (cst := cst) (body := body) (v := v) (regs := regs) (mem := mem) (w := w) (val := val) (conv := conv) hp hc hh
    refine ⟨fun hm => ⟨fun h => fails rfl hm (State.cvtBody_fail h), fun hf hv hx => ⟨u.cvtMarks p c m, stages rfl rfl hm
      (State.cvtBody_staged hf hv hx), State.cvtMarks_iff⟩⟩, fun hm => ⟨fun h => fails rfl hm (State.widenBody_fail h), fun hf hv =>
      stages rfl rfl hm (State.widenBody_staged hf hv)⟩, ?_, ?_, ?_⟩
    · intro d bits drawn
      have draws {i mop sub bf cost f g} := exec_random (i := i) (mop := mop) (sub := sub) (bf := bf) (cost := cost) (f := f) (g := g)
        hp hc hh (rfl : _ = u) (rfl : _ = m)
      exact ⟨draws rfl fun _ _ => rfl, draws rfl fun _ _ => rfl, draws rfl fun _ _ => rfl, draws rfl fun _ _ => rfl,
        draws rfl fun _ _ => rfl⟩
    · intro rows cols
      exact ⟨fun hm => stages rfl rfl hm rfl, fun hm => stages rfl rfl hm rfl, fun hm => stages rfl rfl hm rfl,
        fun hm => stages rfl rfl hm rfl, fun hm => stages rfl rfl hm rfl, fun hm => stages rfl rfl hm rfl,
        fun hm => stages rfl rfl hm rfl, fun hm => stages rfl rfl hm rfl, fun hm => stages rfl rfl hm rfl, fun hm => stages rfl rfl hm rfl⟩
    · intro o waits
      refine ⟨fun es hw => execTld_waits hp hc hh hw, fun es hm hw h => fails (execTld_ready hp hc hh hw) hm (State.tldBody_fail h),
        fun es v gs hm hw h hr => stages (execTld_ready hp hc hh hw) rfl hm (State.tldBody_staged h hr),
        fun es v st hm hw h hr => fails (execTld_ready hp hc hh hw) hm (State.tldBody_read_fail h hr), ?_⟩
      exact ⟨fun es hm h => fails rfl hm (State.tstBody_fail h),
        fun es v st hm h hx hb => fails rfl hm (State.tstBody_build_fail h hx hb),
        fun es v b hm h hx hb => stages rfl rfl hm (State.tstBody_staged h hx hb)⟩
  · simp only [List.forall_mem_cons]
    exact ⟨micaRow_none hp hc hh, micaRow_none hp hc hh, micaRow_none hp hc hh, execTld_none hp hc hh, micaRow_none hp hc hh,
      micaRow_none hp hc hh, micaRow_none hp hc hh, fun i hi => nomatch hi⟩

end

section
namespace Sys2Proof.Machine

/-! ## The mode switch, gating, residues and the start of a pass (chapter 3) -/

/-! ### The mode switch (R86) -/

section
variable {s : State} {p c stalled m : Nat} {x : QEntry} {rest : List QEntry}

/-- MODE_SWITCH of a MODE that names the mode in force. -/
theorem execModeSwitch_same (hp : p < 16) (hc : c < s.lcores p) (hq : (s.getQueue p c 0).entries = x :: rest) (hx : x.kind = .mode m)
    (hm : m = s.rf (GRN_MODE.MODE p c)) : execModeSwitch p c stalled s = .next (s.finish p c 0 x.seq stOK) := by
  rw [execModeSwitch, onCore_of_lt hp hc, hq]
  dsimp only
  rw [hx]
  dsimp only
  rw [if_pos hm]

/-- MODE_SWITCH of a MODE that names the other mode. -/
theorem execModeSwitch_other (hp : p < 16) (hc : c < s.lcores p) (hq : (s.getQueue p c 0).entries = x :: rest) (hx : x.kind = .mode m)
    (hm : m ≠ s.rf (GRN_MODE.MODE p c)) : execModeSwitch p c stalled s = .next ((((((s.clearArrays p c).addf (GRN_CYC_STALL.CYCLES p c)
      stalled).wf (GRN_MODE.MODE p c) m).inc (GRN_MODE.SWITCHES p c)).wf (GRN_MODE.SWITCHING p c) 0).finish p c 0 x.seq stOK) := by
  rw [execModeSwitch, onCore_of_lt hp hc, hq]
  dsimp only
  rw [hx]
  dsimp only
  rw [if_neg hm]

/-- MODE_SWITCH is no event while no MODE is at the head of the queue. -/
theorem execModeSwitch_no_mode (hp : p < 16) (hc : c < s.lcores p)
    (hq : ∀ x ∈ (s.getQueue p c 0).entries.head?, ∀ m, x.kind ≠ .mode m) : execModeSwitch p c stalled s = .next s := by
  rw [execModeSwitch, onCore_of_lt hp hc]
  cases he : (s.getQueue p c 0).entries with
  | nil => rfl
  | cons x rest =>
    cases hx : x.kind with
    | mode m => exact absurd hx (hq x (by rw [he]; rfl) m)
    | cmd ws => simp only [hx]
    | seed v => simp only [hx]

/-- After a switch no accumulator word of the core is valid, and those of other cores stay. -/
theorem State.acc_clearArrays (hs : Tbl.sortedFrom 0 s.acc = true) (k : Nat) :
    (s.clearArrays p c).acc.get none k = if k / 131072 = coreKey p c then none else s.acc.get none k := by
  rw [State.clearArrays, Tbl.get_drop _ _ hs]
  exact if_congr beq_iff_eq rfl rfl

/-- After a switch no operand of the core is loaded, and those of other cores stay. -/
theorem State.loaded_clearArrays (hs : Tbl.sortedFrom 0 s.loaded = true) (k : Nat) :
    (s.clearArrays p c).loaded.get none k = if k / 4 = coreKey p c then none else s.loaded.get none k := by
  rw [State.clearArrays, Tbl.get_drop _ _ hs]
  exact if_congr beq_iff_eq rfl rfl

end

/-! ### Gating (R98, R485) -/

section
variable {s : State} {p c a waited : Nat}

/-- An array has work: a started pass or store, in fused mode of any array, or a queued entry that names it. -/
theorem State.arrayBusy_iff : s.arrayBusy p c a = true ↔
    (if s.fused p c = true then s.rf (GRN_STATUS.BUSY p c) ≠ 0 else bitOf (s.rf (GRN_STATUS.BUSY p c)) a = true) ∨
      ∃ x ∈ (s.getQueue p c 0).entries, a ∈ s.clockedArrays p c x := by
  have hq : (s.getQueue p c 0).entries.any (fun x => (s.clockedArrays p c x).contains a) = true ↔
      ∃ x ∈ (s.getQueue p c 0).entries, a ∈ s.clockedArrays p c x := by
    simp only [List.any_eq_true, List.contains_iff_mem]
  rw [State.arrayBusy, Bool.or_eq_true, hq]
  cases s.fused p c
  · rfl
  · exact or_congr_left bne_iff_ne

/-- ARRAY_IDLE_GATE gates an idle array. -/
theorem execArrayIdleGate_idle (hp : p < 16) (hc : c < s.lcores p) (ha : a < 4) (hi : s.rf (GRN_CFG.IDLE_OFF p c) ≠ 0)
    (hg : bitOf (s.rf (GRN_STATUS.GATED p c)) a = false) (hb : s.arrayBusy p c a = false) :
    execArrayIdleGate p c a s = .next (if s.rf (GRN_STATUS.GATED p c) + 2 ^ a = 15
      then (s.wf (GRN_STATUS.GATED p c) (s.rf (GRN_STATUS.GATED p c) + 2 ^ a)).govRequest (.arrays p c false)
      else s.wf (GRN_STATUS.GATED p c) (s.rf (GRN_STATUS.GATED p c) + 2 ^ a)) := by
  rw [execArrayIdleGate, onCore_of_lt hp hc]
  dsimp only
  rw [if_neg]
  rintro (h | h | h | h)
  · exact absurd ha (Nat.not_lt.mpr h)
  · exact hi h
  · exact Bool.false_ne_true (hg.symm.trans h)
  · exact Bool.false_ne_true (hb.symm.trans h)

/-- ARRAY_IDLE_GATE is no event for an array that is busy or gated, nor with IDLE_OFF clear. -/
theorem execArrayIdleGate_kept (hp : p < 16) (hc : c < s.lcores p)
    (h : s.rf (GRN_CFG.IDLE_OFF p c) = 0 ∨ bitOf (s.rf (GRN_STATUS.GATED p c)) a = true ∨ s.arrayBusy p c a = true) :
    execArrayIdleGate p c a s = .next s := by
  rw [execArrayIdleGate, onCore_of_lt hp hc]
  dsimp only
  rw [if_pos (.inr h)]

/-- ARRAY_WAKE_DONE ends a ramp that was granted. -/
theorem execArrayWakeDone_eq (hp : p < 16) (hc : c < s.lcores p) : execArrayWakeDone p c waited s = .next (
    if (s.getGarnet p c).waking = true then
      ((s.setGarnet p c { s.getGarnet p c with waking := false }).wf (GRN_STATUS.GATED p c) 0).addf (GRN_CYC_STALL.CYCLES p c) waited
    else s) := by
  rw [execArrayWakeDone, onCore_of_lt hp hc]
  dsimp only
  cases (s.getGarnet p c).waking <;> rfl

end

/-! ### A mismatch of residues (R111–R114) -/

section
variable {s v : State} {p c a t f place st : Nat} {q : Pass} {g g2 : Group} {gs : List Group} {res : Residue} {acc es : List EccWord}

@[simp] theorem accRead_nil {fused : Bool} {reads : Nat → Nat → Bool} : accRead fused reads [] = [] := rfl

@[simp] theorem State.accEcc_nil {width : Nat} {reads : Nat → Nat → Bool} : s.accEcc p c width reads [] = s := rfl

/-- The state in which a mismatch of group `g` is noted: what CHECK_GROUP_COMMIT sets in the registers and in the pass (R111). -/
def State.noteMismatch (s : State) (p c a t f place : Nat) (q : Pass) (g : Group) : State :=
  let u := (s.wf (GRN_RES.LAST_ARRAY p c) a).wf (GRN_RES.LAST_ROW p c) (q.base + g.first)
  let u := u.wf (GRN_STATUS.RECOMP p c) (Nat.lor (u.rf (GRN_STATUS.RECOMP p c)) (2 ^ a))
  u.setGarnet p c { u.getGarnet p c with passes := (u.getGarnet p c).passes.map (fun x => if x.seq = q.seq
    then { x with recomp := true, expected := q.expectedAt t place g, found := f } else x) }

/-- The state in which a group is computed again: its cycles counted twice and the array's RECOMP bit clear (R111). -/
def State.recomputing (s : State) (p c a : Nat) (q : Pass) (g : Group) : State :=
  let cyc := arrayCycles (s.fused p c) (q.groupCycles g)
  let u := (s.addf (GRN_CYC_STREAM.CYCLES p c) cyc).addf (GRN_CYC_STALL.CYCLES p c)
    (cyc + arrayCycles (s.fused p c) (if s.fused p c = true then 13 else 12))
  u.wf (GRN_STATUS.RECOMP p c) (u.rf (GRN_STATUS.RECOMP p c) - bits (u.rf (GRN_STATUS.RECOMP p c)) a 1 * 2 ^ a)

/-- What reading a group's vectors again answers: a group that is not driven reads none (R111, R201, R204). -/
def State.rereadGroup (s : State) (p c t : Nat) (q : Pass) (g : Group) (es : List EccWord) : GroupAns :=
  if g.driven = true then s.streamGroup p c t q.m0 q.kt q.rmask g.first g.vecs.length
    { s.opndOf p c q.vdesc (wordAt q.vdesc 32) with snap := q.vmap } es
  else .ok s g

/-- CHECK_GROUP_COMMIT notes a first mismatch and commits nothing. -/
theorem execCheckGroupCommit_mismatch (hp : p < 16) (hc : c < s.lcores p) (hq : s.headPass p c a = some q) (hr : q.recomp = false)
    (hg : q.groups = g :: gs) : execCheckGroupCommit p c a (.mismatch f place) [] s = .next
      ((s.addf (GRN_CYC_STREAM.CYCLES p c) (arrayCycles (s.fused p c) (q.groupCycles g))).noteMismatch p c a (kTile (s.fused p c))
        f place q g) := by
  rw [execCheckGroupCommit, onCore_of_lt hp hc, hq]
  dsimp only
  rw [hr, if_neg Bool.false_ne_true, hg]
  dsimp only
  rw [accRead_nil, List.any_nil, if_neg Bool.false_ne_true, if_neg Bool.false_ne_true, State.accEcc_nil]
  rfl

/-- While the head group recomputes, a mismatch of the group after it waits (R114). -/
theorem execCheckGroupCommit_mismatch_waits (hp : p < 16) (hc : c < s.lcores p) (hq : s.headPass p c a = some q)
    (hr : q.recomp = true) : execCheckGroupCommit p c a (.mismatch f place) [] s = .next s := by
  rw [execCheckGroupCommit, onCore_of_lt hp hc, hq]
  dsimp only
  rw [hr, if_pos rfl]
  cases q.groups.drop 1 <;> rfl

/-- CHECK_GROUP_RECOMPUTE whose read fails. -/
theorem execCheckGroupRecompute_fail (hp : p < 16) (hc : c < s.lcores p) (hq : s.headPass p c a = some q) (hr : q.recomp = true)
    (hg : q.groups = g :: gs) (h : (s.recomputing p c a q g).rereadGroup p c (kTile (s.fused p c)) q g es = .fail v st) :
    execCheckGroupRecompute p c a res acc es s = .next (v.failPassWith p c q.seq st) := by
  rw [State.rereadGroup, State.recomputing] at h
  rw [execCheckGroupRecompute, onCore_of_lt hp hc, hq]
  dsimp only at h ⊢
  rw [hr, hg]
  dsimp only
  rw [h]

/-- The state after the group read again is compared (R111, R112). With agreeing residues the mismatch was transient and `g2`, what is
read now, is committed; a second mismatch is permanent: the pass fails, the core is retired and the abort wave starts. -/
def State.recomputed (s : State) (p c a t : Nat) (q : Pass) (g g2 : Group) : Residue → State
  | .agree => (((s.inc (GRN_RES.TRANS p c)).transRec p (s.garnetReport p c q g q.expected q.found .trans)).commitGroup p c t q g2).dropGroup
      p c q.seq g.first false
  | .mismatch f place =>
    let u := ((s.wf (GRN_RES.PERM p c) 1).wf (GRN_RES.LAST_ARRAY p c) a).wf (GRN_RES.LAST_ROW p c) (q.base + g.first)
    let u := (u.failPass p c q.seq).raise (u.garnetReport p c q g (q.expectedAt t place g2) f .perm)
    (u.retireCore p (u.physCore p c)).startWave p waveFAULT (u.garnetUnit p c a)

/-- CHECK_GROUP_RECOMPUTE whose read succeeds. -/
theorem execCheckGroupRecompute_ok (hp : p < 16) (hc : c < s.lcores p) (hq : s.headPass p c a = some q) (hr : q.recomp = true)
    (hg : q.groups = g :: gs) (h : (s.recomputing p c a q g).rereadGroup p c (kTile (s.fused p c)) q g es = .ok v g2) :
    execCheckGroupRecompute p c a res [] es s = .next (v.recomputed p c a (kTile (s.fused p c)) q g g2 res) := by
  rw [State.rereadGroup, State.recomputing] at h
  rw [execCheckGroupRecompute, onCore_of_lt hp hc, hq]
  dsimp only at h ⊢
  rw [hr, hg]
  dsimp only
  rw [h]
  dsimp only
  rw [accRead_nil, List.any_nil, if_neg Bool.false_ne_true, State.accEcc_nil]
  cases res <;> rfl

end

/-! ### The start of a pass (R87–R97, R203) -/

section
variable {s v : State} {p c sq stalled st : Nat} {m : PCmd} {e : QEntry} {ws : List Word64} {es : List EccWord}

/-- GARNET_PASS of a command that may not start. -/
theorem execGarnetPass_none (hp : p < 16) (hc : c < s.lcores p) (hh : s.garnetEntry p c sq 1 = none) :
    execGarnetPass p c sq stalled es s = .next s := by
  rw [execGarnetPass, onCore_of_lt hp hc, hh]

/-- GARNET_PASS waits while the mover writes a map block it reads (R195). -/
theorem execGarnetPass_waits (hp : p < 16) (hc : c < s.lcores p) (hh : s.garnetEntry p c sq 1 = some (e, ws))
    (hok : s.passOk p c (passCmd ws) = true)
    (hw : ((s.planOf p c (passCmd ws)).smaps ++ (s.planOf p c (passCmd ws)).vmaps).any (s.interlocked p) = true) :
    execGarnetPass p c sq stalled es s = .next s := by
  rw [execGarnetPass, onCore_of_lt hp hc, hh]
  dsimp only
  rw [hok, hw, Bool.and_self, if_pos rfl]

/-- The state in which a pass starts: its entry started and the array-cycles it waited counted. -/
def State.passStart (s : State) (p c sq stalled : Nat) : State := (s.start p c 0 sq).addf (GRN_CYC_STALL.CYCLES p c) stalled

/-- A malformed pass command fails (R154). -/
theorem execGarnetPass_malformed (hp : p < 16) (hc : c < s.lcores p) (hh : s.garnetEntry p c sq 1 = some (e, ws))
    (hs : s.passOk p c (passCmd ws) = false) (hu : (s.passStart p c sq stalled).passOk p c (passCmd ws) = false) :
    execGarnetPass p c sq stalled es s = .next ((s.passStart p c sq stalled).finish p c 0 sq stCHECKFAIL) := by
  rw [State.passStart] at hu ⊢
  rw [execGarnetPass, onCore_of_lt hp hc, hh]
  dsimp only
  rw [hs, hu, Bool.false_and, if_neg Bool.false_ne_true, Bool.not_false, if_pos rfl]

/-- Any other pass command goes on to its operands. -/
theorem execGarnetPass_go (hp : p < 16) (hc : c < s.lcores p) (hh : s.garnetEntry p c sq 1 = some (e, ws))
    (hu : (s.passStart p c sq stalled).passOk p c (passCmd ws) = true)
    (hw : ((s.planOf p c (passCmd ws)).smaps ++ (s.planOf p c (passCmd ws)).vmaps).any (s.interlocked p) = false) :
    execGarnetPass p c sq stalled es s = .next ((s.passStart p c sq stalled).passGo p c sq (passCmd ws) es) := by
  rw [State.passStart] at hu ⊢
  rw [execGarnetPass, onCore_of_lt hp hc, hh]
  dsimp only
  rw [hw, hu, Bool.and_false, if_neg Bool.false_ne_true, Bool.not_true, if_neg Bool.false_ne_true]

/-! #### The tests before any operand is read -/

/-- A REUSE finds an operand of its format and sparsity (R90). -/
def State.passMatching (s : State) (p c : Nat) (m : PCmd) : Bool := !m.reuse || (s.planOf p c m).reuseOk m.sparse

/-- An ACCUM finds its words valid (R87). -/
def State.passValid (s : State) (p c : Nat) (m : PCmd) : Bool :=
  !m.accum || s.accumOk p c m.arr (accWidth (s.fused p c) m.sparse) m.base (s.planOf p c m).n (s.planOf p c m).cm

/-- Every streamed element is local, and every byte to be read in its key/value slot (R184, R227). -/
def State.passReadable (s : State) (p c : Nat) (m : PCmd) : Bool :=
  ((s.planOf p c m).skipped || (s.planOf p c m).vecs.isSome) && s.passKv (s.planOf p c m)

theorem State.eq_not_passMatching : (m.reuse && !(s.planOf p c m).reuseOk m.sparse) = !s.passMatching p c m := by
  rw [State.passMatching, Bool.not_or, Bool.not_not]

theorem State.eq_not_passValid : (m.accum && !s.accumOk p c m.arr (accWidth (s.fused p c) m.sparse) m.base (s.planOf p c m).n
    (s.planOf p c m).cm) = !s.passValid p c m := by
  rw [State.passValid, Bool.not_or, Bool.not_not]

theorem State.eq_not_passReadable : (!(s.planOf p c m).skipped && (s.planOf p c m).vecs.isNone || !s.passKv (s.planOf p c m)) =
    !s.passReadable p c m := by
  rw [State.passReadable, Bool.not_and, Bool.not_or, Option.not_isSome]

/-- A pass that fails one of its tests completes CHECKFAIL and reads nothing. -/
theorem State.passGo_refused (h : s.passMatching p c m = false ∨ s.passValid p c m = false ∨ (s.planOf p c m).cells = none ∨
    s.passReadable p c m = false) : s.passGo p c sq m es = s.finish p c 0 sq stCHECKFAIL := by
  rw [State.passGo]
  dsimp only
  rw [State.eq_not_passMatching, State.eq_not_passValid, State.eq_not_passReadable]
  cases hm : s.passMatching p c m
  · exact if_pos rfl
  rw [Bool.not_true, if_neg Bool.false_ne_true]
  cases hv : s.passValid p c m
  · exact if_pos rfl
  rw [Bool.not_true, if_neg Bool.false_ne_true]
  cases hl : (s.planOf p c m).cells with
  | none => rfl
  | some ls =>
    rw [hm, hv, hl] at h
    simp only [reduceCtorEq, false_or, Bool.true_eq_false] at h
    dsimp only
    rw [h, Bool.not_false, if_pos rfl]

/-! #### The operand and the vectors -/

variable {x : Plan} {ls : List (Nat × List Nat)} {cells kept : Tbl (Option Held)} {gs : List Group} {fused : Bool}

/-- What putting the stationary operand in place answers: under REUSE it is in place. -/
def State.loadOf (s : State) (p c : Nat) (m : PCmd) (ls : List (Nat × List Nat)) (es : List EccWord) : LoadAns :=
  if m.reuse = true then .ok s ((s.planOf p c m).old.getD {}).cells else s.loadCells p c (s.planOf p c m).so ls es

theorem State.loadOf_fail (hr : m.reuse = false) (h : s.loadCells p c (s.planOf p c m).so ls es = .fail v st) :
    s.loadOf p c m ls es = .fail v st := by
  rw [State.loadOf, hr, if_neg Bool.false_ne_true, h]

theorem State.loadOf_ok (h : if m.reuse = true then v = s ∧ cells = ((s.planOf p c m).old.getD {}).cells
    else s.loadCells p c (s.planOf p c m).so ls es = .ok v cells) : s.loadOf p c m ls es = .ok v cells := by
  rw [State.loadOf]
  by_cases hr : m.reuse = true
  · rw [if_pos hr] at h ⊢
    obtain ⟨rfl, rfl⟩ := h
    rfl
  · rw [if_neg hr] at h ⊢
    exact h

/-- The operand a pass has loaded stands in its array for the passes after it; a REUSE leaves the one before. -/
def State.keepOperand (s : State) (p c : Nat) (m : PCmd) (x : Plan) (kept : Tbl (Option Held)) : State :=
  if m.reuse = true then s else s.setLoaded p c m.arr (some ⟨x.so.d.fmt, m.sparse, x.skipped, x.rm, x.cm, kept⟩)

/-- The pass of a command and its plan, with its check groups. -/
def State.passOf (s : State) (p sq : Nat) (fused : Bool) (m : PCmd) (x : Plan) (kept : Tbl (Option Held)) (gs : List Group) : Pass :=
  ⟨sq, m.arr, m.accum, m.base, x.n, accWidth fused m.sparse, x.vo.d.fmt, x.so.d.fmt, m.m0, m.kt, s.descWords p m.vdesc ++ [x.vo.bind],
    x.rm, x.cm, kept, s.mapCopy p x.vmaps, gs, false, 0, 0⟩

/-- What a pass does whose operand is in place: a skipped one streams no vectors (R203), every other its driven vectors (R96). -/
def State.runPass (s : State) (p c sq : Nat) (fused : Bool) (m : PCmd) (x : Plan) (kept : Tbl (Option Held)) (es : List EccWord) : State :=
  if x.skipped = true then
    ((s.keepOperand p c m x kept).inc (DSP_OCC_SKIP.PASSES p)).enterPass p c (s.passOf p sq fused m x kept (skippedGroups 16 0 x.n)) 0
  else
    let r := s.streamAll p c (kTile fused) m.m0 m.kt x.rm x.vo es 16 0 x.n
    if r.2.1 ≠ 0 then r.1.finish p c 0 sq r.2.1
    else ((r.1.keepOperand p c m x kept).addf (DSP_OCC_SKIP.GROUPS p) (r.2.2.filter (fun g => !g.driven)).length).enterPass p c
      (s.passOf p sq fused m x kept r.2.2) (if m.reuse = true then 0 else kTile fused)

/-- What a pass does after loading: a failed load completes it with the status of the read. -/
def State.passLoaded (s : State) (p c sq : Nat) (m : PCmd) (es : List EccWord) : LoadAns → State
  | .fail v st => v.finish p c 0 sq st
  | .ok v cells => v.runPass p c sq (s.fused p c) m (s.planOf p c m) (cells.filter (fun k => k.2.isSome)) es

/-- A pass that meets the tests loads its operand. -/
theorem State.passGo_accepted (hm : s.passMatching p c m = true) (hv : s.passValid p c m = true) (hr : s.passReadable p c m = true)
    (hl : (s.planOf p c m).cells = some ls) :
    s.passGo p c sq m es = s.passLoaded p c sq m es (s.loadOf p c m ls es) := by
  rw [State.passGo, State.loadOf]
  dsimp only
  rw [State.eq_not_passMatching, hm, Bool.not_true, if_neg Bool.false_ne_true, State.eq_not_passValid, hv, Bool.not_true,
    if_neg Bool.false_ne_true, hl]
  dsimp only
  rw [State.eq_not_passReadable, hr, Bool.not_true, if_neg Bool.false_ne_true]
  rfl

theorem State.runPass_skipped (h : x.skipped = true) : s.runPass p c sq fused m x kept es =
    ((s.keepOperand p c m x kept).inc (DSP_OCC_SKIP.PASSES p)).enterPass p c (s.passOf p sq fused m x kept (skippedGroups 16 0 x.n)) 0 :=
  if_pos h

theorem State.runPass_stream_fails (hx : x.skipped = false)
    (h : s.streamAll p c (kTile fused) m.m0 m.kt x.rm x.vo es 16 0 x.n = (v, st, gs)) (hst : st ≠ 0) :
    s.runPass p c sq fused m x kept es = v.finish p c 0 sq st := by
  rw [State.runPass, hx, if_neg Bool.false_ne_true, h]
  exact if_pos hst

theorem State.runPass_streamed (hx : x.skipped = false)
    (h : s.streamAll p c (kTile fused) m.m0 m.kt x.rm x.vo es 16 0 x.n = (v, st, gs)) (hst : st = 0) :
    s.runPass p c sq fused m x kept es =
      ((v.keepOperand p c m x kept).addf (DSP_OCC_SKIP.GROUPS p) (gs.filter (fun g => !g.driven)).length).enterPass p c
        (s.passOf p sq fused m x kept gs) (if m.reuse = true then 0 else kTile fused) := by
  rw [State.runPass, hx, if_neg Bool.false_ne_true, h]
  exact if_neg (not_not.mpr hst)

/-- A REUSE needs the operand loaded before, of the pass's format and sparsity (R90). -/
theorem State.reuseOk_planOf {sparse : Bool} : (s.planOf p c m).reuseOk sparse = true ↔
    ∃ l, s.getLoaded p c m.arr = some l ∧ l.fmt = (s.opnd p c m.sdesc).d.fmt ∧ l.sparse = sparse := by
  have hold : (s.planOf p c m).old = s.getLoaded p c m.arr := rfl
  have hso : (s.planOf p c m).so = s.opnd p c m.sdesc := rfl
  rw [Plan.reuseOk, hold, hso]
  cases s.getLoaded p c m.arr with
  | none => simp only [Bool.false_eq_true, reduceCtorEq, false_and, exists_false]
  | some l => simp only [Bool.and_eq_true, beq_iff_eq, Option.some.injEq, exists_eq_left']

/-- At most 64 vectors of a skipped pass are one group. -/
theorem skippedGroups_of_le {n first left : Nat} (h : left ≤ 64) (h0 : left ≠ 0) :
    skippedGroups (n + 2) first left = [⟨first, List.replicate left [], false⟩] := by
  have hmin : Nat.min 64 left = left := Nat.min_eq_right h
  rw [skippedGroups, if_neg h0, hmin, skippedGroups, if_pos (Nat.sub_eq_zero_of_le h)]

end

end Sys2Proof.Machine

open Sys2Proof Sys2Proof.Machine

/-- Settles O26: MODE_SWITCH and the gating commands branch by branch, and what dropping a core's keys leaves of the tables. -/
theorem modeSwitchAndGating : Obligations.ModeSwitchAndGating := by
  unfold Obligations.ModeSwitchAndGating
  simp only [exec_modeSwitch, exec_arrayIdleGate, exec_arrayWakeDone]
  exact ⟨fun s p c stalled m x rest hp hc hq hx => ⟨execModeSwitch_same hp hc hq hx, execModeSwitch_other hp hc hq hx⟩,
    fun s p c stalled hp hc hq => execModeSwitch_no_mode hp hc hq,
    fun s p c ha hl => ⟨State.acc_clearArrays ha, State.loaded_clearArrays hl, rfl⟩, fun s p c a => State.arrayBusy_iff,
    fun s p c a hp hc ha hi hg hb => execArrayIdleGate_idle hp hc ha hi hg hb, fun s p c a hp hc h => execArrayIdleGate_kept hp hc h,
    fun s p c waited hp hc => execArrayWakeDone_eq hp hc⟩

/-- Settles O27: the tests of a pass command in their order, then its operand, then its vectors. -/
theorem garnetPassStarts : Obligations.GarnetPassStarts := by
  unfold Obligations.GarnetPassStarts
  refine ⟨fun s p c sq stalled es hp hc hh => execGarnetPass_none hp hc hh, fun s p c sq stalled es e ws hp hc hh => ?_,
    fun s p c m => ⟨rfl, State.reuseOk_planOf⟩, fun first left h h0 => skippedGroups_of_le h h0⟩
  intro m w waits u x fused width matching valid readable
  refine ⟨execGarnetPass_waits hp hc hh, execGarnetPass_malformed hp hc hh, fun hok hw => ?_⟩
  have go {t : State} (h : u.passGo p c sq m es = t) : exec (.garnetPass p c sq stalled es) s = .next t :=
    (execGarnetPass_go hp hc hh hok hw).trans (congrArg _ h)
  refine ⟨fun h => go (State.passGo_refused (.inl h)), fun hm h => go (State.passGo_refused (.inr (.inl h))),
    fun hm hv h => go (State.passGo_refused (.inr (.inr (.inl h)))), fun hm hv h => go (State.passGo_refused (.inr (.inr (.inr h)))),
    fun ls v st hu hv hr hl h => ?_, fun ls v cells hm hv hr hl h => ?_⟩
  · have hm : u.passMatching p c m = true := by rw [State.passMatching, hu, Bool.not_false, Bool.true_or]
    exact go ((State.passGo_accepted hm hv hr hl).trans (congrArg _ (State.loadOf_fail hu h)))
  · have run := (State.passGo_accepted (sq := sq) hm hv hr hl).trans (congrArg _ (State.loadOf_ok h))
    intro kept put q enter
    exact ⟨fun hx => go (run.trans (State.runPass_skipped hx)), fun v2 st gs hx hs =>
      ⟨fun hst => go (run.trans (State.runPass_stream_fails hx hs hst)), fun hst => go (run.trans (State.runPass_streamed hx hs hst))⟩⟩

/-- Settles O29: the first mismatch is noted, and the group read again either commits or fails the pass for good. -/
theorem residueMismatchRecomputes : Obligations.ResidueMismatchRecomputes := by
  unfold Obligations.ResidueMismatchRecomputes
  refine ⟨fun d e => rfl, fun q t place g => ⟨fun h => ?_, fun h => ?_⟩, fun s p c a f place q g gs hp hc hq hr hg =>
    execCheckGroupCommit_mismatch hp hc hq hr hg, fun s p c a f place q hp hc hq hr => execCheckGroupCommit_mismatch_waits hp hc hq hr,
    fun s p c a es q g gs hp hc hq hr hg => ?_⟩
  · rw [Pass.expectedAt, h, if_neg Bool.false_ne_true]
  · rw [Pass.expectedAt, h, if_pos rfl]
  · have compared (v : State) (g2 : Group) (res : Residue) := execCheckGroupRecompute_ok (v := v) (g2 := g2) (res := res) (es := es)
      hp hc hq hr hg
    exact ⟨fun v st res acc h => execCheckGroupRecompute_fail hp hc hq hr hg h, fun v g2 h => compared v g2 .agree h,
      fun v g2 f place h => compared v g2 (.mismatch f place) h⟩

end

section
namespace Sys2Proof.Machine

/-! ## What the command queues of a core change (chapter 5) -/

section
variable {s t : State} {p c e sq st : Nat}

/-- The state without what command queues that move on may change: register fields, queues and requests to the governor. -/
def State.unqueued (s : State) : State := { s with flds := [], queue := [], gov := {} }

/-- All that updates of the command queues of core `c` made of `s` to reach `t`: they change no more than `unqueued` leaves out, and no
number that a queue has issued. -/
structure State.MovesQueues (s : State) (p c : Nat) (t : State) : Prop where
  rest : t.unqueued = s.unqueued
  sorted : Tbl.sortedFrom 0 s.flds = true → Tbl.sortedFrom 0 t.flds = true
  issued : Tbl.sortedFrom 0 s.flds = true → ∀ e, t.rf (qIssued p c e) = s.rf (qIssued p c e)

/-! ### The cells of the numbers issued -/

theorem qIssued_lo (p c e : Nat) : (qIssued p c e).lo = 0 := by unfold qIssued; split <;> rfl
theorem qIssued_width (p c e : Nat) : (qIssued p c e).w = 24 := by unfold qIssued; split <;> rfl
theorem qDone_lo : (qDone p c e).lo = 24 := by unfold qDone; split <;> rfl
theorem qCount_lo : (qCount p c e).lo = 48 := by unfold qCount; split <;> rfl
theorem qErr_lo : (qErr p c e).lo = 55 := by unfold qErr; split <;> rfl
theorem qErrStat_lo : (qErrStat p c e).lo = 56 := by unfold qErrStat; split <;> rfl

/-- The numbers issued lie at bit 0 of their registers, so that a field at another bit is none of them. -/
theorem qIssued_cell_ne {f : Fld} (hf : f.lo % 64 ≠ 0) (e : Nat) : (qIssued p c e).cell ≠ f.cell := by
  have h0 := qIssued_lo p c e
  unfold Fld.cell
  omega

/-- A number issued lies in FLT_QG, FLT_QM or FLT_QV. -/
theorem qIssued_key (p c e : Nat) : regKey p (0x03000000 + 0x10000 * c) + 0x10 ≤ (qIssued p c e).key ∧
    (qIssued p c e).key ≤ regKey p (0x03000000 + 0x10000 * c) + 0x20 := by
  unfold qIssued
  split
  · exact ⟨Nat.le_refl _, Nat.add_le_add_left (by decide) _⟩
  · exact ⟨Nat.add_le_add_left (by decide) _, Nat.add_le_add_left (by decide) _⟩
  · exact ⟨Nat.add_le_add_left (by decide) _, Nat.le_refl _⟩

theorem qIssued_cell_ne_of_key {f : Fld} (h0 : f.lo = 0)
    (hk : f.key < regKey p (0x03000000 + 0x10000 * c) + 0x10 ∨ regKey p (0x03000000 + 0x10000 * c) + 0x20 < f.key) (e : Nat) :
    (qIssued p c e).cell ≠ f.cell := by
  have h := qIssued_key p c e
  have hq := qIssued_lo p c e
  unfold Fld.cell
  omega

theorem qIssued_cell_ne_seed (e : Nat) : (qIssued p c e).cell ≠ (MCA_SEED.SEED p c).cell :=
  qIssued_cell_ne_of_key rfl (.inl (by simp only [MCA_SEED.SEED, MCA_SEED.key, regKey]; omega)) e

theorem qIssued_cell_ne_state (e : Nat) : (qIssued p c e).cell ≠ (FLT_STATUS.STATE p c).cell :=
  qIssued_cell_ne_of_key rfl (.inl (Nat.add_lt_add_left (by decide) _)) e

theorem qIssued_cell_ne_cycRun (e : Nat) : (qIssued p c e).cell ≠ (FLT_CYC_RUN.CYCLES p c).cell :=
  qIssued_cell_ne_of_key rfl (.inr (Nat.add_lt_add_left (by decide) _)) e

/-! ### One lemma per function of the queues -/

namespace State.MovesQueues

theorem refl (s : State) : s.MovesQueues p c s := ⟨rfl, id, fun _ _ => rfl⟩

theorem ite {a b : State} {k : Prop} {_ : Decidable k} (ha : s.MovesQueues p c a) (hb : s.MovesQueues p c b) :
    s.MovesQueues p c (if k then a else b) := by
  split
  · exact ha
  · exact hb

theorem wf {f : Fld} {v : Nat} (h : s.MovesQueues p c t) (hf : ∀ e, (qIssued p c e).cell ≠ f.cell) : s.MovesQueues p c (t.wf f v) :=
  ⟨h.rest, fun hs => State.sorted_wf f v (h.sorted hs), fun hs e => (State.rf_wf_ne v (h.sorted hs) (hf e)).trans (h.issued hs e)⟩

/-- A field that is not at bit 0 of its register. -/
theorem wfLo {f : Fld} {v : Nat} (h : s.MovesQueues p c t) (hf : f.lo % 64 ≠ 0) : s.MovesQueues p c (t.wf f v) :=
  h.wf (qIssued_cell_ne hf)

theorem setQueue {q : Queue} (h : s.MovesQueues p c t) : s.MovesQueues p c (t.setQueue p c e q) := ⟨h.rest, h.sorted, h.issued⟩

theorem govRequest {r : GovReq} (h : s.MovesQueues p c t) : s.MovesQueues p c (t.govRequest r) := ⟨h.rest, h.sorted, h.issued⟩

theorem putQueue {q : Queue} (h : s.MovesQueues p c t) : s.MovesQueues p c (t.putQueue p c e q) := by
  have hq {v n : Nat} : s.MovesQueues p c (((t.setQueue p c e q).wf (qDone p c e) v).wf (qCount p c e) n) :=
    (h.setQueue.wfLo (by rw [qDone_lo]; decide)).wfLo (by rw [qCount_lo]; decide)
  exact ite (hq.wfLo (show 8 % 64 ≠ 0 by decide)) hq

theorem setErr (h : s.MovesQueues p c t) : s.MovesQueues p c (t.setErr p c e st) :=
  ite h ((h.wfLo (by rw [qErr_lo]; decide)).wfLo (by rw [qErrStat_lo]; decide))

theorem abortEntries {f : QEntry → Bool} (h : s.MovesQueues p c t) : s.MovesQueues p c (t.abortEntries p c e f) := ite h h.putQueue

theorem haltQueue (h : s.MovesQueues p c t) : s.MovesQueues p c (t.haltQueue p c e sq st) := h.putQueue.setErr.abortEntries

theorem sweepBad {es : List Nat} (h : s.MovesQueues p c t) : s.MovesQueues p c (t.sweepBad p c es) := by
  induction es generalizing t with
  | nil => exact h
  | cons e es ih =>
    unfold State.sweepBad
    dsimp only
    split
    · exact ih h
    · exact ih h.abortEntries.haltQueue

theorem complete (h : s.MovesQueues p c t) : s.MovesQueues p c (t.complete p c e sq st) :=
  ite h.putQueue.haltQueue.sweepBad.sweepBad.sweepBad h.putQueue

theorem start (h : s.MovesQueues p c t) : s.MovesQueues p c (t.start p c e sq) := h.putQueue

theorem settleQueue {n : Nat} (h : s.MovesQueues p c t) : s.MovesQueues p c (t.settleQueue p c e n) := by
  induction n generalizing t with
  | zero => exact h
  | succ n ih =>
    unfold State.settleQueue
    split
    · exact h
    refine ite h ?_
    split
    · exact h
    · dsimp only
      split
      · exact ih (h.wf qIssued_cell_ne_seed).complete
      · exact ih h.complete

theorem askWake (h : s.MovesQueues p c t) : s.MovesQueues p c (t.askWake p c) :=
  ite (ite h.govRequest h).govRequest (ite h.govRequest h)

theorem noteSwitch (h : s.MovesQueues p c t) : s.MovesQueues p c (t.noteSwitch p c) := by
  unfold State.noteSwitch
  split
  · split
    · exact ite (h.start.wfLo (show 1 % 64 ≠ 0 by decide)) h
    · exact h
  · exact h

theorem settle (h : s.MovesQueues p c t) : s.MovesQueues p c (t.settle p c) :=
  h.settleQueue.settleQueue.settleQueue.noteSwitch.askWake

/-- Completing an entry moves queues, but for an uncorrectable word of tile memory, which starts the abort wave (R167). -/
theorem finish (h : s.MovesQueues p c t) (hst : st ≠ stFATAL) : s.MovesQueues p c (t.finish p c e sq st) := by
  unfold State.finish
  dsimp only
  rw [if_neg hst]
  exact h.complete.settle

theorem flint_eq (h : s.MovesQueues p c t) : t.flint = s.flint := (congrArg State.flint h.rest :)

end State.MovesQueues

/-- Enqueuing takes the next number and moves queues. -/
theorem State.enqueue_moves (s : State) (p c e : Nat) (k : QKind) :
    (s.wf (qIssued p c e) ((s.rf (qIssued p c e) + 1) % seqMod)).MovesQueues p c (s.enqueue p c e k).1 := by
  have h := MovesQueues.refl (p := p) (c := c) (s.wf (qIssued p c e) ((s.rf (qIssued p c e) + 1) % seqMod))
  unfold State.enqueue
  dsimp only
  split
  · exact h.putQueue
  · exact .ite h.putQueue.complete h.putQueue

/-- The number that enqueuing answers. -/
theorem State.enqueue_number (s : State) (p c e : Nat) (k : QKind) : (s.enqueue p c e k).2 = (s.rf (qIssued p c e) + 1) % seqMod := by
  unfold State.enqueue
  dsimp only
  split <;> rfl

/-- The number answered is then the number issued. -/
theorem State.issued_enqueue (h : Tbl.sortedFrom 0 s.flds = true) (k : QKind) :
    (s.enqueue p c e k).1.rf (qIssued p c e) = (s.rf (qIssued p c e) + 1) % seqMod := by
  rw [(s.enqueue_moves p c e k).issued (State.sorted_wf _ _ h) e, State.rf_wf_same _ _ h, qIssued_width]
  exact Nat.mod_mod _ _

end

/-! ### Returning from an instruction of the command extension -/

section
variable {s : State} {p c : Nat}

theorem State.getFlint_setFlint_ne {p' c' : Nat} (h : Tbl.sortedFrom 0 s.flint = true) (f : Flint)
    (hk : coreKey p' c' ≠ coreKey p c) : (s.setFlint p c f).getFlint p' c' = s.getFlint p' c' := Tbl.get_set_ne f h hk

theorem State.sorted_setFlint (h : Tbl.sortedFrom 0 s.flint = true) (f : Flint) :
    Tbl.sortedFrom 0 (s.setFlint p c f).flint = true := Tbl.sortedFrom_set f h (Nat.zero_le _)

/-- A Flint to which its instruction, 4 bytes long, returns `v` in `rd`. -/
def Flint.returned (f : Flint) (rd : Nat) (v : Word64) : Flint :=
  { f with x := if rd = 0 then f.x else f.x.set 0#64 rd v, stall := .none, pc := f.pc + 4#64 }

@[simp] theorem Flint.returned_pc (f : Flint) (rd : Nat) (v : Word64) : (f.returned rd v).pc = f.pc + 4#64 := rfl
@[simp] theorem Flint.returned_stall (f : Flint) (rd : Nat) (v : Word64) : (f.returned rd v).stall = .none := rfl
@[simp] theorem Flint.returned_dmem (f : Flint) (rd : Nat) (v : Word64) : (f.returned rd v).dmem = f.dmem := rfl

theorem Flint.xreg_returned {f : Flint} (h : Tbl.sortedFrom 0 f.x = true) (rd : Nat) (v : Word64) (r : Nat) :
    xreg (f.returned rd v) r = if r = rd ∧ rd ≠ 0 then v else xreg f r := xreg_set h r f.pc

/-- Returning a value changes the Flint and its state field. -/
theorem State.flintReturn_eq (h : Tbl.sortedFrom 0 s.flint = true) (rd : Nat) (v : Word64) :
    s.flintReturn p c rd v = (s.setFlint p c ((s.getFlint p c).returned rd v)).wf (FLT_STATUS.STATE p c) 1 := by
  unfold State.flintReturn State.flintReg Flint.returned
  by_cases h0 : rd = 0
  · simp only [if_pos h0]; rfl
  · simp only [if_neg h0, State.getFlint_setFlint_same h, State.setFlint_setFlint h]; rfl

theorem State.getFlint_flintReturn (h : Tbl.sortedFrom 0 s.flint = true) (rd : Nat) (v : Word64) :
    (s.flintReturn p c rd v).getFlint p c = (s.getFlint p c).returned rd v := by
  rw [State.flintReturn_eq h]
  exact State.getFlint_setFlint_same h

theorem State.getFlint_flintReturn_ne {p' c' : Nat} (h : Tbl.sortedFrom 0 s.flint = true) (rd : Nat) (v : Word64)
    (hk : coreKey p' c' ≠ coreKey p c) : (s.flintReturn p c rd v).getFlint p' c' = s.getFlint p' c' := by
  rw [State.flintReturn_eq h]
  exact State.getFlint_setFlint_ne h _ hk

/-- Returning a value changes no more than the Flints and register fields. -/
theorem State.flintReturn_frame (rd : Nat) (v : Word64) : s.flintReturn p c rd v =
    { s with flint := (s.flintReturn p c rd v).flint, flds := (s.flintReturn p c rd v).flds } := by
  unfold State.flintReturn State.flintReg
  split <;> rfl

theorem State.sorted_flintReturn (h : Tbl.sortedFrom 0 s.flds = true) (rd : Nat) (v : Word64) :
    Tbl.sortedFrom 0 (s.flintReturn p c rd v).flds = true := by
  unfold State.flintReturn State.flintReg
  split <;> exact State.sorted_wf _ _ h

theorem State.issued_flintReturn (h : Tbl.sortedFrom 0 s.flds = true) (rd : Nat) (v : Word64) (e : Nat) :
    (s.flintReturn p c rd v).rf (qIssued p c e) = s.rf (qIssued p c e) := by
  unfold State.flintReturn State.flintReg
  split <;> exact State.rf_wf_ne _ h (qIssued_cell_ne_state e)

theorem State.getFlint_of_flint {t : State} (h : t.flint = s.flint) (p c : Nat) : t.getFlint p c = s.getFlint p c :=
  congrArg (Tbl.get ({} : Flint) · (coreKey p c)) h

end

/-! ### TQUE, MODE and SEEDLD (R133, R145–R147) -/

section
variable {s : State} {p c eng kind rd stalled : Nat} {ws : List Word64} {v : Word64}

theorem dmemFault_of_misaligned {ad align n : Nat} (h : ad % align ≠ 0) : dmemFault ad align n = some hMISALIGNED := if_pos h

theorem dmemFault_of_inside {ad align n : Nat} (h : ad % align = 0) (hl : dmemBase ≤ ad) (hr : ad + n ≤ dmemBase + 65536) :
    dmemFault ad align n = none := (if_neg (not_not.mpr h)).trans (if_pos ⟨hl, hr⟩)

theorem dmemFault_of_outside {ad align n : Nat} (h : ad % align = 0) (ho : ad < dmemBase ∨ dmemBase + 65536 < ad + n) :
    dmemFault ad align n = some hACCESS :=
  (if_neg (not_not.mpr h)).trans (if_neg fun hi => ho.elim (Nat.not_lt.mpr hi.1) (Nat.not_lt.mpr hi.2))

/-- A MODE or SEEDLD waits for room only. -/
theorem State.mayEnqueue_of_ne_zero (hk : kind ≠ 0) : s.mayEnqueue p c eng kind = s.hasRoom p c eng := by
  rw [State.mayEnqueue, bne_iff_ne.mpr hk, Bool.true_or, Bool.and_true]

theorem State.enqueueOr_now (h : s.mayEnqueue p c eng kind = true) :
    s.enqueueOr p c eng kind ws rd = s.enqueueNow p c eng kind ws rd := if_pos h

theorem State.enqueueOr_stalls (h : s.mayEnqueue p c eng kind = false) :
    s.enqueueOr p c eng kind ws rd = s.stallIn p c (.enqueue eng kind ws rd) := if_neg (ne_true_of_eq_false h)

theorem execTque_fault {k : Nat} (hp : p < 16) (hc : c < s.lcores p) (hx : s.nextExt p c = some (.tque eng, rd, v))
    (hf : dmemFault v.toNat 64 64 = some k) : exec (.tque p c) s = .next (s.flintFault p c k) := by
  rw [exec_tque, execTque, onCore_of_lt hp hc, hx]
  dsimp only
  rw [hf]

theorem execTque_inside (hp : p < 16) (hc : c < s.lcores p) (hx : s.nextExt p c = some (.tque eng, rd, v))
    (hf : dmemFault v.toNat 64 64 = none) :
    exec (.tque p c) s = .next (s.enqueueOr p c eng 0 (cmdWords (s.getFlint p c) v.toNat) rd) := by
  rw [exec_tque, execTque, onCore_of_lt hp hc, hx]
  dsimp only
  rw [hf]

theorem execMode_eq {m : Nat} (hp : p < 16) (hc : c < s.lcores p) (hx : s.nextExt p c = some (.mode m, rd, v)) :
    exec (.mode p c) s = .next (s.enqueueOr p c 0 1 [BitVec.ofNat 64 m] rd) := by
  rw [exec_mode, execMode, onCore_of_lt hp hc, hx]

theorem execSeedld_eq (hp : p < 16) (hc : c < s.lcores p) (hx : s.nextExt p c = some (.seedld, rd, v)) :
    exec (.seedld p c) s = .next (s.enqueueOr p c 1 2 [v] rd) := by
  rw [exec_seedld, execSeedld, onCore_of_lt hp hc, hx]

theorem execTqueResume_eq (hp : p < 16) (hc : c < s.lcores p) (hx : (s.getFlint p c).stall = .enqueue eng kind ws rd) :
    exec (.tqueResume p c stalled) s = .next (if s.mayEnqueue p c eng kind = true then
      (s.addf (FLT_CYC_QFULL.CYCLES p c) stalled).enqueueNow p c eng kind ws rd else s) := by
  rw [exec_tqueResume, execTqueResume, onCore_of_lt hp hc, hx]

/-- The state without its Flints. -/
def State.unflinted (s : State) : State := { s with flint := [] }

/-- A Flint whose SEEDLD, and no other instruction, has left it the seed of its next stores (R133). -/
def Flint.seeded (f : Flint) (kind : Nat) (ws : List Word64) : Flint :=
  { f with storeSeed := if kind = 2 then wordAt ws 0 else f.storeSeed }

/-- A SEEDLD leaves its seed to the stores enqueued after it (R133; log entry 77). -/
def State.seeded (s : State) (p c kind : Nat) (ws : List Word64) : State :=
  if kind = 2 then s.setFlint p c { s.getFlint p c with storeSeed := wordAt ws 0 } else s

/-- The state in which an enqueued entry's number has been returned, before the queues move on. -/
def State.enqueueReturned (s : State) (p c eng kind : Nat) (ws : List Word64) (rd : Nat) : State :=
  (((s.enqueue p c eng (entryKind kind ws)).1.seeded p c kind ws).flintReturn p c rd
    (BitVec.ofNat 64 ((s.rf (qIssued p c eng) + 1) % seqMod))).addf (FLT_CYC_RUN.CYCLES p c) (if kind = 0 then 2 else 1)

theorem State.enqueueNow_eq : s.enqueueNow p c eng kind ws rd = (s.enqueueReturned p c eng kind ws rd).settle p c := by
  rw [State.enqueueReturned, ← State.enqueue_number s p c eng (entryKind kind ws)]
  rfl

theorem State.enqueueNow_moves :
    (s.enqueueReturned p c eng kind ws rd).MovesQueues p c (s.enqueueNow p c eng kind ws rd) := by
  rw [State.enqueueNow_eq]
  exact (MovesQueues.refl _).settle

theorem State.seeded_frame : s.seeded p c kind ws = { s with flint := (s.seeded p c kind ws).flint } := by
  unfold State.seeded
  split <;> rfl

theorem State.sorted_seeded (h : Tbl.sortedFrom 0 s.flint = true) : Tbl.sortedFrom 0 (s.seeded p c kind ws).flint = true := by
  unfold State.seeded
  split
  · exact State.sorted_setFlint h _
  · exact h

theorem State.getFlint_seeded (h : Tbl.sortedFrom 0 s.flint = true) : (s.seeded p c kind ws).getFlint p c =
    (s.getFlint p c).seeded kind ws := by
  unfold State.seeded Flint.seeded
  split
  · exact State.getFlint_setFlint_same h
  · rfl

theorem State.getFlint_seeded_ne {p' c' : Nat} (h : Tbl.sortedFrom 0 s.flint = true) (hk : coreKey p' c' ≠ coreKey p c) :
    (s.seeded p c kind ws).getFlint p' c' = s.getFlint p' c' := by
  unfold State.seeded
  split
  · exact State.getFlint_setFlint_ne h _ hk
  · rfl

theorem State.getFlint_enqueue (k : QKind) (p' c' : Nat) : (s.enqueue p c eng k).1.getFlint p' c' = s.getFlint p' c' :=
  State.getFlint_of_flint (State.enqueue_moves s p c eng k).flint_eq p' c'

theorem State.sorted_flint_enqueue (h : Tbl.sortedFrom 0 s.flint = true) (k : QKind) :
    Tbl.sortedFrom 0 (s.enqueue p c eng k).1.flint = true := by
  rw [(State.enqueue_moves s p c eng k).flint_eq]
  exact h

/-- What enqueuing leaves of the Flint that enqueued. -/
theorem State.getFlint_enqueueNow (h : Tbl.sortedFrom 0 s.flint = true) : (s.enqueueNow p c eng kind ws rd).getFlint p c =
    ((s.getFlint p c).seeded kind ws).returned rd (BitVec.ofNat 64 ((s.rf (qIssued p c eng) + 1) % seqMod)) := by
  have hu := State.sorted_flint_enqueue (p := p) (c := c) (eng := eng) h (entryKind kind ws)
  have hs := State.getFlint_seeded (p := p) (c := c) (kind := kind) (ws := ws) hu
  rw [State.getFlint_enqueue] at hs
  rw [State.getFlint_of_flint State.enqueueNow_moves.flint_eq, ← hs]
  exact State.getFlint_flintReturn (State.sorted_seeded hu) _ _

theorem State.getFlint_enqueueNow_ne {p' c' : Nat} (h : Tbl.sortedFrom 0 s.flint = true) (hk : coreKey p' c' ≠ coreKey p c) :
    (s.enqueueNow p c eng kind ws rd).getFlint p' c' = s.getFlint p' c' := by
  have hu := State.sorted_flint_enqueue (p := p) (c := c) (eng := eng) h (entryKind kind ws)
  have hs := State.getFlint_seeded_ne (kind := kind) (ws := ws) hu hk
  rw [State.getFlint_enqueue] at hs
  rw [State.getFlint_of_flint State.enqueueNow_moves.flint_eq, ← hs]
  exact State.getFlint_flintReturn_ne (State.sorted_seeded hu) _ _ hk

/-- The number issued is the number returned. -/
theorem State.issued_enqueueNow (h : Tbl.sortedFrom 0 s.flds = true) :
    (s.enqueueNow p c eng kind ws rd).rf (qIssued p c eng) = (s.rf (qIssued p c eng) + 1) % seqMod := by
  have hu : Tbl.sortedFrom 0 ((s.enqueue p c eng (entryKind kind ws)).1.seeded p c kind ws).flds = true := by
    rw [State.seeded_frame]
    exact (State.enqueue_moves s p c eng _).sorted (State.sorted_wf _ _ h)
  have hr := State.sorted_flintReturn (p := p) (c := c) hu rd (BitVec.ofNat 64 ((s.rf (qIssued p c eng) + 1) % seqMod))
  rw [State.enqueueNow_moves.issued (State.sorted_wf _ _ hr), State.enqueueReturned, State.addf,
    State.rf_wf_ne _ hr (qIssued_cell_ne_cycRun eng), State.issued_flintReturn hu, State.seeded_frame]
  exact State.issued_enqueue h _

/-- Enqueuing changes Flints, register fields, queues and requests to the governor alone. -/
theorem State.enqueueNow_frame {t : State} (h : s.enqueueNow p c eng kind ws rd = t) :
    t = { s with flint := t.flint, flds := t.flds, queue := t.queue, gov := t.gov } := by
  have hs : t.unqueued = (s.enqueueReturned p c eng kind ws rd).unqueued := h ▸ State.enqueueNow_moves.rest
  have hr : (s.enqueueReturned p c eng kind ws rd).unqueued.unflinted = (s.enqueue p c eng (entryKind kind ws)).1.unqueued.unflinted := by
    rw [State.enqueueReturned, State.flintReturn_frame, State.seeded_frame]
    rfl
  have he : t.unqueued.unflinted = s.unqueued.unflinted :=
    ((congrArg State.unflinted hs).trans hr).trans (congrArg State.unflinted (State.enqueue_moves s p c eng (entryKind kind ws)).rest)
  exact congrArg (fun x : State => { x with flint := t.flint, flds := t.flds, queue := t.queue, gov := t.gov }) he

end
end Sys2Proof.Machine

open Sys2Proof Sys2Proof.Machine

/-- Settles O24: the instructions branch by branch, then what enqueuing moves and what returning its number changes. -/
theorem enqueuingReturnsTheSequenceNumber : Obligations.EnqueuingReturnsTheSequenceNumber := by
  unfold Obligations.EnqueuingReturnsTheSequenceNumber
  refine ⟨fun s p c rd eng v hp hc hx => ?_, fun s p c rd m v hp hc hx => ?_, fun s p c rd v hp hc hx => ?_,
    fun s p c stalled eng kind rd ws hp hc hx => ?_, fun s p c eng kind rd ws he hf hl hr => ?_⟩
  · refine ⟨fun ha hlo hhi hm => ?_, fun ha hlo hhi hm => ?_, fun ha => ?_, fun ha ho => ?_⟩
    · exact (execTque_inside hp hc hx (dmemFault_of_inside ha hlo hhi)).trans (congrArg _ (State.enqueueOr_now hm))
    · exact (execTque_inside hp hc hx (dmemFault_of_inside ha hlo hhi)).trans (congrArg _ (State.enqueueOr_stalls hm))
    · exact execTque_fault hp hc hx (dmemFault_of_misaligned ha)
    · exact execTque_fault hp hc hx (dmemFault_of_outside ha ho)
  · have hm := State.mayEnqueue_of_ne_zero (s := s) (p := p) (c := c) (eng := 0) Nat.one_ne_zero
    exact ⟨fun h => (execMode_eq hp hc hx).trans (congrArg _ (State.enqueueOr_now (hm.trans h))),
      fun h => (execMode_eq hp hc hx).trans (congrArg _ (State.enqueueOr_stalls (hm.trans h)))⟩
  · have hm := State.mayEnqueue_of_ne_zero (s := s) (p := p) (c := c) (eng := 1) (by decide : 2 ≠ 0)
    exact ⟨fun h => (execSeedld_eq hp hc hx).trans (congrArg _ (State.enqueueOr_now (hm.trans h))),
      fun h => (execSeedld_eq hp hc hx).trans (congrArg _ (State.enqueueOr_stalls (hm.trans h)))⟩
  · rw [execTqueResume_eq hp hc hx]
    exact ⟨fun h => by rw [if_pos h], fun h => by rw [if_neg (ne_true_of_eq_false h)]⟩
  · have ht := State.getFlint_enqueueNow (p := p) (c := c) (eng := eng) (kind := kind) (ws := ws) (rd := rd) hl
    refine ⟨State.enqueueNow_frame rfl, State.issued_enqueueNow hf, ?_, fun r => ?_, fun p' c' hk => State.getFlint_enqueueNow_ne hl hk⟩
    · rw [ht]
      rfl
    · rw [ht]
      exact Flint.xreg_returned hr rd _ r

end

section
namespace Sys2Proof.Machine

/-! ### TWAIT, SUMRD and STEPB (R147, R148, R160, R161) -/

section
variable {s : State} {p c eng rd sq slot ad upto stalled k e : Nat} {v step : Word64}

theorem execTwait_done (hp : p < 16) (hc : c < s.lcores p) (hx : s.nextExt p c = some (.twait eng, rd, v))
    (h : s.seqDone p c eng v.toNat = true) : exec (.twait p c) s = .next
      ((s.flintReturn p c rd (BitVec.ofNat 64 (s.getQueue p c eng).firstErr)).inc (FLT_CYC_RUN.CYCLES p c)) := by
  rw [exec_twait, execTwait, onCore_of_lt hp hc, hx]
  exact congrArg _ (if_pos h)

theorem execTwait_stalls (hp : p < 16) (hc : c < s.lcores p) (hx : s.nextExt p c = some (.twait eng, rd, v))
    (h : s.seqDone p c eng v.toNat = false) :
    exec (.twait p c) s = .next (s.stallIn p c (.twait eng (v.toNat % 2 ^ 24) rd)) := by
  rw [exec_twait, execTwait, onCore_of_lt hp hc, hx]
  exact congrArg _ (if_neg (ne_true_of_eq_false h))

theorem execTwaitResume_eq (hp : p < 16) (hc : c < s.lcores p) (hx : (s.getFlint p c).stall = .twait eng sq rd) :
    exec (.twaitResume p c stalled) s = .next (if s.seqDone p c eng sq = true then
      (s.addf (FLT_CYC_WAIT.CYCLES p c) stalled).flintReturn p c rd (BitVec.ofNat 64 (s.getQueue p c eng).firstErr) else s) := by
  rw [exec_twaitResume, execTwaitResume, onCore_of_lt hp hc, hx]
  rfl

theorem execSumrd_fault (hp : p < 16) (hc : c < s.lcores p) (hx : s.nextExt p c = some (.sumrd slot, rd, v))
    (hf : dmemFault v.toNat 8 24 = some k) : exec (.sumrd p c) s = .next (s.flintFault p c k) := by
  rw [exec_sumrd, execSumrd, onCore_of_lt hp hc, hx]
  dsimp only
  rw [hf]

theorem execSumrd_inside (hp : p < 16) (hc : c < s.lcores p) (hx : s.nextExt p c = some (.sumrd slot, rd, v))
    (hf : dmemFault v.toNat 8 24 = none) :
    exec (.sumrd p c) s = .next (s.stallIn p c (.sumrd slot v.toNat rd (s.rf (qIssued p c 1)))) := by
  rw [exec_sumrd, execSumrd, onCore_of_lt hp hc, hx]
  dsimp only
  rw [hf]

/-- SUMRD_RESUME while a Mica command enqueued before names the slot. -/
theorem execSumrdResume_waits (hp : p < 16) (hc : c < s.lcores p) (hx : (s.getFlint p c).stall = .sumrd slot ad rd upto)
    (h : (s.getQueue p c 1).entries.any (fun x => namesSlot slot x.kind && seqCovers upto x.seq) = true) :
    exec (.sumrdResume p c stalled) s = .next s := by
  rw [exec_sumrdResume, execSumrdResume, onCore_of_lt hp hc, hx]
  exact congrArg _ (if_pos h)

/-- A Flint with the words of a summary slot in DMEM. -/
def Flint.sumStored (f : Flint) (ad : Nat) (ws : List Nat) : Flint :=
  { f with dmem := putBytes f.dmem (ad - dmemBase) (ws.flatMap (leBytes 8)) }

@[simp] theorem Flint.sumStored_pc (f : Flint) (ad : Nat) (ws : List Nat) : (f.sumStored ad ws).pc = f.pc := rfl
@[simp] theorem Flint.sumStored_x (f : Flint) (ad : Nat) (ws : List Nat) : (f.sumStored ad ws).x = f.x := rfl
@[simp] theorem Flint.sumStored_dmem (f : Flint) (ad : Nat) (ws : List Nat) :
    (f.sumStored ad ws).dmem = putBytes f.dmem (ad - dmemBase) (ws.flatMap (leBytes 8)) := rfl

/-- What SUMRD_RESUME makes of a state: word B is returned and the stall counted. -/
def State.sumReturned (s : State) (p c slot ad rd stalled : Nat) : State :=
  ((s.setFlint p c ((s.getFlint p c).sumStored ad (s.slotWords p c slot))).addf (FLT_CYC_WAIT.CYCLES p c) stalled).flintReturn p c rd
    (BitVec.ofNat 64 ((s.slotWords p c slot).getD 1 0))

/-- SUMRD_RESUME once no such command is left. -/
theorem execSumrdResume_returns (hp : p < 16) (hc : c < s.lcores p) (hx : (s.getFlint p c).stall = .sumrd slot ad rd upto)
    (h : (s.getQueue p c 1).entries.all (fun x => !namesSlot slot x.kind || !seqCovers upto x.seq) = true) :
    exec (.sumrdResume p c stalled) s = .next (s.sumReturned p c slot ad rd stalled) := by
  have hn : ¬ (s.getQueue p c 1).entries.any (fun x => namesSlot slot x.kind && seqCovers upto x.seq) = true := by
    rw [Bool.not_eq_true, ← Bool.not_eq_true', List.not_any_eq_all_not]
    simpa only [Bool.not_and] using h
  rw [exec_sumrdResume, execSumrdResume, onCore_of_lt hp hc, hx]
  exact congrArg _ (if_neg hn)

theorem State.getFlint_sumReturned (h : Tbl.sortedFrom 0 s.flint = true) : (s.sumReturned p c slot ad rd stalled).getFlint p c =
    ((s.getFlint p c).sumStored ad (s.slotWords p c slot)).returned rd (BitVec.ofNat 64 ((s.slotWords p c slot).getD 1 0)) := by
  refine (State.getFlint_flintReturn ?_ rd _).trans (congrArg (Flint.returned · rd _) ?_)
  · exact State.sorted_setFlint h _
  · exact State.getFlint_setFlint_same h

theorem State.sumReturned_frame : s.sumReturned p c slot ad rd stalled =
    { s with flint := (s.sumReturned p c slot ad rd stalled).flint, flds := (s.sumReturned p c slot ad rd stalled).flds } :=
  State.flintReturn_frame _ _

theorem execStepb_eq (hp : p < 16) (hc : c < s.lcores p) (hx : s.nextExt p c = some (.stepb, rd, v)) :
    exec (.stepb p c) s = .next (s.stallIn p c (.stepb v rd false 0)) := by
  rw [exec_stepb, execStepb, onCore_of_lt hp hc, hx]

theorem execStepbReport_waits (hp : p < 16) (hc : c < s.lcores p) (hx : (s.getFlint p c).stall = .stepb step rd false k)
    (hq : s.queuesEmpty p c = false) : exec (.stepbReport p c stalled) s = .next s := by
  rw [exec_stepbReport, execStepbReport, onCore_of_lt hp hc, hx]
  dsimp only
  rw [hq, Bool.not_false, if_pos rfl]

/-- STEPB_REPORT with a queue's ERR set (log entry 78). -/
theorem execStepbReport_err (hp : p < 16) (hc : c < s.lcores p) (hx : (s.getFlint p c).stall = .stepb step rd false k)
    (hq : s.queuesEmpty p c = true) (he : (s.addf (FLT_CYC_WAIT.CYCLES p c) stalled).errQueue p c = some e) :
    exec (.stepbReport p c stalled) s = .next ((s.addf (FLT_CYC_WAIT.CYCLES p c) stalled).flintReturn p c rd
      (BitVec.ofNat 64 ((s.addf (FLT_CYC_WAIT.CYCLES p c) stalled).rf (qErrStat p c e)))) := by
  rw [exec_stepbReport, execStepbReport, onCore_of_lt hp hc, hx]
  dsimp only
  rw [hq, Bool.not_true, if_neg Bool.false_ne_true, he]

/-- STEPB_REPORT with no ERR set reports the next step, and another number is a failed check that starts the abort wave. -/
theorem execStepbReport_eq (hp : p < 16) (hc : c < s.lcores p) (hx : (s.getFlint p c).stall = .stepb step rd false k)
    (hq : s.queuesEmpty p c = true) (he : (s.addf (FLT_CYC_WAIT.CYCLES p c) stalled).errQueue p c = none) :
    exec (.stepbReport p c stalled) s = .next (
      if (s.addf (FLT_CYC_WAIT.CYCLES p c) stalled).stepOk p c step = true
      then (s.addf (FLT_CYC_WAIT.CYCLES p c) stalled).reportStep p c step rd
      else ((s.addf (FLT_CYC_WAIT.CYCLES p c) stalled).flintReturn p c rd 3#64).startWave p 1
        ((s.addf (FLT_CYC_WAIT.CYCLES p c) stalled).flintUnit p c)) := by
  rw [exec_stepbReport, execStepbReport, onCore_of_lt hp hc, hx]
  dsimp only
  rw [hq, Bool.not_true, if_neg Bool.false_ne_true, he]
  rfl

theorem State.stepbReturn_eq {b : Bool} (hx : (s.getFlint p c).stall = .stepb step rd b k) : s.stepbReturn p c =
    ((s.addf (FLT_CYC_WAIT.CYCLES p c) (12 * (s.now - k))).flintReturn p c rd 0#64).wf (FLT_STEP.STEP p c) step.toNat := by
  rw [State.stepbReturn, hx]

/-- QUEUE_ERR_CLEAR writes 1 to ERR, bit 55 of the queue's register. -/
theorem execQueueErrClear_clears {a : Agent} (hp : p < 16) (hc : c < s.lcores p) (he : e < 3) (ha : a ≠ .pf16)
    (hf : s.rf (PRT_CLK_EN.FLT p) = 1) : exec (.queueErrClear a p c e) s = .next ((s.clearErr p c e).settle p c) := by
  have hw : s.queueWrite p c e (2 ^ 55) = ((s.clearErr p c e).settle p c, false) := by
    rw [State.queueWrite, if_neg (by rw [hf]; decide), if_pos (by decide)]
  rw [exec_queueErrClear, execQueueErrClear, if_neg (Nat.not_le.mpr he), onCore_of_lt hp hc, if_neg ha, hw]
  exact congrArg _ (if_neg Bool.false_ne_true)

/-- PF16 does not reach the registers of a partition. -/
theorem execQueueErrClear_pf16 (hp : p < 16) (hc : c < s.lcores p) (he : e < 3) : exec (.queueErrClear .pf16 p c e) s = .next s := by
  rw [exec_queueErrClear, execQueueErrClear, if_neg (Nat.not_le.mpr he), onCore_of_lt hp hc, if_pos rfl]

end
end Sys2Proof.Machine

open Sys2Proof Sys2Proof.Machine

/-- Settles O25: each instruction by its stall and its resumption, and what a value returned changes. -/
theorem waitingInstructionsReturn : Obligations.WaitingInstructionsReturn := by
  unfold Obligations.WaitingInstructionsReturn
  refine ⟨fun s p c rd eng v hp hc hx => ⟨execTwait_done hp hc hx, execTwait_stalls hp hc hx⟩,
    fun s p c stalled rd eng sq hp hc hx => execTwaitResume_eq hp hc hx,
    fun s p c rd slot v hp hc hx => ⟨fun ha hl hr => ?_, fun ha => ?_, fun ha ho => ?_⟩,
    fun s p c stalled rd slot ad upto hp hc hx => ⟨fun h hl => ?_, execSumrdResume_waits hp hc hx⟩,
    fun s p c rd v hp hc hx => execStepb_eq hp hc hx,
    fun s p c stalled rd k step hp hc hx => ?_,
    fun s p c k rd step b hx => State.stepbReturn_eq hx,
    fun s p c rd v hl hr => ?_,
    fun s p c st => rfl,
    fun s a p c e hp hc he ha hf => execQueueErrClear_clears hp hc he ha hf,
    fun s p c e hp hc he => execQueueErrClear_pf16 hp hc he⟩
  · exact execSumrd_inside hp hc hx (dmemFault_of_inside ha hl hr)
  · exact execSumrd_fault hp hc hx (dmemFault_of_misaligned ha)
  · exact execSumrd_fault hp hc hx (dmemFault_of_outside ha ho)
  · have ht := State.getFlint_sumReturned (p := p) (c := c) (slot := slot) (ad := ad) (rd := rd) (stalled := stalled) hl
    refine ⟨_, execSumrdResume_returns hp hc hx h, ?_, ?_, ?_, fun h0 hr => ?_, State.sumReturned_frame⟩
    · rw [ht, Flint.returned_dmem, Flint.sumStored_dmem]
    · rw [ht, Flint.returned_pc, Flint.sumStored_pc]
    · rw [ht, Flint.returned_stall]
    · rw [ht, Flint.xreg_returned (f := (s.getFlint p c).sumStored ad _) hr, if_pos ⟨rfl, h0⟩]
  · intro u
    refine ⟨fun hq => ?_, fun e hq he => ?_, fun hq he hok => ?_, fun hq he hok => ?_⟩
    · exact execStepbReport_waits hp hc hx hq
    · exact execStepbReport_err hp hc hx hq he
    · exact (execStepbReport_eq hp hc hx hq he).trans (congrArg _ (if_pos hok))
    · exact (execStepbReport_eq hp hc hx hq he).trans (congrArg _ (if_neg (ne_true_of_eq_false hok)))
  · have ht := State.getFlint_flintReturn (p := p) (c := c) hl rd v
    refine ⟨State.flintReturn_frame rd v, ?_, ?_, fun r => ?_⟩
    · rw [ht, Flint.returned_pc]
    · rw [ht, Flint.returned_stall]
    · rw [ht, Flint.xreg_returned hr]

end

section
namespace Sys2Proof.Machine

/-! ### The commit, the retry and the gating of Mica (R117, R126, R128, R135, R136, R485) -/

section
variable {s : State} {p c waited f l : Nat} {g : MicaStage}

theorem Tbl.sortedFrom_setAll {α : Type} [DecidableEq α] {d : α} {t : Tbl α} (l : Tbl α) (h : Tbl.sortedFrom 0 t = true) :
    Tbl.sortedFrom 0 (Tbl.setAll d t l) = true := by
  induction l generalizing t with
  | nil => exact h
  | cons e l ih => exact ih (Tbl.sortedFrom_set e.2 h (Nat.zero_le _))

/-- Of several entries with one key the last is what the table reads. -/
theorem Tbl.get_setAll_last {α : Type} [DecidableEq α] {d v : α} {t l r : Tbl α} {k : Nat} (h : Tbl.sortedFrom 0 t = true)
    (hr : ∀ e ∈ r, e.1 ≠ k) : (Tbl.setAll d t (l ++ (k, v) :: r)).get d k = v := by
  have hl := Tbl.sortedFrom_setAll (d := d) l h
  rw [Tbl.setAll, List.foldl_append, List.foldl_cons]
  exact (Tbl.get_setAll_of_forall_ne (Tbl.sortedFrom_set v hl (Nat.zero_le _)) fun e he => (hr e he).symm).trans (Tbl.get_set_same k v hl)

theorem State.quiet_writeSet (s : State) (p : Nat) (t : WriteSet) : (s.writeSet p t).1.quiet = s.quiet := by
  induction t generalizing s with
  | nil => rfl
  | cons e t ih => exact (ih _).trans (s.quiet_writeBlock _ _ _ _ _)

/-- The state with a staged command's words in its tile registers and its blocks in tile memory, and whether every block was written. -/
def State.micaWritten (s : State) (p : Nat) (g : MicaStage) : State × Bool :=
  { s with treg := Tbl.setAll 0#32 s.treg g.regw }.writeSet p g.memw

/-- The state with a committed command's summary in its slot (R126, R128). -/
def State.micaSummed (s : State) (p c : Nat) (g : MicaStage) : State :=
  match g.summary with
  | some x => if g.smode = 0 then s else s.putSummary p c g.slot (g.smode == 2) x
  | none => s

/-- The state with a committed command counted, non-finite values apart, and Mica idle. -/
def State.micaCounted (s : State) (p c : Nat) (g : MicaStage) : State :=
  ((State.inc (if g.nonfin then s.inc (MCA_NONFIN.COUNT p c) else s) (MCA_OPS.OPS p c)).wf (MCA_STATUS.BUSY p c) 0).wf
    (MCA_STATUS.RECOMP p c) 0

theorem State.micaDone_eq : s.micaDone p c g =
    ((((s.micaWritten p g).1.micaSummed p c g).micaCounted p c g).setStage p c none).finish p c 1 g.seq
      (if (s.micaWritten p g).2 then stOK else stCHECKFAIL) := rfl

theorem State.micaDone_moves :
    ((((s.micaWritten p g).1.micaSummed p c g).micaCounted p c g).setStage p c none).MovesQueues p c
      (s.micaDone p c g) := by
  rw [State.micaDone_eq]
  refine (MovesQueues.refl _).finish ?_
  split <;> decide

theorem State.unqueued_wf (s : State) (f : Fld) (v : Nat) : (s.wf f v).unqueued = s.unqueued := rfl
theorem State.unqueued_inc (s : State) (f : Fld) : (s.inc f).unqueued = s.unqueued := rfl

theorem State.unqueued_putSummary (n : Nat) (fold : Bool) (x : Summary) : (s.putSummary p c n fold x).unqueued = s.unqueued := by
  unfold State.putSummary
  dsimp only
  simp only [State.unqueued_wf]

theorem State.unqueued_micaSummed : (s.micaSummed p c g).unqueued = s.unqueued := by
  unfold State.micaSummed
  split
  · split
    · rfl
    · exact State.unqueued_putSummary _ _ _
  · rfl

theorem State.unqueued_micaCounted : (s.micaCounted p c g).unqueued = s.unqueued := by
  rw [State.micaCounted, State.unqueued_wf, State.unqueued_wf, State.unqueued_inc]
  split
  · exact State.unqueued_inc _ _
  · rfl

theorem State.unqueued_setStage {t : State} (h : t.unqueued = s.unqueued) (m : Option MicaStage) :
    (t.setStage p c m).unqueued = (s.setStage p c m).unqueued := congrArg (State.setStage · p c m) h

/-- Beside register fields, queues and requests to the governor a commit changes what it writes and the stage. -/
theorem State.unqueued_micaDone : (s.micaDone p c g).unqueued = ((s.micaWritten p g).1.setStage p c none).unqueued :=
  State.micaDone_moves.rest.trans (State.unqueued_setStage (State.unqueued_micaCounted.trans State.unqueued_micaSummed) none)

theorem State.treg_micaDone : (s.micaDone p c g).treg = Tbl.setAll 0#32 s.treg g.regw :=
  (congrArg State.treg (s.unqueued_micaDone (p := p) (c := c) (g := g)) :).trans
    (congrArg State.treg (State.quiet_writeSet { s with treg := Tbl.setAll 0#32 s.treg g.regw } p g.memw) :)

theorem State.stage_micaDone : (s.micaDone p c g).stage = s.stage.set none (coreKey p c) none :=
  (congrArg State.stage (s.unqueued_micaDone (p := p) (c := c) (g := g)) :).trans
    (congrArg (fun x : State => x.stage.set none (coreKey p c) none)
      (State.quiet_writeSet { s with treg := Tbl.setAll 0#32 s.treg g.regw } p g.memw) :)

/-- A command without blocks for tile memory leaves memory and all that is not Mica's or a queue's. -/
theorem State.micaDone_frame {t : State} (h : s.micaDone p c g = t) (hm : g.memw = []) :
    t = { s with flds := t.flds, treg := t.treg, stage := t.stage, queue := t.queue, gov := t.gov } := by
  have hw : (s.micaWritten p g).1 = { s with treg := Tbl.setAll 0#32 s.treg g.regw } := by rw [State.micaWritten, hm]; rfl
  have ht : t.unqueued = _ := h ▸ s.unqueued_micaDone
  rw [hw] at ht
  exact congrArg (fun x : State => { x with flds := t.flds, treg := t.treg, stage := t.stage, queue := t.queue, gov := t.gov }) ht

theorem execMicaCommit_none {res : Residue} (hp : p < 16) (hc : c < s.lcores p) (hg : s.getStage p c = none) :
    exec (.micaCommit p c waited res) s = .next s := by
  rw [exec_micaCommit, execMicaCommit, onCore_of_lt hp hc, hg]

theorem execMicaRetry_none {res : Residue} (hp : p < 16) (hc : c < s.lcores p) (hg : s.getStage p c = none) :
    exec (.micaRetry p c res) s = .next s := by
  rw [exec_micaRetry, execMicaRetry, onCore_of_lt hp hc, hg]

/-- The state with the cycles of a running command counted, those lost to taken banks also for tile memory. -/
def State.micaRan (s : State) (p c waited : Nat) (g : MicaStage) : State :=
  (s.addf (MCA_CYC_BUSY.CYCLES p c) (g.cost + waited)).addf (TLM_BANKWAIT.CYCLES p c) waited

/-- The state with the cycles of a retry counted, the command's and 4 more. -/
def State.micaReran (s : State) (p c : Nat) (g : MicaStage) : State := s.addf (MCA_CYC_BUSY.CYCLES p c) (g.cost + 4)

theorem execMicaCommit_agree (hp : p < 16) (hc : c < s.lcores p) (hg : s.getStage p c = some g) (hr : g.retry = false) :
    exec (.micaCommit p c waited .agree) s = .next ((s.micaRan p c waited g).micaDone p c g) := by
  rw [exec_micaCommit, execMicaCommit, onCore_of_lt hp hc, hg]
  dsimp only
  rw [hr, if_neg Bool.false_ne_true]
  rfl

theorem execMicaCommit_mismatch (hp : p < 16) (hc : c < s.lcores p) (hg : s.getStage p c = some g) (hr : g.retry = false) :
    exec (.micaCommit p c waited (.mismatch f l)) s = .next ((((s.micaRan p c waited g).wf (MCA_RES.LAST_OP p c) g.mop).wf
      (MCA_STATUS.RECOMP p c) 1).setStage p c (some { g with retry := true, lane := l, lanes := f })) := by
  rw [exec_micaCommit, execMicaCommit, onCore_of_lt hp hc, hg]
  dsimp only
  rw [if_neg (ne_true_of_eq_false hr)]
  rfl

/-- A command that is to be retried does not commit. -/
theorem execMicaCommit_retry {res : Residue} (hp : p < 16) (hc : c < s.lcores p) (hg : s.getStage p c = some g) (hr : g.retry = true) :
    exec (.micaCommit p c waited res) s = .next s := by
  rw [exec_micaCommit, execMicaCommit, onCore_of_lt hp hc, hg]
  dsimp only
  rw [if_pos hr]

theorem execMicaRetry_agree (hp : p < 16) (hc : c < s.lcores p) (hg : s.getStage p c = some g) (hr : g.retry = true) :
    exec (.micaRetry p c .agree) s = .next ((((s.micaReran p c g).inc (MCA_RES.TRANS p c)).transRec p
      ((s.micaReran p c g).micaReport p c g .trans)).micaDone p c g) := by
  rw [exec_micaRetry, execMicaRetry, onCore_of_lt hp hc, hg]
  dsimp only
  rw [hr, Bool.not_true, if_neg Bool.false_ne_true]
  rfl

theorem execMicaRetry_mismatch (hp : p < 16) (hc : c < s.lcores p) (hg : s.getStage p c = some g) (hr : g.retry = true) :
    exec (.micaRetry p c (.mismatch f l)) s =
      .next (((s.micaReran p c g).wf (MCA_RES.LAST_OP p c) g.mop).micaPerm p c { g with lane := l, lanes := f }) := by
  rw [exec_micaRetry, execMicaRetry, onCore_of_lt hp hc, hg]
  dsimp only
  rw [if_neg (by rw [hr]; decide)]
  rfl

/-- A command that is not to be retried waits for its commit. -/
theorem execMicaRetry_first {res : Residue} (hp : p < 16) (hc : c < s.lcores p) (hg : s.getStage p c = some g) (hr : g.retry = false) :
    exec (.micaRetry p c res) s = .next s := by
  rw [exec_micaRetry, execMicaRetry, onCore_of_lt hp hc, hg]
  dsimp only
  rw [hr, Bool.not_false, if_pos rfl]

theorem execMicaIdleGate_idle (hp : p < 16) (hc : c < s.lcores p) (hi : s.rf (MCA_CFG.IDLE_OFF p c) ≠ 0)
    (hg : s.rf (MCA_STATUS.GATED p c) ≠ 1) (hs : s.getStage p c = none) (hq : (s.getQueue p c 1).entries = []) :
    exec (.micaIdleGate p c) s = .next ((s.wf (MCA_STATUS.GATED p c) 1).govRequest (.mica p c false)) := by
  rw [exec_micaIdleGate, execMicaIdleGate, onCore_of_lt hp hc, hs, hq, if_neg]
  rintro (h | h | h | h)
  · exact hi h
  · exact hg h
  · exact Bool.false_ne_true h
  · exact Bool.false_ne_true h

theorem execMicaIdleGate_kept (hp : p < 16) (hc : c < s.lcores p) (h : s.rf (MCA_CFG.IDLE_OFF p c) = 0 ∨
    s.rf (MCA_STATUS.GATED p c) = 1 ∨ (s.getStage p c).isSome = true ∨ (s.getQueue p c 1).entries ≠ []) :
    exec (.micaIdleGate p c) s = .next s := by
  have hq : (s.getQueue p c 1).entries ≠ [] ↔ (!(s.getQueue p c 1).entries.isEmpty) = true := by
    rw [Bool.not_eq_true', ← Bool.not_eq_true, List.isEmpty_iff]
  rw [hq] at h
  rw [exec_micaIdleGate, execMicaIdleGate, onCore_of_lt hp hc, if_pos h]

end
end Sys2Proof.Machine

open Sys2Proof Sys2Proof.Machine

/-- Settles O33: commit and retry by the residues, what a commit writes and leaves, and the gating of an idle Mica. -/
theorem micaCommitsAndRetries : Obligations.MicaCommitsAndRetries := by
  unfold Obligations.MicaCommitsAndRetries
  refine ⟨fun s p c waited f l g hp hc hg => ?_,
    fun s p c waited res hp hc hg => ⟨execMicaCommit_none hp hc hg, execMicaRetry_none hp hc hg⟩,
    fun s p c g ht hs => ?_,
    fun s p c hp hc hi hg hs hq => execMicaIdleGate_idle hp hc hi hg hs hq,
    fun s p c hp hc h => execMicaIdleGate_kept hp hc h⟩
  · exact ⟨execMicaCommit_agree hp hc hg, execMicaCommit_mismatch hp hc hg, execMicaCommit_retry hp hc hg, execMicaRetry_agree hp hc hg,
      execMicaRetry_mismatch hp hc hg, execMicaRetry_first hp hc hg⟩
  · refine ⟨fun k hk => ?_, fun l r k v hw hr => ?_, ?_, State.micaDone_frame rfl⟩
    · rw [State.treg_micaDone]
      exact Tbl.get_setAll_of_forall_ne ht fun e he => (hk e he).symm
    · rw [State.treg_micaDone, hw]
      exact Tbl.get_setAll_last ht hr
    · rw [State.getStage, State.stage_micaDone]
      exact Tbl.get_set_same _ _ hs

end

section
namespace Sys2Proof.Machine

/-! ### The encoding of the command extension (R145) -/

section
variable {w f7 rs2 f3 rd rs1 : Nat} {e : Ext} {i : RInstr}

theorem Ext.funct3_lt (e : Ext) : e.funct3 < 8 := by unfold Ext.funct3; split <;> decide

/-- The engines, slots and modes that R145 permits are below 8. -/
theorem Ext.funct7_lt (h : e.ok = true) : e.funct7 < 8 := by
  cases e with
  | sumrd n => exact of_decide_eq_true h
  | tque k | twait k => exact (of_decide_eq_true h).trans (by decide)
  | mode m => exact (of_decide_eq_true h).trans (by decide)
  | seedld | stepb => decide

/-- The extension decodes the fields of its own instructions, and no others. -/
theorem decExt_eq_some_iff : decExt f7 rs2 f3 rd rs1 = some i ↔
    rs2 = 0 ∧ ∃ e : Ext, e.ok = true ∧ e.funct3 = f3 ∧ e.funct7 = f7 ∧ i = .ext e rd rs1 := by
  constructor
  · intro h
    obtain ⟨h0, h⟩ := Option.ite_none_left_eq_some.mp h
    obtain ⟨e, he, rfl⟩ := Option.map_eq_some_iff.mp h
    refine ⟨not_not.mp h0, e, ?_⟩
    split at he
    case h_1 | h_2 | h_3 | h_4 =>
      obtain ⟨hf, he⟩ := Option.ite_none_right_eq_some.mp he
      cases he
      exact ⟨decide_eq_true hf, rfl, rfl, rfl⟩
    case h_5 | h_6 =>
      obtain ⟨hf, he⟩ := Option.ite_none_right_eq_some.mp he
      cases he
      exact ⟨rfl, rfl, hf.symm, rfl⟩
    case h_7 => cases he
  · rintro ⟨rfl, e, hok, rfl, rfl, rfl⟩
    unfold decExt
    dsimp only
    rw [if_neg (not_not.mpr rfl), Option.map_eq_some_iff]
    refine ⟨e, ?_, rfl⟩
    cases e with
    | tque k | twait k | sumrd k | mode k => exact if_pos (of_decide_eq_true hok)
    | seedld | stepb => rfl

/-- A 32-bit word is made of its six fields. -/
theorem eq_fields (hw : w < 2 ^ 32) : w = bits w 0 7 + bits w 7 5 * 2 ^ 7 + bits w 12 3 * 2 ^ 12 + bits w 15 5 * 2 ^ 15 +
    bits w 20 5 * 2 ^ 20 + bits w 25 7 * 2 ^ 25 := by
  unfold bits
  omega

theorem fields_encodeExt (hok : e.ok = true) (hd : rd < 32) (hs : rs1 < 32) :
    bits (encodeExt e rd rs1) 0 7 = 0x0B ∧ bits (encodeExt e rd rs1) 7 5 = rd ∧ bits (encodeExt e rd rs1) 12 3 = e.funct3 ∧
      bits (encodeExt e rd rs1) 15 5 = rs1 ∧ bits (encodeExt e rd rs1) 20 5 = 0 ∧ bits (encodeExt e rd rs1) 25 7 = e.funct7 := by
  have h3 := e.funct3_lt
  have h7 := Ext.funct7_lt hok
  unfold bits encodeExt
  omega

/-- Opcode custom-0 is the extension's. -/
theorem decode32_custom0 (h : bits w 0 7 = 0x0B) :
    decode32 w = decExt (bits w 25 7) (bits w 20 5) (bits w 12 3) (bits w 7 5) (bits w 15 5) := by
  unfold decode32
  rw [h]
  rfl

theorem decOpImm_ne_ext {word : Bool} : decOpImm word w rd rs1 f3 ≠ some (.ext e f7 rs2) := by
  unfold decOpImm
  dsimp only
  repeat' split
  all_goals nofun

/-- No other opcode decodes to an instruction of the extension. -/
theorem custom0_of_decode32 (h : decode32 w = some (.ext e rd rs1)) : bits w 0 7 = 0x0B := by
  unfold decode32 at h
  dsimp only at h
  split at h
  case h_1 | h_2 | h_3 | h_15 => cases h
  case h_4 | h_6 | h_7 | h_12 =>
    obtain ⟨-, h⟩ := Option.ite_none_right_eq_some.mp h
    cases h
  case h_5 | h_10 | h_11 =>
    obtain ⟨_, -, h⟩ := Option.map_eq_some_iff.mp h
    cases h
  case h_8 | h_9 => exact absurd h decOpImm_ne_ext
  case h_13 => split_ifs at h <;> cases h
  case h_14 heq => exact heq

theorem decode32_encodeExt (hok : e.ok = true) (hd : rd < 32) (hs : rs1 < 32) : decode32 (encodeExt e rd rs1) = some (.ext e rd rs1) := by
  obtain ⟨h0, hrd, h3, hrs, h2, h7⟩ := fields_encodeExt hok hd hs
  rw [decode32_custom0 h0, hrd, h3, hrs, h2, h7]
  exact decExt_eq_some_iff.mpr ⟨rfl, e, hok, rfl, rfl, rfl⟩

/-- Whatever a word of opcode custom-0 decodes to, it is that instruction's word. -/
theorem eq_encodeExt_of_custom0 (hw : w < 2 ^ 32) (h0 : bits w 0 7 = 0x0B) (h : decode32 w = some i) :
    ∃ e : Ext, i = .ext e (bits w 7 5) (bits w 15 5) ∧ w = encodeExt e (bits w 7 5) (bits w 15 5) ∧ e.ok = true := by
  rw [decode32_custom0 h0, decExt_eq_some_iff] at h
  obtain ⟨h2, e, hok, h3, h7, rfl⟩ := h
  refine ⟨e, rfl, ?_, hok⟩
  rw [encodeExt, h3, h7]
  have hf := eq_fields hw
  rwa [h0, h2, Nat.zero_mul, Nat.add_zero] at hf

theorem bits_lt (n lo k : Nat) : bits n lo k < 2 ^ k := Nat.mod_lt _ (Nat.two_pow_pos k)

/-- A word of four bytes at the pc, in IMEM, is fetched as it decodes. -/
theorem fetchAt_word {f : Flint} {o : Nat} (hpc : f.pc.toNat = imemBase + o) (ho : o < 0xFFFE)
    (hw : imem16 f o + 65536 * imem16 f (o + 2) = w) (h3 : w % 4 = 3) :
    fetchAt f = (decode32 w).elim .illegal (.instr · 4) := by
  have hlo : ¬ (imemBase + o < imemBase ∨ imemBase + 0xFFFE < imemBase + o) := by omega
  have h4 : ¬ imem16 f o % 4 ≠ 3 := by omega
  unfold fetchAt
  dsimp only
  rw [hpc, if_neg hlo, Nat.add_sub_cancel_left, if_neg h4, if_neg (Nat.not_le.mpr ho), hw]
  cases decode32 w <;> rfl

end
end Sys2Proof.Machine

open Sys2Proof Sys2Proof.Machine

/-- Settles O23: the fields of an extension word are read back, and make the word. -/
theorem extensionEncodingRoundTrips : Obligations.ExtensionEncodingRoundTrips := by
  unfold Obligations.ExtensionEncodingRoundTrips
  refine ⟨fun e rd rs1 => decode32_encodeExt, fun w rd rs1 e hw h => ?_, fun w hw h0 => ?_, fun f w o hpc ho hw h0 => ?_, rfl⟩
  · obtain ⟨e', hi, he, hok⟩ := eq_encodeExt_of_custom0 hw (custom0_of_decode32 h) h
    cases hi
    exact ⟨he, hok, bits_lt w 7 5, bits_lt w 15 5⟩
  · cases h : decode32 w with
    | none => exact .inl rfl
    | some i =>
      obtain ⟨e, -, he, hok⟩ := eq_encodeExt_of_custom0 hw (by rwa [bits, pow_zero, Nat.div_one]) h
      exact .inr ⟨e, _, _, he, hok, bits_lt w 7 5, bits_lt w 15 5⟩
  · exact (fetchAt_word hpc ho hw (by omega)).trans (by cases decode32 w <;> rfl)
end

section
namespace Sys2Proof.Machine

/-! ### ECALL, EBREAK and halts (R143) -/

section
variable {s : State} {p c len : Nat}

theorem execEcall_halts (hp : p < 16) (hc : c < s.lcores p) (h : s.nextInstr p c = some (.ecall, len)) :
    exec (.ecall p c) s = .next (s.haltFlint p c hDONE) := by
  rw [exec_ecall, execEcall, onCore_of_lt hp hc, h]

theorem execEbreak_halts (hp : p < 16) (hc : c < s.lcores p) (h : s.nextInstr p c = some (.ebreak, len)) :
    exec (.ebreak p c) s = .next (s.haltFlint p c hBREAK) := by
  rw [exec_ebreak, execEbreak, onCore_of_lt hp hc, h]

theorem execEcall_other (hp : p < 16) (hc : c < s.lcores p) (h : ∀ len, s.nextInstr p c ≠ some (.ecall, len)) :
    exec (.ecall p c) s = .next s := by
  rw [exec_ecall, execEcall, onCore_of_lt hp hc]
  split
  · next len e => exact absurd e (h len)
  · rfl

theorem execEbreak_other (hp : p < 16) (hc : c < s.lcores p) (h : ∀ len, s.nextInstr p c ≠ some (.ebreak, len)) :
    exec (.ebreak p c) s = .next s := by
  rw [exec_ebreak, execEbreak, onCore_of_lt hp hc]
  split
  · next len e => exact absurd e (h len)
  · rfl

end
end Sys2Proof.Machine

open Sys2Proof Sys2Proof.Machine

/-- Settles O21: each command by the instruction at the pc; a fault is a halt, its record and the abort wave by definition. -/
theorem flintHalts : Obligations.FlintHalts :=
  ⟨fun _ _ _ _ => execEcall_halts, fun _ _ _ _ => execEbreak_halts, fun _ _ _ => execEcall_other, fun _ _ _ => execEbreak_other,
    fun _ _ _ _ => rfl, fun _ _ _ _ => rfl⟩

end

section
namespace Sys2Proof.Machine

/-! ### Sequence numbers (R147) -/

/-- A key that is dropped reads as unlisted, whatever the order of the table. -/
theorem Tbl.get_drop_self {α : Type} {d : α} {f : Nat → Bool} {k : Nat} (hk : f k = true) (t : Tbl α) : Tbl.get d (Tbl.drop f t) k = d := by
  induction t with
  | nil => rfl
  | cons e t ih =>
    unfold Tbl.drop at ih ⊢
    by_cases hf : f e.1 = true
    · rwa [List.filter_cons_of_neg (by simpa using hf)]
    · have hne : e.1 ≠ k := fun h => hf (h ▸ hk)
      rw [List.filter_cons_of_pos (by simpa using hf), Tbl.get, if_neg hne, ih, ite_self]

section
variable {s : State} {p c e : Nat}

theorem qIssued_rst (p c e : Nat) : (qIssued p c e).rst = 0 := by unfold qIssued; split <;> rfl

/-- The numbers issued lie in the registers of Flint. -/
theorem cellOff_qIssued (hc : c < 8) :
    ∃ off, cellOff p (qIssued p c e).cell = some off ∧ 0x03000000 ≤ off ∧ off < 0x04000000 := by
  have hk := qIssued_key p c e
  have hcell : (qIssued p c e).cell / 64 = (qIssued p c e).key := by rw [Fld.cell, qIssued_lo, Nat.add_zero, Nat.mul_div_cancel _ (by decide)]
  unfold regKey at hk
  rw [cellOff, hcell, if_pos (by unfold regKey; omega)]
  exact ⟨_, rfl, by unfold regKey; omega, by unfold regKey; omega⟩

/-- A partition reset keeps no register of Flint. -/
theorem keptField_flint {off : Nat} (hlo : 0x03000000 ≤ off) (hhi : off < 0x04000000) (retenant : Bool) (lo : Nat) :
    keptField retenant off lo = false := by
  unfold keptField
  rw [if_neg (by omega), if_neg (by omega), if_neg (by omega), if_neg (by omega), if_neg (by omega)]

/-- After CLEAR no number has been issued. -/
theorem State.issued_clearPartition (hc : c < 8) (retenant : Bool) : (s.clearPartition p retenant).rf (qIssued p c e) = 0 := by
  obtain ⟨off, hoff, hlo, hhi⟩ := cellOff_qIssued (p := p) (e := e) hc
  rw [State.rf, qIssued_rst]
  unfold State.clearPartition
  dsimp only
  refine Tbl.get_drop_self ?_ _
  simp only [hoff, keptField_flint hlo hhi, Bool.not_false]

theorem State.doneOf_empty (h : (s.getQueue p c e).entries = []) : s.doneOf p c e = s.rf (qIssued p c e) := by
  rw [State.doneOf, h]

theorem State.doneOf_cons {x : QEntry} {rest : List QEntry} (h : (s.getQueue p c e).entries = x :: rest) :
    s.doneOf p c e = (x.seq + 2 ^ 24 - 1) % 2 ^ 24 := by
  rw [State.doneOf, h]
  rfl

/-- A sequence number is covered when the done value is less than 2^23 ahead of it. -/
theorem seqCovers_iff {d sq : Nat} (hsq : sq < 2 ^ 24) : seqCovers d sq = true ↔ ((d : Int) - (sq : Int)) % 2 ^ 24 < 2 ^ 23 := by
  rw [seqCovers, decide_eq_true_eq, seqMod]
  omega

end
end Sys2Proof.Machine

open Sys2Proof Sys2Proof.Machine

/-- Settles O22: CLEAR drops the cells of the numbers issued, enqueuing writes the next number, and the done value is read off the
oldest entry. -/
theorem sequenceNumbersComplete : Obligations.SequenceNumbersComplete := by
  unfold Obligations.SequenceNumbersComplete
  refine ⟨fun s p c e r hp hc he hf => ⟨State.issued_clearPartition hc r, ?_⟩, fun s p c e k he hf => ⟨?_, State.issued_enqueue hf k⟩,
    fun s p c e => State.doneOf_empty, fun s p c e x rest => State.doneOf_cons, fun s p c e sq => seqCovers_iff⟩
  · rw [State.rf_reset, qIssued_rst]
  · exact State.enqueue_number s p c e k

end

section
namespace Sys2Proof.Machine

/-! ### FLINT_BASE_INSTRUCTION (R138, R139, R143, R144) -/

section
variable {s : State} {p c cycles len : Nat} {i : RInstr}

theorem execFlintBaseInstruction_base (hp : p < 16) (hc : c < s.lcores p) (h : s.issues p c = true)
    (hi : fetchAt (s.getFlint p c) = .instr i len) (hb : isBase (s.getFlint p c) i = true) :
    exec (.flintBaseInstruction p c cycles) s = .next ((s.addf (FLT_CYC_RUN.CYCLES p c) cycles).baseInstr p c i len) := by
  rw [exec_flintBaseInstruction, execFlintBaseInstruction, onCore_of_lt hp hc, h, hi]
  exact congrArg _ (if_pos hb)

theorem execFlintBaseInstruction_other (hp : p < 16) (hc : c < s.lcores p) (h : s.issues p c = true)
    (hi : fetchAt (s.getFlint p c) = .instr i len) (hb : isBase (s.getFlint p c) i = false) :
    exec (.flintBaseInstruction p c cycles) s = .next s := by
  rw [exec_flintBaseInstruction, execFlintBaseInstruction, onCore_of_lt hp hc, h, hi]
  exact congrArg _ (if_neg (ne_true_of_eq_false hb))

theorem execFlintBaseInstruction_fault (hp : p < 16) (hc : c < s.lcores p) (h : s.issues p c = true)
    (hi : fetchAt (s.getFlint p c) = .fault) :
    exec (.flintBaseInstruction p c cycles) s = .next ((s.addf (FLT_CYC_RUN.CYCLES p c) cycles).flintFault p c hACCESS) := by
  rw [exec_flintBaseInstruction, execFlintBaseInstruction, onCore_of_lt hp hc, h, hi]
  rfl

theorem execFlintBaseInstruction_illegal (hp : p < 16) (hc : c < s.lcores p) (h : s.issues p c = true)
    (hi : fetchAt (s.getFlint p c) = .illegal) :
    exec (.flintBaseInstruction p c cycles) s = .next ((s.addf (FLT_CYC_RUN.CYCLES p c) cycles).flintFault p c hILLEGAL) := by
  rw [exec_flintBaseInstruction, execFlintBaseInstruction, onCore_of_lt hp hc, h, hi]
  rfl

theorem execFlintBaseInstruction_idle (hp : p < 16) (hc : c < s.lcores p) (h : s.issues p c = false) :
    exec (.flintBaseInstruction p c cycles) s = .next s := by
  rw [exec_flintBaseInstruction, execFlintBaseInstruction, onCore_of_lt hp hc, h]
  rfl

end

/-- A Flint that has `v` in `rd`, but for x0, and goes on at `pc`. -/
def Flint.wrote (f : Flint) (rd : Nat) (v pc : Word64) : Flint := { f with x := if rd = 0 then f.x else f.x.set 0#64 rd v, pc := pc }

section
variable {s : State} {p c rd len : Nat} {v pc : Word64}

theorem State.setPcF_flintReg (h : Tbl.sortedFrom 0 s.flint = true) :
    (s.flintReg p c rd v).setPcF p c pc = s.setFlint p c ((s.getFlint p c).wrote rd v pc) := by
  unfold State.flintReg State.setPcF Flint.wrote
  by_cases h0 : rd = 0
  · simp only [if_pos h0]
  · simp only [if_neg h0, State.getFlint_setFlint_same h, State.setFlint_setFlint h]

theorem State.setPcF_eq : s.setPcF p c pc = s.setFlint p c ((s.getFlint p c).wrote 0 0#64 pc) := rfl

theorem State.wrNext_wrote (h : Tbl.sortedFrom 0 s.flint = true) :
    s.wrNext p c rd v len = s.setFlint p c ((s.getFlint p c).wrote rd v ((s.getFlint p c).pc + BitVec.ofNat 64 len)) := State.wrNext_eq h

/-- A state in which a Flint has written a register and gone on differs by that register and the pc. -/
theorem State.setFlint_wrote {t : State} (hs : Tbl.sortedFrom 0 s.flint = true) (hx : Tbl.sortedFrom 0 (s.getFlint p c).x = true)
    (h : t = s.setFlint p c ((s.getFlint p c).wrote rd v pc)) :
    t = { s with flint := t.flint } ∧ t.getFlint p c = { s.getFlint p c with x := (t.getFlint p c).x, pc := pc } ∧
      ∀ r, xreg (t.getFlint p c) r = if r = rd ∧ rd ≠ 0 then v else xreg (s.getFlint p c) r := by
  have hg : t.getFlint p c = (s.getFlint p c).wrote rd v pc := h ▸ State.getFlint_setFlint_same hs
  rw [hg]
  exact ⟨h ▸ rfl, rfl, fun r => xreg_set hx r pc⟩

end

/-! ### Division by zero (log entry 32) -/

section
variable {n : Nat} (a : BitVec n)

theorem udivR_zero : udivR a 0#n = BitVec.allOnes n := if_pos rfl
theorem sdivR_zero : sdivR a 0#n = BitVec.allOnes n := if_pos rfl
theorem uremR_zero : uremR a 0#n = a := if_pos rfl
theorem sremR_zero : sremR a 0#n = a := if_pos rfl

end

/-! ### Loads and stores of DMEM (R139) -/

theorem target_dmem {a : Nat} (hlo : dmemBase ≤ a) (hhi : a < dmemBase + 0x10000) : target a = .dmem (a - dmemBase) := by
  have hp : ¬ a < 2 ^ 48 := by unfold dmemBase at hlo; omega
  rw [target, if_neg hp, if_neg fun h => Nat.not_le.mpr h.2 hlo, if_pos ⟨hlo, hhi⟩]

section
variable {s : State} {p c len sz rd a b : Nat} {sg : Bool} {o : Word64}

theorem State.baseInstr_load_dmem (hlo : dmemBase ≤ (xreg (s.getFlint p c) a + o).toNat)
    (hhi : (xreg (s.getFlint p c) a + o).toNat < dmemBase + 0x10000) (ha : (xreg (s.getFlint p c) a + o).toNat % 2 ^ sz = 0) :
    s.baseInstr p c (.load sz sg rd a o) len = s.wrNext p c rd
      (extLoad sz sg (tblBytes (s.getFlint p c).dmem ((xreg (s.getFlint p c) a + o).toNat - dmemBase) (2 ^ sz))) len := by
  unfold State.baseInstr
  dsimp only
  rw [target_dmem hlo hhi]
  exact if_neg (not_not.mpr ha)

theorem State.baseInstr_store_dmem (hlo : dmemBase ≤ (xreg (s.getFlint p c) a + o).toNat)
    (hhi : (xreg (s.getFlint p c) a + o).toNat < dmemBase + 0x10000) (ha : (xreg (s.getFlint p c) a + o).toNat % 2 ^ sz = 0) :
    s.baseInstr p c (.store sz a b o) len = s.setFlint p c { s.getFlint p c with
      dmem := putBytes (s.getFlint p c).dmem ((xreg (s.getFlint p c) a + o).toNat - dmemBase)
        (leBytes (2 ^ sz) (xreg (s.getFlint p c) b).toNat)
      pc := (s.getFlint p c).pc + BitVec.ofNat 64 len } := by
  unfold State.baseInstr
  dsimp only
  rw [target_dmem hlo hhi]
  exact if_neg (not_not.mpr ha)

end
end Sys2Proof.Machine

open Sys2Proof Sys2Proof.Machine

/-- Settles O19: what is at the pc decides the command; each base instruction but an access writes one register, or x0, and the pc. -/
theorem flintBaseInstructionExecutes : Obligations.FlintBaseInstructionExecutes := by
  unfold Obligations.FlintBaseInstructionExecutes
  refine ⟨fun s p c cycles hp hc h => ⟨fun i len => execFlintBaseInstruction_base hp hc h, fun i len => execFlintBaseInstruction_other hp hc h,
      execFlintBaseInstruction_fault hp hc h, execFlintBaseInstruction_illegal hp hc h⟩,
    fun s p c cycles => execFlintBaseInstruction_idle, fun s p c len i hs hx => ?_,
    fun s p c len sz a b o => State.baseInstr_store_dmem, fun s p c len sz rd a sg o => State.baseInstr_load_dmem,
    fun a b => ⟨rfl, rfl, rfl, udivR_zero a, sdivR_zero a, sremR_zero a, uremR_zero a, rfl⟩⟩
  intro f t g next writes
  refine ⟨?_, ?_, ?_, ?_, ?_, ?_, ?_, ?_⟩
  · rintro o w rd a b rfl
    exact State.setFlint_wrote hs hx (State.wrNext_wrote hs)
  · rintro o w rd a v rfl
    exact State.setFlint_wrote hs hx (State.wrNext_wrote hs)
  · rintro rd v rfl
    exact State.setFlint_wrote hs hx (State.wrNext_wrote hs)
  · rintro rd v rfl
    exact State.setFlint_wrote hs hx (State.wrNext_wrote hs)
  · rintro rd o rfl
    exact State.setFlint_wrote hs hx (State.setPcF_flintReg hs)
  · rintro rd a o rfl
    exact State.setFlint_wrote hs hx (State.setPcF_flintReg hs)
  · rintro k a b o rfl
    exact State.setFlint_wrote hs hx State.setPcF_eq
  · rintro rfl
    exact State.setFlint_wrote hs hx State.setPcF_eq

end

section
namespace Sys2Proof.Machine

/-! ## Mover copies and their segments (R159, R172, R193–R196) -/

/-! ### MOVER_COPY -/

section
variable {s u : State} {p c sq : Nat} {es : List EccWord} {x : QEntry} {ws : List Word64}

/-- Whether a copy's words are refused whatever they name: reserved bits set, a kind outside its values, or stream to stream (log
entry 41). -/
def VCmd.malformed (m : VCmd) : Prop := m.rsv = false ∨ m.skind = 3 ∨ m.dkind = 3 ∨ (m.skind = 2 ∧ m.dkind = 2)

/-- A copy from or to a stream, once its entry has started. -/
def State.startStream (s : State) (p c sq : Nat) (ws : List Word64) (es : List EccWord) : State :=
  let m := moverCmd ws
  if !s.handleOk p m.handle then s.finish p c 2 sq stSTALE
  else if (s.getCtx (m.handle % 2 ^ 18)).state ≠ 1 then s.finish p c 2 sq stABORTED
  else if m.dkind = 2 then s.startSend p c sq (m.handle % 2 ^ 18) ws es
  else s.startReceive p c sq (m.handle % 2 ^ 18) ws

/-- What MOVER_COPY makes of a started entry, before the core's queues are brought up to date. -/
def State.startCopy (s : State) (p c sq : Nat) (ws : List Word64) (es : List EccWord) : State :=
  let m := moverCmd ws
  if !m.rsv ∨ m.skind = 3 ∨ m.dkind = 3 ∨ (m.skind = 2 ∧ m.dkind = 2) then s.finish p c 2 sq stCHECKFAIL
  else if m.skind ≠ 2 ∧ m.dkind ≠ 2 then s.startLocal p c sq ws es
  else s.startStream p c sq ws es

/-- MOVER_COPY names the oldest unstarted entry, a well-formed copy whose waits allow: it starts unless it reads a block being
written. -/
theorem execMoverCopy_eq (hp : p < 16) (hc : c < s.lcores p) (hn : s.nextEntry p c 2 = some x) (hk : x.kind = .cmd ws) (hs : x.seq = sq)
    (ha : s.canStart p c x = true) (hw : w0Ok 2 ws = true) : exec (.moverCopy p c sq es) s = .next (
      if s.copyWaits p c (moverCmd ws) = true then s else ((s.start p c 2 sq).startCopy p c sq ws es).settle p c) := by
  rw [exec_moverCopy, execMoverCopy, onCore_of_lt hp hc, hn]
  dsimp only
  rw [hk]
  dsimp only
  simp only [hs, ha, hw, ne_eq, not_true_eq_false, Bool.not_true, Bool.false_eq_true, false_or]
  rfl

theorem execMoverCopy_none (hp : p < 16) (hc : c < s.lcores p) (hn : s.nextEntry p c 2 = none) :
    exec (.moverCopy p c sq es) s = .next s := by
  rw [exec_moverCopy, execMoverCopy, onCore_of_lt hp hc, hn]

theorem State.startCopy_malformed (h : (moverCmd ws).malformed) : s.startCopy p c sq ws es = s.finish p c 2 sq stCHECKFAIL :=
  if_pos (h.imp_left fun h => by rw [h]; rfl)

theorem State.startCopy_local (h : ¬ (moverCmd ws).malformed) (hk : (moverCmd ws).skind ≠ 2) (hd : (moverCmd ws).dkind ≠ 2) :
    s.startCopy p c sq ws es = s.startLocal p c sq ws es :=
  (if_neg fun hb => h (hb.imp_left fun hb => (Bool.not_eq_true' _).mp hb)).trans (if_pos ⟨hk, hd⟩)

theorem State.startCopy_stream (h : ¬ (moverCmd ws).malformed) (hk : (moverCmd ws).skind = 2 ∨ (moverCmd ws).dkind = 2) :
    s.startCopy p c sq ws es = s.startStream p c sq ws es :=
  (if_neg fun hb => h (hb.imp_left fun hb => (Bool.not_eq_true' _).mp hb)).trans (if_neg fun hl => hk.elim hl.1 hl.2)

theorem State.startStream_stale (h : s.handleOk p (moverCmd ws).handle = false) :
    s.startStream p c sq ws es = s.finish p c 2 sq stSTALE := if_pos (by rw [h]; rfl)

theorem State.startStream_closed (h : s.handleOk p (moverCmd ws).handle = true)
    (hc : (s.getCtx ((moverCmd ws).handle % 2 ^ 18)).state ≠ 1) : s.startStream p c sq ws es = s.finish p c 2 sq stABORTED :=
  (if_neg (by rw [h]; decide)).trans (if_pos hc)

theorem State.startStream_open (h : s.handleOk p (moverCmd ws).handle = true)
    (hc : (s.getCtx ((moverCmd ws).handle % 2 ^ 18)).state = 1) : s.startStream p c sq ws es =
      if (moverCmd ws).dkind = 2 then s.startSend p c sq ((moverCmd ws).handle % 2 ^ 18) ws es
      else s.startReceive p c sq ((moverCmd ws).handle % 2 ^ 18) ws :=
  (if_neg (by rw [h]; decide)).trans (if_neg (not_not.mpr hc))

end

/-! ### Copies inside the partition -/

section
variable {s v : State} {p c sq a st : Nat} {es : List EccWord} {ws : List Word64}

/-- A copy that is permitted has permitted descriptors and no protected destination. -/
theorem State.shape_of_copyOk {m : VCmd} (h : s.copyOk p c m = true) : s.copyShape p c m = true ∧ s.protectedDst p c m = none := by
  unfold State.copyOk at h
  dsimp only at h
  rw [Bool.and_eq_true, Bool.and_eq_true, Option.isNone_iff_eq_none] at h
  exact h.1

theorem State.not_copyOk_of_shape {m : VCmd} (h : s.copyShape p c m = false) : s.copyOk p c m = false :=
  Bool.eq_false_iff.mpr fun hk => Bool.eq_false_iff.mp h (State.shape_of_copyOk hk).1

/-- The state once a permitted shape's protected destination has drawn its bus error. -/
def State.dstChecked (s : State) (p c : Nat) (m : VCmd) : State :=
  match (if s.copyShape p c m then s.protectedDst p c m else none) with
  | some a => s.busErr p a
  | none => s

theorem State.dstChecked_misshapen {m : VCmd} (h : s.copyShape p c m = false) : s.dstChecked p c m = s := by
  unfold State.dstChecked
  rw [if_neg (ne_true_of_eq_false h)]

theorem State.dstChecked_protected {m : VCmd} (h : s.copyShape p c m = true) (ha : s.protectedDst p c m = some a) :
    s.dstChecked p c m = s.busErr p a := by
  unfold State.dstChecked
  rw [if_pos h, ha]

theorem State.dstChecked_free {m : VCmd} (h : s.copyShape p c m = true) (ha : s.protectedDst p c m = none) : s.dstChecked p c m = s := by
  unfold State.dstChecked
  rw [if_pos h, ha]

/-- A copy that is not permitted fails, after the bus error of a protected destination. -/
theorem State.startLocal_refused {u : State} (hu : s.dstChecked p c (moverCmd ws) = u) (hk : u.copyOk p c (moverCmd ws) = false) :
    s.startLocal p c sq ws es = u.finish p c 2 sq stCHECKFAIL := by
  subst hu
  exact if_pos (by rw [Bool.not_eq_true']; exact hk)

/-- The state once the suppressed writes of a copy inside the partition are counted (R183). -/
def State.oobCounted (s : State) (p c : Nat) (m : VCmd) : State :=
  s.addf (TLM_OOB_WR.ELEMS p c) (m.region.filter (fun rc => (s.opnd p c m.ddesc).d.oob rc.1 rc.2)).length

/-- The read of the map and metadata blocks with which a permitted copy begins. -/
def State.startReads (s : State) (p c : Nat) (m : VCmd) (es : List EccWord) : State × Nat :=
  (s.oobCounted p c m).verify p (s.tileUnit p c) (blocksOfAddrs (s.localMaps p c m ++ s.localMetas p c m)) es

/-- A permitted copy whose first reads verify is cut into segments; one without positions inside its destination has none, and one
whose elements are all pruned has an empty one. -/
def State.cutLocal (s v : State) (p c sq : Nat) (ws : List Word64) : State :=
  let m := moverCmd ws
  let cs := v.cellsOf (s.opnd p c m.sdesc) (s.opnd p c m.ddesc) m
  let blocks := ascending ((pieces cs).map (fun q => q.dst / 2048))
  v.cutCopy p ⟨c, sq, ws, s.copyWords p m.sdesc, s.copyWords p m.ddesc, carries (pieces cs), 0, v.mapCopy p (s.localMaps p c m)⟩
    (if blocks = [] ∧ cs ≠ [] then [⟨c, sq, [], 0, true⟩] else segmentsOf c sq blocks)

/-- A permitted copy goes by what its first reads find. -/
theorem State.startLocal_eq (hk : s.copyOk p c (moverCmd ws) = true) (hv : s.startReads p c (moverCmd ws) es = (v, st)) :
    s.startLocal p c sq ws es =
      if st ≠ 0 then v.finish p c 2 sq st
      else if !rawCopy (s.opnd p c (moverCmd ws).sdesc) (s.opnd p c (moverCmd ws).ddesc) &&
        (moverCmd ws).region.any (fun rc => !s.metaOk (s.opnd p c (moverCmd ws).ddesc) rc.1 rc.2) then s.finish p c 2 sq stCHECKFAIL
      else s.cutLocal v p c sq ws := by
  obtain ⟨hshape, hdst⟩ := State.shape_of_copyOk hk
  have hok : ¬ (!s.copyOk p c (moverCmd ws)) = true := by rw [hk]; decide
  unfold State.startReads State.oobCounted at hv
  unfold State.startLocal
  simp only [hshape, hdst, if_true]
  rw [if_neg hok, hv]
  rfl

/-- Metadata out of order fails a copy that does not move stored fields as they are (R512). -/
theorem State.metaUnordered_iff {o d : Opnd} {m : VCmd} :
    (!rawCopy o d && m.region.any (fun rc => !s.metaOk d rc.1 rc.2)) = true ↔
      rawCopy o d = false ∧ ∃ rc ∈ m.region, s.metaOk d rc.1 rc.2 = false := by
  simp only [Bool.and_eq_true, Bool.not_eq_true', List.any_eq_true]

end

/-! ### Copies to and from streams (R282) -/

section
variable {s v : State} {p c sq idx st n g : Nat} {es : List EccWord} {ws dd : List Word64} {gs : List Nat} {x : Copy}

theorem State.startSend_refused
    (h : s.streamOk (s.opnd p c (moverCmd ws).sdesc) (moverCmd ws).sdesc (moverCmd ws).skind (moverCmd ws) = false) :
    s.startSend p c sq idx ws es = s.finish p c 2 sq stCHECKFAIL := if_pos (by rw [Bool.not_eq_true']; exact h)

/-- The read of the map blocks with which a copy to a stream begins. -/
def State.sendReads (s : State) (p c : Nat) (m : VCmd) (es : List EccWord) : State × Nat :=
  s.verify p (s.tileUnit p c) (blocksOfAddrs ((s.opnd p c m.sdesc).mapAddrs ((s.opnd p c m.sdesc).within m))) es

/-- The state `v` after those reads of `s`, once the clamped reads are counted (R182). -/
def State.clampCounted (s v : State) (p c : Nat) (m : VCmd) : State :=
  v.addf (TLM_CLAMP_RD.ELEMS p c) (m.outside (s.opnd p c m.sdesc)).length

/-- That state with the copy remembered. -/
def State.sendHeld (s v : State) (p c sq : Nat) (ws : List Word64) : State :=
  let m := moverCmd ws
  let u := s.clampCounted v p c m
  u.holdCopy p ⟨c, sq, ws, u.copyWords p m.sdesc, [], true, 0,
    u.mapCopy p ((s.opnd p c m.sdesc).mapAddrs ((s.opnd p c m.sdesc).within m))⟩

/-- The blocks that a copy to a stream sends. -/
def State.sendCount (s : State) (p c : Nat) (m : VCmd) : Nat := ((s.opnd p c m.sdesc).windowBlocks m).length

/-- A copy to a stream of `n` blocks is served by the grant that came before it, if no other send waits, and else waits (R282). -/
def State.askGrant (s : State) (p c sq idx n : Nat) (a : CtxAux) : State :=
  match a.sends, a.grants with
  | [], g :: gs => (s.setAux idx { a with grants := gs }).serveSend p c sq n g
  | _, _ => s.setAux idx { a with sends := a.sends ++ [(c, sq, n)] }

theorem State.askGrant_served {a : CtxAux} (hs : a.sends = []) (hg : a.grants = g :: gs) :
    s.askGrant p c sq idx n a = (s.setAux idx { a with grants := gs }).serveSend p c sq n g := by
  rw [State.askGrant, hs, hg]

theorem State.askGrant_waits {a : CtxAux} (h : a.sends ≠ [] ∨ a.grants = []) :
    s.askGrant p c sq idx n a = s.setAux idx { a with sends := a.sends ++ [(c, sq, n)] } := by
  unfold State.askGrant
  split
  · next hs hg => exact h.elim (absurd hs) fun hn => nomatch hg.symm.trans hn
  · rfl

section
variable (h : s.streamOk (s.opnd p c (moverCmd ws).sdesc) (moverCmd ws).sdesc (moverCmd ws).skind (moverCmd ws) = true)
include h

theorem State.startSend_fails (hv : s.sendReads p c (moverCmd ws) es = (v, st)) (hst : st ≠ 0) :
    s.startSend p c sq idx ws es = v.finish p c 2 sq st := by
  unfold State.sendReads at hv
  unfold State.startSend
  dsimp only
  rw [if_neg (by rw [h]; decide), hv]
  exact if_pos hst

/-- A copy to a stream whose map reads verify has no blocks, or goes by its grant. -/
theorem State.startSend_eq (hv : s.sendReads p c (moverCmd ws) es = (v, 0)) :
    s.startSend p c sq idx ws es =
      if s.sendCount p c (moverCmd ws) = 0 then (s.sendHeld v p c sq ws).endCopy p c sq stOK
      else (s.sendHeld v p c sq ws).askGrant p c sq idx (s.sendCount p c (moverCmd ws))
        ((s.clampCounted v p c (moverCmd ws)).getAux idx) := by
  unfold State.sendReads at hv
  unfold State.startSend
  dsimp only
  rw [if_neg (by rw [h]; decide), hv]
  exact (if_neg (not_not.mpr rfl)).trans rfl

end

theorem State.serveSend_granted (hx : (s.getMover p).copy c sq = some x) (h : n = g) : s.serveSend p c sq n g =
    s.cutCopy p x (segmentsOf c sq ((s.opndCopy p c x.sdesc).windowBlocks (moverCmd x.words))) := by
  rw [State.serveSend, hx]
  exact if_pos h

theorem State.serveSend_violates (hx : (s.getMover p).copy c sq = some x) (h : n ≠ g) : s.serveSend p c sq n g =
    ((s.inc (ZTP_WINVIOL.COUNT p)).endCopy p c sq stCHECKFAIL).queueCtl ((moverCmd x.words).handle % 2 ^ 18) 4 0 := by
  rw [State.serveSend, hx]
  exact if_neg h

theorem State.startReceive_refused
    (h : s.streamOk (s.opnd p c (moverCmd ws).ddesc) (moverCmd ws).ddesc (moverCmd ws).dkind (moverCmd ws) = false) :
    s.startReceive p c sq idx ws = s.finish p c 2 sq stCHECKFAIL := if_pos (by rw [Bool.not_eq_true']; exact h)

/-- The state in which a copy from a stream is remembered and its suppressed writes are counted (R183). -/
def State.receiveHeld (s : State) (p c sq : Nat) (ws : List Word64) : State :=
  (s.addf (TLM_OOB_WR.ELEMS p c) ((moverCmd ws).outside (s.opnd p c (moverCmd ws).ddesc)).length).holdCopy p
    ⟨c, sq, ws, [], s.copyWords p (moverCmd ws).ddesc, true, 0, []⟩

theorem State.startReceive_eq
    (h : s.streamOk (s.opnd p c (moverCmd ws).ddesc) (moverCmd ws).ddesc (moverCmd ws).dkind (moverCmd ws) = true) :
    s.startReceive p c sq idx ws =
      if (s.getAux idx).posted.isSome = true then
        (s.receiveHeld p c sq ws).setAux idx { s.getAux idx with recvWait := (s.getAux idx).recvWait ++ [(c, sq)] }
      else (s.receiveHeld p c sq ws).openPosted idx p c sq ws (s.copyWords p (moverCmd ws).ddesc) :=
  if_neg (by rw [Bool.not_eq_true', Bool.not_eq_false]; exact h)

end

/-! ### Segments and channels (R193, R196) -/

/-- A copy without segments is complete. -/
theorem State.cutCopy_nil (s : State) (p : Nat) (x : Copy) : s.cutCopy p x [] = s.endCopy p x.core x.seq stOK := by
  unfold State.cutCopy
  exact if_pos rfl

theorem length_of_mem_chunksOf {α : Type} {n k : Nat} {l b : List α} (h : b ∈ chunksOf n k l) : b.length ≤ n := by
  induction k generalizing l with
  | zero => cases h
  | succ k ih =>
    cases l with
    | nil => cases h
    | cons a l =>
      rcases List.mem_cons.mp h with rfl | h
      · exact List.length_take_le _ _
      · exact ih h

theorem mem_segmentsOf {c sq : Nat} {blocks : List Nat} {g : Segment} (h : g ∈ segmentsOf c sq blocks) :
    g.blocks.length ≤ 256 ∧ g.core = c ∧ g.seq = sq := by
  obtain ⟨i, hi, rfl⟩ := List.mem_map.mp h
  refine ⟨?_, rfl, rfl⟩
  dsimp only
  rw [List.getD_eq_getElem _ _ (List.mem_range.mp hi)]
  exact length_of_mem_chunksOf (List.getElem_mem _)

section
variable {s : State} {p c k : Nat} {es : List EccWord} {g : Segment} {x : Copy} {r : Running}

/-- The queue served next has a waiting segment and holds fewer than QCHAN channels. -/
theorem State.of_nextCore (h : s.nextCore p = some c) :
    (∃ g ∈ (s.getMover p).waiting, g.core = c) ∧ (s.getMover p).held c < s.rf (MOV_CFG.QCHAN p) := by
  have hs := List.find?_some h
  simpa only [Bool.and_eq_true, List.any_eq_true, beq_iff_eq, decide_eq_true_eq] using hs

/-- The channel taken is the lowest that is free and not retired. -/
theorem State.of_freeChannel (h : s.freeChannel p = some k) : k < 32 ∧ (s.getMover p).chans.get none k = none ∧
    bitOf (s.log.retiredChans.get 0 p) k = false ∧
    ∀ j, j < k → ((s.getMover p).chans.get none j ≠ none ∨ bitOf (s.log.retiredChans.get 0 p) j = true) := by
  obtain ⟨hk, hm, hlt⟩ := List.find?_range_eq_some.mp h
  rw [Bool.and_eq_true, Option.isNone_iff_eq_none, Bool.not_eq_true'] at hk
  refine ⟨List.mem_range.mp hm, hk.1, hk.2, fun j hj => ?_⟩
  have hn := hlt j hj
  rw [Bool.not_eq_true', Bool.and_eq_false_iff, Bool.not_eq_false', Option.isNone_eq_false_iff, Option.isSome_iff_ne_none] at hn
  exact hn

/-- A segment waits, fails its copy, or takes its channel. -/
def State.segmentAnswered (s : State) (p c k : Nat) (g : Segment) : SegAns → State
  | .wait => s
  | .fail v st => v.endCopy p c g.seq st
  | .run v r => v.takeChannel p k r

section
variable (hp : p < 16) (hc : s.nextCore p = some c) (hk : s.freeChannel p = some k)
  (hg : (s.getMover p).waiting.find? (fun g => g.core == c) = some g) (hx : (s.getMover p).copy c g.seq = some x)
include hp hc hk hg hx

/-- MOVER_SEGMENT_START goes by what the oldest segment of the served queue reads. -/
theorem execMoverSegmentStart_eq :
    exec (.moverSegmentStart p es) s = .next (s.segmentAnswered p c k g (s.readSegment p x g es)) := by
  rw [exec_moverSegmentStart, execMoverSegmentStart, onPart_of_lt hp, hc, hk]
  dsimp only
  rw [hg]
  dsimp only
  rw [hx]
  rfl

end

theorem execMoverSegmentStart_none (hp : p < 16) (h : s.nextCore p = none ∨ s.freeChannel p = none) :
    exec (.moverSegmentStart p es) s = .next s := by
  rw [exec_moverSegmentStart, execMoverSegmentStart, onPart_of_lt hp]
  split
  · next hc hk => exact h.elim (fun h => nomatch hc.symm.trans h) fun h => nomatch hk.symm.trans h
  · rfl

/-- The state with a channel freed. -/
def State.freed (s : State) (p k : Nat) : State := s.putMover p { s.getMover p with chans := (s.getMover p).chans.set none k none }

/-- A running segment of a copy inside the partition or from a stream, once its blocks are written and counted. -/
def State.segmentWritten (s : State) (p : Nat) (x : Copy) (r : Running) : State :=
  (((s.writeSet p r.blocks).1.addf (MOV_BYTES.COUNT p) r.bytes).addf (TLM_PRUNED.ELEMS p r.seg.core) r.pruned).addf
    (if x.carry = true then MOV_BLK_CARRY.COUNT p else MOV_BLK_REGEN.COUNT p) r.blocks.length

section
variable (hp : p < 16) (hr : (s.getMover p).chans.get none k = some r) (hx : (s.getMover p).copy r.seg.core r.seg.seq = some x)
include hp hr hx

/-- A finished segment frees its channel; its blocks go out as messages, or are written. -/
theorem execMoverSegmentDone_eq : exec (.moverSegmentDone p k) s = .next (
    if (moverCmd x.words).dkind = 2 then
      (((s.freed p k).addf (MOV_BYTES.COUNT p) r.bytes).queueTx ((moverCmd x.words).handle % 2 ^ 18) r.msgs).copyProgress p r.seg.core
        r.seg.seq r.msgs.length
    else if ((s.freed p k).writeSet p r.blocks).2 = true then
      ((s.freed p k).segmentWritten p x r).copyProgress p r.seg.core r.seg.seq 0
    else ((s.freed p k).segmentWritten p x r).endCopy p r.seg.core r.seg.seq stCHECKFAIL) := by
  rw [exec_moverSegmentDone, execMoverSegmentDone, onPart_of_lt hp, hr]
  dsimp only
  rw [hx]
  rfl

end

theorem execMoverSegmentDone_none (hp : p < 16) (h : (s.getMover p).chans.get none k = none) :
    exec (.moverSegmentDone p k) s = .next s := by
  rw [exec_moverSegmentDone, execMoverSegmentDone, onPart_of_lt hp, h]

end
end Sys2Proof.Machine

open Sys2Proof Sys2Proof.Machine

/-- Settles O34: a copy by its words, its handle and its first reads; a segment by its reads; a channel by its segment. -/
theorem moverCopiesRunInSegments : Obligations.MoverCopiesRunInSegments := by
  unfold Obligations.MoverCopiesRunInSegments
  refine ⟨fun s p c sq es x ws hp hc hn hk hs ha hw => ?_, fun s p c sq es => execMoverCopy_none, fun s p c sq ws es => ?_,
    fun c sq blocks g => mem_segmentsOf, State.cutCopy_nil, fun s p c sq idx ws es => ?_,
    fun s p c sq n g x hx => ⟨State.serveSend_granted hx, State.serveSend_violates hx⟩, fun s p c sq idx ws => ?_,
    fun s idx p c sq ws dd => ⟨fun h => if_pos h, fun h => if_neg h⟩,
    fun s p c k es g x hp hc hk hg hx => ?_, fun s p es => execMoverSegmentStart_none, fun s p c => State.of_nextCore,
    fun s p k => State.of_freeChannel, fun s p k r x hp hr hx => ?_, fun s p k => execMoverSegmentDone_none⟩
  · intro m u bad idx ends
    have he := execMoverCopy_eq (es := es) hp hc hn hk hs ha hw
    have go {t : State} (hwait : s.copyWaits p c m = false) (ht : u.startCopy p c sq ws es = t) : ends t :=
      (he.trans (congrArg _ (if_neg (ne_true_of_eq_false hwait)))).trans (by rw [ht])
    refine ⟨fun h => he.trans (congrArg _ (if_pos h)), fun hwait hbad => go hwait (State.startCopy_malformed hbad),
      fun hwait hbad hstream => ?_, fun hwait hbad hk hd => go hwait (State.startCopy_local hbad hk hd)⟩
    have hstart := State.startCopy_stream (s := u) (p := p) (c := c) (sq := sq) (es := es) hbad hstream
    exact ⟨fun h => go hwait (hstart.trans (State.startStream_stale h)),
      fun h hctx => go hwait (hstart.trans (State.startStream_closed h hctx)),
      fun h hctx => go hwait (hstart.trans (State.startStream_open h hctx))⟩
  · intro m o d maps w reads
    refine ⟨fun h => State.startLocal_refused (State.dstChecked_misshapen h) (State.not_copyOk_of_shape h),
      fun a h hd => State.startLocal_refused (State.dstChecked_protected h hd),
      fun h hd => State.startLocal_refused (State.dstChecked_free h hd),
      fun v st hk hv hst => (State.startLocal_eq hk hv).trans (if_pos hst), fun v hk hv => ?_⟩
    have he := (State.startLocal_eq (sq := sq) hk hv).trans (if_neg (not_not.mpr rfl))
    refine ⟨fun hraw hmeta => he.trans (if_pos (State.metaUnordered_iff.mpr ⟨hraw, hmeta⟩)), fun hordered => he.trans (if_neg ?_)⟩
    rw [State.metaUnordered_iff]
    rintro ⟨hraw, rc, hrc, hbad⟩
    exact hordered.elim (ne_true_of_eq_false hraw) fun h => ne_true_of_eq_false hbad (h rc hrc)
  · intro m o maps n
    refine ⟨State.startSend_refused, fun v hok hv => ?_, fun v st hok hv hst => State.startSend_fails hok hv hst⟩
    have he := State.startSend_eq (sq := sq) (idx := idx) hok hv
    exact ⟨fun h => he.trans (if_pos h),
      fun g gs h hs hg => he.trans ((if_neg h).trans (State.askGrant_served hs hg)),
      fun h hw => he.trans ((if_neg h).trans (State.askGrant_waits hw))⟩
  · intro m o h
    refine ⟨State.startReceive_refused, fun hok hn => (State.startReceive_eq hok).trans (if_neg ?_),
      fun hok hn => (State.startReceive_eq hok).trans (if_pos (Option.isSome_iff_ne_none.mpr hn))⟩
    rw [hn]
    exact Bool.false_ne_true
  · have he := execMoverSegmentStart_eq (es := es) hp hc hk hg hx
    have answer {a : SegAns} (h : s.readSegment p x g es = a) : exec (.moverSegmentStart p es) s = .next (s.segmentAnswered p c k g a) :=
      h ▸ he
    exact ⟨answer, fun v st => answer, fun v r => answer⟩
  · have he := execMoverSegmentDone_eq hp hr hx
    exact ⟨fun h => he.trans (congrArg _ (if_pos h)), fun h =>
      ⟨fun hw => he.trans (congrArg _ ((if_neg h).trans (if_pos hw))),
        fun hw => he.trans (congrArg _ ((if_neg h).trans (if_neg (ne_true_of_eq_false hw))))⟩⟩

end

section
namespace Sys2Proof.Machine

/-! ## Dispatch rounds: opening, sending, arrival and delivery (R206–R224) -/

/-! ### DSP_GO (R213, R224) -/

section
variable {s : State} {a : Agent} {p st : Nat}

/-- A round is open while a side of it is. -/
theorem State.roundsOpen_iff : s.roundsOpen p = true ↔
    s.rf (DSP_STATUS.SEND_OPEN p) ≠ 0 ∨ s.rf (DSP_STATUS.RECV_OPEN p) ≠ 0 ∨ s.rf (DSP_STATUS.RET_OPEN p) ≠ 0 := by
  rw [State.roundsOpen, bne_iff_ne]
  omega

theorem State.goRefused_iff : s.goRefused p = true ↔
    s.rf (DSP_STATUS.SEND_OPEN p) ≠ 0 ∨ s.rf (DSP_STATUS.RECV_OPEN p) ≠ 0 ∨ s.rf (DSP_STATUS.RET_OPEN p) ≠ 0 ∨
      s.rf (DSP_STATUS.ERR p) = 1 := by
  rw [State.goRefused, Bool.or_eq_true, beq_iff_eq, State.roundsOpen_iff, or_assoc, or_assoc]

/-- A write to DSP_GO by an agent that may draws a bus error, or opens its round. -/
theorem execDispatchRoundOpen_eq (hp : p < 16) (ha : a ≠ .pf16) : exec (.dispatchRoundOpen a p) s = .next (
    if s.rf (PRT_CLK_EN.DSP p) = 0 ∨ s.goRefused p = true then s.busErr p 0xFF0009000020 else s.openRound p) := by
  rw [exec_dispatchRoundOpen, execDispatchRoundOpen, onPart_of_lt hp, if_neg ha]
  rfl

theorem execReturnRoundOpen_eq (hp : p < 16) (ha : a ≠ .pf16) : exec (.returnRoundOpen a p) s = .next (
    if s.rf (PRT_CLK_EN.DSP p) = 0 ∨ s.goRefused p = true then s.busErr p 0xFF0009000020 else s.openReturn p) := by
  rw [exec_returnRoundOpen, execReturnRoundOpen, onPart_of_lt hp, if_neg ha]
  rfl

/-! ### How a round fails (R224) -/

/-- The fields that say that no side of a round is open. -/
def closedSides (p : Nat) : List (Fld × Nat) :=
  [(DSP_STATUS.SEND_OPEN p, 0), (DSP_STATUS.RECV_OPEN p, 0), (DSP_STATUS.RET_OPEN p, 0), (DSP_STATUS.SPILL_PHASE p, 0)]

/-- The fields that keep the status of the first failure. -/
def failureFields (p st : Nat) : List (Fld × Nat) := [(DSP_STATUS.ERR p, 1), (DSP_STATUS.ERRSTAT p, st)]

/-- No two of them share a cell. -/
theorem failFields_cells : (closedSides p ++ failureFields p st).Pairwise (fun a b => a.1.cell ≠ b.1.cell) := by
  simp [closedSides, failureFields, Fld.cell, DSP_STATUS.SEND_OPEN, DSP_STATUS.RECV_OPEN, DSP_STATUS.RET_OPEN, DSP_STATUS.SPILL_PHASE,
    DSP_STATUS.ERR, DSP_STATUS.ERRSTAT]

theorem failureFields_cells_ne {f : Fld × Nat} (hf : f ∈ failureFields p st) : ∀ e ∈ closedSides p, f.1.cell ≠ e.1.cell :=
  fun _ he => ((List.pairwise_append.mp failFields_cells).2.2 _ he _ hf).symm

/-- What a failing round forgets: all but the list and what is staged for a newer round. -/
def State.forgetRound (s : State) (p : Nat) : State :=
  s.setDisp p { opened := (s.getDisp p).opened, list := (s.getDisp p).list
                staged := (s.getDisp p).staged.filter (fun t => ridOlder (s.rf (DSP_STATUS.CUR_RID p)) t.tok.rid) }

/-- An open round that fails closes its sides, and keeps its status unless an earlier one is kept. -/
theorem State.failRound_eq (hs : Tbl.sortedFrom 0 s.flds = true) (h : s.roundsOpen p = true) : s.failRound p st =
    if s.rf (DSP_STATUS.ERR p) = 1 then (s.forgetRound p).wfs (closedSides p)
    else (s.forgetRound p).wfs (closedSides p ++ failureFields p st) := by
  have herr : ((s.forgetRound p).wfs (closedSides p)).rf (DSP_STATUS.ERR p) = s.rf (DSP_STATUS.ERR p) :=
    State.rf_wfs_ne (s := s.forgetRound p) hs (failureFields_cells_ne (st := st) (f := (DSP_STATUS.ERR p, 1)) (List.mem_cons_self ..))
  have hopen : ¬ s.rf (DSP_STATUS.SEND_OPEN p) + s.rf (DSP_STATUS.RECV_OPEN p) + s.rf (DSP_STATUS.RET_OPEN p) = 0 := bne_iff_ne.mp h
  rw [← herr]
  exact if_congr (or_iff_right hopen) rfl rfl

/-- A failed round has no side open. -/
theorem State.rf_failRound_closed (hs : Tbl.sortedFrom 0 s.flds = true) (h : s.roundsOpen p = true) {f : Fld}
    (hf : (f, 0) ∈ closedSides p) : (s.failRound p st).rf f = 0 := by
  rw [State.failRound_eq hs h]
  have hcells := (List.pairwise_append.mp (failFields_cells (p := p) (st := st))).1
  split
  · exact (State.rf_wfs_mem (s := s.forgetRound p) hs hcells hf).trans (Nat.zero_mod _)
  · exact (State.rf_wfs_mem (s := s.forgetRound p) hs failFields_cells (List.mem_append_left _ hf)).trans (Nat.zero_mod _)

/-- The status of a failure is kept if none was. -/
theorem State.rf_failRound_failure (hs : Tbl.sortedFrom 0 s.flds = true) (h : s.roundsOpen p = true) {f : Fld} {v : Nat}
    (hf : (f, v) ∈ failureFields p st) :
    (s.failRound p st).rf f = if s.rf (DSP_STATUS.ERR p) = 1 then s.rf f else v % 2 ^ f.w := by
  rw [State.failRound_eq hs h]
  split
  · exact State.rf_wfs_ne (s := s.forgetRound p) (g := f) hs (failureFields_cells_ne (f := (f, v)) hf)
  · exact State.rf_wfs_mem (s := s.forgetRound p) hs failFields_cells (List.mem_append_right _ hf)

end

/-! ### Opening a dispatch round (R206, R207, R213) -/

section
variable {s : State} {p : Nat}

/-- The state in which the list is looked at: the round's identifier is shown, its send side is open, and what is staged of an older
round is discarded and counted (R221). -/
def State.roundBegun (s : State) (p : Nat) : State :=
  let rid := s.rf (DSP_RND.RID p)
  let d := s.getDisp p
  (((s.wf (DSP_STATUS.CUR_RID p) rid).setDisp p
    { d with opened := true, list := [], sent := [], hosts := [], staged := d.staged.filter (fun t => !ridOlder t.tok.rid rid) }).addf
      (DSP_STALE.COUNT p) (d.staged.filter (fun t => ridOlder t.tok.rid rid)).length).wf (DSP_STATUS.SEND_OPEN p) 1

/-- The operand of the routing list. -/
def State.listOpnd (s : State) (p : Nat) : Opnd := s.dspOpnd p (s.rf (DSP_RND.LIST p))

/-- Whether the list and the rows it names have permitted descriptors. -/
def State.isList (s : State) (p : Nat) : Bool :=
  let u := s.roundBegun p
  let o := s.listOpnd p
  u.idxOk p 0 (s.rf (DSP_RND.LIST p)) && !o.d.tile && o.d.index && o.d.cols % 16 == 0 && u.rowDescOk p (u.rf (DSP_RND.XDESC p))

/-- Whether the entries read obey R207 and every hosting entry has permitted values. -/
def State.entriesOk (s : State) (p : Nat) (es : List (List Nat)) : Bool :=
  es.all routeReserved && s.listValid p (es.map routeEntry) &&
    decide ((s.dspOpnd p (s.rf (DSP_RND.XDESC p))).d.rowSize ≤ 65536) && (s.hostWords p).all (s.hostOk p)

/-- The state with the list and the hosting entries of a round in place, its receive side open if there is an entry. -/
def State.roundListed (s : State) (p : Nat) (es : List (List Nat)) : State :=
  (s.setDisp p { s.getDisp p with
    list := es.map routeEntry, sent := [], hosts := (s.hostWords p).map (fun ws => ⟨ws, [], 0, false, false⟩), spillEnds := []
    spillSent := false, fast := s.rf (DSP_CFG.FAST_EN p) == 1 && s.rf (DSP_RND2.FAST p) == 1, retEnds := [], returned := [] }).wf
      (DSP_STATUS.RECV_OPEN p) (bit (!(s.hostWords p).isEmpty))

/-- What opening a round makes of the answer to the read of its list of `n` entries. -/
def State.listAnswered (p n : Nat) : ReadAns → State
  | .fail v st => v.failRound p st
  | .ok v gs =>
    let es := routeEntries n (gs.map (fun g => g.elem.code))
    if !v.entriesOk p es then v.failRound p stCHECKFAIL else ((v.roundListed p es).recvProgress p).drainAll p

theorem State.openRound_eq : s.openRound p =
    if !s.isList p then (s.roundBegun p).failRound p stCHECKFAIL
    else State.listAnswered p ((s.listOpnd p).d.cols / 16)
      ((s.roundBegun p).readList (dspUnit p) (s.listOpnd p) (region 0 0 1 (s.listOpnd p).d.cols)) := rfl

/-- A list with permitted descriptors goes by what its read answers. -/
theorem State.openRound_read {r : ReadAns} (h : s.isList p = true)
    (hr : (s.roundBegun p).readList (dspUnit p) (s.listOpnd p) (region 0 0 1 (s.listOpnd p).d.cols) = r) :
    s.openRound p = State.listAnswered p ((s.listOpnd p).d.cols / 16) r := by
  rw [State.openRound_eq, h, hr]
  rfl

end

/-! ### TOKEN_SEND (R214, R215) -/

section
variable {s t : State} {p i j k hd : Nat} {e : RouteEntry}

theorem execTokenSend_closed (hp : p < 16) (h : s.rf (DSP_STATUS.SEND_OPEN p) = 0) : exec (.tokenSend p) s = .next s := by
  rw [exec_tokenSend, execTokenSend, onPart_of_lt hp, if_pos h]

/-- The send side of a list without token-choices ends at once. -/
theorem execTokenSend_empty (hp : p < 16) (h : s.rf (DSP_STATUS.SEND_OPEN p) ≠ 0) (hl : choicesOf (s.getDisp p).list = []) :
    exec (.tokenSend p) s = .next (s.endSend p) := by
  rw [exec_tokenSend, execTokenSend, onPart_of_lt hp, if_neg h, if_pos hl]

/-- The next token-choice is sent on a free channel, unless the mover writes its row. -/
theorem execTokenSend_eq (hp : p < 16) (h : s.rf (DSP_STATUS.SEND_OPEN p) ≠ 0) (hn : s.nextChoice p = some i)
    (he : (choicesOf (s.getDisp p).list)[i]? = some (e, j)) (ht : s.takeTurn p (s.dspTurn p) = some (k, t)) :
    exec (.tokenSend p) s = .next (if s.rowWaits p (s.rf (DSP_RND.XDESC p)) e.row = true then s else t.sendChoice p i e j) := by
  have hl : choicesOf (s.getDisp p).list ≠ [] := fun hl => by
    rw [hl] at he
    cases he
  rw [exec_tokenSend, execTokenSend, onPart_of_lt hp, if_neg h, if_neg hl, hn]
  dsimp only
  rw [he, ht]

/-- The next token-choice is one of the list that is not sent. -/
theorem State.of_nextChoice (h : s.nextChoice p = some i) : i < (choicesOf (s.getDisp p).list).length ∧ i ∉ (s.getDisp p).sent := by
  have hi := List.find?_some h
  rw [Bool.and_eq_true, Bool.not_eq_true', ← Bool.not_eq_true, List.contains_iff_mem] at hi
  exact ⟨List.mem_range.mp (List.mem_of_find?_eq_some h), hi.1⟩

/-- What is sent of a token-choice whose row was read. -/
def State.choiceMsg (s : State) (p xd : Nat) (e : RouteEntry) (j : Nat) (gs : List Got) : TokenMsg :=
  ⟨s.rf (DSP_STATUS.CUR_RID p), e.token, j, s.rankOf p, e.gates.getD j 0#32, e.exps.getD j 0, false, e.spillx,
    rowBytes (s.dspOpnd p xd).d (gs.map Got.elem)⟩

/-- Note that token-choice `i` is sent; after the last one the send side ends. -/
def State.noteSent (s : State) (p i : Nat) : State :=
  let t := s.setDisp p { s.getDisp p with sent := i :: (s.getDisp p).sent }
  if (s.getDisp p).sent.length + 1 = (choicesOf (s.getDisp p).list).length then t.endSend p else t

/-- What sending a token-choice on handle `hd` makes of the answer to the read of its row. -/
def State.rowAnswered (p xd i hd : Nat) (e : RouteEntry) (j : Nat) : ReadAns → State
  | .fail v st => v.failRound p st
  | .ok u gs => (u.queueTx (hd % 2 ^ 18) (tokenMsgs (u.choiceMsg p xd e j gs) false)).noteSent p i

theorem State.sendChoice_noEntry (h : s.sendEntry p (e.exps.getD j 0) = none) : s.sendChoice p i e j = s.failRound p stCHECKFAIL := by
  unfold State.sendChoice
  dsimp only
  rw [h]

section
variable (hx : s.sendEntry p (e.exps.getD j 0) = some hd)
include hx

theorem State.sendChoice_stale (hh : s.handleOk p hd = false) : s.sendChoice p i e j = s.failRound p stSTALE := by
  unfold State.sendChoice
  dsimp only
  rw [hx]
  exact if_pos (by rw [hh]; rfl)

variable (hh : s.handleOk p hd = true)
include hh

theorem State.sendChoice_notOpen (hc : (s.getCtx (hd % 2 ^ 18)).state ≠ 1) : s.sendChoice p i e j = s.failRound p stABORTED := by
  unfold State.sendChoice
  dsimp only
  rw [hx]
  exact (if_neg (by rw [hh]; decide)).trans (if_pos hc)

/-- A token-choice whose stream is open goes by what the read of its row answers. -/
theorem State.sendChoice_read {r : ReadAns} (hc : (s.getCtx (hd % 2 ^ 18)).state = 1)
    (hr : s.readRow p (s.rf (DSP_RND.XDESC p)) e.row = r) :
    s.sendChoice p i e j = State.rowAnswered p (s.rf (DSP_RND.XDESC p)) i hd e j r := by
  subst hr
  unfold State.sendChoice
  dsimp only
  rw [hx]
  exact (if_neg (by rw [hh]; decide)).trans ((if_neg (not_not.mpr hc)).trans rfl)

end

/-- End markers end the round STALE when a handle of the send table is. -/
theorem State.sendMarkers_stale {kind : Nat} (h : ∃ hd ∈ s.sendHandles p, s.handleOk p hd = false) :
    s.sendMarkers p kind = s.failRound p stSTALE := by
  unfold State.sendMarkers
  rw [if_pos]
  simpa only [List.any_eq_true, Bool.not_eq_true'] using h

theorem State.sendMarkers_sent {kind : Nat} (h : ¬ ∃ hd ∈ s.sendHandles p, s.handleOk p hd = false) : s.sendMarkers p kind =
    (s.sendHandles p).foldl (fun s h => s.queueTx (h % 2 ^ 18) [markerMsg (s.rf (DSP_STATUS.CUR_RID p)) kind]) s := by
  unfold State.sendMarkers
  rw [if_neg]
  simpa only [List.any_eq_true, Bool.not_eq_true'] using h

end

/-! ### What arrives on a stream of the dispatch unit (R278, R282; log entry 81) -/

section
variable {s t u : State} {p idx k n : Nat} {m : Msg} {l : List Msg}

/-- A message of the right kind for this partition arrives, on a routed-token stream if it is on one. -/
theorem State.dispMessage_taken {ok : Bool} (hok : ok = true) (hd : m.dpart % 16 = p)
    (hk : s.liveHandle m.dhandle = true → (s.getCtx (m.dhandle % 2 ^ 18)).kind = 2) : s.dispMessage p ok m = s.boxMessage m := by
  refine if_neg ?_
  rintro (h | h | ⟨hl, h⟩)
  · rw [hok] at h
    cases h
  · exact h hd
  · exact h (hk hl)

theorem State.boxMessage_discarded (h : s.arrive m = (u, none)) : s.boxMessage m = u := by
  unfold State.boxMessage
  dsimp only
  rw [h]

/-- The state with a message of a stream recorded for a replay, while its partition runs (R360). -/
def State.boxRecorded (s : State) (m : Msg) : State :=
  let idx := m.dhandle % 2 ^ 18
  let x := s.getCtx idx
  if x.part < 16 ∧ s.runs x.part = true then s.ringRecord x.part ⟨idx, m.seq, m.offset, m.blocks, m.checks, x.peerKind == 2⟩ else s

theorem State.boxMessage_new (h : s.arrive m = (u, some k)) : s.boxMessage m =
    ((u.boxRecorded m).intoBox (m.dhandle % 2 ^ 18) k m).drainBox (u.getCtx (m.dhandle % 2 ^ 18)).part (m.dhandle % 2 ^ 18)
      (((u.boxRecorded m).getAux (m.dhandle % 2 ^ 18)).inbox.length + 1) := by
  unfold State.boxMessage
  dsimp only
  rw [h]
  rfl

theorem State.drainBox_empty (h : (s.getAux idx).inbox = []) : s.drainBox p idx (n + 1) = s := by
  rw [State.drainBox, h]

section
variable (h : (s.getAux idx).inbox = m :: l)
include h

/-- What is not next in SEQ order waits. -/
theorem State.drainBox_early (hq : seqBefore m.seq (s.getCtx idx).rxSeq = false) : s.drainBox p idx (n + 1) = s := by
  rw [State.drainBox, h]
  exact if_pos (by rw [hq]; rfl)

theorem State.drainBox_waits (ht : s.takeItem p idx m = none) : s.drainBox p idx (n + 1) = s := by
  rw [State.drainBox, h]
  dsimp only
  rw [ht]
  exact ite_self _

/-- What is taken leaves the stream's window and gives its credit back, and the next may be taken. -/
theorem State.drainBox_takes (hq : seqBefore m.seq (s.getCtx idx).rxSeq = true) (ht : s.takeItem p idx m = some t) :
    s.drainBox p idx (n + 1) =
      let v := t.setAux idx { t.getAux idx with inbox := (t.getAux idx).inbox.tail }
      (if m.nblk = 0 then v else v.queueGrant idx m.nblk).drainBox p idx n := by
  rw [State.drainBox, h]
  dsimp only
  rw [ht, if_neg (by rw [hq]; decide)]

end

theorem State.takeItem_marker (h : m.mtype = 3) : s.takeItem p idx m = s.takeMarker p idx m := if_pos h

/-- What is no marker, and verifies, is a part of a token or of a returned row. -/
theorem State.takeItem_part (h : m.mtype ≠ 3) (hc : ∀ e ∈ m.blocks.zip m.checks, checkWord e.1 = e.2) :
    s.takeItem p idx m = s.takePart p idx (tokenPart m.blocks.flatten) := by
  have hf : (m.blocks.zip m.checks).find? (fun e => checkWord e.1 != e.2) = none :=
    List.find?_eq_none.mpr fun e he => by rw [hc e he, bne_self_eq_false]; decide
  rw [State.takeItem, if_neg h, hf]

/-! ### End markers (R219, R221, R223) -/

theorem State.takeMarker_stale (h : s.ridStale p (markerRid m) = true) : s.takeMarker p idx m = some (s.inc (DSP_STALE.COUNT p)) :=
  if_pos h

/-- What a marker of the receiver's round does. -/
def State.markerNoted (s : State) (p src : Nat) : Nat → Option State
  | 2 => if s.rf (DSP_STATUS.RET_OPEN p) = 1 then some ((s.noteRetEnd p src).retProgress p) else none
  | 1 => some (if s.rf (DSP_STATUS.RECV_OPEN p) = 0 ∨ (s.getDisp p).spillEnds.contains src = true then s
      else (s.setDisp p { s.getDisp p with spillEnds := src :: (s.getDisp p).spillEnds }).recvProgress p)
  | _ => some (if s.rf (DSP_STATUS.RECV_OPEN p) = 1 then (s.noteEnd p src).recvProgress p else s)

section
variable (h : s.ridStale p (markerRid m) = false)
include h

/-- A marker of a newer round waits. -/
theorem State.takeMarker_waits (hn : s.ridNow p (markerRid m) = false) : s.takeMarker p idx m = none :=
  (if_neg (ne_true_of_eq_false h)).trans (if_pos (by rw [hn]; rfl))

theorem State.takeMarker_now (hn : s.ridNow p (markerRid m) = true) :
    s.takeMarker p idx m = s.markerNoted p (s.peerRank idx) (markerKind m) :=
  (if_neg (ne_true_of_eq_false h)).trans ((if_neg (by rw [hn]; decide)).trans rfl)

end

theorem State.markerNoted_spill {src : Nat} (ho : s.rf (DSP_STATUS.RECV_OPEN p) ≠ 0) (hs : (s.getDisp p).spillEnds.contains src = false) :
    s.markerNoted p src 1 = some ((s.setDisp p { s.getDisp p with spillEnds := src :: (s.getDisp p).spillEnds }).recvProgress p) := by
  refine congrArg some (if_neg ?_)
  rintro (h | h)
  · exact ho h
  · exact ne_true_of_eq_false hs h

/-! ### Tokens and returned rows (R216, R221, R223) -/

section
variable {t : TokenPart}

/-- What has come of a row with this part of it. -/
def State.rowSoFar (s : State) (idx : Nat) (t : TokenPart) : List Byte := (if t.off = 0 then [] else (s.getAux idx).rowPart) ++ t.tok.row

theorem State.takePart_stale (h : s.ridStale p t.tok.rid = true) :
    s.takePart p idx t = some (if t.off = 0 then s.inc (DSP_STALE.COUNT p) else s) := if_pos h

section
variable (h : s.ridStale p t.tok.rid = false)
include h

/-- The parts of a row are kept until it is whole. -/
theorem State.takePart_kept (hr : (s.rowSoFar idx t).length < t.len) :
    s.takePart p idx t = some (s.setAux idx { s.getAux idx with rowPart := s.rowSoFar idx t }) :=
  (if_neg (ne_true_of_eq_false h)).trans (if_pos hr)

theorem State.takePart_whole (hr : t.len ≤ (s.rowSoFar idx t).length) : s.takePart p idx t =
    (s.takeToken p (s.peerRank idx) t.ret { t.tok with row := s.rowSoFar idx t }).map
      (fun u => u.setAux idx { u.getAux idx with rowPart := [] }) :=
  (if_neg (ne_true_of_eq_false h)).trans (if_neg (Nat.not_lt.mpr hr))

end
end
end

/-! ### TOKEN_DELIVER (R216–R219, R222) -/

section
variable {s u v w : State} {p i k st : Nat} {h : Hosting} {t : Staged} {m : TokenMsg} {primary : Bool} {row : List Byte}

section
variable (hp : p < 16) (hh : (s.getDisp p).hosts[i]? = some h)
include hp hh

/-- An entry with a next token takes it on a free channel, unless its row or its spill stream must wait. -/
theorem execTokenDeliver_eq (ho : s.rf (DSP_STATUS.RECV_OPEN p) ≠ 0) (hn : s.nextToken p h = some (t, primary))
    (ht : s.takeTurn p (s.dspTurn p) = some (k, u)) : exec (.tokenDeliver p i) s = .next (
      if s.stagedWaits p t = true ∨ (!s.spillFree p h t.tok primary) = true then s else u.deliverToken p i h t primary) := by
  rw [exec_tokenDeliver, execTokenDeliver, onPart_of_lt hp, if_neg ho, hh]
  dsimp only
  rw [hn, ht]

theorem execTokenDeliver_none (hn : s.nextToken p h = none) : exec (.tokenDeliver p i) s = .next s := by
  rw [exec_tokenDeliver, execTokenDeliver, onPart_of_lt hp, hh]
  dsimp only
  rw [hn]
  exact congrArg _ (ite_self _)

end

theorem State.deliverToken_unread (hr : s.stagedRow p t = (v, st, row)) (hst : st ≠ 0) :
    s.deliverToken p i h t primary = v.failRound p st := by
  unfold State.deliverToken
  rw [hr]
  exact if_pos hst

section
variable (hr : s.stagedRow p t = (v, 0, row))
include hr

theorem State.deliverToken_read : s.deliverToken p i h t primary =
    (if h.filled < rxCap h.words then (v.unstage p t).fillSlot p i h { t.tok with row := row }
      else ((v.unstage p t).overflow p h { t.tok with row := row } primary).recvProgress p).drainAll p := by
  unfold State.deliverToken
  rw [hr]
  exact if_neg (not_not.mpr rfl)

/-- A full entry lets the token overflow (R218). -/
theorem State.deliverToken_full (hf : rxCap h.words ≤ h.filled) : s.deliverToken p i h t primary =
    (((v.unstage p t).overflow p h { t.tok with row := row } primary).recvProgress p).drainAll p := by
  rw [State.deliverToken_read hr, if_neg (Nat.not_lt.mpr hf)]

theorem State.deliverToken_room (hf : h.filled < rxCap h.words) : s.deliverToken p i h t primary =
    ((v.unstage p t).fillSlot p i h { t.tok with row := row }).drainAll p := by
  rw [State.deliverToken_read hr, if_pos hf]

end

/-- A slot is filled once its row and its metadata are written. -/
theorem State.fillSlot_written (hr : s.writeRow p (rxSlot h.words) h.filled (rowElems (s.dspOpnd p (rxSlot h.words)).d m.row) = (v, 0))
    (hm : v.writeMeta p h.words h.filled (metaBytes m) = (w, 0)) : s.fillSlot p i h m =
      let x := (w.putHost p i { h with filled := h.filled + 1 }).inc (DSP_DELIV.COUNT p)
      (if (s.getDisp p).fast = true then x.ndet p .disp 1 else x).recvProgress p := by
  unfold State.fillSlot
  dsimp only
  rw [hr]
  dsimp only
  rw [if_neg (not_not.mpr rfl), hm]
  exact if_neg (not_not.mpr rfl)

/-- A token overflows to its spill expert from the primary phase of a spilling entry, unless it names none or this one. -/
theorem spillsOn_iff : spillsOn h m primary = true ↔
    primary = true ∧ rxSpill h.words = true ∧ m.spillx ≠ 0xFFFF ∧ m.spillx ≠ rxExpert h.words := by
  simp only [spillsOn, Bool.and_eq_true, bne_iff_ne, and_assoc]

theorem State.overflow_dropped (hs : ¬ spillsOn h m primary = true) : s.overflow p h m primary = s.inc (DSP_DROP.COUNT p) := if_neg hs

theorem State.overflow_spilled {hd : Nat} (hs : spillsOn h m primary = true) (he : s.sendEntry p m.spillx = some hd)
    (hh : s.handleOk p hd = true) : s.overflow p h m primary =
      (s.queueTx (hd % 2 ^ 18) (tokenMsgs { m with expert := m.spillx, spilled := true } false)).inc (DSP_SPILL.COUNT p) := by
  rw [State.overflow, if_pos hs, he]
  exact if_neg (by rw [hh]; decide)

end

/-! ### Opening a return round (R223) -/

section
variable {s v : State} {p st : Nat}

/-- The state with the return side open. -/
def State.returnBegun (s : State) (p : Nat) : State := s.wf (DSP_STATUS.RET_OPEN p) 1

/-- That state with nothing returned yet. -/
def State.returnCleared (s : State) (p : Nat) : State :=
  (s.returnBegun p).setDisp p { (s.returnBegun p).getDisp p with retEnds := [], returned := [] }

theorem State.openReturn_refused (hr : s.rf (DSP_RND2.RDESC p) ≠ 0xFFFF)
    (hd : (s.returnBegun p).rowDescOk p (s.rf (DSP_RND2.RDESC p)) = false) :
    s.openReturn p = (s.returnBegun p).failRound p stCHECKFAIL := if_pos ⟨hr, (Bool.not_eq_true' _).mpr hd⟩

/-- A return round with a permitted return buffer, or none, goes by the sending of the rows. -/
theorem State.openReturn_eq (hd : s.rf (DSP_RND2.RDESC p) = 0xFFFF ∨ (s.returnBegun p).rowDescOk p (s.rf (DSP_RND2.RDESC p)) = true)
    (hv : (s.returnCleared p).returnAll p (s.rf (DSP_STATUS.CUR_RID p)) ((s.returnCleared p).hostWords p) = (v, st)) :
    s.openReturn p = if st ≠ 0 then v.failRound p st else ((v.sendMarkers p 2).retProgress p).drainAll p := by
  have hpermitted : ¬ (s.rf (DSP_RND2.RDESC p) ≠ 0xFFFF ∧ (!(s.returnBegun p).rowDescOk p (s.rf (DSP_RND2.RDESC p))) = true) := by
    rintro ⟨h, hn⟩
    rw [hd.resolve_left h] at hn
    cases hn
  unfold State.returnCleared State.returnBegun at hv
  refine (if_neg hpermitted).trans ?_
  rw [hv]

end
end Sys2Proof.Machine

open Sys2Proof Sys2Proof.Machine

/-- Settles O35: a round by its list and its failures, a token-choice by its handle and its row, a message by its round, a staged token
by its entry's room. -/
theorem dispatchRoundsSendAndDeliver : Obligations.DispatchRoundsSendAndDeliver := by
  unfold Obligations.DispatchRoundsSendAndDeliver
  refine ⟨fun s a p hp ha => ?_, fun s p => ?_, fun s p st hs hst h => ?_, fun s p => execTokenSend_closed,
    fun s p i k t e j hp ho hn he ht => ?_, fun s p => execTokenSend_empty, fun s p i => State.of_nextChoice,
    fun s p kind => ?_, fun s p m hp hd hk => ?_, fun s m => ?_, fun s p idx n => ?_, fun s p idx m hm => ?_,
    fun s p idx m hm hc => ?_, fun s p i k u h t primary hp hh ho hn ht => ?_, fun s p i h => execTokenDeliver_none,
    fun s p h m => ?_, fun s p => ?_⟩
  · refine ⟨State.goRefused_iff, fun h => ?_, fun hclk hgo => ?_⟩
    · rw [execDispatchRoundOpen_eq hp ha, execReturnRoundOpen_eq hp ha, if_pos h, if_pos h]
      exact ⟨rfl, rfl⟩
    · have h : ¬ (s.rf (PRT_CLK_EN.DSP p) = 0 ∨ s.goRefused p = true) := not_or.mpr ⟨hclk, ne_true_of_eq_false hgo⟩
      rw [execDispatchRoundOpen_eq hp ha, execReturnRoundOpen_eq hp ha, if_neg h, if_neg h]
      exact ⟨rfl, rfl⟩
  · refine ⟨fun h => State.openRound_eq.trans (if_pos (by rw [Bool.not_eq_true']; exact h)),
      fun v st h hr => State.openRound_read h hr, fun v gs h hr => ?_⟩
    exact ⟨fun hg => (State.openRound_read h hr).trans (if_pos (by rw [Bool.not_eq_true']; exact hg)),
      fun hg => (State.openRound_read h hr).trans (if_neg (by rw [Bool.not_eq_true', Bool.not_eq_false]; exact hg))⟩
  · have closed {f : Fld} := State.rf_failRound_closed (st := st) (f := f) hs h
    have failed {f : Fld} {v : Nat} := State.rf_failRound_failure (st := st) (f := f) (v := v) hs h
    refine ⟨closed (by simp [closedSides]), closed (by simp [closedSides]), closed (by simp [closedSides]), ?_, ?_⟩
    · refine (failed (v := 1) (by simp [failureFields])).trans ?_
      split
      · assumption
      · rfl
    · exact (failed (v := st) (by simp [failureFields])).trans (congrArg _ (Nat.mod_eq_of_lt hst))
  · have hx := execTokenSend_eq hp ho hn he ht
    refine ⟨fun hw => hx.trans (congrArg _ (if_pos hw)), fun hw => ?_⟩
    have go {u : State} (hu : t.sendChoice p i e j = u) : exec (.tokenSend p) s = .next u :=
      hx.trans (congrArg _ ((if_neg (ne_true_of_eq_false hw)).trans hu))
    exact ⟨fun h => go (State.sendChoice_noEntry h), fun h hs hh => go (State.sendChoice_stale hs hh),
      fun h hs hh hc => go (State.sendChoice_notOpen hs hh hc), fun h v st hs hh hc hr => go (State.sendChoice_read hs hh hc hr),
      fun h u gs hs hh hc hr => go (State.sendChoice_read hs hh hc hr)⟩
  · split
    · next h => exact State.sendMarkers_stale h
    · next h => exact State.sendMarkers_sent h
  · have take {ok : Bool} (hok : ok = true) : onPart p (s.dispMessage p ok m) = .next (s.boxMessage m) :=
      (onPart_of_lt hp).trans (congrArg _ (State.dispMessage_taken hok hd hk))
    exact ⟨fun hm hr => take (by rw [hm, hr]; rfl), fun hm hr => take (by rw [hm, hr]; rfl),
      fun hm hr => take (by rw [hm, Bool.and_eq_true, bne_iff_ne]; exact ⟨rfl, hr⟩), fun hm hr => take (by rw [hm, hr]; rfl)⟩
  · exact ⟨fun u => State.boxMessage_discarded, fun u k => State.boxMessage_new⟩
  · exact ⟨rfl, State.drainBox_empty, fun m l h =>
      ⟨State.drainBox_early h, State.drainBox_waits h, fun t => State.drainBox_takes h⟩⟩
  · rw [State.takeItem_marker hm]
    refine ⟨State.takeMarker_stale, State.takeMarker_waits, fun hs hn => ?_⟩
    rw [State.takeMarker_now hs hn]
    refine ⟨fun hk ho => ?_, fun hk ho => ?_, fun hk ho hc => ?_, fun hk ho => ?_⟩ <;> rw [hk]
    · exact if_pos ho
    · exact if_neg ho
    · exact State.markerNoted_spill ho hc
    · exact congrArg some (if_pos ho)
  · rw [State.takeItem_part hm hc]
    exact ⟨State.takePart_stale, State.takePart_kept, State.takePart_whole⟩
  · have hx := execTokenDeliver_eq hp hh ho hn ht
    refine ⟨fun hw => hx.trans (congrArg _ (if_pos ?_)), fun hw hf => ?_⟩
    · rwa [Bool.not_eq_true']
    have go {w : State} (hu : u.deliverToken p i h t primary = w) : exec (.tokenDeliver p i) s = .next w := by
      rw [hx, hw, hf]
      exact congrArg _ hu
    refine ⟨fun v st row hr hst => go (State.deliverToken_unread hr hst), fun v row hr hfull => go (State.deliverToken_full hr hfull),
      fun v row v1 v2 hr hroom h1 h2 =>
        go ((State.deliverToken_room hr hroom).trans (congrArg (State.drainAll · p) (State.fillSlot_written h1 h2)))⟩
  · refine ⟨State.overflow_dropped (by simp [spillsOn]), fun hn => State.overflow_dropped ?_,
      fun hd hs h1 h2 => State.overflow_spilled (spillsOn_iff.mpr ⟨rfl, hs, h1, h2⟩)⟩
    rw [spillsOn_iff]
    rintro ⟨-, hs, h1, h2⟩
    rcases hn with h | h | h
    · exact ne_true_of_eq_false h hs
    · exact h1 h
    · exact h2 h
  · exact ⟨State.openReturn_refused, fun v st hd hv hst => (State.openReturn_eq hd hv).trans (if_pos hst),
      fun v hd hv => (State.openReturn_eq hd hv).trans (if_neg (not_not.mpr rfl))⟩

end

section
namespace Sys2Proof.Machine

/-! ## What leaves the stack channels as they are (chapter 8)

Records and the abort wave touch no stack channel. `s.SameChans t` says so of the state `t` that some updates made of `s`, with one lemma
per function of the model, of the function's shape, as `State.Keeps` has them.
-/

/-- `t` has the stack channels of `s`. -/
structure State.SameChans (s t : State) : Prop where
  chan : t.chan = s.chan

section
variable {s t u : State} {α : Type}

theorem State.SameChans.refl (s : State) : s.SameChans s := ⟨rfl⟩

theorem State.SameChans.ite {a b : State} {c : Prop} {_ : Decidable c} (ha : s.SameChans a) (hb : s.SameChans b) :
    s.SameChans (if c then a else b) := by
  split
  · exact ha
  · exact hb

theorem State.SameChans.of_fst {x : State × α} {a : α} (h : s.SameChans x.1) (e : x = (u, a)) : s.SameChans u := by
  subst e
  exact h

theorem State.SameChans.foldl {l : List α} {f : State → α → State} (h : s.SameChans t)
    (hf : ∀ u x, s.SameChans u → s.SameChans (f u x)) : s.SameChans (l.foldl f t) := by
  induction l generalizing t with
  | nil => exact h
  | cons x l ih => exact ih (hf t x h)

/-! ### Elementary updates -/

theorem State.SameChans.wf {f v} (h : s.SameChans t) : s.SameChans (t.wf f v) := ⟨h.chan⟩
theorem State.SameChans.addf {f n} (h : s.SameChans t) : s.SameChans (t.addf f n) := ⟨h.chan⟩
theorem State.SameChans.inc {f} (h : s.SameChans t) : s.SameChans (t.inc f) := ⟨h.chan⟩
theorem State.SameChans.emit {o} (h : s.SameChans t) : s.SameChans (t.emit o) := ⟨h.chan⟩
theorem State.SameChans.setFlint {p c x} (h : s.SameChans t) : s.SameChans (t.setFlint p c x) := ⟨h.chan⟩
theorem State.SameChans.setQueue {p c e x} (h : s.SameChans t) : s.SameChans (t.setQueue p c e x) := ⟨h.chan⟩
theorem State.SameChans.setGarnet {p c x} (h : s.SameChans t) : s.SameChans (t.setGarnet p c x) := ⟨h.chan⟩
theorem State.SameChans.setStage {p c x} (h : s.SameChans t) : s.SameChans (t.setStage p c x) := ⟨h.chan⟩
theorem State.SameChans.setMover {p x} (h : s.SameChans t) : s.SameChans (t.setMover p x) := ⟨h.chan⟩
theorem State.SameChans.setDisp {p x} (h : s.SameChans t) : s.SameChans (t.setDisp p x) := ⟨h.chan⟩
theorem State.SameChans.setPc {p i x} (h : s.SameChans t) : s.SameChans (t.setPc p i x) := ⟨h.chan⟩
theorem State.SameChans.setCtx {i x} (h : s.SameChans t) : s.SameChans (t.setCtx i x) := ⟨h.chan⟩
theorem State.SameChans.setAux {i x} (h : s.SameChans t) : s.SameChans (t.setAux i x) := ⟨h.chan⟩
theorem State.SameChans.setPark {p x} (h : s.SameChans t) : s.SameChans (t.setPark p x) := ⟨h.chan⟩
theorem State.SameChans.setColq {p q x} (h : s.SameChans t) : s.SameChans (t.setColq p q x) := ⟨h.chan⟩
theorem State.SameChans.setAssay {p x} (h : s.SameChans t) : s.SameChans (t.setAssay p x) := ⟨h.chan⟩
theorem State.SameChans.setStrata {p x} (h : s.SameChans t) : s.SameChans (t.setStrata p x) := ⟨h.chan⟩
theorem State.SameChans.setHost {n x} (h : s.SameChans t) : s.SameChans (t.setHost n x) := ⟨h.chan⟩
theorem State.SameChans.setHandle {i x} (h : s.SameChans t) : s.SameChans (t.setHandle i x) := ⟨h.chan⟩
theorem State.SameChans.queueTx {i l} (h : s.SameChans t) : s.SameChans (t.queueTx i l) := ⟨h.chan⟩
theorem State.SameChans.produce {n c} (h : s.SameChans t) : s.SameChans (t.produce n c) := ⟨h.chan⟩
theorem State.SameChans.platform {e} (h : s.SameChans t) : s.SameChans (t.platform e) := ⟨h.chan⟩
theorem State.SameChans.suppress {c} (h : s.SameChans t) : s.SameChans (t.suppress c) := ⟨h.chan⟩
theorem State.SameChans.flashEntry {r p} (h : s.SameChans t) : s.SameChans (t.flashEntry r p) := ⟨h.chan⟩
theorem State.SameChans.logState {l} (h : s.SameChans t) : s.SameChans (t.logState l) := ⟨h.chan⟩

theorem State.SameChans.setBytes {k bs} (h : s.SameChans t) : s.SameChans (t.setBytes k bs) := by
  rw [State.setBytes_eq]
  exact ⟨h.chan⟩

/-! ### Blocks and error records -/

theorem State.SameChans.setCheck {p a w} (h : s.SameChans t) : s.SameChans (t.setCheck p a w) :=
  ite h.setBytes ⟨h.chan⟩

theorem State.SameChans.pairsGood {p a} (h : s.SameChans t) : s.SameChans (t.pairsGood p a) :=
  ite h.setPc h

theorem State.SameChans.copyExtent {p e} (h : s.SameChans t) : s.SameChans (t.copyExtent p e) :=
  ite h (ite h.queueTx.setStrata.addf.queueTx h.queueTx.setStrata.addf)

theorem State.SameChans.touch {p a es} (h : s.SameChans t) : s.SameChans (t.touch p a es) := by
  induction es generalizing t with
  | nil => exact h
  | cons e es ih => exact ih (ite h.copyExtent.inc h).setStrata

theorem State.SameChans.writeBlock {p a bs w who} (h : s.SameChans t) : s.SameChans (t.writeBlock p a bs w who).1 := by
  unfold State.writeBlock
  extract_lets b u v
  have hv : s.SameChans v := (ite h.touch h).setBytes.pairsGood
  split
  · exact hv.setPc
  · exact hv.setCheck

theorem State.SameChans.countCheckFail {p a} (h : s.SameChans t) : s.SameChans (t.countCheckFail p a) := by
  unfold State.countCheckFail
  split <;> exact ite h.inc h.inc.wf.wf

theorem State.SameChans.elogCopy {w} (h : s.SameChans t) : s.SameChans (t.elogCopy w) := by
  unfold State.elogCopy
  extract_lets u
  have hu : s.SameChans u := ite h.inc ⟨h.chan⟩
  exact ite hu.emit hu

theorem State.SameChans.flushRecords (h : s.SameChans t) : s.SameChans t.flushRecords := by
  unfold State.flushRecords
  split
  · exact h
  · split
    · exact ⟨h.chan⟩
    · extract_lets u
      have hu : s.SameChans u := elogCopy ⟨h.chan⟩
      exact ite hu.flashEntry hu.flashEntry.flashEntry

theorem State.SameChans.bedrockTake {unit code w} (h : s.SameChans t) : s.SameChans (t.bedrockTake unit code w) :=
  ite h.suppress (ite ⟨h.chan⟩ (ite (flushRecords ⟨h.chan⟩) ⟨h.chan⟩))

theorem State.SameChans.ringWrite {p w} (h : s.SameChans t) : s.SameChans (t.ringWrite p w).1 := by
  unfold State.ringWrite
  extract_lets
  split
  · exact h.inc
  · exact h.writeBlock.inc

theorem State.SameChans.raise1 {r} (h : s.SameChans t) : s.SameChans (t.raise1 r).1 := by
  unfold State.raise1
  extract_lets w u
  have hu : s.SameChans u := ⟨h.chan⟩
  cases r.part with
  | none => exact ite hu.bedrockTake.elogCopy.platform hu.bedrockTake.elogCopy
  | some p => exact ite hu.ringWrite.bedrockTake.elogCopy.platform hu.ringWrite.bedrockTake.elogCopy

theorem State.SameChans.raiseN {n r} (h : s.SameChans t) : s.SameChans (Machine.raiseN n t r) := by
  induction n generalizing t r with
  | zero => exact h.raise1
  | succ n ih =>
    unfold Machine.raiseN
    split
    · next v e => exact h.raise1.of_fst e
    · next v a e => exact ih (h.raise1.of_fst e).countCheckFail

theorem State.SameChans.raise {r} (h : s.SameChans t) : s.SameChans (t.raise r) := h.raiseN

/-! ### The abort wave -/

theorem State.SameChans.putQueue {p c e q} (h : s.SameChans t) : s.SameChans (t.putQueue p c e q) :=
  ite h.setQueue.wf.wf.wf h.setQueue.wf.wf

theorem State.SameChans.setErr {p c e st} (h : s.SameChans t) : s.SameChans (t.setErr p c e st) :=
  ite h h.wf.wf

theorem State.SameChans.abortQueue {p c e} (h : s.SameChans t) : s.SameChans (t.abortQueue p c e) := by
  unfold State.abortQueue
  extract_lets q
  split
  · exact h
  · exact ite h.putQueue.setErr.wf h.putQueue.setErr

theorem State.SameChans.haltFlint {p c cause} (h : s.SameChans t) : s.SameChans (t.haltFlint p c cause) :=
  h.setFlint.wf.wf.wf.wf

theorem State.SameChans.stopCore {p c} (h : s.SameChans t) : s.SameChans (t.stopCore p c) :=
  (ite h h.haltFlint).abortQueue.abortQueue.abortQueue.setGarnet.setStage.wf.wf.wf.wf.wf

theorem State.SameChans.stopCores {p n} (h : s.SameChans t) : s.SameChans (t.stopCores p n) := by
  induction n with
  | zero => exact h
  | succ n ih => exact ih.stopCore

theorem State.SameChans.dropParked {p i} (h : s.SameChans t) : s.SameChans (t.dropParked p i) :=
  ite h.setPark.wf h

theorem State.SameChans.freeCtx {i} (h : s.SameChans t) : s.SameChans (t.freeCtx i) :=
  ite h h.dropParked.setCtx.setAux.wf

theorem State.SameChans.freeCtxs {l} (h : s.SameChans t) : s.SameChans (t.freeCtxs l) :=
  h.foldl fun _ _ => freeCtx

theorem State.SameChans.hostDone {i st} (h : s.SameChans t) : s.SameChans (t.hostDone i st) := by
  unfold State.hostDone
  split
  · exact h
  · split
    · exact h
    · exact h.setHandle.produce

theorem State.SameChans.resumeHandle {j a n x} (h : s.SameChans t) : s.SameChans (t.resumeHandle j a n x) := by
  unfold State.resumeHandle
  extract_lets go
  split
  · exact h.setHandle
  · exact ite h.setHandle h.setHandle.produce
  · exact h.setHandle

theorem State.SameChans.rebindNow {i} (h : s.SameChans t) : s.SameChans (t.rebindNow i) := by
  unfold State.rebindNow
  split
  · exact h
  · extract_lets _ _ _ _ _ _ _ u1 u2 _ u3
    split
    · exact h.produce.hostDone
    · exact ite h.produce.hostDone h.setHost.setCtx.addf.setAux.produce.resumeHandle.hostDone

theorem State.SameChans.rebindAtAbort {p i} (h : s.SameChans t) : s.SameChans (t.rebindAtAbort p i) := by
  unfold State.rebindAtAbort
  split
  · exact h
  · exact ite h.rebindNow (ite h.setAux h)

theorem State.SameChans.abortHandles {p} (h : s.SameChans t) : s.SameChans (t.abortHandles p) :=
  (h.foldl fun _ _ => hostDone).foldl fun _ _ => rebindAtAbort

theorem State.SameChans.busErr {p a} (h : s.SameChans t) : s.SameChans (t.busErr p a) := ite h h.wf.wf

theorem State.SameChans.mergeWrite {p a bs who} (h : s.SameChans t) : s.SameChans (t.mergeWrite p a bs who).1 := by
  unfold State.mergeWrite
  split
  · exact h.busErr
  · split
    · exact h.writeBlock
    · exact h

theorem State.SameChans.colRecord {p q o st flag} (h : s.SameChans t) : s.SameChans (t.colRecord p q o st flag) := by
  unfold State.colRecord
  extract_lets a u v w
  have hv : s.SameChans v := (ite h h.mergeWrite).wf.inc
  have hw : s.SameChans w := ite hv.wf.wf hv
  exact ite hw.wf hw

theorem State.SameChans.colDrain {p q os} (h : s.SameChans t) : s.SameChans (t.colDrain p q os) := by
  induction os generalizing t with
  | nil => exact h
  | cons o os ih =>
    unfold State.colDrain
    split
    · exact h
    · exact ih h.setColq.colRecord

theorem State.SameChans.colClose {p q} (h : s.SameChans t) : s.SameChans (t.colClose p q) :=
  (ite h.setColq.colDrain.freeCtxs.setColq.wf h.setColq.colDrain.freeCtxs.setColq).wf.wf

theorem State.SameChans.endRounds {p st} (h : s.SameChans t) : s.SameChans (t.endRounds p st) :=
  ite h.setDisp.wf.wf.wf.wf h.setDisp.wf.wf.wf.wf.wf.wf

theorem State.SameChans.stopAssay {p} (h : s.SameChans t) : s.SameChans (t.stopAssay p) :=
  (ite h.wf.wf.inc h).wf.setAssay

theorem State.SameChans.stopStrata {p} (h : s.SameChans t) : s.SameChans (t.stopStrata p) :=
  (ite h.wf.wf h).setStrata

theorem State.SameChans.quietCtxs {l} (h : s.SameChans t) : s.SameChans (t.quietCtxs l) :=
  h.foldl fun _ _ => setAux

theorem State.SameChans.stopPartition {p} (h : s.SameChans t) : s.SameChans (t.stopPartition p) := by
  unfold State.stopPartition
  extract_lets u1 u2 u3 u4 u5
  have hquiet : s.SameChans u3 := h.stopCores.setMover.wf.setPark.wf.quietCtxs
  have hclosed : s.SameChans u5 := hquiet.endRounds.foldl fun _ _ => colClose
  exact hclosed.stopAssay.stopStrata.abortHandles

theorem State.SameChans.deliverAbort {p b} (h : s.SameChans t) : s.SameChans (t.deliverAbort p b) :=
  ite h.wf.wf.wf.wf.wf.inc.stopPartition.wf h.wf.wf.wf.wf.wf.inc

theorem State.SameChans.takeWave {b peer} (h : s.SameChans t) : s.SameChans (t.takeWave b peer) :=
  (h.foldl fun _ _ => deliverAbort).foldl fun _ _ => emit

theorem State.SameChans.startWave {p cause unit} (h : s.SameChans t) : s.SameChans (t.startWave p cause unit) :=
  ite h.takeWave h

theorem State.SameChans.fatal {p r} (h : s.SameChans t) : s.SameChans (t.fatal p r) := h.raise.startWave

end
end Sys2Proof.Machine
end

section
namespace Sys2Proof.Machine

/-! ## Stack channels: training, retraining, failure and refresh (R229, R249–R252) -/

theorem onChan_of_lt {s t : State} {st ch : Nat} (hst : st < s.fuse.variant.stacks) (hch : ch < 32) : onChan s st ch t = .next t :=
  if_pos ⟨hst, hch⟩

section
variable {s t : State} {st ch : Nat}

theorem State.getChan_setChan_same {x : Channel} (h : Tbl.sortedFrom 0 s.chan = true) : (s.setChan st ch x).getChan st ch = x :=
  Tbl.get_set_same _ _ h

theorem State.SameChans.getChan (h : s.SameChans t) : t.getChan st ch = s.getChan st ch :=
  congrArg (fun l => Tbl.get ({} : Channel) l (st * 32 + ch)) h.chan

/-! ### Failure (R252) -/

/-- What the failure of a channel does to its half `half`: the requests complete, and the partition's jobs abort. -/
def State.failHalf (s : State) (st ch stage half : Nat) : State :=
  let (p, i) := s.ownerOf st (ch + 32 * half)
  (s.setPc p i { s.getPc p i with reqs := [] }).fatal p
    { unit := s.memUnit p i, cls := .fatal, code := 0x54, part := some p, synd := [(ch, 1), (stage, 1)] }

theorem State.SameChans.failHalf {stage half} (h : s.SameChans t) : s.SameChans (t.failHalf st ch stage half) := h.setPc.fatal

/-- A channel fails with both of its halves, and the log records it. -/
theorem State.failChannel_eq (s : State) (st ch stage : Nat) : s.failChannel st ch stage =
    let u := ((s.setChan st ch { s.getChan st ch with st := 3 }).failHalf st ch stage 0).failHalf st ch stage 1
    u.logState { u.log with failedChans := (st * 32 + ch) :: u.log.failedChans.filter (· != st * 32 + ch) } := by
  simp only [State.failChannel, State.failHalf, List.foldl_cons, List.foldl_nil]

theorem State.getChan_failChannel {stage : Nat} (h : Tbl.sortedFrom 0 s.chan = true) :
    (s.failChannel st ch stage).getChan st ch = { s.getChan st ch with st := 3 } := by
  have hkept (u : State) : u.SameChans ((u.failHalf st ch stage 0).failHalf st ch stage 1) := (SameChans.refl u).failHalf.failHalf
  rw [State.failChannel_eq, (hkept _).logState.getChan, State.getChan_setChan_same h]

theorem State.mem_failedChans_failChannel (s : State) (st ch stage : Nat) :
    st * 32 + ch ∈ (s.failChannel st ch stage).log.failedChans := by
  rw [State.failChannel_eq]
  exact List.mem_cons_self

/-! ### Refresh (R229) -/

/-- A written field reads what it was given where every write to its cell is that one. -/
theorem State.rf_wfs_agree {l : List (Fld × Nat)} {f : Fld} {v : Nat} (h : Tbl.sortedFrom 0 s.flds = true) (hf : (f, v) ∈ l)
    (ha : ∀ e ∈ l, f.cell = e.1.cell → e = (f, v)) : (s.wfs l).rf f = v % 2 ^ f.w := by
  induction l generalizing s with
  | nil => cases hf
  | cons e l ih =>
    rw [List.forall_mem_cons] at ha
    by_cases hl : (f, v) ∈ l
    · exact ih (State.sorted_wf e.1 e.2 h) hl ha.2
    · have he : e = (f, v) := ((List.mem_cons.mp hf).resolve_right hl).symm
      subst he
      refine (State.rf_wfs_ne (State.sorted_wf f v h) fun e he hc => hl ?_).trans (State.rf_wf_same f v h)
      exact ha.2 e he hc ▸ he

end

/-- What pseudo-channel `q` of a stack is told of the stack's temperature. -/
def State.tempFields (s : State) (st temp q : Nat) : List (Fld × Nat) :=
  let a := s.ownerOf st q
  [(MEM_TEMP.TEMP a.1 a.2, temp), (MEM_TEMP.REF2X a.1 a.2, bit (decide (85 * 8 < temp)))]

section
variable {s : State} {st temp q : Nat}

theorem State.tempFields_congr {t : State} (h : t.fuse = s.fuse) : t.tempFields st temp = s.tempFields st temp := by
  funext q
  rw [State.tempFields, State.ownerOf, h]
  rfl

/-- The pseudo-channels of a stack are told in turn. -/
theorem State.foldl_tempFields (l : List Nat) :
    l.foldl (fun s q => s.wfs (s.tempFields st temp q)) s = s.wfs (l.flatMap (s.tempFields st temp)) := by
  induction l generalizing s with
  | nil => rfl
  | cons q l ih =>
    have hfuse : (s.wfs (s.tempFields st temp q)).fuse = s.fuse := by rw [State.wfs_eq]
    rw [List.foldl_cons, ih, State.tempFields_congr hfuse, List.flatMap_cons, State.wfs, State.wfs, State.wfs, List.foldl_append]

theorem State.stackTemp_eq : s.stackTemp st temp = s.wfs ((List.range 64).flatMap (s.tempFields st temp)) :=
  State.foldl_tempFields _

/-- Of the fields that a stack's temperature is written to those of one cell are one. -/
theorem State.tempFields_agree {r : Nat} {e f : Fld × Nat} (he : e ∈ s.tempFields st temp r) (hf : f ∈ s.tempFields st temp q)
    (hc : f.1.cell = e.1.cell) : e = f := by
  simp only [State.tempFields, List.mem_cons, List.not_mem_nil, or_false] at he hf
  -- two fields of one kind are of one register, and two of different kinds begin at different bits
  obtain rfl | rfl := he <;> obtain rfl | rfl := hf
  all_goals
    simp only [Fld.cell, MEM_TEMP.TEMP, MEM_TEMP.REF2X, Prod.mk.injEq, Fld.mk.injEq, and_true] at hc ⊢
    omega

theorem State.rf_stackTemp (h : Tbl.sortedFrom 0 s.flds = true) (hq : q < 64) {f : Fld} {v : Nat} (hf : (f, v) ∈ s.tempFields st temp q) :
    (s.stackTemp st temp).rf f = v % 2 ^ f.w := by
  rw [State.stackTemp_eq]
  refine State.rf_wfs_agree h (List.mem_flatMap.mpr ⟨q, List.mem_range.mpr hq, hf⟩) fun e he hc => ?_
  obtain ⟨r, -, hr⟩ := List.mem_flatMap.mp he
  exact State.tempFields_agree hr hf hc

end
end Sys2Proof.Machine

open Sys2Proof Sys2Proof.Machine

/-- Settles O37: a channel's event by the channel's state, a failure by its two halves, the temperature by the fields it is written to. -/
theorem channelsTrainRetrainAndFail : Obligations.ChannelsTrainRetrainAndFail := by
  unfold Obligations.ChannelsTrainRetrainAndFail
  refine ⟨fun s st ch r0 r1 hst hch h => ?_, fun s st ch r0 r1 hst hch h => ?_, fun s st ch hst hch => onChan_of_lt hst hch,
    fun s st ch half cmd hst hch hhalf => ?_, fun s st ch hst hch => ?_,
    fun s st ch stage h => ⟨?_, State.mem_failedChans_failChannel s st ch stage⟩, fun s st ch stage => ?_,
    fun s st temp q hst hq htemp h => ⟨s.stackTemp st temp, ?_, ⟨?_, ?_⟩, ?_⟩⟩
  · exact ⟨(onChan_of_lt hst hch).trans (congrArg _ (if_neg (not_not.mpr h))),
      (onChan_of_lt hst hch).trans (congrArg _ (if_neg (not_not.mpr h)))⟩
  · exact ⟨(onChan_of_lt hst hch).trans (congrArg _ (if_pos h)), (onChan_of_lt hst hch).trans (congrArg _ (if_pos h))⟩
  · simp only [exec_parityError, execParityError, onChan_of_lt hst hch, Nat.mod_eq_of_lt hhalf]
    refine ⟨fun h => ?_, fun h hn => ?_, fun h hn => ?_, fun ok h => congrArg _ (if_pos h)⟩
    · rw [if_neg (not_not.mpr h), if_pos trivial]
    · rw [if_neg (not_not.mpr h), if_neg Bool.false_ne_true, if_pos hn]
    · rw [if_neg (not_not.mpr h), if_neg Bool.false_ne_true, if_neg (Nat.not_lt.mpr hn)]
  · simp only [exec_channelRetrainDone, execChannelRetrainDone, onChan_of_lt hst hch]
    refine ⟨fun h => ?_, fun h hf => ?_, fun h hf => ?_, fun ok h => congrArg _ (if_pos h)⟩
    · rw [if_neg (not_not.mpr h), if_pos trivial]
    · rw [if_neg (not_not.mpr h), if_neg Bool.false_ne_true, if_pos (by omega), hf]
    · rw [if_neg (not_not.mpr h), if_neg Bool.false_ne_true, if_neg (by omega)]
  · rw [State.getChan_failChannel h]
  · simp only [State.failChannel_eq, State.failHalf, State.fatal, waveFAULT]
  · exact if_neg (Nat.not_le.mpr hst)
  · exact (State.rf_stackTemp h hq List.mem_cons_self).trans (Nat.mod_eq_of_lt htemp)
  · refine (State.rf_stackTemp h hq (List.mem_cons_of_mem _ List.mem_cons_self)).trans ?_
    by_cases hhot : 680 < temp
    · simp [hhot, bit, MEM_TEMP.REF2X]
    · simp [hhot, bit]
  · rw [State.stackTemp_eq, State.wfs_eq]

end

section
namespace Sys2Proof.Machine

/-! ## Stacked memory: placement, grants and scrubs (R196, R233–R247) -/

theorem onPc_of_lt {s t : State} {p i : Nat} (hp : p < 16) (hi : i < s.fuse.variant.chans) : onPc s p i t = .next t :=
  if_pos ⟨hp, hi⟩

/-! ### Placement (R233) -/

/-- What takes `k` to the next multiple of `n` above it. -/
theorem add_sub_mod_eq_mul {n : Nat} (hn : 0 < n) (k : Nat) : k + (n - k % n) = n * (k / n + 1) := by
  have hlt := Nat.mod_lt k hn
  have hdiv := Nat.div_add_mod k n
  rw [Nat.mul_add_one]
  omega

/-- A rotation by `k` modulo `n` is undone. -/
theorem rotate_back_mod {n : Nat} (hn : 0 < n) (x k : Nat) : ((x + k) % n + n - k % n) % n = x % n := by
  rw [Nat.add_sub_assoc (Nat.mod_lt k hn).le, Nat.mod_add_mod, Nat.add_assoc, add_sub_mod_eq_mul hn, Nat.add_mul_mod_self_left]

theorem back_rotate_mod {n : Nat} (hn : 0 < n) (x k : Nat) : ((x + n - k % n) % n + k) % n = x % n := by
  rw [Nat.add_sub_assoc (Nat.mod_lt k hn).le, Nat.mod_add_mod, Nat.add_assoc, Nat.add_comm _ k, add_sub_mod_eq_mul hn,
    Nat.add_mul_mod_self_left]

section
variable {s : State} {a i o : Nat}

theorem Variant.chans_pos (v : Variant) : 0 < v.chans := by cases v <;> decide

theorem State.pcOf_lt (h : a < s.fuse.variant.stackedBytes) : (s.pcOf a).1 < s.fuse.variant.chans ∧ (s.pcOf a).2 < 2 ^ 30 := by
  refine ⟨Nat.mod_lt _ (Variant.chans_pos _), ?_⟩
  have hrow : a / 256 / s.fuse.variant.chans < 2 ^ 22 := by
    rw [Nat.div_lt_iff_lt_mul (Variant.chans_pos _)]
    unfold Variant.stackedBytes at h
    omega
  unfold State.pcOf
  dsimp only
  omega

theorem State.addrAt_pcOf (s : State) (a : Nat) : s.addrAt (s.pcOf a).1 (s.pcOf a).2 = a := by
  have hn := Variant.chans_pos s.fuse.variant
  have hblk : ∀ k, (k * 256 + a % 256) / 256 = k ∧ (k * 256 + a % 256) % 256 = a % 256 := by omega
  simp only [State.addrAt, State.pcOf, hblk, rotate_back_mod hn, Nat.div_add_mod']

theorem State.addrAt_lt (ho : o < 2 ^ 30) : s.addrAt i o < s.fuse.variant.stackedBytes := by
  have hplace := Nat.mod_lt (i + s.fuse.variant.chans - o / 256 % s.fuse.variant.chans) (Variant.chans_pos s.fuse.variant)
  have hrow : (o / 256 + 1) * s.fuse.variant.chans ≤ 2 ^ 22 * s.fuse.variant.chans := Nat.mul_le_mul_right _ (by omega)
  rw [Nat.add_one_mul] at hrow
  simp only [State.addrAt, Variant.stackedBytes]
  omega

theorem State.pcOf_addrAt (hi : i < s.fuse.variant.chans) : s.pcOf (s.addrAt i o) = (i, o) := by
  have hn := Variant.chans_pos s.fuse.variant
  have hplace := Nat.mod_lt (i + s.fuse.variant.chans - o / 256 % s.fuse.variant.chans) hn
  have hblk : ∀ b, (b * 256 + o % 256) / 256 = b ∧ (b * 256 + o % 256) % 256 = o % 256 := by omega
  have hdiv : ∀ j < s.fuse.variant.chans, (o / 256 * s.fuse.variant.chans + j) / s.fuse.variant.chans = o / 256 := fun j hj => by
    rw [Nat.mul_comm, Nat.mul_add_div hn, Nat.div_eq_of_lt hj, Nat.add_zero]
  simp only [State.pcOf, State.addrAt, hblk, hdiv _ hplace, Nat.div_add_mod']
  rw [Nat.add_assoc, Nat.mul_comm, Nat.mul_add_mod, back_rotate_mod hn, Nat.mod_eq_of_lt hi]

end

/-! ### The request that is chosen (R237–R241) -/

section
variable {s : State} {p i : Nat} {x : PseudoChan} {r : MemReq} {g : Bool}

/-- A port puts one of the waiting requests forward. -/
theorem PseudoChan.mem_of_portReq {k : Nat} (h : x.portReq k = some r) : r ∈ x.reqs := by
  obtain ⟨w, -, hw⟩ := Option.bind_eq_some_iff.mp h
  exact List.mem_of_mem_filter (List.mem_of_find?_eq_some hw)

/-- The chosen request waits, and is in guarantee or not held by LIMIT. -/
theorem State.of_chooseReq (h : s.chooseReq p i x = some (r, g)) :
    (g = true ↔ 256 * x.charge r ≤ s.rf (MEM_REG.TOKENS p i (memPort r))) ∧
    (g = false → s.rf (MEM_REG.LIMIT p i (memPort r)) = 0) ∧ r ∈ x.reqs := by
  have hmem : ∀ {r}, r ∈ (roundFrom x.lastPort 5).filterMap x.portReq → r ∈ x.reqs := fun hr => by
    obtain ⟨k, -, hk⟩ := List.mem_filterMap.mp hr
    exact PseudoChan.mem_of_portReq hk
  unfold State.chooseReq at h
  dsimp only at h
  split at h
  · next r' hf =>
    obtain ⟨rfl, rfl⟩ := Prod.mk.inj (Option.some.inj h)
    have hg : s.guaranteed p i x r' = true := List.find?_some hf
    exact ⟨⟨fun _ => of_decide_eq_true hg, fun _ => rfl⟩, nofun, hmem (List.mem_of_find?_eq_some hf)⟩
  · next hnone =>
    obtain ⟨r', hf, hr⟩ := Option.map_eq_some_iff.mp h
    obtain ⟨rfl, rfl⟩ := Prod.mk.inj hr
    have hin := List.mem_of_find?_eq_some hf
    have hfree := List.find?_some hf
    refine ⟨⟨nofun, fun hle => ?_⟩, fun _ => beq_iff_eq.mp hfree, hmem hin⟩
    exact absurd (decide_eq_true hle) (List.find?_eq_none.mp hnone r' hin)

/-- A request reads only pairs that it touches. -/
theorem mem_readPairs_bounds {q : Nat} (h : q ∈ readPairs r) : r.off / 64 ≤ q ∧ q < r.off / 64 + memPairs r := by
  obtain ⟨k, hk, rfl⟩ := List.mem_map.mp (List.mem_of_mem_filter h)
  have := List.mem_range.mp hk
  omega

theorem reqPort_channel {k : Nat} (h : k < 32) : reqPort (.channel k) = k / 8 := by
  show k / 8 % 4 = k / 8
  omega

/-! ### A grant (R237–R241, R251, R252) -/

/-- The state in which the controller arbitrates: what arrived waits, and the regulators are refilled. -/
def State.tookIn (s : State) (p i cycles : Nat) (arrived : List MemReq) : State :=
  (s.setPc p i { s.getPc p i with reqs := (s.getPc p i).reqs ++ arrived }).refill p i cycles

theorem State.SameChans.refill {t : State} {n : Nat} (h : s.SameChans t) : s.SameChans (t.refill p i n) := h.foldl fun _ _ => wf

theorem State.sameChans_tookIn (s : State) (p i cycles : Nat) (arrived : List MemReq) : s.SameChans (s.tookIn p i cycles arrived) :=
  (SameChans.refl s).setPc.refill

/-- What the controller does with what waits, by the state of its channel. -/
def State.arbitrate (s : State) (p i : Nat) (errs : List (Nat × PairErrors)) : Nat → State
  | 3 => s.setPc p i { s.getPc p i with reqs := [] }
  | 1 =>
    match s.chooseReq p i (s.getPc p i) with
    | none => s
    | some (r, g) =>
      if s.slotToOther p i g then s.inc (MEM_SLOTWAIT.CYCLES p i)
      else (readPairs r).foldl (fun s q => s.pairRead p i errs q) (s.grantReq p i r g)
  | _ => s

theorem execMemRequestGrant_eq {cycles : Nat} {arrived : List MemReq} {errs : List (Nat × PairErrors)} (hp : p < 16)
    (hi : i < s.fuse.variant.chans) : exec (.memRequestGrant p i arrived cycles errs) s = .next ((s.tookIn p i cycles arrived).arbitrate
      p i errs (s.getChan (s.chanOf p i).1 (s.chanOf p i).2.1).st) := by
  rw [exec_memRequestGrant, execMemRequestGrant, onPc_of_lt hp hi, ← (s.sameChans_tookIn p i cycles arrived).getChan]
  rfl

theorem State.arbitrate_none {errs : List (Nat × PairErrors)} (h : s.chooseReq p i (s.getPc p i) = none) : s.arbitrate p i errs 1 = s := by
  rw [State.arbitrate, h]

theorem State.arbitrate_some {errs : List (Nat × PairErrors)} (h : s.chooseReq p i (s.getPc p i) = some (r, g)) :
    s.arbitrate p i errs 1 = if s.slotToOther p i g then s.inc (MEM_SLOTWAIT.CYCLES p i)
      else (readPairs r).foldl (fun s q => s.pairRead p i errs q) (s.grantReq p i r g) := by
  rw [State.arbitrate, h]

/-! ### What a granted request is charged (R240) -/

theorem State.getPc_setPc_same {y : PseudoChan} (h : Tbl.sortedFrom 0 s.pc = true) : (s.setPc p i y).getPc p i = y :=
  Tbl.get_set_same _ _ h

theorem State.rf_addf_same {f : Fld} {n : Nat} (h : Tbl.sortedFrom 0 s.flds = true) : (s.addf f n).rf f = (s.rf f + n) % 2 ^ f.w :=
  State.rf_wf_same _ _ h

theorem memPort_lt (r : MemReq) : memPort r < 5 := by
  unfold memPort reqPort
  split
  · omega
  · decide

/-- The registers that a grant writes lie in different cells. -/
theorem grantFields_cells (p i : Nat) (r : MemReq) :
    (MEM_SVC.CHARGED p i (memPort r)).cell ≠ (MEM_REG.TOKENS p i (memPort r)).cell ∧
    (MEM_BYTES.BYTES p i).cell ≠ (MEM_REG.TOKENS p i (memPort r)).cell ∧
    (MEM_BYTES.BYTES p i).cell ≠ (MEM_SVC.CHARGED p i (memPort r)).cell := by
  have hport := memPort_lt r
  simp only [Fld.cell, MEM_REG.TOKENS, MEM_REG.key, MEM_SVC.CHARGED, MEM_SVC.key, MEM_BYTES.BYTES, MEM_BYTES.key]
  omega

/-- In guarantee the charge of a request is taken from the tokens of its port. -/
def State.tookTokens (s : State) (p i : Nat) (r : MemReq) (g : Bool) : State :=
  if g then s.wf (MEM_REG.TOKENS p i (memPort r)) (s.rf (MEM_REG.TOKENS p i (memPort r)) - 256 * (s.getPc p i).charge r) else s

theorem State.sorted_tookTokens (h : Tbl.sortedFrom 0 s.flds = true) : Tbl.sortedFrom 0 (s.tookTokens p i r g).flds = true := by
  cases g with
  | false => exact h
  | true => exact State.sorted_wf _ _ h

theorem State.rf_tookTokens_ne {f : Fld} (h : Tbl.sortedFrom 0 s.flds = true) (hf : f.cell ≠ (MEM_REG.TOKENS p i (memPort r)).cell) :
    (s.tookTokens p i r g).rf f = s.rf f := by
  cases g with
  | false => rfl
  | true => exact State.rf_wf_ne _ h hf

/-- The accounts of a request: its charge, and its bytes. -/
def State.accounted (s : State) (p i : Nat) (r : MemReq) (g : Bool) : State :=
  ((s.tookTokens p i r g).addf (MEM_SVC.CHARGED p i (memPort r)) ((s.getPc p i).charge r)).addf (MEM_BYTES.BYTES p i) (32 * r.sectors)

theorem State.accounted_frame : s.accounted p i r g = { s with flds := (s.accounted p i r g).flds } := by
  cases g <;> rfl

theorem State.rf_accounted_charged (h : Tbl.sortedFrom 0 s.flds = true) : (s.accounted p i r g).rf (MEM_SVC.CHARGED p i (memPort r)) =
    (s.rf (MEM_SVC.CHARGED p i (memPort r)) + (s.getPc p i).charge r) % 2 ^ 64 := by
  obtain ⟨hct, -, hbc⟩ := grantFields_cells p i r
  have hsorted := State.sorted_tookTokens (p := p) (i := i) (r := r) (g := g) h
  calc (s.accounted p i r g).rf (MEM_SVC.CHARGED p i (memPort r))
    _ = ((s.tookTokens p i r g).addf (MEM_SVC.CHARGED p i (memPort r)) ((s.getPc p i).charge r)).rf (MEM_SVC.CHARGED p i (memPort r)) :=
      State.rf_wf_ne _ (State.sorted_wf _ _ hsorted) hbc.symm
    _ = ((s.tookTokens p i r g).rf (MEM_SVC.CHARGED p i (memPort r)) + (s.getPc p i).charge r) % 2 ^ 64 := State.rf_addf_same hsorted
    _ = _ := by rw [State.rf_tookTokens_ne h hct]

theorem State.rf_accounted_bytes (h : Tbl.sortedFrom 0 s.flds = true) :
    (s.accounted p i r g).rf (MEM_BYTES.BYTES p i) = (s.rf (MEM_BYTES.BYTES p i) + 32 * r.sectors) % 2 ^ 64 := by
  obtain ⟨-, hbt, hbc⟩ := grantFields_cells p i r
  have hsorted := State.sorted_tookTokens (p := p) (i := i) (r := r) (g := g) h
  have hother : ((s.tookTokens p i r g).addf (MEM_SVC.CHARGED p i (memPort r)) ((s.getPc p i).charge r)).rf (MEM_BYTES.BYTES p i) =
      s.rf (MEM_BYTES.BYTES p i) := (State.rf_wf_ne _ hsorted hbc).trans (State.rf_tookTokens_ne h hbt)
  rw [← hother]
  exact State.rf_addf_same (State.sorted_wf _ _ hsorted)

/-- The request leaves, served last, with its row open. -/
def PseudoChan.served (x : PseudoChan) (r : MemReq) : PseudoChan :=
  { x with reqs := x.reqs.erase r, lastPort := memPort r, lastReq := x.lastReq.set 0 (memPort r) (reqPlace r.who)
           rows := x.rows.set 0 (bankOf r.off) (rowAt r.off + 1), writing := r.write }

/-- A grant: the accounts, the request, and the half that had the command bus. -/
theorem State.grantReq_eq : s.grantReq p i r g =
    let t := (s.accounted p i r g).setPc p i ((s.getPc p i).served r)
    t.setChan (s.chanOf p i).1 (s.chanOf p i).2.1
      { t.getChan (s.chanOf p i).1 (s.chanOf p i).2.1 with lastHalf := (s.chanOf p i).2.2 } := rfl

theorem State.rf_grantReq (f : Fld) : (s.grantReq p i r g).rf f = (s.accounted p i r g).rf f := by
  rw [State.grantReq_eq]
  rfl

theorem State.getPc_grantReq (h : Tbl.sortedFrom 0 s.pc = true) : (s.grantReq p i r g).getPc p i = (s.getPc p i).served r := by
  have hpc : (s.accounted p i r g).pc = s.pc := by rw [State.accounted_frame]
  rw [State.grantReq_eq]
  exact State.getPc_setPc_same (hpc ▸ h)

theorem State.grantReq_frame : s.grantReq p i r g =
    { s with pc := (s.grantReq p i r g).pc, flds := (s.grantReq p i r g).flds, chan := (s.grantReq p i r g).chan } := by
  rw [State.grantReq_eq, State.accounted_frame]
  rfl

end

/-! ### What the symbol code finds (R244–R247) -/

theorem symbolFinding_nil : symbolFinding [] = .clean := by
  unfold symbolFinding
  exact if_pos rfl

section
variable {s t : State} {p i o q pos : Nat} {scrub : Bool} {errs : List (Nat × PairErrors)}

theorem State.pairRead_bad (h : q ∈ (s.getPc p i).bad) : s.pairRead p i errs q = s.pairUncorrectable p i (64 * q) :=
  if_pos (List.contains_iff_mem.mpr h)

/-- What becomes of a pair by what the code finds in it, for a request or for the scrub. -/
def State.pairFound (s : State) (p i o : Nat) (scrub : Bool) : Finding → State
  | .clean => s
  | .corrected pos => s.pairCorrected p i o pos scrub
  | .uncorrectable => if scrub then s.pairScrubbed p i o else s.pairUncorrectable p i o

/-- A pair that is not uncorrectable goes by what the code finds in it. -/
theorem State.pairRead_good {f : Finding} (h : q ∉ (s.getPc p i).bad)
    (hf : symbolFinding ((errs.filter (fun e => e.1 == q)).flatMap (·.2)) = f) :
    s.pairRead p i errs q = s.pairFound p i (64 * q) false f := by
  unfold State.pairRead
  rw [if_neg (mt List.contains_iff_mem.mp h), hf]
  cases f <;> rfl

theorem State.pairReport_congr (h : t.fuse = s.fuse) {cls : Cls} : t.pairReport p i o pos cls scrub = s.pairReport p i o pos cls scrub := by
  simp only [State.pairReport, State.memUnit, State.chanOf, State.addrAt, h]

theorem State.mem_bad_pairLost (h : Tbl.sortedFrom 0 s.pc = true) : o / 64 ∈ ((s.pairLost p i o).getPc p i).bad := by
  rw [State.pairLost, State.getPc_setPc_same h]
  exact List.mem_cons_self

/-- The state with an uncorrectable pair and its address recorded. -/
def State.lostRecorded (s : State) (p i o : Nat) (scrub : Bool) : State := (s.pairLost p i o).eccAddr p i o scrub

theorem State.fuse_lostRecorded : (s.lostRecorded p i o scrub).fuse = s.fuse := (Keeps.refl s).pairLost.eccAddr.fuse

/-- An uncorrectable pair met by a request is FATAL and starts the abort wave. -/
theorem State.pairUncorrectable_eq : s.pairUncorrectable p i o = let u := s.lostRecorded p i o false
    (u.raise { u.pairReport p i o 0xFF .fatal false with cls := .fatal, part := some p }).startWave p 1 (u.memUnit p i) := by
  have hreport := State.pairReport_congr (p := p) (i := i) (o := o) (pos := 0xFF) (scrub := false) (cls := .fatal)
    (State.fuse_lostRecorded (s := s) (p := p) (i := i) (o := o) (scrub := false))
  unfold State.pairUncorrectable State.fatal
  rw [← hreport]
  rfl

/-- The address of the first uncorrectable pair is kept. -/
theorem State.eccAddr_kept (h : (s.inc (MEM_ECC.UNC p i)).rf (MEM_ECC_ADDR.VALID p i) = 1) :
    s.eccAddr p i o scrub = s.inc (MEM_ECC.UNC p i) := if_pos h

theorem State.eccAddr_first (h : (s.inc (MEM_ECC.UNC p i)).rf (MEM_ECC_ADDR.VALID p i) ≠ 1) : s.eccAddr p i o scrub =
    let u := s.inc (MEM_ECC.UNC p i)
    ((u.wf (MEM_ECC_ADDR.ADDR p i) (u.addrAt i (o / 64 * 64))).wf (MEM_ECC_ADDR.SCRUB p i) (bit scrub)).wf (MEM_ECC_ADDR.VALID p i) 1 :=
  if_neg h

end

/-! ### Patrol scrub (R246) -/

section
variable {s : State} {p i o od : Nat} {errs : PairErrors}

/-- A scrub of a pair that is uncorrectable finds it so again; any other goes by what the code finds in it. -/
def State.scrubbed (s : State) (p i o : Nat) (errs : PairErrors) : State :=
  if (s.getPc p i).bad.contains (o / 64) then s.pairScrubbed p i o else s.pairFound p i o true (symbolFinding errs)

theorem State.scrubbed_bad (h : o / 64 ∈ (s.getPc p i).bad) : s.scrubbed p i o errs = s.pairScrubbed p i o :=
  if_pos (List.contains_iff_mem.mpr h)

theorem State.scrubbed_good {f : Finding} (h : o / 64 ∉ (s.getPc p i).bad) (hf : symbolFinding errs = f) :
    s.scrubbed p i o errs = s.pairFound p i o true f := hf ▸ if_neg (mt List.contains_iff_mem.mp h)

theorem execPatrolScrub_eq (hp : p < 16) (hi : i < s.fuse.variant.chans) : exec (.patrolScrub p i o od errs) s = .next (
    if s.rf (MEM_CFG.SCRUB_EN p i) = 0 ∨ (s.getChan (s.chanOf p i).1 (s.chanOf p i).2.1).st ≠ 1 then s
    else (s.addf (MEM_ODECC.ODCORR p i) od).scrubbed p i o errs) := by
  rw [exec_patrolScrub, execPatrolScrub, onPc_of_lt hp hi]
  rfl

end
end Sys2Proof.Machine

open Sys2Proof Sys2Proof.Machine

/-- Settles O36: placement by a rotation that is undone, a grant by the state of its channel and the chosen request, a pair by what the
code finds in it. -/
theorem memoryGrantsAndScrubs : Obligations.MemoryGrantsAndScrubs := by
  unfold Obligations.MemoryGrantsAndScrubs
  refine ⟨fun s a ha => ⟨(State.pcOf_lt ha).1, (State.pcOf_lt ha).2, State.addrAt_pcOf s a⟩,
    fun s i o hi ho => ⟨State.addrAt_lt ho, State.pcOf_addrAt hi⟩, fun s p i o => rfl, fun k c => ⟨reqPort_channel, rfl, rfl, rfl⟩,
    fun s p i cycles arrived errs hp hi => ?_, fun s p i x r g => State.of_chooseReq,
    fun s p i q errs => ⟨State.pairRead_bad, fun h =>
      ⟨State.pairRead_good h, fun pos => State.pairRead_good h, State.pairRead_good h⟩⟩, symbolFinding_nil, fun r q => mem_readPairs_bounds,
    fun s p i x r hx hpc hf => ?_, fun s p i o pos scrub => rfl,
    fun s p i o h => ⟨State.pairUncorrectable_eq, State.mem_bad_pairLost h⟩,
    fun s p i o scrub => ⟨State.eccAddr_kept, State.eccAddr_first⟩, fun s p i o od errs hp hi hen hst => ?_,
    fun s p i o od errs hp hi h => (execPatrolScrub_eq hp hi).trans (congrArg _ (if_pos h))⟩
  · have grant {st : Nat} (h : (s.getChan (s.chanOf p i).1 (s.chanOf p i).2.1).st = st) :
        exec (.memRequestGrant p i arrived cycles errs) s = .next ((s.tookIn p i cycles arrived).arbitrate p i errs st) :=
      h ▸ execMemRequestGrant_eq hp hi
    exact ⟨fun h => grant h, fun h => h.elim grant grant, fun h hc => (grant h).trans (congrArg _ (State.arbitrate_none hc)),
      fun r g h hc ho => (grant h).trans (congrArg _ ((State.arbitrate_some hc).trans (if_pos ho))),
      fun r g h hc ho => (grant h).trans (congrArg _ ((State.arbitrate_some hc).trans (if_neg (ne_true_of_eq_false ho))))⟩
  · subst hx
    exact ⟨State.getPc_grantReq hpc, (State.rf_grantReq _).trans (State.rf_accounted_charged hf),
      (State.rf_grantReq _).trans (State.rf_accounted_bytes hf), State.grantReq_frame⟩
  · have scrub {t : State} (h : (s.addf (MEM_ODECC.ODCORR p i) od).scrubbed p i o errs = t) :
        exec (.patrolScrub p i o od errs) s = .next t :=
      h ▸ (execPatrolScrub_eq hp hi).trans (congrArg _ (if_neg (not_or.mpr ⟨hen, not_not.mpr hst⟩)))
    exact ⟨fun h => scrub (State.scrubbed_bad h), fun h => ⟨fun hf => scrub (State.scrubbed_good h hf),
      fun pos hf => scrub (State.scrubbed_good h hf), fun hf => scrub (State.scrubbed_good h hf)⟩⟩

end

section
namespace Sys2Proof.Machine

/-! ## Flits, replays and frames (chapter 9) -/

theorem onPort_of_lt {s t : State} {i : Nat} (h : i < s.fuse.variant.ports) : onPort s i t = .next t := if_pos h

/-! ### Acknowledgements and replays (R268, R269) -/

section
variable {s : State} {i k ack : Nat} {f : Flit} {fs : List Flit}

theorem State.linkAck_found (h : (s.getPort i).replay.findIdx? (fun f => f.seq == ack % 4096) = some k) :
    s.linkAck i ack = s.setPort i { s.getPort i with
      replay := (s.getPort i).replay.drop (k + 1)
      kept := ackKept ((s.getPort i).kept.length + (k + 1) - (s.getPort i).replay.length) (s.getPort i).kept
      fails := if ((s.getPort i).replay.take (k + 1)).any (fun f => f.seq == (s.getPort i).failSeq) = true then 0
        else (s.getPort i).fails } := by
  rw [State.linkAck, h]

theorem State.linkAck_unknown (h : (s.getPort i).replay.findIdx? (fun f => f.seq == ack % 4096) = none) : s.linkAck i ack = s := by
  rw [State.linkAck, h]

/-- How often the first flit of the replay buffer has been refused, this refusal counted. -/
def Port.refusals (x : Port) (f : Flit) : Nat := if x.fails ≠ 0 ∧ x.failSeq = f.seq then x.fails + 1 else 1

/-- A NAK that leaves something to replay sends it all again, or retrains the port at the fourth refusal of one flit. -/
theorem State.linkNak_replays (h : ((s.linkAck i ack).getPort i).replay = f :: fs) : s.linkNak i ack =
    let u := s.linkAck i ack
    let n := (u.getPort i).refusals f
    let v := u.setPort i { u.getPort i with failSeq := f.seq, fails := n }
    if n ≤ 3 then (f :: fs).foldl (fun s g => s.emit (.flit i g)) v
    else (v.enterRetrain i).setPort i { (v.enterRetrain i).getPort i with sentAccept := true, gotAccept := true, failSeq := f.seq } := by
  unfold State.linkNak
  dsimp only
  rw [h]
  rfl

theorem execNakReceive_eq (hi : i < s.fuse.variant.ports) : exec (.nakReceive i ack) s = .next (
    if s.zstate i ≠ 3 then s else s.linkNak i ack) := by
  rw [exec_nakReceive, execNakReceive, onPort_of_lt hi]
  rfl

end

/-! ### Flits received (R266–R268, R273) -/

section
variable {s : State} {i : Nat} {f : Flit}

/-- What every good flit that is not discarded brings: its credits, and its acknowledgement or NAK. -/
def State.creditAck (s : State) (i : Nat) (f : Flit) : State :=
  let x := s.getPort i
  let v := s.setPort i { x with credit0 := Nat.min 128 (x.credit0 + f.cr0), credit1 := Nat.min 128 (x.credit1 + f.cr1) }
  if f.nak = true then v.linkNak i f.ack else v.linkAck i f.ack

theorem execFlitReceive_off (hi : i < s.fuse.variant.ports) (h : s.zstate i ≠ 3 ∨ s.zrole i ≠ 0) :
    exec (.flitReceive i f) s = .next s := by
  rw [exec_flitReceive, execFlitReceive, onPort_of_lt hi]
  exact congrArg _ (if_pos h)

/-- On an UP peer port FEC judges a flit first, then the link CRC; of a good one only a data flit with another number than the one due
is dropped whole. -/
theorem execFlitReceive_up (hi : i < s.fuse.variant.ports) (hz : s.zstate i = 3) (hr : s.zrole i = 0) :
    exec (.flitReceive i f) s = .next (
      let u := s.addf (ZLK_FEC.CORR i) f.fecCorrected
      let w := u.creditAck i f
      if !f.fecOk then (u.inc (ZLK_FEC.UNCORR i)).flitFailed i f.seq
      else if f.crc ≠ flitCrc f then (u.inc (ZLK_CRC.COUNT i)).flitFailed i f.seq
      else if f.typ = 1 ∧ f.seq ≠ (u.getPort i).rxSeq then u.dataFlit i f
      else (if f.typ = 1 ∧ w.zstate i = 3 then w.dataFlit i f else w).pumpAll i) := by
  have hup : ¬ (s.zstate i ≠ zUP ∨ s.zrole i ≠ rolePEER) := not_or.mpr ⟨not_not.mpr hz, not_not.mpr hr⟩
  rw [exec_flitReceive, execFlitReceive, onPort_of_lt hi, if_neg hup]
  rfl

theorem execFlitReceive_good (hi : i < s.fuse.variant.ports) (hz : s.zstate i = 3) (hr : s.zrole i = 0) (hf : f.fecOk = true)
    (hc : f.crc = flitCrc f) : exec (.flitReceive i f) s = .next (
      let u := s.addf (ZLK_FEC.CORR i) f.fecCorrected
      let w := u.creditAck i f
      if f.typ = 1 ∧ f.seq ≠ (u.getPort i).rxSeq then u.dataFlit i f
      else (if f.typ = 1 ∧ w.zstate i = 3 then w.dataFlit i f else w).pumpAll i) := by
  rw [execFlitReceive_up hi hz hr]
  exact congrArg _ ((if_neg (by simp [hf])).trans (if_neg (not_not.mpr hc)))

theorem State.dataFlit_early (h : f.seq ≠ (s.getPort i).rxSeq) : s.dataFlit i f = s.setPort i ((s.getPort i).toCome f.seq) := if_pos h

/-- The flit that is due moves the number on, is counted when it comes on a replay, and is acknowledged once it is passed on or taken. -/
theorem State.dataFlit_due (h : f.seq = (s.getPort i).rxSeq) : s.dataFlit i f =
    let x := s.getPort i
    let u := s.setPort i { x with rxSeq := (x.rxSeq + 1) % 4096, discarding := false, naks := 0, again := x.again - 1 }
    let v := if 0 < x.again then u.replayed i f.seq x.naks else u
    (v.forward i f).1.emit (.flit i (bareFlit 2 f.seq false (bit (!f.vc && !(v.forward i f).2)) (bit f.vc))) :=
  if_neg (not_not.mpr h)

end

/-! ### Flits sent (R266–R268) -/

section
variable {s : State} {i : Nat} {x : Port} {q : QFlit}

theorem State.getPort_setPort_same (h : Tbl.sortedFrom 0 s.port = true) : (s.setPort i x).getPort i = x :=
  Tbl.get_set_same _ _ h

theorem State.returnCredit_unheld (h : q.held = false) : s.returnCredit q = s :=
  if_pos (.inl (congrArg not h))

/-- The flit of a message as a port puts it on the link: numbered, with its acknowledgement and its link CRC. -/
def Port.stamped (x : Port) (f : Flit) : Flit :=
  let g := { f with seq := x.txSeq, ack := (x.rxSeq + 4095) % 4096 }
  { g with crc := flitCrc g }

/-- A port once it has sent a flit of its queue. -/
def Port.sent (x : Port) (q : QFlit) : Port :=
  { x with
    queue := x.queue.erase q, kept := x.kept ++ [{ q with held := false }], replay := x.replay ++ [x.stamped q.flit]
    txSeq := (x.txSeq + 1) % 4096, cur := if q.flit.eom = true then 0 else q.src
    credit0 := if q.flit.vc = true then x.credit0 else x.credit0 - 1
    credit1 := if q.flit.vc = true then x.credit1 - 1 else x.credit1 }

theorem State.pump1_none (h : (s.getPort i).nextFlit = none) : s.pump1 i = s := by
  unfold State.pump1
  dsimp only
  rw [h]

/-- The next flit waits for room in the replay buffer and for the port to be UP, and is sent once it has both. -/
theorem State.pump1_some (h : (s.getPort i).nextFlit = some q) : s.pump1 i =
    if 64 ≤ (s.getPort i).replay.length ∨ s.zstate i ≠ 3 then s
    else ((s.setPort i ((s.getPort i).sent q)).emit (.flit i ((s.getPort i).stamped q.flit))).returnCredit q := by
  unfold State.pump1
  dsimp only
  rw [h]
  rfl

theorem State.pump1_sends (h : (s.getPort i).nextFlit = some q) (hq : q.held = false) (hr : (s.getPort i).replay.length < 64)
    (hz : s.zstate i = 3) :
    s.pump1 i = (s.setPort i ((s.getPort i).sent q)).emit (.flit i ((s.getPort i).stamped q.flit)) := by
  have hgo : ¬ (64 ≤ (s.getPort i).replay.length ∨ s.zstate i ≠ 3) := not_or.mpr ⟨Nat.not_le.mpr hr, not_not.mpr hz⟩
  rw [State.pump1_some h, if_neg hgo, State.returnCredit_unheld hq]

/-- What a port sends next waits in its queue, has a credit of its channel, and belongs to the message being sent. -/
theorem Port.of_nextFlit (h : x.nextFlit = some q) :
    q ∈ x.queue ∧ 0 < (if q.flit.vc = true then x.credit1 else x.credit0) ∧ (x.cur ≠ 0 → q.src = x.cur) := by
  unfold Port.nextFlit at h
  split at h
  · next h0 => exact ⟨List.mem_of_find?_eq_some h, of_decide_eq_true (List.find?_some h :), fun hne => absurd h0 hne⟩
  · obtain ⟨e, he, hc⟩ := Option.bind_eq_some_iff.mp h
    obtain ⟨hcred, ⟨⟩⟩ := Option.ite_none_right_eq_some.mp hc
    exact ⟨List.mem_of_find?_eq_some he, hcred, fun _ => beq_iff_eq.mp (List.find?_some he :)⟩

end

/-! ### Frames (R254, R255, R284) -/

section
variable {s : State} {i : Nat} {fr : Frame}

theorem execFrameReceive_off (hi : i < s.fuse.variant.ports) (h : s.isGlobal i = false ∨ s.zstate i ≠ 3) :
    exec (.frameReceive i fr) s = .next s :=
  (onPort_of_lt hi).trans (congrArg _ (if_pos (h.imp_left (congrArg not))))

/-- What an UP global port makes of a frame. -/
def State.takeFrame (s : State) (i : Nat) : Frame → State
  | .udp dst port ok m =>
    if dst = s.ownAddr i ∧ port = s.rf ZTP_MCFG.UDP_PORT ∧ ok = true then s.receive m else s.inc (ZLK_RXDROP.COUNT i)
  | .neighborSolicitation target => if target = s.ownAddr i then s.emit (.neighborAdvert i) else s.inc (ZLK_RXDROP.COUNT i)
  | .other => s.inc (ZLK_RXDROP.COUNT i)

theorem execFrameReceive_up (hi : i < s.fuse.variant.ports) (hg : s.isGlobal i = true) (hz : s.zstate i = 3) :
    exec (.frameReceive i fr) s = .next (s.takeFrame i fr) := by
  have hup : ¬ ((!s.isGlobal i) = true ∨ s.zstate i ≠ zUP) := not_or.mpr ⟨by simp [hg], not_not.mpr hz⟩
  refine (onPort_of_lt hi).trans (congrArg _ ((if_neg hup).trans ?_))
  cases fr <;> rfl

end
end Sys2Proof.Machine
open Sys2Proof Sys2Proof.Machine

/-- Settles O39: a received flit by what FEC, CRC and its number say, an acknowledgement by the place of its number in the replay
buffer, and the next flit by its credit and the room in that buffer. -/
theorem flitsAreAcknowledgedOrReplayed : Obligations.FlitsAreAcknowledgedOrReplayed := by
  unfold Obligations.FlitsAreAcknowledgedOrReplayed
  refine ⟨fun s i f hi h => execFlitReceive_off hi h, fun s i f hi hz hr => ?_, fun s i seq => rfl,
    fun s i f => ⟨State.dataFlit_early, State.dataFlit_due⟩, fun s i seq naks => ⟨fun h => if_pos h, fun h => if_neg h⟩,
    fun s i k ack => State.linkAck_found, fun s i ack => State.linkAck_unknown,
    fun s i ack f fs hi hz => ?_, fun s i ack hi hz => (execNakReceive_eq hi).trans (congrArg _ (if_pos hz)),
    fun s i => ⟨State.pump1_none, fun q hq hw => (State.pump1_some hq).trans (if_pos hw), fun q hq hh hl hz hs => ?_⟩,
    fun x q => Port.of_nextFlit, fun s i fr => execFrameReceive_off, fun s i dst port ok m hi hg hz => ?_⟩
  · have judged := execFlitReceive_up (f := f) hi hz hr
    have good := execFlitReceive_good (f := f) hi hz hr
    refine ⟨fun hf => judged.trans (congrArg _ (if_pos (congrArg not hf))),
      fun hf hc => judged.trans (congrArg _ ((if_neg (by simp [hf])).trans (if_pos hc))),
      fun hf hc ht => (good hf hc).trans (congrArg _ ((if_neg fun h => ht h.1).trans (congrArg (State.pumpAll · i) ?_))),
      fun hf hc ht hs => (good hf hc).trans (congrArg _ (if_pos ⟨ht, hs⟩)),
      fun hf hc ht hs hw => (good hf hc).trans (congrArg _ ((if_neg fun h => h.2 hs).trans (congrArg (State.pumpAll · i) ?_)))⟩
    · exact if_neg fun h => ht h.1
    · exact if_pos ⟨ht, hw⟩
  · intro u x hx
    exact (execNakReceive_eq hi).trans (congrArg _ ((if_neg (not_not.mpr hz)).trans (State.linkNak_replays hx)))
  · rw [State.pump1_sends hq hh hl hz]
    exact ⟨(s.getPort i).stamped q.flit, rfl, rfl, rfl, rfl, rfl, rfl, rfl, State.getPort_setPort_same hs⟩
  · simp only [execFrameReceive_up hi hg hz]
    refine ⟨fun hd hp ho => congrArg _ (if_pos ⟨hd, hp, ho⟩), fun h => congrArg _ (if_neg ?_), rfl, fun h => congrArg _ (if_pos h),
      fun h => congrArg _ (if_neg h)⟩
    rintro ⟨hd, hp, ho⟩
    simp [hd, hp, ho] at h

end

section
namespace Sys2Proof.Machine

/-! ## Sending and retransmitting messages (chapter 9) -/

section
variable {s : State} {idx : Nat} {r : TxReq}

/-! ### MESSAGE_SEND (R282, R362, R373) -/

/-- A data message that a local replay keeps back is counted, and the copy it belongs to goes on as if it were sent (R362). -/
def State.countKeptBack (s : State) (idx : Nat) (r : TxReq) : State :=
  let u := (s.popTx idx).inc (STR_SUPP.COUNT (s.getCtx idx).part)
  match r.owner with
  | some o => u.copyProgress (s.getCtx idx).part o.1 o.2 0
  | none => u

theorem State.countKeptBack_unowned (h : r.owner = none) :
    s.countKeptBack idx r = (s.popTx idx).inc (STR_SUPP.COUNT (s.getCtx idx).part) := by
  rw [State.countKeptBack, h]

theorem State.countKeptBack_owned {o : Nat × Nat} (h : r.owner = some o) :
    s.countKeptBack idx r =
      ((s.popTx idx).inc (STR_SUPP.COUNT (s.getCtx idx).part)).copyProgress (s.getCtx idx).part o.1 o.2 0 := by
  rw [State.countKeptBack, h]

theorem execMessageSend_empty (hi : idx < 2 ^ 18) (h : (s.getAux idx).txq = []) : exec (.messageSend idx) s = .next s := by
  rw [exec_messageSend, execMessageSend, if_neg (Nat.not_le.mpr hi), h]

/-- The oldest request of a stream meets the context's state, a suspend image, a local replay, and then its route. -/
theorem execMessageSend_oldest {rs : List TxReq} (hi : idx < 2 ^ 18) (h : (s.getAux idx).txq = r :: rs) :
    exec (.messageSend idx) s = .next (
      let x := s.getCtx idx
      if x.state ≠ 1 then s
      else if x.part < 16 ∧ (s.getStrata x.part).suspRun = true ∧ x.kind ≠ 4 then s
      else if x.part < 16 ∧ (s.getStrata x.part).replay.isSome = true ∧ r.mtype = 0 ∧ x.kind ≠ 4 then s.countKeptBack idx r
      else if x.part < 16 ∧ (s.getStrata x.part).replay.isSome = true ∧ (x.kind = 0 ∨ x.kind = 1 ∨ x.kind = 2) then s.popTx idx
      else ((s.popTx idx).trySend idx r).getD s) := by
  rw [exec_messageSend, execMessageSend, if_neg (Nat.not_le.mpr hi), h]
  rfl

/-- Nothing keeps a request of an open stream back but a suspend image or a local replay of its job. -/
theorem execMessageSend_free {rs : List TxReq} (hi : idx < 2 ^ 18) (h : (s.getAux idx).txq = r :: rs) (hx : (s.getCtx idx).state = 1)
    (hf : (s.getCtx idx).kind = 4 ∨ 16 ≤ (s.getCtx idx).part ∨
      ((s.getStrata (s.getCtx idx).part).suspRun = false ∧ (s.getStrata (s.getCtx idx).part).replay = none)) :
    exec (.messageSend idx) s = .next (((s.popTx idx).trySend idx r).getD s) := by
  rw [execMessageSend_oldest hi h]
  dsimp only
  rw [if_neg (not_not.mpr hx)]
  rcases hf with hk | hp | ⟨hs, hr⟩
  · simp [hk]
  · simp [Nat.not_lt.mpr hp]
  · simp [hs, hr]

/-- While a local replay runs, a job's data message is counted, and nothing else of a job's streams is sent. -/
theorem execMessageSend_replay {rs : List TxReq} (hi : idx < 2 ^ 18) (h : (s.getAux idx).txq = r :: rs) (hx : (s.getCtx idx).state = 1)
    (hp : (s.getCtx idx).part < 16) (hk : (s.getCtx idx).kind ≠ 4) (hs : (s.getStrata (s.getCtx idx).part).suspRun = false)
    (hr : (s.getStrata (s.getCtx idx).part).replay.isSome = true) :
    exec (.messageSend idx) s = .next (
      if r.mtype = 0 then s.countKeptBack idx r
      else if (s.getCtx idx).kind ≤ 2 then s.popTx idx
      else ((s.popTx idx).trySend idx r).getD s) := by
  have hkind : (s.getCtx idx).kind = 0 ∨ (s.getCtx idx).kind = 1 ∨ (s.getCtx idx).kind = 2 ↔ (s.getCtx idx).kind ≤ 2 := by omega
  rw [execMessageSend_oldest hi h]
  dsimp only
  rw [if_neg (not_not.mpr hx), if_neg (by simp [hs])]
  simp only [hp, hr, hk, hkind, true_and, ne_eq, not_false_eq_true, and_true]

/-! ### Routes (R281, R285–R288) -/

theorem State.trySend_uncredited (h : (s.getCtx idx).credit < r.blocks.length) : s.trySend idx r = none := if_pos h

/-- With credit for its blocks a request goes where its route says. -/
def State.sendRouted (s : State) (idx : Nat) (r : TxReq) : Route → Option State
  | .to c q k => some (s.sendMsg idx r (s.msgOf idx r c q k))
  | .external => some (s.sendMsg idx r (s.msgOf idx r 0 0 0))
  | .park => if 256 ≤ (s.getPark (s.getCtx idx).part).length then none else some (s.parkMsg (s.getCtx idx).part idx r)
  | .none => some (s.failSend (s.getCtx idx).part idx r)

theorem State.trySend_credited {d : Route} (h : r.blocks.length ≤ (s.getCtx idx).credit) (hd : s.routeOf idx = d) :
    s.trySend idx r = s.sendRouted idx r d := by
  refine (if_neg (Nat.not_lt.mpr h)).trans ?_
  rw [hd]
  cases d <;> rfl

theorem State.sendTo_nowhere {m : Msg} (h : s.portsFor idx m = []) : s.sendTo idx m = (s.emit (.message idx [] m), 0) := by
  unfold State.sendTo
  dsimp only
  rw [h]
  rfl

theorem State.sendTo_port {m : Msg} {i : Nat} (h : (s.portsFor idx m)[(s.getAux idx).rot % (s.portsFor idx m).length]? = some i) :
    s.sendTo idx m = ((s.setAux idx { s.getAux idx with rot := (s.getAux idx).rot + 1 }).sendOn i idx m, i + 1) := by
  unfold State.sendTo
  dsimp only
  rw [h]

theorem State.parkMsg_eq {p : Nat} : s.parkMsg p idx r =
    let u := (s.setPark p (s.getPark p ++ [(idx, { r with parked := true })])).wf (ZTP_PARK.DEPTH p) ((s.getPark p).length + 1)
    if r.parked = true then u else u.inc (ZTP_PARK.PARKED p) := by
  unfold State.parkMsg
  dsimp only
  rw [List.length_append, List.length_singleton]

theorem State.failSend_unowned {p : Nat} (h : r.owner = none) : s.failSend p idx r = s.endUnits idx stCHECKFAIL := by
  rw [State.failSend, h]

theorem State.failSend_owned {p : Nat} {o : Nat × Nat} (h : r.owner = some o) : s.failSend p idx r =
    (s.setAux idx { s.getAux idx with txq := (s.getAux idx).txq.filter (fun t => t.owner != r.owner) }).endCopies p stCHECKFAIL [o] := by
  unfold State.failSend
  split
  · next e => cases h.symm.trans e; rfl
  · next e => cases h.symm.trans e

/-- After a swap a parked message is looked up again, unless an earlier one of its stream still waits. -/
theorem State.unpark_single {p : Nat} (h : s.getPark p = [(idx, r)]) : s.unpark p =
    let u := (s.setPark p []).wf (ZTP_PARK.DEPTH p) 0
    if (u.getAux idx).txq.any TxReq.parked = true then u.requeue idx r else (u.trySend idx r).getD (u.requeue idx r) := by
  rw [State.unpark, h]
  rfl

end

/-! ### Retransmission and its end (R278, R279) -/

section
variable {s : State} {idx seq : Nat} {u : Unacked}

/-- A message that left on an uplink is sent again on the next uplink. -/
theorem State.sendAgain_uplink {i : Nat} (hv : u.via ≠ 0) (hr : s.zrole (u.via - 1) = 1) (hn : s.nextUplink (u.via - 1) = some i) :
    s.sendAgain idx u = (s.sendOn i idx u.msg, i + 1) := by
  have hup : u.via ≠ 0 ∧ s.zrole (u.via - 1) = roleUPLINK := ⟨hv, hr⟩
  rw [State.sendAgain, if_pos hup, hn]

theorem State.sendAgain_rotation (h : u.via = 0 ∨ s.zrole (u.via - 1) ≠ 1 ∨ s.nextUplink (u.via - 1) = none) :
    s.sendAgain idx u = s.sendTo idx u.msg := by
  have hn : (if u.via ≠ 0 ∧ s.zrole (u.via - 1) = roleUPLINK then s.nextUplink (u.via - 1) else none) = none := by
    rcases h with h | h | h
    · exact if_neg fun hc => hc.1 h
    · exact if_neg fun hc => h hc.2
    · rw [h, ite_self]
  rw [State.sendAgain, hn]

theorem execRetransmitTimeout_unknown (hi : idx < 2 ^ 18) (h : (s.getAux idx).unacked.find? (fun u => u.msg.seq == seq) = none) :
    exec (.retransmitTimeout idx seq) s = .next s := by
  rw [exec_retransmitTimeout, execRetransmitTimeout, if_neg (Nat.not_le.mpr hi), h]

/-- A message of a partition's stream is counted, sent again, and keeps its place among the unacknowledged. -/
theorem execRetransmitTimeout_found (hi : idx < 2 ^ 18) (h : (s.getAux idx).unacked.find? (fun u => u.msg.seq == seq) = some u)
    (hp : (s.getCtx idx).part < 16) :
    exec (.retransmitTimeout idx seq) s = .next (
      let v := (s.inc (ZTP_RETX.COUNT (s.getCtx idx).part)).sendAgain idx u
      v.1.setAux idx { v.1.getAux idx with
        unacked := (v.1.getAux idx).unacked.map (fun w => if w.msg.seq = seq then { w with last := v.1.now, via := v.2 } else w) }) := by
  rw [exec_retransmitTimeout, execRetransmitTimeout, if_neg (Nat.not_le.mpr hi), h]
  dsimp only
  rw [if_pos hp]

theorem execMessageAckTimeout_acked (hi : idx < 2 ^ 18) (h : (s.getAux idx).unacked = []) :
    exec (.messageAckTimeout idx) s = .next s :=
  (if_neg (Nat.not_le.mpr hi)).trans (congrArg _ (if_pos h))

theorem execMessageAckTimeout_waiting (hi : idx < 2 ^ 18) (h : (s.getAux idx).unacked ≠ []) :
    exec (.messageAckTimeout idx) s = .next (
      let x := s.getCtx idx
      let c := (s.closeCtx idx stABORTED).raise
        { unit := s.transportUnit, cls := .fatal, code := 0x69, part := if x.part < 16 then some x.part else none
          handle := (s.closeCtx idx stABORTED).handleOf idx, epoch := x.epoch, synd := [(x.peerKind, 1), (x.peerId, 3)] }
      if x.part < 16 then c.startWave x.part 1 s.transportUnit else c.abortJobs s.transportUnit) :=
  (if_neg (Nat.not_le.mpr hi)).trans (congrArg _ (if_neg h))

end
end Sys2Proof.Machine
open Sys2Proof Sys2Proof.Machine

/-- Settles O40: the oldest request by what keeps it back and then by its route, a message sent again by the port it left on, and the
end of the waiting by whether anything is unacknowledged. -/
theorem messagesAreSentAndRetransmitted : Obligations.MessagesAreSentAndRetransmitted := by
  unfold Obligations.MessagesAreSentAndRetransmitted
  refine ⟨fun s idx => execMessageSend_empty, fun s idx r rs hi hq => ?_,
    fun s idx r => ⟨State.trySend_uncredited, fun hc => ?_⟩, fun s idx c q k r => ?_, fun s idx r m => rfl,
    fun s idx m => ⟨State.sendTo_nowhere, fun i => State.sendTo_port⟩, fun s p idx r => State.parkMsg_eq,
    fun s p idx r => State.failSend_unowned, fun s p idx r o => State.failSend_owned, fun s p idx r hp => ?_,
    fun s idx seq u => execRetransmitTimeout_found,
    fun s idx u => ⟨fun i => State.sendAgain_uplink, State.sendAgain_rotation⟩, fun s idx seq => execRetransmitTimeout_unknown,
    fun s idx hi => ⟨execMessageAckTimeout_acked hi, execMessageAckTimeout_waiting hi⟩⟩
  · refine ⟨fun hx => ?_, fun hx hp hk hs => ?_, fun hx hp hk hs hr => ?_, fun hx hf => ?_⟩
    · exact (execMessageSend_oldest hi hq).trans (congrArg _ (if_pos hx))
    · exact (execMessageSend_oldest hi hq).trans (congrArg _ ((if_neg (not_not.mpr hx)).trans (if_pos ⟨hp, hs, hk⟩)))
    · have replay := execMessageSend_replay hi hq hx hp hk hs hr
      refine ⟨fun h0 ho => ?_, fun h0 o ho => ?_, fun h0 hk2 => ?_⟩
      · exact replay.trans (congrArg _ ((if_pos h0).trans (State.countKeptBack_unowned ho)))
      · exact replay.trans (congrArg _ ((if_pos h0).trans (State.countKeptBack_owned ho)))
      · exact replay.trans (congrArg _ ((if_neg h0).trans (if_pos hk2)))
    · have free := execMessageSend_free hi hq hx hf
      exact ⟨fun h => free.trans (congrArg _ (congrArg (Option.getD · s) h)),
        fun t h => free.trans (congrArg _ (congrArg (Option.getD · s) h))⟩
  · exact ⟨fun c q k => State.trySend_credited hc, State.trySend_credited hc,
      fun hd hl => (State.trySend_credited hc hd).trans (if_neg (Nat.not_le.mpr hl)),
      fun hd hl => (State.trySend_credited hc hd).trans (if_pos hl), State.trySend_credited hc⟩
  · exact ⟨rfl, rfl, rfl, rfl, rfl, rfl, rfl, rfl, rfl, rfl, rfl, rfl, rfl, rfl⟩
  · have single := State.unpark_single hp
    refine ⟨fun ha => single.trans (if_pos ha), fun ha ht => ?_, fun t ha ht => ?_⟩
    · exact (single.trans (if_neg (ne_true_of_eq_false ha))).trans (congrArg (Option.getD · _) ht)
    · exact (single.trans (if_neg (ne_true_of_eq_false ha))).trans (congrArg (Option.getD · _) ht)

end

section
namespace Sys2Proof.Machine

/-! ## Collectives (chapter 10) -/

theorem onQueue_of_lt {s : State} {p q : Nat} (hp : p < 16) (hq : q < 256) : onQueue p q s = .next s := if_pos ⟨hp, hq⟩

theorem not_queue_absent {p q : Nat} (hp : p < 16) (hq : q < 256) : ¬ (16 ≤ p ∨ 256 ≤ q) := by omega

theorem State.getColq_setColq_same {s : State} {p q : Nat} {x : ColQueue} (h : Tbl.sortedFrom 0 s.colq = true) :
    (s.setColq p q x).getColq p q = x := Tbl.get_set_same _ _ h

/-! ### OPEN and CLOSE (R291, R308, R310, R344) -/

section
variable {s : State} {a : Agent} {p q : Nat}

theorem not_flint_on_255 (h : isFlint a = false ∨ q ≠ 255) : ¬ (isFlint a = true ∧ q = 255) :=
  fun ⟨hf, hq⟩ => h.elim (fun hn => Bool.false_ne_true (hn.symm.trans hf)) (· hq)

theorem execCollectiveOpen_eq {t : State} {e : Bool} (hp : p < 16) (hq : q < 256) (ha : a ≠ .pf16) (h : s.openWrite a p q = (t, e)) :
    exec (.collectiveOpen a p q) s = .next (t.busErrIf e p (regBase + colCtrlOff q)) := by
  rw [exec_collectiveOpen, execCollectiveOpen, if_neg (not_queue_absent hp hq), if_neg ha, h]

theorem execCollectiveClose_eq {t : State} {e : Bool} (hp : p < 16) (hq : q < 256) (ha : a ≠ .pf16) (h : s.closeWrite a p q = (t, e)) :
    exec (.collectiveClose a p q) s = .next (t.busErrIf e p (regBase + colCtrlOff q)) := by
  rw [exec_collectiveClose, execCollectiveClose, if_neg (not_queue_absent hp hq), if_neg ha, h]

/-- What opening a queue turns on where it is not for Strata alone (R344): its state and values, then the limits of R291. -/
theorem State.openWrite_allowed (h : isFlint a = false ∨ q ≠ 255) : s.openWrite a p q =
    if (s.getColq p q).opening = true ∨ (s.getColq p q).opened = true ∨ (!s.openOk p q) = true then (s, false)
    else if 4096 ≤ queuesUp s.colq ∨ 256 ≤ queuesUp (s.colq.filter (fun e => decide (e.1 / 256 = p))) then (s, true)
    else (s.colOpen p q, false) := if_neg (not_flint_on_255 h)

theorem State.openWrite_ignored (h : isFlint a = false ∨ q ≠ 255)
    (hx : (s.getColq p q).opening = true ∨ (s.getColq p q).opened = true ∨ s.openOk p q = false) :
    s.openWrite a p q = (s, false) :=
  (State.openWrite_allowed h).trans (if_pos (hx.imp_right (Or.imp_right (congrArg not))))

/-- A closed queue with permitted values opens unless a limit of R291 is reached. -/
theorem State.openWrite_closed (h : isFlint a = false ∨ q ≠ 255) (hi : (s.getColq p q).opening = false)
    (ho : (s.getColq p q).opened = false) (hv : s.openOk p q = true) : s.openWrite a p q =
    if 4096 ≤ queuesUp s.colq ∨ 256 ≤ queuesUp (s.colq.filter (fun e => decide (e.1 / 256 = p))) then (s, true)
    else (s.colOpen p q, false) :=
  (State.openWrite_allowed h).trans (if_neg (by simp [hi, ho, hv]))

theorem State.openWrite_flint_255 (h : isFlint a = true) : s.openWrite a p 255 = (s, true) := if_pos ⟨h, rfl⟩

theorem State.closeWrite_flint_255 (h : isFlint a = true) : s.closeWrite a p 255 = (s, true) := if_pos ⟨h, rfl⟩

theorem State.closeWrite_allowed (h : isFlint a = false ∨ q ≠ 255) : s.closeWrite a p q =
    (if (s.getColq p q).opening = true ∨ (s.getColq p q).opened = true then s.colClose p q else s, false) :=
  if_neg (not_flint_on_255 h)

theorem execCollectiveOpen_pf16 (hp : p < 16) (hq : q < 256) : exec (.collectiveOpen .pf16 p q) s = .next s :=
  (if_neg (not_queue_absent hp hq)).trans (congrArg _ (if_pos rfl))

theorem execCollectiveClose_pf16 (hp : p < 16) (hq : q < 256) : exec (.collectiveClose .pf16 p q) s = .next s :=
  (if_neg (not_queue_absent hp hq)).trans (congrArg _ (if_pos rfl))

end

/-! ### Joining (R309) -/

section
variable {s : State} {p q : Nat} {j : JoinBlock}

theorem execJoinBlockReceive_eq (hp : p < 16) (hq : q < 256) : exec (.joinBlockReceive p q j) s = .next (
    if (!(s.getColq p q).opening) = true ∨ (!(s.getColq p q).peers.contains j.rank) = true then s
    else if { j with rank := s.rf (COL_Q_RANK.RANK p q) } = s.ownJoin p q then
      (s.setColq p q { s.getColq p q with joined := (s.getColq p q).joined ++ [j.rank] }).joinProgress p q
    else s.joinFailed p q) := if_neg (not_queue_absent hp hq)

/-- A join block of a tree peer of an opening queue is compared with the own. -/
theorem execJoinBlockReceive_peer (hp : p < 16) (hq : q < 256) (ho : (s.getColq p q).opening = true)
    (hr : (s.getColq p q).peers.contains j.rank = true) : exec (.joinBlockReceive p q j) s = .next (
      if { j with rank := s.rf (COL_Q_RANK.RANK p q) } = s.ownJoin p q then
        (s.setColq p q { s.getColq p q with joined := (s.getColq p q).joined ++ [j.rank] }).joinProgress p q
      else s.joinFailed p q) :=
  (execJoinBlockReceive_eq hp hq).trans (congrArg _ (if_neg (by rw [ho, hr]; decide)))

theorem execJoinBlockReceive_ignored (hp : p < 16) (hq : q < 256)
    (h : (s.getColq p q).opening = false ∨ (s.getColq p q).peers.contains j.rank = false) :
    exec (.joinBlockReceive p q j) s = .next s :=
  (execJoinBlockReceive_eq hp hq).trans (congrArg _ (if_pos (h.imp (congrArg not) (congrArg not))))

theorem execJoinTimeout_eq (hp : p < 16) (hq : q < 256) :
    exec (.joinTimeout p q) s = .next (if (s.getColq p q).opening = true then s.joinFailed p q else s) :=
  if_neg (not_queue_absent hp hq)

theorem State.joinProgress_complete (ho : (s.getColq p q).opening = true) (hw : (s.getColq p q).waiting = false)
    (hj : (s.getColq p q).awaited.all (s.getColq p q).joined.contains = true) : s.joinProgress p q =
    (((s.setColq p q { s.getColq p q with opening := false, opened := true }).wf (COL_Q_RANK.OPEN p q) 1).inc
      (COL_CFG.QOPEN p)).colSweep p q 64 :=
  if_pos ⟨ho, congrArg not hw, hj⟩

theorem State.joinProgress_incomplete (hj : (s.getColq p q).awaited.all (s.getColq p q).joined.contains = false) :
    s.joinProgress p q = s :=
  if_neg fun ⟨_, _, h⟩ => Bool.false_ne_true (hj.symm.trans h)

end

/-! ### Issuing (R303) -/

section
variable {s : State} {a : Agent} {p q tail : Nat}

theorem State.tailErr_iff : s.tailErr a p q tail = true ↔ (isFlint a = true ∧ q = 255) ∨ s.tailOk p q tail = false := by
  simp [State.tailErr]

theorem execCollectiveTailWrite_pf16 (hp : p < 16) (hq : q < 256) : exec (.collectiveTailWrite .pf16 p q tail) s = .next s :=
  (if_neg (not_queue_absent hp hq)).trans (congrArg _ (if_pos rfl))

theorem execCollectiveTailWrite_eq (hp : p < 16) (hq : q < 256) (ha : a ≠ .pf16) : exec (.collectiveTailWrite a p q tail) s = .next (
    if (isFlint a = true ∧ q = 255) ∨ s.tailOk p q tail = false then s.busErr p (0xFF0008010030 + 0x40 * q)
    else s.tailWrite p q tail) := by
  rw [exec_collectiveTailWrite, execCollectiveTailWrite, if_neg (not_queue_absent hp hq), if_neg ha]
  simp only [State.tailErr_iff]
  rfl

theorem State.getColq_colIssue (h : Tbl.sortedFrom 0 s.colq = true) : (s.colIssue p q tail).getColq p q =
    { s.getColq p q with ops := (s.getColq p q).ops ++
      (List.range ((tail % 2 ^ 24 + 2 ^ 24 - s.rf (COL_Q_SEQ.TAIL p q)) % 2 ^ 24)).map (fun i =>
        { seq := (s.rf (COL_Q_SEQ.TAIL p q) + 1 + i) % 2 ^ 24, words := [] }) } :=
  State.getColq_setColq_same h

theorem State.tailWrite_opened (h : ((s.colIssue p q tail).getColq p q).opened = true) :
    s.tailWrite p q tail = (s.colIssue p q tail).colSweep p q 64 := if_pos h

end

/-! ### Starting operations (R299–R301, R303, R306) -/

section
variable {s u : State} {p q sq n : Nat} {o : ColOp} {ws : List Word64}

/-- The next operation of an open queue begins where it is of the kind, waits for no block of SRC, and has what it takes: a free
channel, or for a BARRIER nothing. -/
theorem State.startKind_begins {k : Nat} (ho : (s.getColq p q).opened = true) (hn : (s.getColq p q).next = some o)
    (he : s.ringEntry p q o.seq = some ws)
    (hi : ((colCmd ws).srcBlocks (s.rf (COL_Q_RANK.N p q)) (s.rf (COL_Q_RANK.RANK p q))).any (s.interlocked p) = false)
    (hop : (colCmd ws).op = n) (ht : (if n = 5 then some (0, s) else s.takeTurn p (s.colTurn p)) = some (k, u)) :
    s.startKind p q n = (u.colBegin p q o.seq ws).colSweep p q 64 := by
  unfold State.startKind
  simp only [ho, hn, he, hop, ht, hi, Bool.not_true, Bool.false_eq_true, ne_eq, not_true_eq_false, or_self, if_false]

/-- An entry that breaks R301 fails its operation. -/
theorem State.colBegin_broken (h : (s.colStarted p q sq ws).colCmdOk (s.colTree p q).n (colCmd ws) = false) :
    s.colBegin p q sq ws = (s.colStarted p q sq ws).colFail p q { seq := sq, words := ws, started := true } stCHECKFAIL :=
  if_pos (congrArg not h)

theorem State.colBegin_verified {v : State} {st : Nat} (h : (s.colStarted p q sq ws).colCmdOk (s.colTree p q).n (colCmd ws) = true)
    (hv : (s.colStarted p q sq ws).verify p ((s.colStarted p q sq ws).colUnit p)
      ((colCmd ws).srcBlocks (s.colTree p q).n (s.colTree p q).k) [] ((s.colStarted p q sq ws).rf (COL_Q_HANDLE.HANDLE p q)) = (v, st)) :
    s.colBegin p q sq ws = if st ≠ 0 then v.colFail p q { seq := sq, words := ws, started := true } st
      else (v.contribute p q (s.colTree p q) (colCmd ws)).sendStatus p q sq (colCmd ws) := by
  refine (if_neg (by simp [h])).trans ?_
  rw [hv]

theorem State.colFail_eq {ks : List Nat} {st : Nat} (h : (s.getColq p q).peers = ks) : s.colFail p q o st =
    (ks.foldl (fun s k => s.emit (.status p q k (statusOf o.seq (colCmd o.words) (colCmd o.words).nf true))) s).colEnd p q o.seq st
      (colCmd o.words).nf := by
  rw [← h]
  rfl

end

/-! ### The tree (R292, R295) -/

section
variable {n r lev b c : Nat}

/-- The executor's distance from the first rank of its node stays within the node: at most r - 1 times the repunit. -/
theorem rotation_lt_pow (hr : 2 ≤ r) : c % r * repunit r lev < r ^ lev := by
  have hc : c % r ≤ r - 1 := Nat.le_sub_one_of_lt (Nat.mod_lt _ (by omega))
  calc c % r * repunit r lev ≤ (r - 1) * ((r ^ lev - 1) / (r - 1)) := Nat.mul_le_mul_right _ hc
    _ ≤ r ^ lev - 1 := Nat.mul_div_le _ _
    _ < r ^ lev := Nat.sub_one_lt (Nat.pow_pos (by omega)).ne'

theorem executor_mem_node (hr : 2 ≤ r) (hb : b < n) :
    b ≤ executor n r lev b c ∧ executor n r lev b c < n ∧ executor n r lev b c < b + r ^ lev := by
  have hrot := rotation_lt_pow (lev := lev) (c := c) hr
  unfold executor
  split
  · next hn => exact ⟨Nat.le_add_right _ _, hn, Nat.add_lt_add_left hrot b⟩
  · exact ⟨Nat.le_refl b, hb, Nat.lt_add_of_pos_right (Nat.zero_lt_of_lt hrot)⟩

theorem eq_of_mem_ite_singleton {α : Type} {x y : α} {P : Prop} {_ : Decidable P} (h : x ∈ if P then [y] else []) : x = y := by
  split at h
  · exact List.mem_singleton.mp h
  · exact absurd h List.not_mem_nil

/-- A member's duties are nodes of the tree of which it is the executor. -/
theorem ColTree.of_mem_duties {t : ColTree} {m : ColCmd} {up : Bool} (h : (lev, b, c, up) ∈ t.duties m) :
    lev ≤ t.top ∧ c ≤ t.chunks m ∧ b = baseOf t.r lev t.k ∧ executor t.n t.r lev b c = t.k := by
  obtain ⟨l, hl, h⟩ := List.mem_flatMap.mp h
  obtain ⟨d, hd, h⟩ := List.mem_flatMap.mp h
  dsimp only at h
  split at h
  · exact absurd h List.not_mem_nil
  · next he =>
    have heq : lev = l ∧ b = baseOf t.r l t.k ∧ c = d := by
      rcases List.mem_append.mp h with h | h <;> cases eq_of_mem_ite_singleton h <;> exact ⟨rfl, rfl, rfl⟩
    obtain ⟨rfl, rfl, rfl⟩ := heq
    exact ⟨Nat.le_of_lt_succ (List.mem_range.mp hl), Nat.le_of_lt_succ (List.mem_range.mp hd), rfl, not_not.mp he⟩

end

/-! ### Forming the nodes (R295–R297, R299, R300) -/

section
variable {s : State} {p q sq lev b c : Nat} {t : ColTree} {m : ColCmd} {up : Bool} {addrs order : List Nat} {stat : List StatusBlock}
  {res retry : Residue} {o : ColOp}

/-- The inputs of a node for a chunk, one for each child, with the blocks each gives. -/
def State.nodeIns (s : State) (p q : Nat) (t : ColTree) (o : ColOp) (m : ColCmd) (lev b c : Nat) (addrs : List Nat) :
    List (ColIn × List Nat) :=
  (List.range (childrenOf t.n t.r lev b).length).map (fun i =>
    (s.childIn p q t o lev ((childrenOf t.n t.r lev b).getD i 0) c (addrs.getD i 0),
      t.upIn m (lev - 1) ((childrenOf t.n t.r lev b).getD i 0) c))

/-- Whether what a node needs for a chunk is there: on the way up all its inputs; on the way down the result, for DST with the combined
status. -/
def State.nodeReady (s : State) (p q : Nat) (t : ColTree) (o : ColOp) (m : ColCmd) (lev b c : Nat) (addrs : List Nat) (up : Bool) : Bool :=
  if up = true then (s.nodeIns p q t o m lev b c addrs).all (s.inReady p t m (m.width (lev - 1)) (c * t.ch))
  else (lev != 0 || o.settled) &&
    s.inReady p t m 1 (c * t.ch) (s.resultIn p q t o lev b c (addrs.headD 0), t.downIn m lev b c)

theorem State.nodeReady_down (hd : lev ≠ 0 ∨ o.settled = true)
    (hr : s.inReady p t m 1 (c * t.ch) (s.resultIn p q t o lev b c (addrs.headD 0), t.downIn m lev b c) = true) :
    s.nodeReady p q t o m lev b c addrs false = true := by
  refine (if_neg Bool.false_ne_true).trans (Bool.and_eq_true_iff.mpr ⟨?_, hr⟩)
  exact Bool.or_eq_true_iff.mpr (hd.imp_left bne_iff_ne.mpr)

/-- A result waits at level 0 until the combined status is known (R301). -/
theorem State.nodeReady_unsettled (hl : lev = 0) (ho : o.settled = false) : s.nodeReady p q t o m lev b c addrs false = false := by
  simp [State.nodeReady, hl, ho]

theorem execChunkCombine_idle (hp : p < 16) (hq : q < 256)
    (ho : (s.getColq p q).ops.find? (fun o => o.seq == sq && o.started && o.status.isNone) = some o)
    (h : ((s.colTree p q).duties (colCmd o.words)).contains (lev, b, c, up) = false ∨ (o.node lev b c up).isSome = true) :
    exec (.chunkCombine p q sq lev b c up addrs stat order res retry) s = .next s := by
  rw [exec_chunkCombine, execChunkCombine, onQueue_of_lt hp hq, ho]
  exact congrArg _ (if_pos (h.imp_left (congrArg not)))

section
variable (hp : p < 16) (hq : q < 256)
  (ho : (s.getColq p q).ops.find? (fun o => o.seq == sq && o.started && o.status.isNone) = some o)
  (hd : ((s.colTree p q).duties (colCmd o.words)).contains (lev, b, c, up) = true) (hn : o.node lev b c up = none)
include hp hq ho hd hn

/-- The chunk after the last is that of the status blocks. -/
theorem execChunkCombine_status (hc : c = (s.colTree p q).chunks (colCmd o.words)) :
    exec (.chunkCombine p q sq lev b c up addrs stat order res retry) s = .next (
      if up = true then s.statusUp p q (s.colTree p q) o (colCmd o.words) lev b c stat
      else s.statusDown p q (s.colTree p q) o (colCmd o.words) lev b c stat) := by
  rw [exec_chunkCombine, execChunkCombine, onQueue_of_lt hp hq, ho]
  exact congrArg _ ((if_neg (by rw [hd, hn]; decide)).trans (if_pos hc))

/-- Any other chunk waits for what it needs. -/
theorem execChunkCombine_waits (hc : c ≠ (s.colTree p q).chunks (colCmd o.words))
    (hr : s.nodeReady p q (s.colTree p q) o (colCmd o.words) lev b c addrs up = false) :
    exec (.chunkCombine p q sq lev b c up addrs stat order res retry) s = .next s := by
  have hnone : (if s.nodeReady p q (s.colTree p q) o (colCmd o.words) lev b c addrs up = true
      then s.takeTurn p (s.colTurn p) else none) = none := if_neg (ne_true_of_eq_false hr)
  rw [exec_chunkCombine, execChunkCombine, onQueue_of_lt hp hq, ho]
  refine congrArg _ ((if_neg (by rw [hd, hn]; decide)).trans ((if_neg hc).trans ?_))
  unfold State.nodeReady State.nodeIns at hnone
  dsimp only
  rw [hnone]

theorem execChunkCombine_forms {k : Nat} {u : State} (hc : c ≠ (s.colTree p q).chunks (colCmd o.words))
    (hr : s.nodeReady p q (s.colTree p q) o (colCmd o.words) lev b c addrs up = true)
    (ht : s.takeTurn p (s.colTurn p) = some (k, u)) :
    exec (.chunkCombine p q sq lev b c up addrs stat order res retry) s = .next (
      if up = true then u.nodeUp p q (s.colTree p q) o (colCmd o.words) lev b c k
        (s.nodeIns p q (s.colTree p q) o (colCmd o.words) lev b c addrs) order res retry
      else u.nodeDown p q (s.colTree p q) o (colCmd o.words) lev b c k
        (s.resultIn p q (s.colTree p q) o lev b c (addrs.headD 0))) := by
  have hsome : (if s.nodeReady p q (s.colTree p q) o (colCmd o.words) lev b c addrs up = true
      then s.takeTurn p (s.colTurn p) else none) = some (k, u) := (if_pos hr).trans ht
  rw [exec_chunkCombine, execChunkCombine, onQueue_of_lt hp hq, ho]
  refine congrArg _ ((if_neg (by rw [hd, hn]; decide)).trans ((if_neg hc).trans ?_))
  unfold State.nodeReady State.nodeIns at hsome
  dsimp only
  rw [hsome]
  rfl

end

/-! ### Status blocks and completion (R300, R301, R304) -/

/-- The status blocks of a node's children, where all are there. -/
def ColOp.childStatuses (o : ColOp) (t : ColTree) (m : ColCmd) (lev b c : Nat) (stat : List StatusBlock) : Option (List StatusBlock) :=
  (List.range (childrenOf t.n t.r lev b).length).mapM (fun i =>
    o.statusIn t (executor t.n t.r (lev - 1) ((childrenOf t.n t.r lev b).getD i 0) c)
      (if lev ≤ 1 then some m.nf else (o.node (lev - 1) ((childrenOf t.n t.r lev b).getD i 0) c true).map (·.flag)) stat[i]?)

theorem State.statusUp_disagrees {l : List StatusBlock} (h : o.childStatuses t m lev b c stat = some l)
    (hl : l.all (statusAgrees (statusOf o.seq m m.nf)) = false) : s.statusUp p q t o m lev b c stat = s.colFail p q o stCHECKFAIL := by
  unfold ColOp.childStatuses at h
  unfold State.statusUp
  dsimp only
  rw [h]
  exact if_pos (congrArg not hl)

theorem State.statusUp_agrees {l : List StatusBlock} (h : o.childStatuses t m lev b c stat = some l)
    (hl : l.all (statusAgrees (statusOf o.seq m m.nf)) = true) : s.statusUp p q t o m lev b c stat =
    let f := l.any StatusBlock.flag
    let u := s.addNode p q o.seq { lev := lev, base := b, chunk := c, up := true, flag := f }
    if t.top ≤ lev ∨ t.parent lev b c = t.k then u else u.emit (.status p q (t.parent lev b c) (statusOf o.seq m f)) := by
  unfold ColOp.childStatuses at h
  unfold State.statusUp
  dsimp only
  rw [h]
  exact if_neg (by simp [hl])

/-- The oldest started operation of an open queue fails on a status block of its own that disagrees, waits for the member to do all of
it, and then ends OK; on queue 255 Strata then acts. -/
theorem execCollectiveComplete_eq {status : List StatusBlock} (hp : p < 16) (hq : q < 256) (hx : (s.getColq p q).opened = true)
    (ho : (s.getColq p q).ops.find? (fun o => o.started && o.status.isNone) = some o) :
    exec (.collectiveComplete p q status) s = .next (
      if (!(status.filter (fun b => b.seq == o.seq)).all
        (statusAgrees (statusOf o.seq (colCmd o.words) (colCmd o.words).nf))) = true then s.colFail p q o stCHECKFAIL
      else if (!s.opDone p q o) = true then s
      else if q = 255 then (s.colEnd p q o.seq stOK o.flag).barrierDone p o.flag else s.colEnd p q o.seq stOK o.flag) := by
  rw [exec_collectiveComplete, execCollectiveComplete, onQueue_of_lt hp hq, if_pos hx, ho]

end
end Sys2Proof.Machine
open Sys2Proof Sys2Proof.Machine

/-- Settles O42: opening, joining and issuing by the branches of their commands, starting and completing by the operation found, a node
by whether its inputs are there, and the executor by the bound on its rotation. -/
theorem collectivesOpenRunAndComplete : Obligations.CollectivesOpenRunAndComplete := by
  unfold Obligations.CollectivesOpenRunAndComplete
  refine ⟨fun s a p q hp hq ha hf => ?_, fun s p c hp => ?_,
    fun s p q tail hp hq => ⟨execCollectiveOpen_pf16 hp hq, execCollectiveClose_pf16 hp hq, execCollectiveTailWrite_pf16 hp hq⟩,
    fun s p q j hp hq => ?_, fun s p q => ⟨State.joinProgress_complete, State.joinProgress_incomplete⟩,
    fun s a p q tail => execCollectiveTailWrite_eq, fun s p q tail ho hs => ?_, fun s u p q k o ws hp hq ho hn he hi => ?_,
    fun s p q sq ws => ⟨State.colBegin_broken, fun v st => State.colBegin_verified⟩,
    fun s p q st o => State.colFail_eq, fun s p q st k o => State.colFail_eq,
    fun s p q sq lev b c up addrs order stat res retry o hp hq ho => ⟨execChunkCombine_idle hp hq ho, fun hd hn => ?_⟩,
    fun t m lev b c up h => ColTree.of_mem_duties (List.contains_iff_mem.mp h),
    fun s p q c b lev t o m stat l h => ⟨State.statusUp_disagrees h, State.statusUp_agrees h⟩,
    fun n r lev b c => executor_mem_node, fun s p q o status hp hq hx ho => ?_⟩
  · refine ⟨fun h => execCollectiveOpen_eq hp hq ha (State.openWrite_ignored hf h), fun hi ho hv => ?_,
      execCollectiveClose_eq hp hq ha (State.closeWrite_allowed hf)⟩
    have closed := State.openWrite_closed hf hi ho hv
    exact ⟨fun h => execCollectiveOpen_eq hp hq ha (closed.trans (if_pos h)),
      fun hup hown => execCollectiveOpen_eq hp hq ha (closed.trans (if_neg (by omega)))⟩
  · exact ⟨execCollectiveOpen_eq (a := .flint c) hp (by decide) nofun (State.openWrite_flint_255 rfl),
      execCollectiveClose_eq (a := .flint c) hp (by decide) nofun (State.closeWrite_flint_255 rfl)⟩
  · exact ⟨fun ho hr h => (execJoinBlockReceive_peer hp hq ho hr).trans (congrArg _ (if_pos h)),
      fun ho hr h => (execJoinBlockReceive_peer hp hq ho hr).trans (congrArg _ (if_neg h)),
      execJoinBlockReceive_ignored hp hq, execJoinTimeout_eq hp hq⟩
  · have issued := State.getColq_colIssue (p := p) (q := q) (tail := tail) hs
    exact ⟨issued, State.tailWrite_opened (issued ▸ ho)⟩
  · refine ⟨fun hop => ?_, fun ht => ?_⟩
    · exact (onQueue_of_lt hp hq).trans (congrArg _ (State.startKind_begins ho hn he hi hop rfl))
    · refine ⟨?_, ?_, ?_, ?_, ?_⟩ <;>
        exact fun hop => (onQueue_of_lt hp hq).trans (congrArg _ (State.startKind_begins ho hn he hi hop ht))
  · refine ⟨?_, ?_, ?_, ?_, ?_, ?_⟩
    · rintro hc rfl
      exact execChunkCombine_status hp hq ho hd hn hc
    · rintro hc rfl
      exact execChunkCombine_status hp hq ho hd hn hc
    · rintro hc rfl hr k u ht
      exact execChunkCombine_forms hp hq ho hd hn hc hr ht
    · rintro hc rfl hr
      exact execChunkCombine_waits hp hq ho hd hn hc hr
    · rintro hc rfl hl hr k u ht
      exact execChunkCombine_forms hp hq ho hd hn hc (State.nodeReady_down hl hr) ht
    · rintro hc rfl ⟨hl, hset⟩
      exact execChunkCombine_waits hp hq ho hd hn hc (State.nodeReady_unsettled hl hset)
  · have found := execCollectiveComplete_eq (status := status) hp hq hx ho
    refine ⟨fun h => ?_, fun h hd => ?_, fun h hd => ?_⟩
    · exact found.trans (congrArg _ (if_pos (congrArg not h)))
    · exact found.trans (congrArg _ ((if_neg (by rw [h]; decide)).trans (if_pos (congrArg not hd))))
    · exact found.trans (congrArg _ ((if_neg (by rw [h]; decide)).trans (if_neg (by rw [hd]; decide))))

end

section
namespace Sys2Proof.Machine

/-! ## The flash operations (R460, R462) -/

section
variable {s : State} {ok second : Bool} {e : FlashEntry} {st : Nat}

theorem execFlashOperationDone_idle (h : s.flash.op = none) : exec (.flashOperationDone ok) s = .next s := by
  rw [exec_flashOperationDone, execFlashOperationDone, h]

/-- A step of an entry ends: only steps 3 and 4 have an outcome, and a good step 4 commits the entry. -/
theorem execFlashOperationDone_entry (h : s.flash.op = some (.entry e st second)) :
    exec (.flashOperationDone ok) s = .next (
      if st < 3 then { s with flash := { s.flash with op := some (.entry e (st + 1) second) } }
      else if (!ok) = true then s.entryFails e st second
      else if st = 3 then { s with flash := { s.flash with op := some (.entry e 4 second) } }
      else s.entryDone e) := by
  rw [exec_flashOperationDone, execFlashOperationDone, h]

theorem execFlashOperationDone_unchecked (h : s.flash.op = some (.entry e st second)) (hst : st < 3) :
    exec (.flashOperationDone ok) s = .next { s with flash := { s.flash with op := some (.entry e (st + 1) second) } } :=
  (execFlashOperationDone_entry h).trans (congrArg _ (if_pos hst))

theorem execFlashOperationDone_checkGood (h : s.flash.op = some (.entry e 3 second)) :
    exec (.flashOperationDone true) s = .next { s with flash := { s.flash with op := some (.entry e 4 second) } } := by
  rw [execFlashOperationDone_entry h, if_neg (by decide), if_neg (by decide), if_pos rfl]

theorem execFlashOperationDone_commitGood (h : s.flash.op = some (.entry e 4 second)) :
    exec (.flashOperationDone true) s = .next (s.entryDone e) := by
  rw [execFlashOperationDone_entry h, if_neg (by decide), if_neg (by decide), if_neg (by decide)]

theorem execFlashOperationDone_checkFails (h : s.flash.op = some (.entry e st second)) (hst : 3 ≤ st) :
    exec (.flashOperationDone false) s = .next (s.entryFails e st second) := by
  rw [execFlashOperationDone_entry h, if_neg (Nat.not_lt.mpr hst), if_pos Bool.not_false]

/-- Only an ERRLOG entry (kind 3) ends a flush of records. -/
theorem State.entryDone_of_kind_ne (h : e.payload.kind ≠ 3) : s.entryDone e =
    { s with flash := { s.flash with entries := s.flash.entries ++ [{ e with commit := 0x5A }] }.next }.inc QTZ_FLASH.WRITES :=
  if_neg h

theorem State.entryDone_errlog (h : e.payload.kind = 3) : s.entryDone e =
    ({ s with flash := { s.flash with entries := s.flash.entries ++ [{ e with commit := 0x5A }] }.next }.inc QTZ_FLASH.WRITES).flushed
      e.payload.recs :=
  if_pos h

theorem execFlashOperationDone_eraseSector {r : Region} {k : Nat} (h : s.flash.op = some (.eraseSector r k)) :
    exec (.flashOperationDone ok) s = .next { s with flash := s.flash.erased r k } := by
  rw [exec_flashOperationDone, execFlashOperationDone, h]

theorem execFlashOperationDone_eraseSlot {k : Nat} (h : s.flash.op = some (.eraseSlot k)) :
    exec (.flashOperationDone ok) s = .next { s with flash :=
      (if k = 0 then { s.flash with slotA := none, bytesA := [] } else { s.flash with slotB := none, bytesB := [] }).next } := by
  rw [exec_flashOperationDone, execFlashOperationDone, h]

theorem execFlashOperationDone_programSlot {k off : Nat} {bs : List Byte} (h : s.flash.op = some (.programSlot k off bs)) :
    exec (.flashOperationDone ok) s = .next { s with flash :=
      (if k = 0 then { s.flash with bytesA := programBytes s.flash.bytesA off bs }
       else { s.flash with bytesB := programBytes s.flash.bytesB off bs }).next } := by
  rw [exec_flashOperationDone, execFlashOperationDone, h]

end
end Sys2Proof.Machine
open Sys2Proof Sys2Proof.Machine

/-- Settles O60: by the operation that completes; an entry by its step and the outcome of its check, and a committed one by its kind. -/
theorem flashOperationsAdvance : Obligations.FlashOperationsAdvance := by
  unfold Obligations.FlashOperationsAdvance
  refine ⟨fun s ok => execFlashOperationDone_idle, fun s ok second e st => execFlashOperationDone_unchecked,
    fun s second e => execFlashOperationDone_checkGood, fun s second e h hk => ?_, fun s second e h hk => ?_,
    fun s second e st => execFlashOperationDone_checkFails, fun s ok r k => execFlashOperationDone_eraseSector,
    fun s ok k => execFlashOperationDone_eraseSlot, fun s ok k off bs => execFlashOperationDone_programSlot,
    fun s => exec_recordFlushTimeout⟩
  · rw [execFlashOperationDone_commitGood h, State.entryDone_of_kind_ne hk]
  · rw [execFlashOperationDone_commitGood h, State.entryDone_errlog hk]

end

section
namespace Sys2Proof.Machine

/-! ## The idle tick (log entry 8, R474) -/

section
variable {s : State}

/-- Counting the skipped milliseconds changes the register file alone. -/
theorem State.countSkips_frame (s : State) : s.countSkips = { s with flds := s.countSkips.flds } := by
  have sweep (l : List Nat) : ∀ u : State, let f := fun (u : State) d => if u.rf (PWR_SKIP.K d) = 0 then u else u.inc (PWR_SKIP.SKIP_MS d)
      l.foldl f u = { u with flds := (l.foldl f u).flds } := by
    induction l with
    | nil => exact fun _ => rfl
    | cons d l ih =>
      intro u
      dsimp only [List.foldl_cons]
      split
      · exact ih u
      · exact ih (u.inc (PWR_SKIP.SKIP_MS d))
  exact sweep (List.range 16) s

/-- No counter of skipped milliseconds lies in the time base. -/
theorem ticks_cell_ne_skipMs (d : Nat) : QTZ_TB.TICKS.cell ≠ (PWR_SKIP.SKIP_MS d).cell := by
  unfold Fld.cell QTZ_TB.TICKS PWR_SKIP.SKIP_MS
  dsimp only
  omega

/-- Counting the skipped milliseconds leaves the time base. -/
theorem State.now_countSkips (h : Tbl.sortedFrom 0 s.flds = true) : s.countSkips.now = s.now := by
  have sweep (l : List Nat) : ∀ u : State, Tbl.sortedFrom 0 u.flds = true →
      (l.foldl (fun u d => if u.rf (PWR_SKIP.K d) = 0 then u else u.inc (PWR_SKIP.SKIP_MS d)) u).now = u.now := by
    induction l with
    | nil => exact fun _ _ => rfl
    | cons d l ih =>
      intro u hu
      rw [List.foldl_cons]
      split
      · exact ih u hu
      · exact (ih _ (State.sorted_wf _ _ hu)).trans (State.rf_wf_ne _ hu (ticks_cell_ne_skipMs d))
  exact sweep (List.range 16) s h

/-- What one tick counts: three in coast, the root PLL then running at a third of its frequency (R474). -/
def State.tickStep (s : State) : Nat := if s.rf QTZ_STATUS.COAST = 1 then 3 else 1

/-- The state with new measured quantities (log entry 30). -/
def State.measured (s : State) : State :=
  ({ s with freeCtr := s.freeCtr + 2 }.wf PWR_STATUS.IRAIL (Config.freeValue s.freeCtr).toNat).wf PWR_STATUS.PKGW
    (Config.freeValue (s.freeCtr + 1)).toNat

theorem State.tick_stopped (h : s.power.mgmt = false) : s.tick = s := by
  unfold State.tick
  exact if_pos (by rw [h]; rfl)

theorem State.tick_running (h : s.power.mgmt = true) : s.tick =
    let u := s.measured.addf QTZ_TB.TICKS s.tickStep
    if s.now / 100000 = (s.now + s.tickStep) / 100000 then u else u.countSkips := by
  unfold State.tick
  exact if_neg (by rw [h]; decide)

theorem State.sorted_measured (h : Tbl.sortedFrom 0 s.flds = true) : Tbl.sortedFrom 0 s.measured.flds = true :=
  State.sorted_wf _ _ (State.sorted_wf _ _ h)

theorem State.now_measured (h : Tbl.sortedFrom 0 s.flds = true) : s.measured.now = s.now :=
  (State.rf_wf_ne _ (State.sorted_wf _ _ h) (by decide)).trans (State.rf_wf_ne _ h (by decide))

/-- While the management domain runs, a tick counts on in the time base. -/
theorem State.now_tick (h : s.power.mgmt = true) (hs : Tbl.sortedFrom 0 s.flds = true) :
    s.tick.now = (s.now + s.tickStep) % 2 ^ 64 := by
  have hm := State.sorted_measured hs
  have hu : (s.measured.addf QTZ_TB.TICKS s.tickStep).now = (s.now + s.tickStep) % 2 ^ 64 := by
    rw [← State.now_measured hs]
    exact State.rf_wf_same QTZ_TB.TICKS _ hm
  rw [State.tick_running h]
  dsimp only
  split
  · exact hu
  · exact (State.now_countSkips (State.sorted_wf _ _ hm)).trans hu

/-- A tick changes registers, and uses free values for what is measured. -/
theorem State.tick_frame (s : State) : s.tick = { s with flds := s.tick.flds, freeCtr := s.tick.freeCtr } := by
  cases h : s.power.mgmt with
  | false => rw [State.tick_stopped h]
  | true =>
    rw [State.tick_running h]
    dsimp only
    split
    · rfl
    · obtain ⟨l, hl⟩ : ∃ l, (s.measured.addf QTZ_TB.TICKS s.tickStep).countSkips =
          { s.measured.addf QTZ_TB.TICKS s.tickStep with flds := l } := ⟨_, State.countSkips_frame _⟩
      rw [hl]
      rfl

end

/-! ## Supplies and pins (R464, R472, R473, R497–R502) -/

section
variable {s : State} {vin : Nat} {f : Fld}

/-- A module without power reads every field's reset value. -/
theorem State.rf_powerLoss (s : State) (f : Fld) : s.powerLoss.rf f = f.rst := State.rf_of_flds_nil rfl f

/-- At time 0 of a start the input voltage shows, and every other field reads its reset value (R473). -/
theorem State.rf_startAt0_vin (s : State) (vin : Nat) : (s.startAt0 vin).rf PWR_STATUS.VIN = vin % 2 ^ 12 := by
  unfold State.startAt0
  exact State.rf_wf_same _ _ rfl

theorem State.rf_startAt0_ne (hf : f.cell ≠ PWR_STATUS.VIN.cell) : (s.startAt0 vin).rf f = f.rst := by
  unfold State.startAt0
  exact (State.rf_wf_ne _ rfl hf).trans (State.rf_of_flds_nil rfl f)

theorem Power.mayStart_iff {w : Power} : w.mayStart = true ↔
    w.pwrEn = true ∧ w.resetHeld = false ∧ w.thermLatch = false ∧ w.hot = false ∧ w.cutLatch = false := by
  simp [Power.mayStart, and_assoc]

/-- The module under other pins and latches. -/
def State.withPower (s : State) (w : Power) : State := { s with power := w }

theorem State.tryStart_starts {w : Power} (h : s.boot = .off) (hw : w.mayStart = true) :
    (s.withPower w).tryStart vin = (s.withPower w).startAt0 vin := if_pos ⟨h, hw⟩

theorem State.tryStart_on (h : s.boot ≠ .off) : s.tryStart vin = s := if_neg fun hc => h hc.1

theorem State.tryStart_held (h : s.boot ≠ .off ∨ s.power.pwrEn = false ∨ s.power.resetHeld = true ∨ s.power.thermLatch = true ∨
    s.power.hot = true ∨ s.power.cutLatch = true) : s.tryStart vin = s := by
  refine if_neg fun ⟨hb, hw⟩ => ?_
  obtain ⟨he, hr, ht, hh, hc⟩ := Power.mayStart_iff.mp hw
  simp [hb, he, hr, ht, hh, hc] at h

/-- A module started under other pins shows them, and what its start brings (R473). -/
theorem State.startAt0_power (s : State) (vin : Nat) : (s.startAt0 vin).power =
    { pwrEn := s.power.pwrEn, resetHeld := s.power.resetHeld, perst := s.power.perst, thermLatch := s.power.thermLatch
      cutLatch := s.power.cutLatch, standby := s.power.standby, hot := s.power.hot, otherRails := true, mgmt := true } := rfl

theorem execPowerUp_low (h : vin < 1680) : exec (.powerUp vin) s = .next s := congrArg _ (if_pos h)

theorem execPowerUp_eq (h : 1680 ≤ vin) : exec (.powerUp vin) s =
    .next ((s.withPower { s.power with pwrEn := true, standby := true, cutLatch := false }).tryStart vin) :=
  congrArg _ (if_neg (Nat.not_lt.mpr h))

theorem execMgtResetRelease_eq : exec .mgtResetRelease s =
    .next ((s.withPower { s.power with resetHeld := false }).tryStart (s.rf PWR_STATUS.VIN)) := rfl

theorem execSensorsBelow85c_eq : exec .sensorsBelow85c s =
    .next ((s.withPower { s.power with hot := false }).tryStart (s.rf PWR_STATUS.VIN)) := rfl

theorem execPowerDown_off (h : s.boot = .off) : exec .powerDown s = .next { s with power := { s.power with pwrEn := false } } := by
  rw [exec_powerDown, execPowerDown]
  dsimp only
  rw [if_pos h]

theorem execPowerDown_on (h : s.boot ≠ .off) : exec .powerDown s =
    .next (({ s with power := { s.power with pwrEn := false } }.abortJobs s.bedrockUnit).flushRecords.railsOff) := by
  rw [exec_powerDown, execPowerDown]
  dsimp only
  rw [if_neg h]
  rfl

end

/-! ## Thermal comparators (R496, R497) -/

section
variable {s t : State} {sn : Sensor} {die stack : Nat}

theorem onSensor_eq (h : s.siteExists sn.site = true) (hk : s.stackSite sn.site = sn.stack) : onSensor s sn die stack t =
    if s.boot = .off ∨ sn.temp < (if sn.stack = true then stack else die) then .next s else .next t := by
  unfold onSensor
  exact if_neg (by simp [h, hk])

theorem onSensor_reached (h : s.siteExists sn.site = true) (hk : s.stackSite sn.site = sn.stack) (hb : s.boot ≠ .off)
    (ht : (if sn.stack = true then stack else die) ≤ sn.temp) : onSensor s sn die stack t = .next t := by
  rw [onSensor_eq h hk, if_neg]
  exact fun hc => hc.elim hb (Nat.not_lt.mpr ht)

theorem onSensor_below (h : s.siteExists sn.site = true) (hk : s.stackSite sn.site = sn.stack)
    (ht : s.boot = .off ∨ sn.temp < (if sn.stack = true then stack else die)) : onSensor s sn die stack t = .next s := by
  rw [onSensor_eq h hk, if_pos ht]

/-- The rails go off with the core and I/O rails and PWRGD, and the module is off. -/
theorem State.railsOff_boot (s : State) : s.railsOff.boot = .off := congrArg State.boot (s.managed.wfs_eq railFields)
theorem State.railsOff_power (s : State) : s.railsOff.power = { s.power with coreRail := false, otherRails := false, pwrGd := false } :=
  congrArg State.power (s.managed.wfs_eq railFields)

/-- The thermal trip latched, on a sensor that has not read below 85 °C since (R497). -/
def State.latched (s : State) : State := { s with power := { s.power with thermLatch := true, hot := true } }

theorem State.latched_frame (s : State) : s.latched = { s with power := s.latched.power } := rfl

theorem State.latched_railsOff (s : State) : s.railsOff.latched.power =
    { s.power with coreRail := false, otherRails := false, pwrGd := false, thermLatch := true, hot := true } := by
  rw [State.latched, s.railsOff_power]

theorem State.latched_boot (s : State) : s.latched.boot = s.boot := rfl

theorem execThermalTrip_reached (h : s.siteExists sn.site = true) (hk : s.stackSite sn.site = sn.stack) (hb : s.boot ≠ .off)
    (ht : (if sn.stack = true then 840 else 880) ≤ sn.temp) : exec (.thermalTrip sn) s = .next
      (((s.sensed sn).moduleFatal s.powerUnit 0xB1 [(sn.site, 1), (sn.temp, 2)]).flushRecords.railsOff.latched) :=
  onSensor_reached h hk hb ht

end

/-! ## Clocks (R473–R482) -/

section
variable {s : State} {a : Agent}

/-- Before the core rail is enabled a start has not reached its boot choice (R479). -/
theorem State.not_beforeCoreRail_iff (h : s.boot ≠ .off) : (!s.beforeCoreRail) = true ↔
    s.power.coreRail = true ∨ s.boot = .running ∨ s.boot = .maint := by
  unfold State.beforeCoreRail
  cases hb : s.boot with
  | off => exact absurd hb h
  | started | crystal | rootLocked | running | maint => simp

/-- The crystal is marked dead when it does not start in time (R477). -/
theorem execCrystalTimeout_marks (h : s.boot = .started) : exec .crystalTimeout s = .next (s.markDead .crystal) := by
  rw [exec_crystalTimeout, execCrystalTimeout, if_neg fun hc => hc h]

theorem execCrystalTimeout_ignored (h : s.boot ≠ .started) : exec .crystalTimeout s = .next s := by
  rw [exec_crystalTimeout, execCrystalTimeout, if_pos h]

theorem State.markDead_dead {c : ClockSource} (h : s.isDead c = true) : s.markDead c = s := if_pos h

theorem State.markDead_marks {c : ClockSource} (h : ¬ s.isDead c = true) : s.markDead c =
    (s.setDead c).moduleFatal ((s.setDead c).sourceUnit c) 0xA1 [((s.setDead c).monValue, 5)] := if_neg h

theorem State.isDead_crystal : s.isDead .crystal = true ↔ s.rf QTZ_MON.XTAL = 1 := beq_iff_eq

theorem execClockMonitorWindow_eq {dead : List ClockSource} {edges : Nat} (h : dead.all s.hasSource = true) :
    exec (.clockMonitorWindow dead edges) s = .next (if s.boot = .off then s else (dead.foldl State.markDead s).coastIf edges) := by
  rw [exec_clockMonitorWindow, execClockMonitorWindow, if_neg (by rw [h]; decide)]

theorem execSw0Force_ignored (h : isFlint a = true ∨ s.boot = .off) : exec (.sw0Force a) s = .next s := congrArg _ (if_pos h)

theorem execSw0Force_eq (ha : isFlint a = false) (h : s.boot ≠ .off) : exec (.sw0Force a) s = .next (
    if s.power.coreRail = true ∨ s.boot = .running ∨ s.boot = .maint then s.emit (.mgt "BUS_ERROR" 0x00200010)
    else if s.rf QTZ_SW0.BUSY = 1 then s.sw0Done else s) := by
  refine congrArg _ ((if_neg fun hc => hc.elim (by rw [ha]; decide) h).trans ?_)
  simp only [State.not_beforeCoreRail_iff h]

theorem bit_bne (m n : Nat) : bit (m != n) = if m = n then 0 else 1 := by
  unfold bit
  by_cases h : m = n <;> simp [h]

/-- A command under a guard that denies two things of the state. -/
theorem ite_or_not_eq {α : Type} {p q : Prop} {_ : Decidable p} {_ : Decidable q} (x y : α) :
    (if ¬ p ∨ q then x else y) = if p ∧ ¬ q then y else x := by
  by_cases hp : p <;> by_cases hq : q <;> simp [hp, hq]

end

/-! ## The power governor (R483–R487) -/

section
variable {s : State} {d : Nat} {k : LimitKind}

theorem execLimitCleared_none (hd : d < 16) (h : bitOf (s.gov.limits.get 0 d) (limitBit k) = false) :
    exec (.limitCleared d k) s = .next s := by
  rw [exec_limitCleared, execLimitCleared, onPart_of_lt hd]
  exact congrArg _ (if_pos (by rw [h]; rfl))

theorem execLimitCleared_set (hd : d < 16) (h : bitOf (s.gov.limits.get 0 d) (limitBit k) = true) :
    exec (.limitCleared d k) s = .next (
      let m := s.gov.limits.get 0 d - 2 ^ limitBit k
      let u := { s with gov := { s.gov with limits := s.gov.limits.set 0 d m } }.showLimits d
      if m = 0 then u.govRequests (.lowerK d) (u.rf (PWR_SKIP.K d) - u.lowering d) else u) := by
  rw [exec_limitCleared, execLimitCleared, onPart_of_lt hd]
  exact congrArg _ (if_neg (by rw [h]; decide))

theorem execDieWakeGrant_grants {t : Nat} {rest : List (Nat × Nat)} (hd : d < 16) (hb : s.boot = .running)
    (hw : s.gov.dieWaiting = (d, t) :: rest) (hr : s.recentWakes.length < 2) : exec (.dieWakeGrant d) s = .next (
      let u := s.noteWait (s.gov.slots - t)
      { u with gov := { u.gov with dieWaiting := rest, wakes := u.now :: u.recentWakes, awake := d :: u.gov.awake } }.leaveOff d) := by
  rw [exec_dieWakeGrant, execDieWakeGrant, onPart_of_lt hd, hw]
  exact congrArg _ (if_neg fun hc => hc.elim (fun h => h rfl) fun hc => hc.elim (fun h => h hb) (Nat.not_le.mpr hr))

/-- A wake is granted to the die that asked first, and to two within 100 µs (R486). -/
theorem execDieWakeGrant_refused (hd : d < 16)
    (h : s.boot ≠ .running ∨ 2 ≤ s.recentWakes.length ∨ ∀ e ∈ s.gov.dieWaiting.head?, e.1 ≠ d) :
    exec (.dieWakeGrant d) s = .next s := by
  rw [exec_dieWakeGrant, execDieWakeGrant, onPart_of_lt hd]
  cases hw : s.gov.dieWaiting with
  | nil => rfl
  | cons e rest =>
    refine congrArg _ (if_pos ?_)
    rw [hw] at h
    obtain hb | hr | he := h
    · exact .inr (.inl hb)
    · exact .inr (.inr hr)
    · exact .inl (he e rfl)

end
end Sys2Proof.Machine

open Sys2Proof Sys2Proof.Machine

/-- Settles O1: it is what a step with a command in front does. -/
theorem stepRunsTheFrontCommand : Obligations.StepRunsTheFrontCommand := fun _ _ _ => step_cons

/-- Settles O2: a tick either leaves the state, or writes registers, of which the time base is the last but the skip counters. -/
theorem emptyQueueTicksTheTimeBase : Obligations.EmptyQueueTicksTheTimeBase := fun s h =>
  ⟨s.tick, step_nil h, State.tick_stopped, State.now_tick, s.tick_frame⟩

/-- Settles O54: a start is time 0 of R473 behind the pins and latches; every other event is its guard. -/
theorem supplyEventsStartAndStopTheModule : Obligations.SupplyEventsStartAndStopTheModule := by
  unfold Obligations.SupplyEventsStartAndStopTheModule
  refine ⟨fun s vin hv hb hr ht hh => ?_, fun s vin hv => execPowerUp_low hv, fun s vin hv hb => ?_,
    fun s => ⟨_, rfl, rfl, rfl, rfl, rfl, rfl, State.rf_powerLoss _, rfl, rfl, rfl⟩,
    fun s => ⟨_, rfl, rfl, rfl, rfl, rfl, rfl, State.rf_powerLoss _, rfl, rfl, rfl⟩, fun s hb he ht hh hc => ?_, fun s h => ?_,
    fun s hb he hr ht hc => ?_, fun s h => ?_, fun s => execPowerDown_off, fun s => execPowerDown_on, fun s vin => rfl,
    fun s => rfl, fun s vin => rfl, fun s vin => rfl⟩
  · rw [execPowerUp_eq hv, State.tryStart_starts hb ?_]
    · refine ⟨_, rfl, rfl, ?_, rfl, rfl, State.rf_startAt0_vin _ _, fun f => State.rf_startAt0_ne, rfl, rfl, rfl⟩
      simp only [State.startAt0_power, State.withPower, hr, ht, hh]
    · exact Power.mayStart_iff.mpr ⟨rfl, hr, ht, hh, rfl⟩
  · rw [execPowerUp_eq hv]
    exact congrArg Host.Outcome.next (State.tryStart_on hb)
  · rw [execMgtResetRelease_eq, State.tryStart_starts hb ?_]
    · exact ⟨_, rfl, rfl, rfl, rfl⟩
    · exact Power.mayStart_iff.mpr ⟨he, rfl, ht, hh, hc⟩
  · rw [execMgtResetRelease_eq]
    exact congrArg Host.Outcome.next (State.tryStart_held (h.imp_right (Or.imp_right .inr)))
  · rw [execSensorsBelow85c_eq, State.tryStart_starts hb ?_]
    · exact ⟨_, rfl, rfl, rfl, rfl⟩
    · exact Power.mayStart_iff.mpr ⟨he, hr, ht, rfl, hc⟩
  · rw [execSensorsBelow85c_eq]
    exact congrArg Host.Outcome.next
      (State.tryStart_held (h.imp_right (Or.imp_right (Or.imp_right (Or.imp_right .inr)))))

/-- Settles O56: a thermal event is the guard of its sensor's level; a trip ends in the state that the rails leave. -/
theorem thermalLevelsWarnAndTrip : Obligations.ThermalLevelsWarnAndTrip := by
  unfold Obligations.ThermalLevelsWarnAndTrip
  intro s sn h hk
  refine ⟨fun hb ht => onSensor_reached h hk hb ht, fun hb ht => ⟨_, execThermalTrip_reached h hk hb ht, State.latched_frame _, rfl, rfl, ?_, ?_, ?_⟩,
    onSensor_below h hk, onSensor_below h hk⟩
  · rw [State.latched_railsOff]
  · rw [State.latched_railsOff]
  · rw [State.latched_boot, State.railsOff_boot]

/-- Settles O57, event by event: each is its guard and the fields it writes. -/
theorem clockEventsMoveSwitchesAndMarks : Obligations.ClockEventsMoveSwitchesAndMarks := by
  unfold Obligations.ClockEventsMoveSwitchesAndMarks
  refine ⟨fun s v => ?_, fun s => rfl, fun s => rfl, fun s => congrArg _ (ite_or_not_eq _ _), fun s hb hx => ?_, fun s h => ?_,
    fun s => congrArg _ (ite_or_not_eq _ _), fun s dead edges hd hb => ?_, fun s dead edges hd hb => ?_, fun s c => rfl, fun s edges => rfl,
    fun s a sel => rfl, fun s => rfl, fun s => rfl, fun s => rfl, fun s => rfl, fun s a => execSw0Force_eq, fun s a => execSw0Force_ignored,
    fun s offset ppm synced => rfl⟩
  · rw [State.requestSw0, bit_bne]
  · rw [execCrystalTimeout_marks hb, State.markDead_marks fun hc => hx (State.isDead_crystal.mp hc)]
    rfl
  · by_cases hb : s.boot = .started
    · rw [execCrystalTimeout_marks hb, State.markDead_dead (State.isDead_crystal.mpr (h.resolve_left fun hc => hc hb))]
    · exact execCrystalTimeout_ignored hb
  · rw [execClockMonitorWindow_eq hd, if_neg hb]
  · rw [execClockMonitorWindow_eq hd, if_pos hb]

/-- Settles O59: the limits of a die, the charges of a slot and the wakes of 100 µs are the guards of the four commands. -/
theorem governorLimitsAndGrants : Obligations.GovernorLimitsAndGrants := by
  unfold Obligations.GovernorLimitsAndGrants
  refine ⟨fun s d k hd hb => ?_, fun s d k hd hb => ?_, fun s d k => execLimitCleared_set, fun s d k => execLimitCleared_none,
    fun s hb => congrArg _ (if_neg fun hc => hc hb), fun s hb => congrArg _ (if_neg fun hc => hc hb), fun s n hb => congrArg _ (if_pos hb),
    fun s r t rest => rfl, fun p c up d => ⟨rfl, rfl, rfl⟩, fun s p c d => ⟨rfl, rfl, rfl⟩, fun s d t rest => execDieWakeGrant_grants,
    fun s d => execDieWakeGrant_refused⟩
  · rw [exec_limitExceeded, execLimitExceeded, onPart_of_lt hd, if_neg fun hc => hc hb]
    rfl
  · rw [exec_limitExceeded, execLimitExceeded, onPart_of_lt hd, if_pos hb]

end

section
namespace Sys2Proof.Machine

/-! ## SPDM responders and sessions (R414, R415, R433, R450, R470) -/

/-- A responder that runs: every function's once Bedrock does, and PF16's also in maintenance mode (R470). -/
def State.responds (s : State) (n : Nat) : Prop := s.boot = .running ∨ s.boot = .maint ∧ n = 16

section
variable {s t : State} {n ph : Nat}

theorem spdm_responds (hn : n < 17) (hb : s.responds n) : spdm n s t = .next t := by
  unfold spdm
  rw [if_neg (Nat.not_le.mpr hn)]
  obtain hb | ⟨hb, h16⟩ := hb
  · rw [if_neg (by rw [hb]; decide), if_pos hb]
  · rw [if_pos hb, if_pos h16]

theorem spdm_maint (hn : n < 16) (hb : s.boot = .maint) : spdm n s t = .next (s.spdmErr n 5) := by
  unfold spdm
  rw [if_neg (by omega), if_pos hb, if_neg (by omega)]

theorem spdm_early (hn : n < 17) (h1 : s.boot ≠ .maint) (h2 : s.boot ≠ .running) : spdm n s t = .next s := by
  unfold spdm
  rw [if_neg (Nat.not_le.mpr hn), if_neg h1, if_neg h2]

/-- A request of a phase that the connection has reached is served. -/
theorem spdm_inPhase (hn : n < 17) (hb : s.responds n) (h : ph ≤ (s.getSess (sessKey n 0)).phase) :
    spdm n s (s.spdmAt n ph t) = .next t := by
  rw [spdm_responds hn hb, State.spdmAt, if_neg (Nat.not_lt.mpr h)]

/-- A request out of its order is answered UnexpectedRequest. -/
theorem spdm_outOfPhase (hn : n < 17) (hb : s.responds n) (h : (s.getSess (sessKey n 0)).phase < ph) :
    spdm n s (s.spdmAt n ph t) = .next (s.spdmErr n 4) := by
  rw [spdm_responds hn hb, State.spdmAt, if_pos h]

variable {i : Nat}

/-- A message inside an open session. -/
theorem inSess_open (hn : n < 17) (hb : s.responds n) (hs : (s.getSess (sessKey n i)).stage = 2) (hi : i < sessLimit n) :
    inSess n i s t = .next t := by
  rw [inSess, spdm_responds hn hb, if_pos ⟨hs, hi⟩]

theorem inSess_closed (hn : n < 17) (hb : s.responds n) (hs : (s.getSess (sessKey n i)).stage ≠ 2) :
    inSess n i s t = .next (s.spdmErr n 4) := by
  rw [inSess, spdm_responds hn hb, if_neg fun hc => hs hc.1]

/-! ### Measurements (R415) -/

/-- The measurement blocks of a function: 6 and 7 describe a partition. -/
theorem measured_blocks (hn : n < 17) : (List.range 9).filter (measExists n) =
    if n = 16 then [1, 2, 3, 4, 5, 8] else [1, 2, 3, 4, 5, 6, 7, 8] := by
  revert n
  decide

theorem measExists_iff {i : Nat} (h0 : i ≠ 0) : measExists n i = true ↔ i ≤ 8 ∧ (n < 16 ∨ i ≠ 6 ∧ i ≠ 7) := by
  simp only [measExists, Bool.and_eq_true, Bool.or_eq_true, decide_eq_true_eq, bne_iff_ne]
  omega

section
variable (hn : n < 17) (hb : s.responds n) (h : 3 ≤ (s.getSess (sessKey n 0)).phase)
include hn hb h

/-- Index 0 asks for the number of blocks. -/
theorem execGetMeasurements_count : exec (.getMeasurements n 0) s =
    .next ((s.inc BDR_ATT.MEAS).spdmRsp n 0x60 [if n = 16 then 6 else 8]) := by
  refine (spdm_inPhase hn hb h).trans ?_
  rw [if_pos rfl, measured_blocks hn]
  split <;> rfl

/-- Index 0xFF asks for all blocks. -/
theorem execGetMeasurements_all : exec (.getMeasurements n 0xFF) s = .next ((s.inc BDR_ATT.MEAS).spdmRsp n 0x60
    (((if n = 16 then [1, 2, 3, 4, 5, 8] else [1, 2, 3, 4, 5, 6, 7, 8]).map (s.measurement n)).flatten)) := by
  refine (spdm_inPhase hn hb h).trans ?_
  rw [if_neg (by decide), if_pos rfl, measured_blocks hn, List.flatMap]

theorem execGetMeasurements_one {i : Nat} (h0 : i ≠ 0) (hF : i ≠ 0xFF) : exec (.getMeasurements n i) s = .next (
    if i ≤ 8 ∧ (n < 16 ∨ i ≠ 6 ∧ i ≠ 7) then (s.inc BDR_ATT.MEAS).spdmRsp n 0x60 (s.measurement n i) else s.spdmErr n 1) := by
  refine (spdm_inPhase hn hb h).trans ?_
  simp only [if_neg h0, if_neg hF, measExists_iff h0]

end

/-! ### Sessions (R411, R414, R441, R450) -/

/-- A function's first session is taken where it is free. -/
theorem State.freeSess_first (h : (s.getSess (sessKey n 0)).stage = 0) : s.freeSess n = some 0 := by
  unfold State.freeSess sessLimit
  split <;> exact List.find?_cons_of_pos (beq_iff_eq.mpr h)

/-- PF16 has a second session. -/
theorem State.freeSess_second (h0 : (s.getSess (sessKey 16 0)).stage ≠ 0) (h1 : (s.getSess (sessKey 16 1)).stage = 0) :
    s.freeSess 16 = some 1 := by
  simp [State.freeSess, sessLimit, List.range_succ, h0, h1]

theorem State.freeSess_none (h0 : (s.getSess (sessKey n 0)).stage ≠ 0) (h1 : n = 16 → (s.getSess (sessKey n 1)).stage ≠ 0) :
    s.freeSess n = none := by
  refine List.find?_eq_none.mpr fun i hi hc => ?_
  rw [List.mem_range, sessLimit] at hi
  rw [beq_iff_eq] at hc
  obtain rfl | ⟨rfl, hn⟩ : i = 0 ∨ i = 1 ∧ n = 16 := by
    split at hi <;> omega
  · exact h0 hc
  · exact h1 hn hc

/-- The session that a KEY_EXCHANGE begins (R414). -/
def State.sessionBegun (s : State) (n i : Nat) : State :=
  s.draw.setSess (sessKey n i) { stage := 1, phase := (s.getSess (sessKey n i)).phase, secret := s.freeCtr }

section
variable (hn : n < 17) (hb : s.responds n) (h : 3 ≤ (s.getSess (sessKey n 0)).phase)
include hn hb h

theorem execKeyExchange_slot {slot : Nat} (hs : slot ≠ 0) : exec (.keyExchange n slot) s = .next (s.spdmErr n 1) :=
  (spdm_inPhase hn hb h).trans (congrArg Host.Outcome.next (if_pos hs))

theorem execKeyExchange_noEntropy (hd : s.rf BDR_SEC.DRBG_OK = 0) : exec (.keyExchange n 0) s = .next (s.spdmErr n 5) := by
  refine (spdm_inPhase hn hb h).trans ?_
  rw [if_neg fun hc => hc rfl, if_pos hd]

theorem execKeyExchange_begins (hd : s.rf BDR_SEC.DRBG_OK ≠ 0) {i : Nat} (hi : s.freeSess n = some i) :
    exec (.keyExchange n 0) s = .next ((s.sessionBegun n i).spdmRsp n 0x64 [i]) := by
  refine (spdm_inPhase hn hb h).trans ?_
  rw [if_neg fun hc => hc rfl, if_neg hd, hi]
  rfl

theorem execKeyExchange_full (hd : s.rf BDR_SEC.DRBG_OK ≠ 0) (hi : s.freeSess n = none) :
    exec (.keyExchange n 0) s = .next (s.spdmErr n 10) := by
  refine (spdm_inPhase hn hb h).trans ?_
  rw [if_neg fun hc => hc rfl, if_neg hd, hi]

end

section
variable (hn : n < 17) (hb : s.responds n) (hi : i < sessLimit n)
include hn hb

/-- FINISH outside the opening of a session. -/
theorem execFinish_unexpected (hx : (s.getSess (sessKey n i)).stage ≠ 1) (ok : Bool) : exec (.finish n i ok) s = .next (s.spdmErr n 4) :=
  (spdm_responds hn hb).trans (congrArg Host.Outcome.next (if_pos (.inl hx)))

include hi

theorem execFinish_fails (hx : (s.getSess (sessKey n i)).stage = 1) :
    exec (.finish n i false) s = .next ((s.secureFail n i 0).spdmErr n 6) := by
  refine (spdm_responds hn hb).trans (congrArg Host.Outcome.next ?_)
  dsimp only
  rw [if_neg (by omega), if_pos (by decide)]

theorem execFinish_opens (hx : (s.getSess (sessKey n i)).stage = 1) : exec (.finish n i true) s = .next (
    let u := s.setSess (sessKey n i) { s.getSess (sessKey n i) with stage := 2, proven := n = 16 || s.rf (BDR_PSEC.CLAIMED n) == 0 }
    (if n = 16 then u.inc BDR_SEC.PF16_SESS
      else (u.wf (BDR_PSEC.SESSION n) 1).setHost n { u.getHost n with sqSeq := 0, cqSeq := 0 }).spdmRsp n 0x65 []) := by
  refine (spdm_responds hn hb).trans (congrArg Host.Outcome.next ?_)
  dsimp only
  rw [if_neg (by omega), if_neg (by decide)]

end

theorem execHeartbeatTimeout_eq (hn : n < 17) : exec (.heartbeatTimeout n i) s = .next (
    let x := s.getSess (sessKey n i)
    if x.stage ≠ 2 ∨ sessLimit n ≤ i then s else if 2 ≤ x.missed then s.endSession n i
    else s.setSess (sessKey n i) { x with missed := x.missed + 1 }) := by
  rw [exec_heartbeatTimeout, execHeartbeatTimeout, if_neg (Nat.not_le.mpr hn)]

/-- The end of an open session of a partition's function (R411, R450). -/
theorem State.endSession_open (hs : (s.getSess (sessKey n i)).stage = 2) (hn : n ≠ 16) : s.endSession n i =
    ((s.setSess (sessKey n i) { phase := (s.getSess (sessKey n i)).phase }).wf (BDR_PSEC.SESSION n) 0).stopHandles n := by
  unfold State.endSession
  dsimp only
  rw [if_neg fun hc => hc hs, if_neg hn]

/-- No transfer of a function whose handles stop goes on. -/
theorem State.stopHandles_stop {e : Nat × Option HostHandle} {h : HostHandle} (he : e ∈ (s.stopHandles n).handles) (hh : e.2 = some h)
    (hf : h.fn = n) (ho : h.op ≤ 3) : h.st ≠ .accepted ∧ h.st ≠ .running := by
  unfold State.stopHandles at he
  obtain ⟨⟨k, o⟩, -, rfl⟩ := List.mem_map.mp he
  cases o with
  | none => exact nomatch hh
  | some g =>
    have hg := Option.some.inj hh
    dsimp only at hg
    by_cases hm : g.fn = n ∧ g.op ≤ 3
    · rw [if_pos hm] at hg
      cases hst : g.st <;> simp [hst, ← hg]
    · rw [if_neg hm] at hg
      exact absurd ⟨hg ▸ hf, hg ▸ ho⟩ hm

end
end Sys2Proof.Machine

open Sys2Proof Sys2Proof.Machine

/-- Settles O47: a responder's guard, the connection's phase and the session's stage decide each message. -/
theorem spdmMessagesAndSessions : Obligations.SpdmMessagesAndSessions := by
  unfold Obligations.SpdmMessagesAndSessions
  refine ⟨fun s n hn hb => ⟨spdm_responds hn hb, fun code => spdm_responds hn hb, fun h => spdm_inPhase hn hb h,
      fun h ok => spdm_inPhase hn hb h, fun h => ⟨spdm_inPhase hn hb h, fun slot off len => spdm_inPhase hn hb h,
        fun slot nonce => spdm_inPhase hn hb h, execGetMeasurements_count hn hb h, execGetMeasurements_all hn hb h,
        fun i => execGetMeasurements_one hn hb h, fun slot => execKeyExchange_slot hn hb h, execKeyExchange_noEntropy hn hb h,
        fun hd => ⟨fun h0 => execKeyExchange_begins hn hb h hd (State.freeSess_first h0), fun h0 h16 h1 => ?_,
          fun h0 h1 => execKeyExchange_full hn hb h hd (State.freeSess_none h0 h1)⟩⟩,
      fun h a b c => ⟨spdm_outOfPhase hn hb h, spdm_outOfPhase hn hb h, spdm_outOfPhase hn hb h, spdm_outOfPhase hn hb h,
        spdm_outOfPhase hn hb h⟩, fun h ok => spdm_outOfPhase hn hb h, fun h => spdm_outOfPhase hn hb (by omega),
      fun i hi => ⟨execFinish_fails hn hb hi, fun hx h16 => ?_, fun hx h16 => ?_, execFinish_unexpected hn hb,
        fun hx => ⟨inSess_open hn hb hx hi, inSess_open hn hb hx hi, inSess_open hn hb hx hi⟩,
        fun hx => ⟨inSess_closed hn hb hx, inSess_closed hn hb hx, inSess_closed hn hb hx⟩⟩⟩,
    fun s n i hn => execHeartbeatTimeout_eq hn, fun s n i hf hss hn hs => ?_,
    fun s n hn hb a b c ok => ⟨spdm_maint hn hb, spdm_maint hn hb, spdm_maint hn hb, spdm_maint hn hb, spdm_maint hn hb⟩,
    fun s n hn h1 h2 a b c ok => ⟨spdm_early hn h1 h2, spdm_early hn h1 h2, spdm_early hn h1 h2, spdm_early hn h1 h2, spdm_early hn h1 h2,
      spdm_early hn h1 h2, spdm_early hn h1 h2, spdm_early hn h1 h2⟩⟩
  · subst h16
    exact execKeyExchange_begins hn hb h hd (State.freeSess_second h0 h1)
  · subst h16
    exact execFinish_opens hn hb hi hx
  · rw [execFinish_opens hn hb hi hx]
    dsimp only
    rw [if_neg (by omega), show (decide (n = 16)) = false from decide_eq_false (by omega), Bool.false_or]
    rfl
  · rw [State.endSession_open hs (by omega)]
    exact ⟨Tbl.get_set_same _ _ hss, State.rf_wf_same _ _ hf, fun e he h hh hf ho => State.stopHandles_stop he hh hf ho⟩

end

section
namespace Sys2Proof.Machine

/-! ## Claims, provisioning and release (R412, R416–R420, R433) -/

section
variable {s : State} {n : Nat} {v : Provision}

/-- What the last job left is no register, and in no memory. -/
theorem State.newJob_frame (s : State) (p job : Nat) :
    s.newJob p job = { s with strata := (s.newJob p job).strata, assay := (s.newJob p job).assay } := by
  unfold State.newJob
  split <;> rfl

theorem State.newJob_kept (s : State) (p job : Nat) : (s.newJob p job).flds = s.flds ∧ (s.newJob p job).anonces = s.anonces ∧
    (s.newJob p job).out = s.out ∧ (s.newJob p job).mem = s.mem := by
  rw [State.newJob_frame]
  exact ⟨rfl, rfl, rfl, rfl⟩

theorem State.newJob_same {p job : Nat} (h : s.rf (PRT_JOB.JOB p) = job) : s.newJob p job = s := if_pos h

/-- The fields that a provisioning writes. -/
def provisionFields (n : Nat) (v : Provision) : List (Fld × Nat) :=
  [(PRT_JOB2.MEPOCH n, v.mepoch), (PRT_JOB2.AWAVE n, v.awave), (BDR_PSEC.PROVISIONED n, 1)]

theorem provisionFields_cells : (provisionFields n v).Pairwise (fun a b => a.1.cell ≠ b.1.cell) := by
  simp only [provisionFields, List.pairwise_cons, List.forall_mem_cons, List.not_mem_nil, false_implies, implies_true, List.Pairwise.nil,
    and_true, Fld.cell, PRT_JOB2.MEPOCH, PRT_JOB2.AWAVE, PRT_JOB2.key, regKey, BDR_PSEC.PROVISIONED, BDR_PSEC.key, mgmtKey]
  omega

/-- A partition that is provisioned (R419, R420): `s` is without what the last job left. -/
def State.provisioned (s : State) (n : Nat) (v : Provision) : State :=
  ({ s.setTen n { s.getTen n with prov := some v } with anonces := (v.job, v.anonce) :: s.anonces }.setMember n
    { s.getMember n with rmap := v.rmap }).wfs (provisionFields n v)

end

section
variable {s t : State} {n : Nat} {prove : Bool}

/-- A vendor-defined request in an open session is served, unless it is one that the state of the claim's proof shuts out (R417). -/
theorem vendor_open (hn : n < 16) (hb : s.boot = .running) (hs : (s.getSess (sessKey n 0)).stage = 2) : vendor n prove s t =
    .next (if (s.getSess (sessKey n 0)).proven = prove then s.spdmErr n 4 else t) := by
  rw [vendor, if_neg (by omega)]
  exact inSess_open (by omega) (.inl hb) hs (by rw [sessLimit]; split <;> decide)

theorem vendor_shut (hn : n < 16) (hb : s.boot = .running) (hs : (s.getSess (sessKey n 0)).stage = 2)
    (hp : (s.getSess (sessKey n 0)).proven = prove) : vendor n prove s t = .next (s.spdmErr n 4) := by
  rw [vendor_open hn hb hs, if_pos hp]

theorem vendor_served (hn : n < 16) (hb : s.boot = .running) (hs : (s.getSess (sessKey n 0)).stage = 2)
    (hp : (s.getSess (sessKey n 0)).proven ≠ prove) : vendor n prove s t = .next t := by
  rw [vendor_open hn hb hs, if_neg hp]

theorem vendor_closed (hn : n < 16) (hb : s.boot = .running) (hs : (s.getSess (sessKey n 0)).stage ≠ 2) :
    vendor n prove s t = .next (s.spdmErr n 4) := by
  rw [vendor, if_neg (by omega)]
  exact inSess_closed (by omega) (.inl hb) hs

variable (hn : n < 16) (hb : s.boot = .running) (hs : (s.getSess (sessKey n 0)).stage = 2)
include hn hb hs

section
variable (hp : (s.getSess (sessKey n 0)).proven = false)
include hp

theorem execClaimProve_good : exec (.claimProve n true) s =
    .next ((s.setSess (sessKey n 0) { s.getSess (sessKey n 0) with proven := true }).spdmRsp n 0x7E []) :=
  vendor_served hn hb hs (by rw [hp]; decide)

/-- A failed proof is counted and recorded, and the fourth ends the session (R417). -/
theorem execClaimProve_bad : exec (.claimProve n false) s = .next (
    let x := s.getSess (sessKey n 0)
    let u := ((s.setSess (sessKey n 0) { x with fails := x.fails + 1 }).inc (BDR_PSEC.PROOF_FAIL n)).raise
      { unit := s.bedrockUnit, cls := .perm, code := 0x9D, part := none, synd := [(n, 1), (x.fails + 1, 1)] }
    if x.fails < 3 then u.spdmErr n 5 else (u.endSession n 0).spdmErr n 5) := by
  refine (vendor_served hn hb hs (by rw [hp]; decide)).trans ?_
  dsimp only
  rw [if_neg (by decide)]
  by_cases hf : (s.getSess (sessKey n 0)).fails < 3
  · rw [if_pos hf, if_neg (by omega)]
    rfl
  · rw [if_neg hf, if_pos (by omega)]
    rfl

end

section
variable (hp : (s.getSess (sessKey n 0)).proven = true)
include hp

theorem execClaim_accepted (hd : s.rf BDR_SEC.DRBG_OK ≠ 0) (hr : s.pstate n = psREADY) (hc : s.rf (BDR_PSEC.CLAIMED n) ≠ 1)
    (hk : (s.getTen n).claimedSinceReset = false) (hl : (s.getTen n).lastRetenant = true) (key : Nat) : exec (.claim n key) s = .next
      (((s.setTen n { s.getTen n with claimKey := some key, claimedSinceReset := true }).wf (BDR_PSEC.CLAIMED n) 1).spdmRsp n 0x7E []) := by
  refine (vendor_served hn hb hs (by rw [hp]; decide)).trans (congrArg Host.Outcome.next (if_neg ?_))
  simp [hd, hr, hc, hk, hl]

theorem execClaim_refused (h : s.rf BDR_SEC.DRBG_OK = 0 ∨ s.pstate n ≠ psREADY ∨ s.rf (BDR_PSEC.CLAIMED n) = 1 ∨
    (s.getTen n).claimedSinceReset = true ∨ (s.getTen n).lastRetenant = false) (key : Nat) :
    exec (.claim n key) s = .next (s.spdmErr n 5) := by
  refine (vendor_served hn hb hs (by rw [hp]; decide)).trans (congrArg Host.Outcome.next (if_pos ?_))
  simpa using h

theorem execRelease_eq : exec (.release n) s =
    .next (if s.rf (BDR_PSEC.CLAIMED n) = 0 then s.spdmErr n 5 else (s.spdmRsp n 0x7E []).resetRequest n 2) :=
  vendor_served hn hb hs (by rw [hp]; decide)

variable {v : Provision}

theorem execProvision_noEntropy (hd : s.rf BDR_SEC.DRBG_OK = 0) :
    exec (.provision n v) s = .next ((s.spdmErr n 5).inc BDR_ATT.REFUSED) :=
  (vendor_served hn hb hs (by rw [hp]; decide)).trans (congrArg Host.Outcome.next (if_pos hd))

theorem execProvision_state (hd : s.rf BDR_SEC.DRBG_OK ≠ 0)
    (h : s.pstate n ≠ psREADY ∨ s.rf (BDR_PSEC.CLAIMED n) = 0 ∨ v.othersZero = false) :
    exec (.provision n v) s = .next ((s.refuse 3).spdmErr n 5) := by
  refine (vendor_served hn hb hs (by rw [hp]; decide)).trans (congrArg Host.Outcome.next ?_)
  rw [if_neg hd, if_pos (by simpa using h)]

variable (hd : s.rf BDR_SEC.DRBG_OK ≠ 0) (hr : s.pstate n = psREADY) (hc : s.rf (BDR_PSEC.CLAIMED n) ≠ 0) (hz : v.othersZero = true)
include hd hr hc hz

theorem execProvision_replayed (ha : s.anonces.contains (v.job, v.anonce) = true) :
    exec (.provision n v) s = .next ((s.refuse 1).spdmErr n 5) := by
  refine (vendor_served hn hb hs (by rw [hp]; decide)).trans (congrArg Host.Outcome.next ?_)
  rw [if_neg hd, if_neg (by simp [hr, hc, hz]), if_pos ha]

theorem execProvision_accepted (ha : s.anonces.contains (v.job, v.anonce) = false) :
    exec (.provision n v) s = .next (((s.newJob n v.job).provisioned n v).spdmRsp n 0x7E []) := by
  refine (vendor_served hn hb hs (by rw [hp]; decide)).trans (congrArg Host.Outcome.next ?_)
  rw [if_neg hd, if_neg (by simp [hr, hc, hz]), if_neg (by rw [ha]; decide), State.newJob_frame]
  rfl

end
end

section
variable {s : State} {n : Nat} {v : Provision}

/-- The registers of a provisioned partition show its membership epoch, its wave and that it is provisioned. -/
theorem State.rf_provisioned (h : Tbl.sortedFrom 0 s.flds = true) :
    (s.provisioned n v).rf (BDR_PSEC.PROVISIONED n) = 1 ∧
    (s.provisioned n v).rf (PRT_JOB2.MEPOCH n) = v.mepoch % 2 ^ (PRT_JOB2.MEPOCH n).w ∧
    (s.provisioned n v).rf (PRT_JOB2.AWAVE n) = v.awave % 2 ^ (PRT_JOB2.AWAVE n).w := by
  have hw {f : Fld} (x : Nat) (hf : (f, x) ∈ provisionFields n v) : (s.provisioned n v).rf f = x % 2 ^ f.w :=
    State.rf_wfs_mem h provisionFields_cells hf
  exact ⟨hw 1 (by simp [provisionFields]), hw v.mepoch (by simp [provisionFields]), hw v.awave (by simp [provisionFields])⟩

/-- What a provisioning that is answered leaves. -/
theorem State.provisioned_kept (s : State) (n : Nat) (v : Provision) (code : Nat) (l : List Nat) :
    ((s.provisioned n v).spdmRsp n code l).anonces = (v.job, v.anonce) :: s.anonces ∧
    ((s.provisioned n v).spdmRsp n code l).out = s.out ++ [.spdm n code l] ∧ ((s.provisioned n v).spdmRsp n code l).mem = s.mem :=
  by simp [State.provisioned, State.spdmRsp, State.emit, State.wfs, provisionFields]

end

/-! ## Requests to the flash, and the keys of the link (R429, R467, R468, R471) -/

section
variable {s : State} {i : Nat}

theorem bit_eq_one_iff {b : Bool} : bit b = 1 ↔ b = true := by cases b <;> decide

/-- Whether a slot reads a schema, as CFG_COMMIT answers it (R471). -/
def slotAnswer (o : Option FwImage) (v : Nat) : Nat := (o.map fun m => bit (fwReads m v)).getD 0

theorem slotAnswer_le (o : Option FwImage) (v : Nat) : slotAnswer o v ≤ 1 := by
  cases o with
  | none => exact Nat.zero_le 1
  | some m => exact bit_le_one _

theorem slotAnswer_eq_one_iff {o : Option FwImage} {v : Nat} : slotAnswer o v = 1 ↔ ∃ m, o = some m ∧ fwReads m v = true := by
  cases o with
  | none => exact ⟨nofun, nofun⟩
  | some m => simp [slotAnswer, bit_eq_one_iff]

variable (hb : s.boot = .running ∨ s.boot = .maint)
include hb

/-- The responder of PF16 runs in both modes (R470). -/
theorem State.responds_16 : s.responds 16 := hb.imp_right fun h => ⟨h, rfl⟩

variable (hi : i < 2) (hs : (s.getSess (sessKey 16 i)).stage = 2)
include hi hs

theorem inSess_16_open {t : State} : inSess 16 i s t = .next t := inSess_open (by decide) (State.responds_16 hb) hs hi

theorem execFwCommit_eq (im : FwImage) : exec (.fwCommit i im) s = .next (
    let slot := 1 - s.flash.running
    let u := { s with flash := s.flash.setSlot slot (some im) }
    if im.sigOk = true ∧ s.fuse.svn ≤ im.svn ∧ im.schemaLo ≤ im.schemaHi then (u.flashEntry .boot (.boothdr slot)).spdmRsp 16 0x7E []
    else u.spdmErr 16 5) := by
  refine (inSess_16_open hb hi hs).trans (congrArg Host.Outcome.next ?_)
  simp only [State.bootable, Bool.and_eq_true, decide_eq_true_eq, and_assoc]

theorem execCfgCommit_refused {len : Nat} {r : CfgRecord}
    (h : 65216 < len ∨ s.flash.hasRoom .config (Payload.config r len).pages = false) :
    exec (.cfgCommit i len r) s = .next (s.spdmErr 16 5) := by
  refine (inSess_16_open hb hi hs).trans (congrArg Host.Outcome.next (if_pos ?_))
  simpa using h

theorem execCfgCommit_accepted {len : Nat} {r : CfgRecord} (hl : len ≤ 65216)
    (h : s.flash.hasRoom .config (Payload.config r len).pages = true) : exec (.cfgCommit i len r) s =
      .next ((s.flashEntry .config (.config r len)).spdmRsp 16 0x7E [slotAnswer s.flash.slotA r.schema, slotAnswer s.flash.slotB r.schema]) := by
  refine (inSess_16_open hb hi hs).trans (congrArg Host.Outcome.next ((if_neg (by simp [hl, h])).trans ?_))
  unfold slotAnswer
  cases s.flash.slotA <;> cases s.flash.slotB <;> rfl

theorem execIdeKmRequest_program : exec (.ideKmRequest i false) s = .next ((s.wf BDR_SEC.IDE 1).spdmRsp 16 0x7E []) :=
  inSess_16_open hb hi hs

theorem execIdeKmRequest_activate : exec (.ideKmRequest i true) s =
    .next (if s.rf BDR_SEC.IDE = 0 then s.spdmErr 16 4 else (s.wf BDR_SEC.IDE 2).spdmRsp 16 0x7E []) :=
  inSess_16_open hb hi hs

end
end Sys2Proof.Machine

open Sys2Proof Sys2Proof.Machine

/-- Settles O48: the session's guard and the conditions of each request in turn. -/
theorem tenancyFlashRequestsAndEntropy : Obligations.TenancyFlashRequestsAndEntropy := by
  unfold Obligations.TenancyFlashRequestsAndEntropy
  refine ⟨fun s n hn hb hs => ⟨fun hp => ⟨fun key => vendor_shut hn hb hs hp, fun v => vendor_shut hn hb hs hp, vendor_shut hn hb hs hp,
      execClaimProve_good hn hb hs hp, execClaimProve_bad hn hb hs hp⟩,
      fun hp => ⟨fun ok => vendor_shut hn hb hs hp, execClaim_accepted hn hb hs hp, execClaim_refused hn hb hs hp,
        fun v => ⟨execProvision_noEntropy hn hb hs hp, execProvision_state hn hb hs hp, fun hd hr hc hz =>
          ⟨execProvision_replayed hn hb hs hp hd hr hc hz, fun ha hf => ?_⟩⟩, execRelease_eq hn hb hs hp⟩⟩,
    fun s n key v ok hn hb hs => ⟨vendor_closed hn hb hs, vendor_closed hn hb hs, vendor_closed hn hb hs, vendor_closed hn hb hs⟩,
    fun s i hi hb hs => ⟨inSess_16_open hb hi hs, fun off data => inSess_16_open hb hi hs, execFwCommit_eq hb hi hs,
      fun len r => execCfgCommit_refused hb hi hs, fun len r hl hr => ⟨_, _, execCfgCommit_accepted hb hi hs hl hr, slotAnswer_le _ _,
        slotAnswer_le _ _, slotAnswer_eq_one_iff, slotAnswer_eq_one_iff⟩, fun region off len => inSess_16_open hb hi hs,
      execIdeKmRequest_program hb hi hs, execIdeKmRequest_activate hb hi hs⟩,
    fun s i im r hb hs a b c data act => ?_, fun s test => rfl, fun s => rfl⟩
  · obtain ⟨hkf, hka, hko, hkm⟩ := s.newJob_kept n v.job
    obtain ⟨hq, hm, hw⟩ := State.rf_provisioned (s := s.newJob n v.job) (n := n) (v := v) (by rw [hkf]; exact hf)
    obtain ⟨ha', ho, hmem⟩ := (s.newJob n v.job).provisioned_kept n v 0x7E []
    refine ⟨_, execProvision_accepted hn hb hs hp hd hr hc hz ha, fun hj => ?_, ha'.trans (by rw [hka]), hq, hm, hw,
      ho.trans (by rw [hko]), hmem.trans hkm⟩
    rw [State.newJob_same hj]
    rfl
  · have closed {t : State} : inSess 16 i s t = .next (s.spdmErr 16 4) := inSess_closed (by decide) (State.responds_16 hb) hs
    exact ⟨closed, closed, closed, closed, closed, closed⟩

end

section
namespace Sys2Proof.Machine

/-! ## The steps of a job: boundary, update phase and mirror copies (R345, R346, R349, R350, R355–R358) -/

section
variable {s : State} {p : Nat} (hp : p < 16)
include hp

section
variable (hr : s.runs p = true) (hd : s.stepDone p = true) (hi : (s.getStrata p).suspRun = false)

theorem execBoundaryBarrierEnter_ignored (h : s.runs p = false ∨ s.stepDone p = false ∨ (s.getStrata p).suspRun = true) :
    exec (.boundaryBarrierEnter p) s = .next s := by
  rw [exec_boundaryBarrierEnter, execBoundaryBarrierEnter, onPart_of_lt hp]
  exact congrArg _ (if_pos (by simpa using h))

include hr hd hi

theorem execBoundaryBarrierEnter_due : exec (.boundaryBarrierEnter p) s = .next (
    if (s.getStrata p).replay.isSome then s.jobBoundary p 2
    else if (s.getStrata p).phase = 7 ∧ (s.getAssay p).decided then
      (s.setStrata p { s.getStrata p with phase := 2 }).enterBarrier p 1 false
    else s) := by
  rw [exec_boundaryBarrierEnter, execBoundaryBarrierEnter, onPart_of_lt hp]
  exact congrArg _ (if_neg (by simp [hr, hd, hi]))

/-- The boundary of a replayed step is the partition's own (R362). -/
theorem execBoundaryBarrierEnter_replay (h : (s.getStrata p).replay ≠ none) :
    exec (.boundaryBarrierEnter p) s = .next (s.jobBoundary p 2) := by
  rw [execBoundaryBarrierEnter_due hp hr hd hi, if_pos (Option.isSome_iff_ne_none.mpr h)]

theorem execBoundaryBarrierEnter_enters (h : (s.getStrata p).replay = none) (h7 : (s.getStrata p).phase = 7)
    (hv : (s.getAssay p).decided = true) : exec (.boundaryBarrierEnter p) s =
      .next ((s.setStrata p { s.getStrata p with phase := 2 }).enterBarrier p 1 false) := by
  rw [execBoundaryBarrierEnter_due hp hr hd hi, if_neg (by rw [h]; decide), if_pos ⟨h7, hv⟩]

/-- The boundary waits for the mirror and the vote of the step before. -/
theorem execBoundaryBarrierEnter_waits (h : (s.getStrata p).replay = none)
    (hv : (s.getStrata p).phase ≠ 7 ∨ (s.getAssay p).decided = false) : exec (.boundaryBarrierEnter p) s = .next s := by
  rw [execBoundaryBarrierEnter_due hp hr hd hi, if_neg (by rw [h]; decide), if_neg]
  rintro ⟨h7, hd⟩
  simp [h7, hd] at hv

end

section
variable {c : Nat} {v : Word64} (hc : c < s.lcores p)
include hc

/-- A Flint's store to STR_UPD, and the bus error that it may draw (R349). -/
theorem execUpdateBegin_eq {t : State} {e : Bool} (h : s.updateBegin p c v = (t, e)) :
    exec (.updateBegin p c v) s = .next (t.busErrIf e p 0xFF000A000040) := by
  rw [exec_updateBegin, execUpdateBegin, onCore_of_lt hp hc, h]
  rfl

variable (hk : s.rf (PRT_CLK_EN.STR p) ≠ 0)

theorem execUpdateBegin_unclocked (h : s.rf (PRT_CLK_EN.STR p) = 0) :
    exec (.updateBegin p c v) s = .next (s.busErr p 0xFF000A000040) :=
  execUpdateBegin_eq hp hc (if_pos h)

include hk

theorem execUpdateBegin_unset (h : fieldOf v 0 0 = 0) : exec (.updateBegin p c v) s = .next s :=
  execUpdateBegin_eq hp hc ((if_neg hk).trans (if_pos h))

variable (hb : fieldOf v 0 0 ≠ 0)
include hb

theorem execUpdateBegin_refused (h : fieldOf v 8 1 = 255 ∨ (s.getFlint p c).upd = true) :
    exec (.updateBegin p c v) s = .next (s.busErr p 0xFF000A000040) :=
  execUpdateBegin_eq hp hc ((if_neg hk).trans ((if_neg hb).trans (if_pos h)))

/-- The first BEGIN of a step names the collective that decides it. -/
theorem execUpdateBegin_begins (hq : fieldOf v 8 1 ≠ 255) (hu : (s.getFlint p c).upd = false) :
    exec (.updateBegin p c v) s = .next (
      let u := s.setFlint p c { s.getFlint p c with upd := true }
      if (s.getStrata p).deciding = none then
        u.setStrata p { s.getStrata p with deciding := some (fieldOf v 8 1, fieldOf v 39 16) } else u) := by
  refine (execUpdateBegin_eq hp hc ((if_neg hk).trans ((if_neg hb).trans (if_neg ?_)))).trans ?_
  · rintro (h | h)
    · exact hq h
    · exact absurd (hu.symm.trans h) (by decide)
  · cases hx : (s.getStrata p).deciding <;> rfl

end

theorem execUpdateDecision_none (h : (s.getStrata p).deciding = none) : exec (.updateDecision p) s = .next s := by
  rw [exec_updateDecision, execUpdateDecision, onPart_of_lt hp]
  simp only [h]

section
variable {q sq : Nat} (h : (s.getStrata p).deciding = some (q, sq))
include h

theorem execUpdateDecision_some : exec (.updateDecision p) s = .next (
    if (s.getStrata p).decided = true ∨ (s.getStrata p).phase ≠ 7 ∨ (!seqCovers (s.rf (COL_Q_SEQ.DONE p q)) sq) = true then s
    else
      let u := (s.setStrata p { s.getStrata p with decided := true }).wf (STR_STATUS.SKIP p) (s.rf (STR_NF.FLAG p))
      (u.wf (STR_STATUS.PHASE p) 2).settleAll p (u.lcores p)) := by
  rw [exec_updateDecision, execUpdateDecision, onPart_of_lt hp]
  simp only [h]

theorem execUpdateDecision_decides (hd : (s.getStrata p).decided = false) (h7 : (s.getStrata p).phase = 7)
    (hs : seqCovers (s.rf (COL_Q_SEQ.DONE p q)) sq = true) : exec (.updateDecision p) s = .next (
      let u := (s.setStrata p { s.getStrata p with decided := true }).wf (STR_STATUS.SKIP p) (s.rf (STR_NF.FLAG p))
      (u.wf (STR_STATUS.PHASE p) 2).settleAll p (u.lcores p)) := by
  rw [execUpdateDecision_some hp h, if_neg (by simp [hd, h7, hs])]

theorem execUpdateDecision_waits (hw : (s.getStrata p).decided = true ∨ (s.getStrata p).phase ≠ 7 ∨
    seqCovers (s.rf (COL_Q_SEQ.DONE p q)) sq = false) : exec (.updateDecision p) s = .next s := by
  rw [execUpdateDecision_some hp h, if_pos (by simpa using hw)]

end

section
variable {ext : Nat}

/-- The blocks of an extent of the partition's state (R348). -/
def State.extentBlocks (s : State) (p ext : Nat) : List Nat := rangeBlocks (s.getStrata p).ranges (ext * 4096) 4096

theorem execExtentCopyDone_waits (h : (s.getStrata p).copying.contains ext = false ∨
    (s.extentBlocks p ext).any (s.interlocked p) = true) : exec (.extentCopyDone p ext) s = .next s := by
  rw [exec_extentCopyDone, execExtentCopyDone, onPart_of_lt hp]
  exact congrArg _ (if_pos (h.imp_left fun h => by rw [h]; rfl))

variable (hx : (s.getStrata p).copying.contains ext = true) (hb : (s.extentBlocks p ext).any (s.interlocked p) = false)
include hx hb

theorem execExtentCopyDone_due : exec (.extentCopyDone p ext) s =
    .next (match (s.extentBlocks p ext).find? (fun a => !s.blockOk p a) with
      | some a => s.checkFailRec p (strUnit p) a
      | none => s.copyExtent p ext) := by
  rw [exec_extentCopyDone, execExtentCopyDone, onPart_of_lt hp]
  refine congrArg _ (if_neg ?_)
  rintro (h | h)
  · rw [hx] at h
    exact absurd h (by decide)
  · exact absurd (hb.symm.trans h) (by decide)

theorem execExtentCopyDone_copies (hg : (s.extentBlocks p ext).find? (fun a => !s.blockOk p a) = none) :
    exec (.extentCopyDone p ext) s = .next (s.copyExtent p ext) := by
  rw [execExtentCopyDone_due hp hx hb, hg]

theorem execExtentCopyDone_bad {a : Nat} (hg : (s.extentBlocks p ext).find? (fun a => !s.blockOk p a) = some a) :
    exec (.extentCopyDone p ext) s = .next (s.checkFailRec p (strUnit p) a) := by
  rw [execExtentCopyDone_due hp hx hb, hg]

end

theorem execMirroredBarrierEnter_eq : exec (.mirroredBarrierEnter p) s =
    .next (if (s.getStrata p).phase = 5 ∧ s.copiesDone p = true ∧ (s.getStrata p).suspRun = false then
      (s.setStrata p { s.getStrata p with phase := 6 }).enterBarrier p 3 false else s) := by
  rw [exec_mirroredBarrierEnter, execMirroredBarrierEnter, onPart_of_lt hp]
  simp only [Bool.not_eq_true']

/-! ## Local replay (R362) -/

section
variable {idx sq : Nat}

theorem execLocalReplay_none (h : (s.getStrata p).replay = none) : exec (.localReplay p idx sq) s = .next s := by
  rw [exec_localReplay, execLocalReplay, onPart_of_lt hp]
  simp only [h]

/-- The messages that the step's slot holds for a context, in their order. -/
def Strata.recorded (x : Strata) (st idx : Nat) : List RingMsg := (x.slot (st % 2)).filter (fun m => m.idx == idx)

/-- The partition after the next recorded message of a context is taken. -/
def State.tookMsg (s : State) (p idx : Nat) : State :=
  s.setStrata p { s.getStrata p with taken := (s.getStrata p).taken.set 0 idx ((s.getStrata p).taken.get 0 idx + 1) }

/-- A recorded message comes where none is awaited: to the dispatch unit, or to its own addresses, which on a stream of windows the
next copy takes. -/
def State.replayFree (s : State) (p idx : Nat) (m : RingMsg) : State :=
  if (s.getCtx idx).kind = 2 then (s.tookMsg p idx).replayItem p idx m
  else
    let u := s.tookMsg p idx
    let as := blocksFrom m.addr m.blocks.length
    let v := if (s.getCtx idx).kind = 1 then u.setAux idx { u.getAux idx with fresh := (u.getAux idx).fresh ++ as } else u
    (v.placeBlocks p (as.zip (m.blocks.zip m.checks))).1

/-- A recorded message comes into the window of a copy: where in it, the blocks placed, and what is still to come. -/
def Posted.offset (w : Posted) (m : RingMsg) : Nat := w.blocks.idxOf (m.addr / 256)
def State.replayPlaced (s : State) (p idx : Nat) (m : RingMsg) (w : Posted) : State × Bool :=
  (s.tookMsg p idx).placeBlocks p
    ((((w.blocks.drop (w.offset m)).take m.blocks.length).map (· * 256)).zip (m.blocks.zip m.checks))
def Posted.toCome (w : Posted) (m : RingMsg) : List Nat :=
  w.left.filter (fun i => decide (i < w.offset m ∨ w.offset m + m.blocks.length ≤ i))

variable {st : Nat} (h : (s.getStrata p).replay = some st)
include h

theorem execLocalReplay_some : exec (.localReplay p idx sq) s = .next (
    match ((s.getStrata p).recorded st idx)[(s.getStrata p).taken.get 0 idx]? with
    | none => s.replayMismatch p idx sq 0
    | some m =>
      if m.seq ≠ sq then s.replayMismatch p idx sq m.seq
      else match (s.getAux idx).posted with
      | none => s.replayFree p idx m
      | some w =>
        let v := s.replayPlaced p idx m w
        if !v.2 then (v.1.closePosted idx).endCopies p stCHECKFAIL [(w.core, w.seq)]
        else if w.toCome m = [] then (v.1.endCopies p stOK [(w.core, w.seq)]).closePosted idx
        else v.1.setAux idx { v.1.getAux idx with posted := some { w with left := w.toCome m } }) := by
  rw [exec_localReplay, execLocalReplay, onPart_of_lt hp]
  dsimp only
  split
  next h0 => exact nomatch h0.symm.trans h
  next st0 h0 =>
    obtain rfl := Option.some.inj (h0.symm.trans h)
    rfl

theorem execLocalReplay_missing (hm : ((s.getStrata p).recorded st idx)[(s.getStrata p).taken.get 0 idx]? = none) :
    exec (.localReplay p idx sq) s = .next (s.replayMismatch p idx sq 0) := by
  rw [execLocalReplay_some hp h, hm]

variable {m : RingMsg} (hm : ((s.getStrata p).recorded st idx)[(s.getStrata p).taken.get 0 idx]? = some m)
include hm

theorem execLocalReplay_differs (hq : m.seq ≠ sq) : exec (.localReplay p idx sq) s = .next (s.replayMismatch p idx sq m.seq) := by
  rw [execLocalReplay_some hp h, hm]
  exact congrArg _ (if_pos hq)

variable (hq : m.seq = sq)
include hq

theorem execLocalReplay_free (hw : (s.getAux idx).posted = none) :
    exec (.localReplay p idx sq) s = .next (s.replayFree p idx m) := by
  rw [execLocalReplay_some hp h, hm, hw]
  exact congrArg _ (if_neg fun hc => hc hq)

variable {w : Posted} (hw : (s.getAux idx).posted = some w)
include hw

theorem execLocalReplay_unplaced (hv : (s.replayPlaced p idx m w).2 = false) : exec (.localReplay p idx sq) s =
    .next (((s.replayPlaced p idx m w).1.closePosted idx).endCopies p stCHECKFAIL [(w.core, w.seq)]) := by
  rw [execLocalReplay_some hp h, hm, hw]
  exact congrArg _ ((if_neg fun hc => hc hq).trans (if_pos (by rw [hv]; rfl)))

theorem execLocalReplay_fills (hv : (s.replayPlaced p idx m w).2 = true) (hl : w.toCome m = []) : exec (.localReplay p idx sq) s =
    .next (((s.replayPlaced p idx m w).1.endCopies p stOK [(w.core, w.seq)]).closePosted idx) := by
  rw [execLocalReplay_some hp h, hm, hw]
  exact congrArg _ ((if_neg fun hc => hc hq).trans ((if_neg (by rw [hv]; decide)).trans (if_pos hl)))

end

end

/-! ## Mirror pulls (R365, R366) -/

section
variable {s : State} {p : Nat} {h : List Byte} {bs : List (List Byte)} {cs : List Word32}

/-- A pulled mirror is due after the admission to a restarted job, before any round (R366). -/
def State.pullDue (s : State) (p : Nat) : Prop := s.runs p = true ∧ (s.getStrata p).restart = true ∧ s.roundsOpen p = false

theorem State.not_early_of_pullDue (hd : s.pullDue p) : ¬ ((!s.runs p) = true ∨ (!(s.getStrata p).restart) = true ∨ s.roundsOpen p = true) := by
  obtain ⟨hr, hs, ho⟩ := hd
  simp [hr, hs, ho]

/-- The partition with its mirror's state: blocks, step and counters (R366). -/
def State.pulled (s : State) (p : Nat) (h : List Byte) (bs : List (List Byte)) (cs : List Word32) : State :=
  let u := ((s.placeBlocks p ((s.stateBlocks p).zip (bs.zip cs))).1).putCounters p (hdrField h 0 8) (hdrField h 16 8) (hdrField h 24 4)
    (hdrField h 32 8)
  u.setStrata p { u.getStrata p with clean := [], reports := [], restart := false }

variable (hp : p < 16)
include hp

theorem execMirrorPullDone_early (hd : ¬ s.pullDue p) : exec (.mirrorPullDone p h bs cs) s = .next s := by
  rw [exec_mirrorPullDone, execMirrorPullDone, onPart_of_lt hp]
  refine congrArg _ (if_pos ?_)
  simpa [State.pullDue, imp_iff_or_not, or_comm, or_assoc, or_left_comm] using hd

variable (hd : s.pullDue p)
include hd

theorem execMirrorPullDone_torn (hb : hdrField h 8 1 ≠ 2 ∨ hdrField h 12 4 ≠ (s.stateBlocks p).length ∨
    bs.length ≠ (s.stateBlocks p).length) : exec (.mirrorPullDone p h bs cs) s = .next ((s.raise
      { unit := strUnit p, cls := .fatal, code := 0x71, part := some p, synd := [(hdrField h 0 8, 8), (2 ^ p, 2)] }).startWave p 1
        (strUnit p)) := by
  rw [exec_mirrorPullDone, execMirrorPullDone, onPart_of_lt hp]
  exact congrArg _ ((if_neg (State.not_early_of_pullDue hd)).trans (if_pos hb))

variable (h2 : hdrField h 8 1 = 2) (hn : hdrField h 12 4 = (s.stateBlocks p).length) (hl : bs.length = (s.stateBlocks p).length)
include h2 hn hl

theorem execMirrorPullDone_whole : exec (.mirrorPullDone p h bs cs) s = .next (
    let v := s.pulled p h bs cs
    if bitOf (v.getAssay p).redo (v.rf (ASY_VCFG.OWN p)) then
      ((v.setStrata p { v.getStrata p with replay := some (hdrField h 0 8 + 1), taken := [] }).wf (STR_STATUS.PHASE p) 3).runFlints p
    else (((v.swapTables p).swapRoutes p).release p).wf (STR_STATUS.PHASE p) 1) := by
  rw [exec_mirrorPullDone, execMirrorPullDone, onPart_of_lt hp]
  exact congrArg _ ((if_neg (State.not_early_of_pullDue hd)).trans (if_neg (by simp [h2, hn, hl])))

/-- A partition whose tag was outvoted replays the step after its mirror's (R362). -/
theorem execMirrorPullDone_replays (hr : bitOf ((s.pulled p h bs cs).getAssay p).redo ((s.pulled p h bs cs).rf (ASY_VCFG.OWN p)) = true) :
    exec (.mirrorPullDone p h bs cs) s = .next (((((s.pulled p h bs cs).setStrata p
      { (s.pulled p h bs cs).getStrata p with replay := some (hdrField h 0 8 + 1), taken := [] }).wf (STR_STATUS.PHASE p) 3)).runFlints p) := by
  rw [execMirrorPullDone_whole hp hd h2 hn hl]
  exact congrArg _ (if_pos hr)

/-- The others run on: the restart is a boundary for their tables (R366). -/
theorem execMirrorPullDone_runsOn (hr : bitOf ((s.pulled p h bs cs).getAssay p).redo ((s.pulled p h bs cs).rf (ASY_VCFG.OWN p)) = false) :
    exec (.mirrorPullDone p h bs cs) s = .next (((((s.pulled p h bs cs).swapTables p).swapRoutes p).release p).wf (STR_STATUS.PHASE p) 1) := by
  rw [execMirrorPullDone_whole hp hd h2 hn hl]
  exact congrArg _ (if_neg (by rw [hr]; decide))

end
end Sys2Proof.Machine

open Sys2Proof Sys2Proof.Machine

/-- Settles O44, command by command, along the guards of each. -/
theorem strataStepsMirrorsAndReplays : Obligations.StrataStepsMirrorsAndReplays := by
  unfold Obligations.StrataStepsMirrorsAndReplays
  refine ⟨fun s p hp => ⟨execBoundaryBarrierEnter_ignored hp, fun hr hd hi => ⟨execBoundaryBarrierEnter_replay hp hr hd hi,
      execBoundaryBarrierEnter_enters hp hr hd hi, execBoundaryBarrierEnter_waits hp hr hd hi⟩⟩,
    fun s p c v hp hc => ⟨execUpdateBegin_unclocked hp hc, execUpdateBegin_unset hp hc, execUpdateBegin_refused hp hc,
      execUpdateBegin_begins hp hc⟩,
    fun s p q sq hp h => ⟨execUpdateDecision_decides hp h, execUpdateDecision_waits hp h⟩, fun s p hp => execUpdateDecision_none hp,
    fun s p ext hp => ⟨execExtentCopyDone_waits hp, execExtentCopyDone_copies hp, fun a hx hb => execExtentCopyDone_bad hp hx hb⟩,
    fun s p hp => execMirroredBarrierEnter_eq hp,
    fun s p idx sq st hp h => ⟨execLocalReplay_missing hp h, fun m hm => execLocalReplay_differs hp h hm,
      fun m hm hq => execLocalReplay_free hp h hm hq, fun m w hm hq hw => ⟨execLocalReplay_unplaced hp h hm hq hw,
        execLocalReplay_fills hp h hm hq hw⟩⟩,
    fun s p idx sq hp => execLocalReplay_none hp,
    fun s p h bs cs hp => ⟨execMirrorPullDone_early hp, execMirrorPullDone_torn hp, fun hd h2 hn hl =>
      ⟨execMirrorPullDone_replays hp hd h2 hn hl, execMirrorPullDone_runsOn hp hd h2 hn hl⟩⟩⟩

end

section
namespace Sys2Proof.Machine

/-! ## Step snapshots (R369–R372) -/

section
variable {s : State} {p : Nat}

/-- Whether a block of the held mirror is being written (R195). -/
def State.mirrorBusy (s : State) (p : Nat) : Bool :=
  (blocksFrom (s.rf (STR_MHELD.BASE p)) (1 + s.rf (STR_MHELD_LEN.BLOCKS p))).any (s.interlocked p)

/-- The blocks of the snapshot's state, whether it is written once only, and whether this partition writes them (R371). -/
def State.snapBody (s : State) (p : Nat) : List (List Byte × Word32) := s.snapFrom p (s.rf (STR_CFG.NARROW p) == 1) 0 (s.getStrata p).tsl
def State.snapOnce (s : State) (p : Nat) : Bool := s.onceOnly p (s.snapBody p).length
def State.snapFull (s : State) (p : Nat) : Bool :=
  !s.snapOnce p || s.rf (STR_STEP.STEP p) % s.rf (ASY_VCFG.REPL p) == s.rf (ASY_VCFG.OWN p)

/-- A snapshot under way (R369). -/
def State.snapBegun (s : State) (p : Nat) : State :=
  ((((s.setStrata p { s.getStrata p with snapDue := false, snapRun := true, ckptStat := stOK }).wf (STR_CKPT_STATUS.BUSY p) 1).wf
    (STR_CKPT_STATUS.ONCE p) (bit (s.snapOnce p))).wf (STR_CKPT_STATUS.WROTE p) (bit (s.snapFull p))).wf (STR_CKPT_STATUS.STEP p)
    (s.rf (STR_STEP.STEP p))

/-- The header block of a snapshot, from that of the held mirror (R372; log entries 24, 25). -/
def State.snapHeader (s : State) (p : Nat) : List Byte :=
  let u := s.snapBegun p
  let hb := u.bytes (memKey p (u.rf (STR_MHELD.BASE p))) 96
  { u with freeCtr := u.freeCtr + 1 }.ckptHeader p
    { kind := 0, flags := bit (s.rf (STR_CFG.NARROW p) == 1) + 2 * bit (!s.snapFull p), step := s.rf (STR_STEP.STEP p)
      rank := (Config.freeValue u.freeCtr).toNat % 2 ^ 22
      writer := if s.snapOnce p then s.rf (STR_STEP.STEP p) % s.rf (ASY_VCFG.REPL p) else s.rf (ASY_VCFG.OWN p)
      utag := hb.drop 64, ndet := hdrField hb 16 8, lscale := hdrField hb 24 4, skips := hdrField hb 32 8
      nblk := if s.snapFull p then (s.snapBody p).length else 0 }

/-- The blocks that a snapshot reads: of the whole mirror, or its header alone; and the first of them that cannot be read. -/
def State.snapBad (s : State) (p : Nat) : Option Nat :=
  let u := s.snapBegun p
  (if s.snapFull p = true then blocksFrom (u.rf (STR_MHELD.BASE p)) (1 + u.rf (STR_MHELD_LEN.BLOCKS p))
    else [u.rf (STR_MHELD.BASE p)]).find? (fun a => !u.goodBlock p a)

theorem State.snapMirrored (hm : (s.snapBegun p).holdsMirror p = true)
    (h2 : (s.snapBegun p).rf (STR_STATUS.HELD p) = 2) : ¬ ((!(s.snapBegun p).holdsMirror p) = true ∨ (s.snapBegun p).rf (STR_STATUS.HELD p) ≠ 2) := by
  rw [hm]
  exact fun h => h.elim (by decide) fun h => h h2

variable (hp : p < 16)
include hp

section
variable {a : Agent} (ha : a ≠ .pf16)
include ha

/-- A Flint or Bedrock reaches Strata's window while it is clocked (R369, R373). -/
theorem strAccess_unclocked {t : State} (h : s.rf (PRT_CLK_EN.STR p) = 0) :
    onPart p (s.strAccess a p 0x78 t) = .next (s.busErr p 0xFF000A000078) := by
  rw [onPart_of_lt hp, State.strAccess, if_neg ha, if_pos h]
  rfl

theorem strAccess_clocked {t : State} (h : s.rf (PRT_CLK_EN.STR p) ≠ 0) : onPart p (s.strAccess a p 0x78 t) = .next t := by
  rw [onPart_of_lt hp, State.strAccess, if_neg ha, if_neg h]

end

theorem execSnapshotStart_waits (h : (s.getStrata p).phase ≠ 7 ∨ (s.getStrata p).snapDue = false ∨ s.mirrorBusy p = true) :
    exec (.snapshotStart p) s = .next s := by
  rw [exec_snapshotStart, execSnapshotStart, onPart_of_lt hp]
  refine congrArg _ (if_pos (h.imp_right (Or.imp_left fun h => ?_)))
  rw [h]
  rfl

section
variable (h7 : (s.getStrata p).phase = 7) (hd : (s.getStrata p).snapDue = true) (hb : s.mirrorBusy p = false)
include h7 hd hb

/-- A snapshot that starts ends at once where mirror, handle or a block fails; else its messages are queued (R369–R372). -/
theorem execSnapshotStart_starts : exec (.snapshotStart p) s = .next (
    let u := s.snapBegun p
    if (!u.holdsMirror p) = true ∨ u.rf (STR_STATUS.HELD p) ≠ 2 then u.snapEnd p stCHECKFAIL
    else if (!u.handleOk p (u.rf (STR_CKPT_EP.HELD p))) = true then u.snapEnd p stSTALE
    else match s.snapBad p with
      | some a => (u.checkFailRec p (strUnit p) a).snapEnd p stCHECKFAIL
      | none => { u with freeCtr := u.freeCtr + 1 }.queueTx (u.rf (STR_CKPT_EP.HELD p) % 2 ^ 18)
          (streamMsgs ((s.snapHeader p, checkWord (s.snapHeader p)) :: (if s.snapFull p then s.snapBody p else [])))) := by
  rw [exec_snapshotStart, execSnapshotStart, onPart_of_lt hp]
  refine congrArg _ ((if_neg ?_).trans rfl)
  rintro (h | h | h)
  · exact h h7
  · rw [hd] at h
    exact absurd h (by decide)
  · exact absurd (hb.symm.trans h) (by decide)

theorem execSnapshotStart_unmirrored (h : (s.snapBegun p).holdsMirror p = false ∨ (s.snapBegun p).rf (STR_STATUS.HELD p) ≠ 2) :
    exec (.snapshotStart p) s = .next ((s.snapBegun p).snapEnd p 3) := by
  rw [execSnapshotStart_starts hp h7 hd hb]
  exact congrArg _ (if_pos (h.imp_left fun h => by rw [h]; rfl))

variable (hm : (s.snapBegun p).holdsMirror p = true) (h2 : (s.snapBegun p).rf (STR_STATUS.HELD p) = 2)
include hm h2

theorem execSnapshotStart_stale (h : (s.snapBegun p).handleOk p ((s.snapBegun p).rf (STR_CKPT_EP.HELD p)) = false) :
    exec (.snapshotStart p) s = .next ((s.snapBegun p).snapEnd p 1) := by
  rw [execSnapshotStart_starts hp h7 hd hb]
  exact congrArg _ ((if_neg (State.snapMirrored hm h2)).trans (if_pos (by rw [h]; rfl)))

variable (he : (s.snapBegun p).handleOk p ((s.snapBegun p).rf (STR_CKPT_EP.HELD p)) = true)
include he

theorem execSnapshotStart_bad {a : Nat} (h : s.snapBad p = some a) :
    exec (.snapshotStart p) s = .next (((s.snapBegun p).checkFailRec p (strUnit p) a).snapEnd p 3) := by
  rw [execSnapshotStart_starts hp h7 hd hb, h]
  exact congrArg _ ((if_neg (State.snapMirrored hm h2)).trans (if_neg (by rw [he]; decide)))

theorem execSnapshotStart_queues (h : s.snapBad p = none) : exec (.snapshotStart p) s =
    .next ({ s.snapBegun p with freeCtr := (s.snapBegun p).freeCtr + 1 }.queueTx ((s.snapBegun p).rf (STR_CKPT_EP.HELD p) % 2 ^ 18)
      (streamMsgs ((s.snapHeader p, checkWord (s.snapHeader p)) :: (if s.snapFull p = true then s.snapBody p else [])))) := by
  rw [execSnapshotStart_starts hp h7 hd hb, h]
  exact congrArg _ ((if_neg (State.snapMirrored hm h2)).trans (if_neg (by rw [he]; decide)))

end

theorem execSnapshotDone_eq : exec (.snapshotDone p) s = .next (
    let i := s.rf (STR_CKPT_EP.HELD p) % 2 ^ 18
    let x := s.getStrata p
    if x.snapRun = true ∧ (x.ckptStat ≠ stOK ∨ ((s.getAux i).txq = [] ∧ (s.getAux i).unacked = [])) then s.snapEnd p x.ckptStat else s) := by
  rw [exec_snapshotDone, execSnapshotDone, onPart_of_lt hp]

/-! ## Suspend images (R373) -/

/-- What an image's beginning leaves: the request is taken, and every Flint stops. -/
def State.imageBegun (s : State) (p : Nat) : State :=
  let u := ((s.setStrata p { s.getStrata p with suspReq := false, suspRun := true, ckptStat := stOK }).wf (STR_CKPT_STATUS.BUSY p) 1).wf
    (STR_STATUS.PHASE p) 4
  (List.range (u.lcores p)).foldl (fun s c => s.holdFlint p c) u

theorem execSuspendImageStart_eq : exec (.suspendImageStart p) s = .next (
    if (s.getStrata p).suspReq = true ∧ (s.getStrata p).phase = 7 ∧ s.runs p = true ∧ (s.getStrata p).snapRun = false then s.imageBegun p
    else s) := by
  rw [exec_suspendImageStart, execSuspendImageStart, onPart_of_lt hp]
  by_cases h : (s.getStrata p).suspReq = true ∧ (s.getStrata p).phase = 7 ∧ s.runs p = true ∧ (s.getStrata p).snapRun = false
  · rw [if_pos h]
    obtain ⟨hq, h7, hr, hn⟩ := h
    exact congrArg _ (if_neg (by simp [hq, h7, hr, hn]))
  · rw [if_neg h]
    refine congrArg _ (if_pos ?_)
    simpa [or_iff_not_imp_left] using h

theorem execSuspendImageDone_waits (h : (s.getStrata p).suspRun = false ∨ s.imageReady p = false) :
    exec (.suspendImageDone p) s = .next s := by
  rw [exec_suspendImageDone, execSuspendImageDone, onPart_of_lt hp]
  exact congrArg _ (if_pos (by simpa using h))

/-- A partition whose image is taken goes on from where it was. -/
def State.imageOver (s : State) (p : Nat) : State :=
  let x := s.getStrata p
  { (s.setStrata p { x with suspRun := false, suspStop := false, ckptStat := stOK }).wf (STR_STATUS.PHASE p)
      (if x.replay.isSome then 3 else if x.decided then 2 else 1) with freeCtr := s.freeCtr + 1 }

/-- The header of the stored image, whose NBLK is open (log entry 24). -/
def State.storedHeader (s : State) (p : Nat) : List Byte :=
  ((s.imageOver p).imageHeader p).take 184 ++ leBytes 8 (Config.freeValue s.freeCtr).toNat ++ List.replicate 64 0#8

/-- The image is stored under the partition, and told of. -/
def State.imageKept (s : State) (p : Nat) : State :=
  let u := s.imageOver p
  { u with images := u.images.set none p (some (u.takeImage p (s.storedHeader p))) }.emit
    (.image p (u.rf (STR_STEP.STEP p)) (s.storedHeader p))

/-- Its outcome shows. -/
def State.imageStored (s : State) (p : Nat) : State :=
  ((s.imageKept p).wf (STR_CKPT_STATUS.BUSY p) 0).wf (STR_CKPT_STATUS.STAT p) (s.getStrata p).ckptStat

section
variable (hr : (s.getStrata p).suspRun = true) (hi : s.imageReady p = true)
include hr hi

theorem execSuspendImageDone_done : exec (.suspendImageDone p) s = .next (
    if (s.getStrata p).suspStop then (((s.imageStored p).stopPartition p).wf (PRT_STATE.STATE p) psREADY).wf (MOV_RANK.VALID p) 0
    else s.imageStored p) := by
  rw [exec_suspendImageDone, execSuspendImageDone, onPart_of_lt hp]
  exact congrArg _ ((if_neg (by simp [hr, hi])).trans rfl)

theorem execSuspendImageDone_goesOn (h : (s.getStrata p).suspStop = false) :
    exec (.suspendImageDone p) s = .next (s.imageStored p) := by
  rw [execSuspendImageDone_done hp hr hi, if_neg (by rw [h]; decide)]

theorem execSuspendImageDone_stops (h : (s.getStrata p).suspStop = true) : exec (.suspendImageDone p) s =
    .next ((((s.imageStored p).stopPartition p).wf (PRT_STATE.STATE p) psREADY).wf (MOV_RANK.VALID p) 0) := by
  rw [execSuspendImageDone_done hp hr hi, if_pos h]

end
end

section
variable {s : State} {p : Nat}

/-- The register file stays in order while an image is taken. -/
theorem State.sorted_imageOver (h : Tbl.sortedFrom 0 s.flds = true) : Tbl.sortedFrom 0 (s.imageOver p).flds = true :=
  State.sorted_wf _ _ h

theorem State.rf_step_imageOver (h : Tbl.sortedFrom 0 s.flds = true) : (s.imageOver p).rf (STR_STEP.STEP p) = s.rf (STR_STEP.STEP p) := by
  refine State.rf_wf_ne (s := s) _ h ?_
  simp only [Fld.cell, STR_STEP.STEP, STR_STEP.key, STR_STATUS.PHASE, STR_STATUS.key, regKey]
  omega

theorem State.sorted_imageKept (h : Tbl.sortedFrom 0 s.flds = true) : Tbl.sortedFrom 0 (s.imageKept p).flds = true :=
  State.sorted_imageOver h

theorem State.rf_busy_imageStored (h : Tbl.sortedFrom 0 s.flds = true) : (s.imageStored p).rf (STR_CKPT_STATUS.BUSY p) = 0 := by
  have hk := State.sorted_imageKept (p := p) h
  have hc : (STR_CKPT_STATUS.BUSY p).cell ≠ (STR_CKPT_STATUS.STAT p).cell := by
    simp only [Fld.cell, STR_CKPT_STATUS.BUSY, STR_CKPT_STATUS.STAT]
    omega
  rw [State.imageStored, State.rf_wf_ne _ (State.sorted_wf _ _ hk) hc, State.rf_wf_same _ _ hk, Nat.zero_mod]

theorem State.rf_stat_imageStored (h : Tbl.sortedFrom 0 s.flds = true) :
    (s.imageStored p).rf (STR_CKPT_STATUS.STAT p) = (s.getStrata p).ckptStat % 8 :=
  State.rf_wf_same _ _ (State.sorted_wf _ _ (State.sorted_imageKept h))

/-- What is stored, what tells of it, and what stays. -/
theorem State.images_imageStored (h : Tbl.sortedFrom 0 s.images = true) :
    (s.imageStored p).images.get none p = some ((s.imageOver p).takeImage p (s.storedHeader p)) := Tbl.get_set_same _ _ h

theorem State.out_imageStored (s : State) (p : Nat) :
    (s.imageStored p).out = s.out ++ [.image p ((s.imageOver p).rf (STR_STEP.STEP p)) (s.storedHeader p)] := by
  rw [State.imageStored, State.wf_out, State.wf_out, State.imageKept]
  rfl

/-- `t` is `s` but for register fields, Strata's state, images, output and the counter of free values. -/
def State.ImageFrame (s t : State) : Prop :=
  t = { s with flds := t.flds, strata := t.strata, images := t.images, out := t.out, freeCtr := t.freeCtr }

theorem State.ImageFrame.refl (s : State) : s.ImageFrame s := rfl

section
variable {t : State} (h : s.ImageFrame t)
include h

theorem State.ImageFrame.wf (f : Fld) (v : Nat) : s.ImageFrame (t.wf f v) :=
  congrArg (fun u : State => u.wf f v) h

theorem State.ImageFrame.setStrata (x : Strata) : s.ImageFrame (t.setStrata p x) :=
  congrArg (fun u : State => u.setStrata p x) h

theorem State.ImageFrame.drawn : s.ImageFrame { t with freeCtr := t.freeCtr + 1 } :=
  congrArg (fun u : State => ({ u with freeCtr := t.freeCtr + 1 } : State)) h

theorem State.ImageFrame.kept (x : Tbl (Option PartImage)) : s.ImageFrame { t with images := x } :=
  congrArg (fun u : State => ({ u with images := x } : State)) h

theorem State.ImageFrame.emit (o : Out) : s.ImageFrame (t.emit o) :=
  congrArg (fun u : State => u.emit o) h

end

theorem State.imageStored_frame (s : State) (p : Nat) : s.ImageFrame (s.imageStored p) :=
  ((((((State.ImageFrame.refl s).setStrata _).wf _ _).drawn.kept _).emit _).wf _ _).wf _ _

theorem State.freeCtr_imageStored (s : State) (p : Nat) : (s.imageStored p).freeCtr = s.freeCtr + 1 := rfl

theorem State.header_takeImage (s : State) (p : Nat) (h : List Byte) : (s.takeImage p h).header = h := rfl

theorem State.mem_takeImage (s : State) (p : Nat) (h : List Byte) : (s.takeImage p h).mem = s.mem.filter (fun e => e.1 / 2 ^ 48 == p) := rfl

theorem State.mem_imageOver (s : State) (p : Nat) : (s.imageOver p).mem = s.mem := rfl

theorem State.Keeps.imageStored {t : State} (h : s.Keeps t) : s.Keeps (t.imageStored p) :=
  h.setStrata.wf.drawn.upd.emit.wf.wf

/-- The facts of a stored image together (R373). -/
theorem State.stored_facts (him : Tbl.sortedFrom 0 s.images = true) (hf : Tbl.sortedFrom 0 s.flds = true) :
    let t := s.imageStored p
    let m := (s.imageOver p).takeImage p (s.storedHeader p)
    t.images.get none p = some m ∧ m.header = s.storedHeader p ∧ t.rf (STR_CKPT_STATUS.BUSY p) = 0 ∧
      t.rf (STR_CKPT_STATUS.STAT p) = (s.getStrata p).ckptStat % 8 ∧
      t.out = s.out ++ [.image p (s.rf (STR_STEP.STEP p)) (s.storedHeader p)] ∧ m.mem = s.mem.filter (fun e => e.1 / 2 ^ 48 == p) ∧
      t = { s with flds := t.flds, strata := t.strata, images := t.images, out := t.out, freeCtr := s.freeCtr + 1 } := by
  refine ⟨State.images_imageStored him, State.header_takeImage _ _ _, State.rf_busy_imageStored hf, State.rf_stat_imageStored hf, ?_, ?_, ?_⟩
  · rw [State.out_imageStored, State.rf_step_imageOver hf]
  · rw [State.mem_takeImage, State.mem_imageOver]
  · rw [← State.freeCtr_imageStored s p]
    exact State.imageStored_frame s p

/-- A partition that an image stops is READY, and its rank is gone. -/
theorem State.rf_imageStopped (h : s.Inv) :
    let t := (((s.imageStored p).stopPartition p).wf (PRT_STATE.STATE p) psREADY).wf (MOV_RANK.VALID p) 0
    t.rf (PRT_STATE.STATE p) = 3 ∧ t.rf (MOV_RANK.VALID p) = 0 := by
  have hs : Tbl.sortedFrom 0 ((s.imageStored p).stopPartition p).flds = true := ((State.Keeps.refl s).imageStored.stopPartition.inv h).2
  refine ⟨(State.rf_wf_ne 0 (State.sorted_wf _ _ hs) ?_).trans (State.rf_wf_same (PRT_STATE.STATE p) psREADY hs),
    State.rf_wf_same (MOV_RANK.VALID p) 0 (State.sorted_wf _ _ hs)⟩
  simp only [Fld.cell, PRT_STATE.STATE, PRT_STATE.key, MOV_RANK.VALID, MOV_RANK.key, regKey]
  omega

end

/-! ## Restores (R330, R364, R374, R427) -/

section
variable {s : State} {p : Nat} {im : Bool} {h w : List Byte} {bs : List (List Byte)} {cs : List Word32} (hp : p < 16)
include hp

theorem execRestore_stopped {tag : Bool} (hr : s.runs p = false) : exec (.restore p im h w bs cs tag) s = .next s := by
  rw [exec_restore, execRestore, onPart_of_lt hp]
  exact congrArg _ (if_pos (by rw [hr]; rfl))

variable (hr : s.runs p = true)
include hr

/-- The tags of the messages come first (log entry 52). -/
theorem execRestore_untagged : exec (.restore p im h w bs cs false) s = .next ((s.raise
    { unit := s.transportUnit, cls := .perm, code := 0x68, part := some p, handle := s.rf (STR_CKPT_EP.OWN p)
      epoch := (s.getCtx (s.rf (STR_CKPT_EP.OWN p) % 2 ^ 18)).epoch, synd := [(0, 2), (0, 1), (0, 1)] }).restoreEnd p 3) := by
  rw [exec_restore, execRestore, onPart_of_lt hp]
  exact congrArg _ ((if_neg (by rw [hr]; decide)).trans (if_pos rfl))

/-- Then the shape, then every block, and then the state. -/
theorem execRestore_tagged : exec (.restore p im h w bs cs true) s = .next (match s.restoreMismatch p im h w with
    | some o => (s.raise { unit := strUnit p, cls := .perm, code := 0x76, part := some p, synd := [(o, 1)] }).restoreEnd p 3
    | none => match (bs.zip cs).findIdx? (fun e => checkWord e.1 != e.2) with
      | some i =>
        let e := (bs.zip cs).getD i ([], 0#32)
        ((((s.restoreEnd p 3).raise { unit := strUnit p, cls := .fatal, code := 0x73, part := some p
                                      synd := [(i, 6), ((checkWord e.1).toNat, 4), (e.2.toNat, 4)] }).startWave p 1
          (strUnit p)).resetRequest p 1)
      | none =>
        if im then match s.images.get none p with
          | some m => if m.header = h then (s.putImage p m).restoreEnd p 0 else s
          | none => s
        else s.putSnapshot p h w (bs.zip cs)) := by
  rw [exec_restore, execRestore, onPart_of_lt hp]
  exact congrArg _ ((if_neg (by rw [hr]; decide)).trans (if_neg (by decide)))

theorem execRestore_misshapen {o : Nat} (ho : s.restoreMismatch p im h w = some o) : exec (.restore p im h w bs cs true) s = .next
    ((s.raise { unit := strUnit p, cls := .perm, code := 0x76, part := some p, synd := [(o, 1)] }).restoreEnd p 3) := by
  rw [execRestore_tagged hp hr, ho]

variable (ho : s.restoreMismatch p im h w = none)
include ho

theorem execRestore_bad {i : Nat} (hi : (bs.zip cs).findIdx? (fun e => checkWord e.1 != e.2) = some i) :
    exec (.restore p im h w bs cs true) s = .next (
      let e := (bs.zip cs).getD i ([], 0#32)
      ((((s.restoreEnd p 3).raise { unit := strUnit p, cls := .fatal, code := 0x73, part := some p
                                    synd := [(i, 6), ((checkWord e.1).toNat, 4), (e.2.toNat, 4)] }).startWave p 1
        (strUnit p)).resetRequest p 1)) := by
  rw [execRestore_tagged hp hr, ho, hi]

variable (hb : (bs.zip cs).findIdx? (fun e => checkWord e.1 != e.2) = none)
include hb

theorem execRestore_snapshot (hm : im = false) : exec (.restore p im h w bs cs true) s = .next (s.putSnapshot p h w (bs.zip cs)) := by
  rw [execRestore_tagged hp hr, ho, hb]
  exact congrArg _ (if_neg (by rw [hm]; decide))

theorem execRestore_image {m : PartImage} (hm : im = true) (hg : s.images.get none p = some m) (hh : m.header = h) :
    exec (.restore p im h w bs cs true) s = .next ((s.putImage p m).restoreEnd p 0) := by
  rw [execRestore_tagged hp hr, ho, hb, hg]
  exact congrArg _ ((if_pos hm).trans (if_pos hh))

end
end Sys2Proof.Machine

open Sys2Proof Sys2Proof.Machine

/-- Settles O45: the guards of each command, and the stored image's own fields. -/
theorem snapshotsImagesAndRestores : Obligations.SnapshotsImagesAndRestores := by
  unfold Obligations.SnapshotsImagesAndRestores
  refine ⟨fun s a p stop hp ha => ⟨fun h => ⟨strAccess_unclocked hp ha h, strAccess_unclocked hp ha h⟩,
      fun h => ⟨strAccess_clocked hp ha h, strAccess_clocked hp ha h⟩⟩, fun s p hp => execSnapshotStart_waits hp,
    fun s p hp h7 hd hb => ⟨execSnapshotStart_unmirrored hp h7 hd hb, execSnapshotStart_stale hp h7 hd hb, fun hm h2 he =>
      ⟨fun a => execSnapshotStart_bad hp h7 hd hb hm h2 he, fun h => ⟨_, execSnapshotStart_queues hp h7 hd hb hm h2 he h⟩⟩⟩,
    fun s p hp => execSnapshotDone_eq hp, fun s p hp => execSuspendImageStart_eq hp, fun s p hp => execSuspendImageDone_waits hp,
    fun s p hp hr hi hst him hf => ⟨s.imageStored p, s.storedHeader p, _, execSuspendImageDone_goesOn hp hr hi hst,
      State.stored_facts him hf⟩,
    fun s p hp hr hi hst hinv => ⟨_, execSuspendImageDone_stops hp hr hi hst, State.rf_imageStopped hinv⟩,
    fun s p im tag h w bs cs hp => ⟨execRestore_stopped hp, fun hr => ⟨execRestore_untagged hp hr, fun o => execRestore_misshapen hp hr,
      fun i ho => execRestore_bad hp hr ho, fun ho hb => ⟨execRestore_snapshot hp hr ho hb, fun m => execRestore_image hp hr ho hb⟩⟩⟩⟩

end
